-- ==== Sys2Proof/Syntax.lean ====
section
/-! DEFINITION. The commands of the module: one constructor per row of the opcode table, with the operands that row's
rule gives it. What the outside world decides (a sensor reading, a frame's content, the outcome of an ECC check or of
a signature verification) is an operand. -/

namespace Sys2Proof

/-- A task: compute die, graph slot, task index (R110, R111). -/
structure TaskId where
  d : Nat
  g : Nat
  idx : Nat
  deriving DecidableEq, Repr

/-- Who makes a register access (R403). A Forge core is AGENT when AGENT_MASK holds its bit. -/
inductive Requester where
  | forge (core : Fin 16)
  | debug
  | task (t : TaskId)
  | bootRom
  deriving DecidableEq, Repr

/-- The unit a task is dispatched to (R116, R126): a logical core, or one of the die's engines. -/
inductive DispatchUnit where
  | core (c : Fin 32)
  | engine (t : TaskId)
  deriving DecidableEq, Repr

/-- The in-field tests of R134. -/
inductive TestKind where
  | knownAnswer
  | structural
  deriving DecidableEq, Repr

/-- What a test run found (R367): a known-answer check's failing columns and row fault, a structural test's four
domain signatures compared (bit set: the domain failed) with the first failing signature. -/
structure TestOutcome where
  failLo : Word
  failHi : Word
  rowFault : Bool
  domains : BitVec 4
  signature : Word
  deriving DecidableEq, Repr

/-- An ECC event at an accumulator entry (R96). -/
structure EntryEcc where
  entry : Nat
  uncorrectable : Bool
  deriving DecidableEq, Repr

/-- What the ECC of a 32-byte granule finds on a read (R180). -/
inductive Ecc where
  | clean
  | corrected
  | uncorrectable
  deriving DecidableEq, Repr

/-- The range-statistic slot, format and first element index a conversion-bearing request carries (R192). -/
structure ConvTag where
  slot : Nat
  fmt : Nat
  index0 : Nat
  deriving DecidableEq, Repr

/-- A write request to stack memory (R187, R192): consecutive bytes within one 64-byte line, with the epoch and
tensor of the writing task (none for a requester that is no task), where the writer names one its conversion, and the
32-byte granules of the line that carry the poison code (R180). -/
structure WriteReq where
  addr : Nat
  data : List Byte
  epoch : Option Nat
  tensor : Nat
  conv : Option ConvTag
  owner : Option TaskId
  poison : List Nat := []
  deriving DecidableEq, Repr

/-- The settings of a reduce-on-write context (R193, R213). -/
structure RowSetup where
  dst : Nat
  lenG : Nat
  fmt : Nat
  overwrite : Bool
  stochastic : Bool
  dig : Bool
  stat : Bool
  slot : Nat
  ncontrib : Nat
  tensor : Nat
  parkSlots : Nat
  park : Nat
  owner : TaskId
  deriving DecidableEq, Repr

/-- What the CRC check of a hop finds in a frame or flit (R215, R265). -/
inductive CrcState where
  | good
  | bad
  | stomped
  deriving DecidableEq, Repr

/-- A fabric frame as it arrives at a port (R261): the four header words, the payload, and what its CRC shows. -/
structure Frame where
  w0 : Word
  w1 : Word
  w2 : Word
  w3 : Word
  payload : List Byte
  crc : CrcState
  deriving DecidableEq, Repr

/-- A Braze flit (R215): its bundle sequence, edge sequence and payload. -/
structure Flit where
  bseq : BitVec 8
  eseq : BitVec 16
  payload : List Byte
  deriving DecidableEq, Repr

/-- One ring's lock-in output (heater power, 1/4096 mW) and detuning estimate at a loop update (R241). -/
structure RingReading where
  ring : Fin 294
  lockIn : BitVec 16
  detune : BitVec 16
  deriving DecidableEq, Repr

/-- A lane's calibration settings (R237, R238): the 64-entry predistortion table, the 15 feed-forward taps and the
decision-feedback tap. -/
structure LaneSet where
  table : List (BitVec 7) := []
  taps : List (BitVec 8) := []
  dfe : BitVec 8 := 0
  deriving DecidableEq, Repr

/-- One second's stage readings (R250): L by cartridge and line, S, M and R (this module's receive lanes) by port
and line, F by port, each signed, 0.01 dBm. -/
structure LossReadings where
  l : List (List (BitVec 16))
  s : List (List (BitVec 16))
  m : List (List (BitVec 16))
  f : List (BitVec 16)
  r : List (List (BitVec 16))
  deriving DecidableEq, Repr

/-- A record as a unit reports it (R370, R372): the event and severity, the unit and subunit, the physical core (die,
core), the epoch and task it names, its syndrome, and whether the spec calls it an alert. -/
structure Report where
  event : BitVec 16
  severity : BitVec 2
  unit : BitVec 13
  subunit : BitVec 16
  core : Option (Fin 4 × Fin 34)
  epoch : BitVec 32
  task : Option (Fin 16 × Fin 16 × BitVec 16)
  syndrome : BitVec 128
  alert : Bool
  deriving DecidableEq, Repr

/-- A lane that passed the start-up calibration (R258): port, lane, its settings and its margin. -/
structure LanePass where
  port : Fin 6
  lane : Fin 17
  settings : LaneSet
  margin : BitVec 16
  deriving DecidableEq, Repr

/-- A rail's averaged reading over a budget period (R474), in the units of PWR_RAIL, with whether it is good. -/
structure RailReading where
  volt : BitVec 16
  curr : BitVec 16
  power : BitVec 16
  good : Bool
  deriving DecidableEq, Repr

/-- A debug unlock token (R425): its body, whether its fixed bytes are right and whether its signature verifies under
the owner's debug key. -/
structure Token where
  scope : BitVec 16
  identity : BitVec 64
  nonce : BitVec 128
  lifetime : BitVec 32
  formOk : Bool
  signatureOk : Bool
  deriving DecidableEq, Repr

/-- The SPDM requests of R440. -/
inductive SpdmKind where
  | certificates | challenge | measurements
  deriving DecidableEq, Repr

/-- A signed object as its verification finds it (R434): its bytes other than signatures and SVN in order, each
signature, its SVN and key indices. -/
structure ImageCheck where
  formOk : Bool
  rsaOk : Bool
  slhOk : Bool
  svn : BitVec 32
  rsaKey : Fin 4
  slhKey : Fin 4
  deriving DecidableEq, Repr

/-- The fields of a profile (R443). `margining` is 0 refused, 1 allowed, 2 in SERVICE; `addr` and `collector` are the
bytes of MGMT_ADDR and COLLECTOR, empty for DHCP and none. -/
structure Profile where
  letter : Fin 4
  pLim : Nat
  dieCap : Nat
  ramp : Nat
  testEn : Bool
  pinEn : Bool
  origin : Word
  reserve : Nat
  agentMask : Nat
  service : Bool
  margining : Nat
  debugAll : Bool
  linkWait : Nat
  addr : List Byte
  collector : List Byte
  deriving DecidableEq, Repr

/-- The accepted owner record (R441). -/
structure Owner where
  version : BitVec 32
  allowD : Bool
  debugKey : Bool
  deriving DecidableEq, Repr

/-- What a start-up phase found (R445 to R447): in phase 3 the PUF, the owner record, whether counter 2 and the copies
show an unowned module, the selected profile where it verifies, and the light-layer baseline (R251, R430); in phase 6 the repair map
(physical core, logical core), factory column masks, and the field-repair record where its MAC verifies; in phase 9 the
operating-system images OS_A and OS_B as verified (R435); in phase 10
the cores whose known-answer check fails, with their failing columns. -/
structure PhaseResult where
  pufOk : Bool := true
  owner : Option Owner := none
  copiesEmpty : Bool := true
  profile : Option Profile := none
  spared : List (Fin 136 × Option (Fin 32)) := []
  factoryMask : List (Fin 136 × BitVec 128) := []
  fieldRepair : Option (List (Fin 136 × BitVec 128) × List (Fin 136)) := none
  osA : ImageCheck := ⟨false, false, false, 0, 0, 0⟩
  osB : ImageCheck := ⟨false, false, false, 0, 0, 0⟩
  failing : List (Fin 136 × BitVec 128) := []
  light : Option LossReadings := none
  deriving DecidableEq, Repr

/-- A result of the update unit that fails its residue check (R360): the stack, the element of the range, the micro-op of
the program (for the programs 0x01 and 0x03, op 0 is what w takes and op 1 what m takes), and the value it gave. -/
structure Residue where
  ms : Fin 12
  elem : Nat
  op : Nat
  value : BitVec 32
  deriving DecidableEq, Repr

/-- The commands, in the order of the opcode table. The operand `bad` of an arithmetic micro-op, and `faults` of a program
and of a contribution chunk, say which results the hardware gets wrong and which their residue check finds (R360): none,
where they are empty. -/
inductive Instr where
  | registerWrite (r : Requester) (a : Nat) (v : Word)
  | unmappedAccess (r : Requester) (a : Nat) (write : Bool) (v : Word)
  | submit (r : Requester) (d : Fin 4) (g : Fin 16) (start count : Nat)
  | retire (r : Requester) (d : Fin 4) (g : Fin 16)
  | validationStart (d : Fin 4)
  | validationEnd (d : Fin 4)
  | taskDispatch (d : Fin 4) (u : DispatchUnit)
  | taskComplete (t : TaskId)
  | cancel (r : Requester) (d : Fin 4) (region : Fin 256)
  | regionCancelDone (d : Fin 4) (region : Fin 256)
  | quantumOverrun (t : TaskId)
  | yieldPoint (t : TaskId)
  | testDue (d : Fin 4) (c : Fin 32) (k : TestKind)
  | kaGapExpiry (d : Fin 4) (c : Fin 32)
  | graceExpiry (d : Fin 4) (c : Fin 32)
  | testStart (d : Fin 4) (c : Fin 32)
  | testEnd (d : Fin 4) (c : Fin 34) (o : TestOutcome)
  | coreHold (r : Requester) (d : Fin 4) (mask : BitVec 32)
  | coreRelease (r : Requester) (d : Fin 4) (mask : BitVec 32)
  | matmul (t : TaskId)
  | shadowLoad (t : TaskId)
  | tileSwap (d : Fin 4) (c : Fin 34)
  | handOver (d : Fin 4) (c : Fin 34) (ecc : List EntryEcc)
  | vector (t : TaskId)
  | drainForward (t : TaskId) (ecc : List EntryEcc)
  | drainDerivative (t : TaskId) (ecc : List EntryEcc)
  | accPortStart (d : Fin 4) (c : Fin 34)
  | spill (t : TaskId) (ecc : List EntryEcc)
  | resume (t : TaskId)
  | move (t : TaskId) (bad : List Nat)
  | sgdWithMomentum (t : TaskId) (faults : List Residue := [])
  | adamw (t : TaskId) (faults : List Residue := [])
  | signMomentum (t : TaskId) (faults : List Residue := [])
  | digestOnly (t : TaskId)
  | programMemorySlot (t : TaskId) (faults : List Residue := [])
  | nop (ms : Fin 12)
  | ld (ms : Fin 12) (dst : Fin 16) (stream : Fin 8)
  | st (ms : Fin 12) (a : Fin 32) (stream : Fin 8)
  | add (ms : Fin 12) (dst : Fin 16) (a b : Fin 32) (bad : Option (BitVec 32) := none)
  | sub (ms : Fin 12) (dst : Fin 16) (a b : Fin 32) (bad : Option (BitVec 32) := none)
  | mul (ms : Fin 12) (dst : Fin 16) (a b : Fin 32) (bad : Option (BitVec 32) := none)
  | fma (ms : Fin 12) (dst : Fin 16) (a b c : Fin 32) (bad : Option (BitVec 32) := none)
  | div (ms : Fin 12) (dst : Fin 16) (a b : Fin 32) (bad : Option (BitVec 32) := none)
  | sqrt (ms : Fin 12) (dst : Fin 16) (a : Fin 32) (bad : Option (BitVec 32) := none)
  | max (ms : Fin 12) (dst : Fin 16) (a b : Fin 32)
  | min (ms : Fin 12) (dst : Fin 16) (a b : Fin 32)
  | abs (ms : Fin 12) (dst : Fin 16) (a : Fin 32)
  | sgn (ms : Fin 12) (dst : Fin 16) (a : Fin 32)
  | neg (ms : Fin 12) (dst : Fin 16) (a : Fin 32)
  | sel (ms : Fin 12) (dst : Fin 16) (a b c : Fin 32)
  | endProgram (ms : Fin 12)
  | allReduce (t : TaskId)
  | reduceScatter (t : TaskId)
  | allGather (t : TaskId)
  | broadcast (t : TaskId)
  | allToAll (t : TaskId)
  | permute (t : TaskId)
  | collectiveComplete (t : TaskId)
  | stall (t : TaskId)
  | sendStream (t : TaskId)
  | sendRemote (t : TaskId)
  | recvStream (t : TaskId)
  | recvRemote (t : TaskId)
  | fused (t : TaskId)
  | stageItem (t : TaskId) (stage : Fin 8)
  | stageStallEnd (t : TaskId) (stage : Fin 8) (full : Bool) (cycles : Nat)
  | signal (t : TaskId)
  | tokenIncrement (d : Fin 4) (token : Fin 4096) (inc : BitVec 16)
  | wait (t : TaskId)
  | fence (t : TaskId)
  | regwrite (t : TaskId)
  | testKnownAnswer (t : TaskId)
  | testStructural (t : TaskId)
  | apply (r : Requester) (d : Fin 4) (c : Fin 34)
  | coreArrayRetire (r : Requester) (d : Fin 4) (c : Fin 34)
  | kaStart (r : Requester) (d : Fin 4) (c : Fin 34)
  | arrayCntClr (r : Requester) (d : Fin 4) (c : Fin 34)
  | accDbgRead (r : Requester) (d : Fin 4) (c : Fin 34) (fixed err : Bool)
  | accCntClr (r : Requester) (d : Fin 4) (c : Fin 34)
  | stepBoundary (d : Fin 4) (epoch : BitVec 32)
  | snapNow (r : Requester) (d : Fin 4)
  | clrAll (r : Requester) (d : Fin 4)
  | fetchReadIssue (d : Fin 4) (c : Fin 34)
  | fetchReadReturn (d : Fin 4) (c : Fin 34) (entry : Fin 384) (bad : List Nat)
  | feCntClr (r : Requester) (d : Fin 4) (c : Fin 34)
  | stackRead (r : Requester) (a : Nat) (e0 e1 : Ecc)
  | stackWrite (w : WriteReq)
  | wcbLineWriteback (ms : Fin 12)
  | flush (r : Requester) (ms : Fin 12)
  | firstTouchCopyDone (ms : Fin 12) (corr bad : List Nat)
  | pinsAbandoned (ms : Fin 12)
  | forcedCommit (ms : Fin 12)
  | scrub (ms : Fin 12) (channel : Fin 32) (rowg : Fin 524288) (gran : Fin 128) (e : Ecc)
  | refresh (ms : Fin 12) (channel : Fin 32) (bank : Fin 64)
  | rtPublish (r : Requester)
  | rtPublishDone
  | cruCntClr (r : Requester) (ms : Fin 12)
  | rowContextCreate (ms : Fin 12) (c : Fin 256) (x : RowSetup)
  | rowChunkArrive (ms : Fin 12) (c : Fin 256) (q k : Nat) (leaf : Bool) (data : List Byte)
      (faults : List (Nat × BitVec 32) := [])
  | stackThermalChange (ms : Fin 12) (temp : BitVec 16)
  | go (r : Requester) (ms : Fin 12) (v : Word)
  | marginDone (ms : Fin 12) (errors : BitVec 48)
  | flitReceive (d : Fin 4) (e : Fin 6) (far : Bool) (b : Fin 8) (good : Bool) (f : Flit)
  | resendRequest (d : Fin 4) (e : Fin 6) (far : Bool) (b : Fin 8) (bseq : BitVec 8)
  | bundleTrainingEnd (d : Fin 4) (e : Fin 6) (b : Fin 8) (passed : Bool)
  | bundleRetire (r : Requester) (d : Fin 4) (e : Fin 6) (mask : BitVec 8)
  | brzCntClr (r : Requester) (d : Fin 4) (e : Fin 6)
  | localPllLoss (die : Fin 18)
  | rootPllLoss
  | seqGo (r : Requester)
  | seqPhaseEnd
  | seqPhaseTimeout
  | domainRst (r : Requester) (mask : BitVec 18)
  | resetNAssert
  | dieRingSlot (lane : Fin 8) (request urgent : BitVec 5)
  | ringLoopUpdate (rd : List RingReading)
  | ringUnlock (n : Fin 294)
  | relockSearchEnd (n : Fin 294) (locked : Bool)
  | ringCoverTimeout (n : Fin 294)
  | heaterFeedForward (d : Fin 4)
  | lossOfSignal (p : Fin 6)
  | calibrationSlot (f : Fin 7)
  | calibrationPhaseEnd (f : Fin 7) (passed : Bool) (x : LaneSet) (margin : BitVec 16)
  | announceTimeout (f : Fin 7)
  | sparePreempt (f : Fin 7) (lane : Fin 16) (permanent : Bool)
  | farReadings (p : Fin 6) (r : List (BitVec 16))
  | lossLocation (x : LossReadings)
  | laserCompare (l : List (List (BitVec 16)))
  | dropout (i : Fin 3)
  | latchRelease (i : Fin 3)
  | collectiveBoundary (b : Bool)
  | boundaryTimeout (b : Bool)
  | switchoverPhaseEnd (b : Bool)
  | groupAToLc2 (r : Requester) (atBoundary : Bool)
  | groupBToLc2 (r : Requester) (atBoundary : Bool)
  | returnLc2ToStandby (r : Requester) (atBoundary : Bool)
  | cartridgeInsert (i : Fin 3) (serial : BitVec 32)
  | gridLock (i : Fin 3) (l : List (BitVec 16))
  | llStartPhaseEnd (ok : Bool) (fits : List (BitVec 64)) (lanes : List LanePass)
  | llCntClr (r : Requester)
  | linkAlign (p : Fin 6)
  | ctrl (p : Fin 6) (f : Frame)
  | nak (p : Fin 6) (f : Frame)
  | ackTimeout (p : Fin 6)
  | linkLost (p : Fin 6)
  | hallmark (p : Fin 6) (f : Frame) (sigOk : Bool)
  | hallmarkPeriodic (p : Fin 6)
  | cert (p : Fin 6) (f : Frame) (chain : Option (BitVec 64))
  | badsigRetry (p : Fin 6)
  | discoveryStart (r : Requester)
  | discoverySettle
  | gossip (p : Fin 6) (f : Frame)
  | gossipHour
  | gossipExpiry
  | coll (p : Fin 6) (f : Frame)
  | collCredit (p : Fin 6) (f : Frame)
  | senddata (p : Fin 6) (f : Frame)
  | signalFrame (p : Fin 6) (f : Frame)
  | rwrite (p : Fin 6) (f : Frame)
  | rread (p : Fin 6) (f : Frame)
  | rresp (p : Fin 6) (f : Frame)
  | seal (p : Fin 6) (f : Frame)
  | retract (p : Fin 6) (f : Frame)
  | retractDone
  | sealVerdict
  | commit
  | sealTimeout (e : BitVec 32)
  | checkGood (r : Requester) (e : BitVec 32)
  | checkHold (r : Requester) (e : BitVec 32) (why : Fin 3)
  | checkFail (r : Requester) (e : BitVec 32) (die : BitVec 3) (xyz : BitVec 24)
  | sealRoundStart (r : Requester) (e : BitVec 32)
  | colCntClr (r : Requester) (d : Fin 4)
  | ingotBoundary (e : BitVec 32)
  | ingotPageRead (ms : Fin 12)
  | page (p : Fin 6) (f : Frame)
  | pageEnd (p : Fin 6) (f : Frame)
  | manifest (p : Fin 6) (f : Frame)
  | close (p : Fin 6) (f : Frame)
  | pageOk (p : Fin 6) (f : Frame)
  | pageBad (p : Fin 6) (f : Frame)
  | complete (p : Fin 6) (f : Frame)
  | refused (p : Fin 6) (f : Frame)
  | abort (p : Fin 6) (f : Frame)
  | restoreReq (p : Fin 6) (f : Frame)
  | ingotRouteTimeout
  | hand (r : Requester) (mask : BitVec 8)
  | ingotAbort (r : Requester)
  | restore (r : Requester)
  | ingCntClr (r : Requester)
  | primaryAnnounce (d : Fin 4) (g : Fin 16) (task : BitVec 16) (e : BitVec 32)
  | dualHoldRelease (e : BitVec 32)
  | quarantine (r : Requester) (cause : BitVec 3)
  | unquarantine (r : Requester)
  | errorRecord (x : Report)
  | elogEnable (r : Requester) (v : Word)
  | pwrEnAssert (mv : Nat)
  | inrushDone
  | pwrEnDeassert
  | inputOvervoltage (mv : Nat)
  | inputVoltageWarning (mv : Nat)
  | inputWarningClear (mv : Nat)
  | powerFail (mv watts : Nat)
  | railPhaseEnd (ok : Bool)
  | railFault (rail : Fin 32) (volt curr : Nat)
  | budgetPeriod (rd : List RailReading)
  | leaveGrant (d : Fin 4)
  | grantTakesEffect (t : TaskId)
  | backfillExpiry (d : Fin 4)
  | leaveHoldExpiry (d : Fin 4) (c : Fin 34)
  | inputOverpower (watts : Nat)
  | sensorSample (d : Fin 4) (i : Fin 64) (v : BitVec 16)
  | quenchExit (d : Fin 4)
  | release (r : Requester) (d : Fin 4)
  | thmCntClr (r : Requester) (d : Fin 4)
  | coolantInletHigh (inlet outlet : BitVec 16)
  | hicClaim (c : Fin 16)
  | hicComplete (r : Requester) (c : Fin 16) (source : Nat)
  | agentMaskLock (r : Requester)
  | forgeWindow (cycles : List Nat) (overloaded paceLost : Bool)
  | dmaRequest (p : Fin 2) (write : Bool) (a : Nat) (data : List Byte)
  | driveFail (p : Fin 2)
  | collectorUnreachable
  | collectorReconnect
  | transit (authorised : Bool) (pct : Nat)
  | permit (authorised : Bool) (entries : List (Nat × Word))
  | serviceEnter (authorised : Bool)
  | serviceLeave (authorised : Bool)
  | profile (authorised : Bool) (prof : Fin 4) (reset : Bool) (x : Option Profile)
  | debugNonce (authorised : Bool)
  | debugToken (authorised : Bool) (tok : Token)
  | mctpControl (request : List Byte)
  | pldmMonitoring
  | spdmRequest (kind : SpdmKind)
  | ppsEdge (stamp : Nat)
  | ppsHoldover
  | setImmediate (r : Requester)
  | setValid (r : Requester)
  | monitorWindowEnd (die : Fin 5) (m : Fin 64)
  | idcode
  | dbgNonce
  | dbgUnlock (tok : Token)
  | dbgAccess (write : Bool) (a : BitVec 44) (data : BitVec 64)
  | dbgStatus
  | bypass (bits : List Bool)
  | lock (r : Requester)
  | unlockExpiry
  | halt (r : Requester) (d : Fin 4) (on : Bool)
  | step (r : Requester) (d : Fin 4)
  | breakEn (r : Requester) (d : Fin 4) (on : Bool) (g : Fin 16) (task : BitVec 16)
  | bootRomStart (pins : Fin 4) (a b : ImageCheck)
  | trialWatchdog
  | firmwareUpdateComponent (x : ImageCheck) (image : List Byte)
  | flashRead (r : Requester) (a : BitVec 27)
  | flashProgram (r : Requester) (a : BitVec 27)
  | flashErase (r : Requester) (a : BitVec 27)
  | flashOpDone (ok : Bool)
  | counterRaise (r : Requester) (i : Fin 4) (v : BitVec 64)
  | profileSwitch (r : Requester) (prof : Fin 4) (x : Option Profile)
  | profileSwitchReset (r : Requester) (prof : Fin 4)
  | job (r : Requester) (v : Word)
  | startupPhaseEnd (x : PhaseResult)
  | startupPhaseTimeout
  | feedIdSample (v : BitVec 8)
  | leakDetect (zone : Fin 4) (inlet outlet : BitVec 16)
  | resetNRelease
  | inputReturn (mv : Nat)
  | holdUpEnd
  | coolantOutletHigh (inlet outlet : BitVec 16)
  | gridLockTimeout (i : Fin 3)
  | cartridgeCommissioning (i : Fin 3) (l : List (BitVec 16)) (offsets : List (BitVec 16))
  | relockOverrun (b : Bool)
  | darkLaneCalibrationRetry (p : Fin 6) (lane : Fin 17) (lit : Bool) (x : LaneSet) (margin : BitVec 16)
  | ppsOutPulse
  | pcieLinkChange (p : Fin 2) (up : Bool) (rate width : Nat)
  | managementLinkChange (up : Bool) (fec : Fin 3)
  | dbgTrstN
  deriving DecidableEq, Repr

end Sys2Proof
end

