-- ==== Sys2Proof/Config.lean ====
section
/-! DEFINITION. What one module fixes and the free values: constants without a body, so that no proof can rest on
a number the spec does not give. -/

namespace Sys2Proof.Config

/-- The module identity of PORT_MOD_ID (R289): fixed at manufacture, not given by the spec. -/
opaque moduleId : BitVec 64

/-- The n-th debug nonce (R425: renewed at every attempt and package reset; random). -/
opaque nonce : Nat → BitVec 128

/-- The n-th free value: what the state's `fresh` counter draws where the spec leaves one value open. -/
opaque freeValue : Nat → BitVec 64

/-- The 16 syndrome bytes of an event whose layout the spec does not give, as a function of the event code and of
what the record is said to name (R370: "per event"). -/
opaque syndrome : Nat → List Nat → BitVec 128

/-- The own sensor of the hub die (4) and the light layer (5) at a device time, in 1/16 °C (R371): no command of the table
samples it. -/
opaque dieSensor : Nat → Nat → BitVec 16

/-- The level of the PPS_IN pin at a device time (PWR_PINS.PPS_IN): of it, only the rising edges are commands (R419). -/
opaque ppsLevel : Nat → Bool

/-- A flash byte as delivered (R430: the contents are signed objects the spec does not list). -/
opaque flashByte : Nat → Byte

/-- What an erased flash byte reads as (R431 does not say). -/
opaque erasedByte : Byte

/-- The TAG of a SIGNAL frame that carries a token and an increment, and the token and increment a TAG carries (R122: the
layout is not given). -/
opaque signalTag : Nat → Nat → BitVec 64
opaque signalToken : BitVec 64 → Nat
opaque signalInc : BitVec 64 → Nat

/-- The 384 signature bytes of a hallmark over its bytes 0 to 145 (R277), and the certificate chain sent without its root
(R439): keys and certificates are made outside the module. -/
opaque hallmarkSig : List Byte → Nat → Byte
opaque chainLength : Nat
opaque chainByte : Nat → Byte

/-- The membership hash of R346: SHA-384 over the member list bytes (the algorithm is outside the spec). -/
opaque memberHash : List Byte → BitVec 384

/-- What an accumulator entry reads as that nothing has written since a tile that holds it was bound (R89: no defined
content): the core, the draw taken at the last binding on it, and the entry. -/
opaque accContent : Nat → Nat → Nat → F32

/-- The activation functions of R101 with codes 3 to 6 at a finite input other than zero, and the activation derivatives
of R104, by the one fixed FP32 algorithm of R102, which the spec does not give: the function code, whether the operand is
the saved input z, and the operand. -/
opaque activation : Nat → F32 → F32
opaque derivative : Nat → Bool → F32 → F32

/-- What a VECTOR program does (R116, R150: the instruction set is not given): from its bytes, its operand words and a draw,
the runs it writes (operand ordinal, byte offset, index of the first element, bytes) and the conversions it counts
(operand ordinal, class: 0 normal, 1 overflow, 2 vanished, 3 subnormal, 4 non-finite; and an exponent). -/
opaque vectorWrites : List Byte → List Word → Nat → List (Nat × Nat × Nat × List Byte)
opaque vectorCounts : List Byte → List Word → Nat → List (Nat × Nat × Option Int)

/-- The shipped update programs 0x01 and 0x03 (R200), whose sequence of operations the spec does not give. -/
opaque sgdStep : List F32 → List F32 → List F32
opaque signStep : List F32 → List F32 → List F32

end Sys2Proof.Config
end

