-- ==== Sys2Proof/Machine/Num.lean ====
section
/-! DEFINITION. Numbers: the formats of R54 to R63, exact values, conversion and its counting class (R74 to R77),
FP32 arithmetic (R58, R59), noise (R78), MX blocks (R65), weight codes and code-mode alignment (R66 to R71). -/

namespace Sys2Proof.Machine

/-- An exact value: NaN, a signed infinity, or (−1)^neg · m · 2^e (m = 0 is a signed zero). -/
inductive Val where
  | nan
  | inf (neg : Bool)
  | fin (neg : Bool) (m : Nat) (e : Int)
  deriving DecidableEq, Repr

/-- The layout of a floating format. `p` fraction bits, `eb` exponent bits, `emin` the smallest normal exponent,
`maxCode` the code of the largest finite magnitude, `infCode` the code of infinity where there is one, `nanCode` the
canonical NaN (R59), `sat` for the formats that saturate on overflow (R76), `flush` where subnormals are zeros
(R58, R60, R61). -/
structure FloatFmt where
  p : Nat
  eb : Nat
  emin : Int
  maxCode : Nat
  infCode : Option Nat
  nanCode : Nat
  sat : Bool
  flush : Bool
  deriving DecidableEq, Repr

/-- R55. -/
def e4m3 : FloatFmt := ⟨3, 4, -6, 0x7E, none, 0x7F, true, false⟩
/-- R56. -/
def e5m2 : FloatFmt := ⟨2, 5, -14, 0x7B, some 0x7C, 0x7E, true, false⟩
/-- R57. -/
def fp16 : FloatFmt := ⟨10, 5, -14, 0x7BFF, some 0x7C00, 0x7E00, false, false⟩
/-- R57. -/
def bf16 : FloatFmt := ⟨7, 8, -126, 0x7F7F, some 0x7F80, 0x7FC0, false, false⟩
/-- R57, R58. -/
def fp32 : FloatFmt := ⟨23, 8, -126, 0x7F7FFFFF, some 0x7F800000, 0x7FC00000, false, true⟩
/-- The A21 lane of R60. -/
def a21 : FloatFmt := ⟨12, 8, -126, 0xFEFFF, some 0xFF000, 0xFF800, false, true⟩
/-- The 42-bit pair lane of R61. -/
def lane42 : FloatFmt := ⟨33, 8, -126, 0x1FDFFFFFFFF, some 0x1FE00000000, 0x1FF00000000, false, true⟩
/-- The norm partials of R196: IEEE binary64. -/
def fp64 : FloatFmt :=
  ⟨52, 11, -1022, 0x7FEFFFFFFFFFFFFF, some 0x7FF0000000000000, 0x7FF8000000000000, false, false⟩

/-- The width of an encoding: sign, exponent and fraction. -/
def FloatFmt.bits (f : FloatFmt) : Nat := 1 + f.eb + f.p

/-- The value an encoding stands for (R55 to R58, R60, R61). -/
def FloatFmt.decode (f : FloatFmt) (b : Nat) : Val :=
  let neg := decide (b / 2 ^ (f.eb + f.p) % 2 = 1)
  let mag := b % 2 ^ (f.eb + f.p)
  let ex := mag / 2 ^ f.p
  let fr := mag % 2 ^ f.p
  if mag ≤ f.maxCode then
    if ex = 0 then
      if f.flush then .fin neg 0 0 else .fin neg fr (f.emin - f.p)
    else .fin neg (2 ^ f.p + fr) ((ex : Int) - 1 + f.emin - f.p)
  else if f.infCode = some mag then .inf neg
  else .nan

/-- floor(log2 |x|) of a finite nonzero value. -/
def floorLog2 (m : Nat) (e : Int) : Int := (Nat.log2 m : Int) + e

/-- The rounding modes of R74; code 0b11 is reserved and never reaches a conversion. -/
inductive Rounding where
  | nearest
  | stochastic
  | towardZero
  deriving DecidableEq, Repr

/-- The mode a 2-bit code names (R74). -/
def Rounding.ofCode (c : Nat) : Rounding :=
  if c = 1 then .stochastic else if c = 2 then .towardZero else .nearest

/-- The classes of R81. -/
inductive RangeClass where
  | nonfinite | ovf | van | sub | normal
  deriving DecidableEq, Repr

/-- i and the rounding of |x| / q to an integer (R76): `m · 2^sh` rounded under the mode. -/
def roundShift (mode : Rounding) (noise : Nat) (m : Nat) (sh : Int) : Nat :=
  if 0 ≤ sh then m * 2 ^ sh.toNat
  else
    let k := (-sh).toNat
    let i := m / 2 ^ k
    let r := m % 2 ^ k
    match mode with
    | .towardZero => i
    | .nearest => if 2 ^ k < 2 * r ∨ (2 ^ k = 2 * r ∧ i % 2 = 1) then i + 1 else i
    | .stochastic => if 65536 ≤ r * 65536 / 2 ^ k + noise then i + 1 else i

/-- The sign bit of a format, set or clear. -/
def FloatFmt.signed (f : FloatFmt) (neg : Bool) (mag : Nat) : Nat :=
  if neg then 2 ^ (f.eb + f.p) + mag else mag

/-- Conversion of an exact value to a format (R76): the encoding and its class. -/
def FloatFmt.convert (f : FloatFmt) (mode : Rounding) (noise : Nat) : Val → Nat × RangeClass
  | .nan => (f.nanCode, .nonfinite)
  | .inf neg => (f.signed neg (f.infCode.getD f.maxCode), .nonfinite)
  | .fin neg m e =>
    if m = 0 then (f.signed neg 0, .normal)
    else
      let ex := max (floorLog2 m e) f.emin
      let i := roundShift mode noise m (e - (ex - f.p))
      let code := (ex - f.emin).toNat * 2 ^ f.p + i
      if f.maxCode < code then
        if f.sat ∨ mode = .towardZero then (f.signed neg f.maxCode, .ovf)
        else (f.signed neg (f.infCode.getD f.maxCode), .ovf)
      else if code = 0 then (f.signed neg 0, .van)
      else if code < 2 ^ f.p then
        if f.flush then (f.signed neg 0, .van) else (f.signed neg code, .sub)
      else (f.signed neg code, .normal)

/-- Saturating conversion of an MX element (R65): an element of either type saturates on overflow. -/
def FloatFmt.convertMx (f : FloatFmt) (mode : Rounding) (noise : Nat) (x : Val) : Nat × RangeClass :=
  match x with
  | .inf neg => (f.signed neg f.maxCode, .nonfinite)
  | x => f.convert mode noise x

/-- One counted conversion: its class, and floor(log2 |x|) of a finite nonzero input (R81). -/
structure Count where
  cls : RangeClass
  exp : Option Int
  deriving DecidableEq, Repr

/-- The count of converting `x` with class `c` (R81). -/
def countOf (x : Val) (c : RangeClass) : Count :=
  match x with
  | .fin _ m e => ⟨c, if m = 0 then none else some (floorLog2 m e)⟩
  | _ => ⟨c, none⟩

/-! ### Exact arithmetic -/

/-- The signed integer of a value at exponent `k ≤ e`. -/
def scaled (neg : Bool) (m : Nat) (e k : Int) : Int :=
  (if neg then -1 else 1) * (m * 2 ^ (e - k).toNat : Nat)

/-- The exact sum: a sum of zeros is −0 only if both addends are −0, and x − x is +0; ∞ − ∞ and any NaN operand
give NaN (R60). -/
def Val.add : Val → Val → Val
  | .nan, _ => .nan
  | _, .nan => .nan
  | .inf a, .inf b => if a = b then .inf a else .nan
  | .inf a, .fin .. => .inf a
  | .fin .., .inf b => .inf b
  | .fin na ma ea, .fin nb mb eb =>
    if ma = 0 ∧ mb = 0 then .fin (na && nb) 0 0
    else if ma = 0 then .fin nb mb eb
    else if mb = 0 then .fin na ma ea
    else
      let k := min ea eb
      let t := scaled na ma ea k + scaled nb mb eb k
      if t = 0 then .fin false 0 0 else .fin (t < 0) t.natAbs k

/-- The value with its sign reversed. -/
def Val.neg : Val → Val
  | .nan => .nan
  | .inf a => .inf (!a)
  | .fin n m e => .fin (!n) m e

/-- The exact product; 0 × ∞ gives NaN. -/
def Val.mul : Val → Val → Val
  | .nan, _ => .nan
  | _, .nan => .nan
  | .inf a, .inf b => .inf (a != b)
  | .inf a, .fin b m _ => if m = 0 then .nan else .inf (a != b)
  | .fin a m _, .inf b => if m = 0 then .nan else .inf (a != b)
  | .fin na ma ea, .fin nb mb eb => .fin (na != nb) (ma * mb) (ea + eb)

/-- The exact value times 2^k. -/
def Val.scale (k : Int) : Val → Val
  | .fin n m e => .fin n m (e + k)
  | v => v

/-- A value of a signed integer. -/
def Val.ofInt (i : Int) : Val := .fin (i < 0) i.natAbs 0

/-- Nearest-even encoding of an exact value in a format. -/
def FloatFmt.round (f : FloatFmt) (v : Val) : Nat := (f.convert .nearest 0 v).1

/-- The value of an FP32 word, subnormals as zeros of the same sign (R58). -/
def f32Val (a : F32) : Val := fp32.decode a.toNat

/-- FP32 nearest-even of an exact value (R58, R59). -/
def f32Of (v : Val) : F32 := BitVec.ofNat 32 (fp32.round v)

/-- FP32 addition (R58, R59). -/
def fadd (a b : F32) : F32 := f32Of ((f32Val a).add (f32Val b))
/-- FP32 subtraction. -/
def fsub (a b : F32) : F32 := f32Of ((f32Val a).add (f32Val b).neg)
/-- FP32 multiplication. -/
def fmul (a b : F32) : F32 := f32Of ((f32Val a).mul (f32Val b))
/-- A × B + C with one rounding (R201). -/
def ffma (a b c : F32) : F32 := f32Of (((f32Val a).mul (f32Val b)).add (f32Val c))

/-- A quotient or root carried with a sticky bit far below the result's last place: enough for correct rounding. -/
def sticky (q : Nat) (exact : Bool) : Nat := 2 * q + (if exact then 0 else 1)

/-- Division, correctly rounded (R201): x / 0 is an infinity of the product sign, 0 / 0 and ∞ / ∞ are NaN. -/
def Val.div : Val → Val → Val
  | .nan, _ => .nan
  | _, .nan => .nan
  | .inf _, .inf _ => .nan
  | .inf a, .fin b _ _ => .inf (a != b)
  | .fin a _ _, .inf b => .fin (a != b) 0 0
  | .fin na ma ea, .fin nb mb eb =>
    if mb = 0 then (if ma = 0 then .nan else .inf (na != nb))
    else if ma = 0 then .fin (na != nb) 0 0
    else
      .fin (na != nb) (sticky (ma * 2 ^ 80 / mb) (ma * 2 ^ 80 % mb = 0)) (ea - eb - 81)

/-- FP32 division. -/
def fdiv (a b : F32) : F32 := f32Of ((f32Val a).div (f32Val b))

/-- Integer square root by bits: the largest r with r · r ≤ n below 2^k. -/
def isqrt (n : Nat) : Nat → Nat → Nat
  | 0, r => r
  | k + 1, r => if (r + 2 ^ k) * (r + 2 ^ k) ≤ n then isqrt n k (r + 2 ^ k) else isqrt n k r

/-- Square root, correctly rounded (R201); a negative nonzero operand gives NaN and −0 gives −0. -/
def Val.sqrt : Val → Val
  | .nan => .nan
  | .inf neg => if neg then .nan else .inf false
  | .fin neg m e =>
    if m = 0 then .fin neg 0 0
    else if neg then .nan
    else
      let m' := if e % 2 = 0 then m * 2 ^ 80 else m * 2 ^ 81
      let e' := if e % 2 = 0 then e - 80 else e - 81
      let r := isqrt m' 80 0
      .fin false (sticky r (r * r = m')) (e' / 2 - 1)

/-- FP32 square root. -/
def fsqrt (a : F32) : F32 := f32Of (f32Val a).sqrt

/-- Is the value a NaN? -/
def Val.isNan : Val → Bool
  | .nan => true
  | _ => false

/-- A strict order on non-NaN values, with −0 below +0. -/
def Val.lt : Val → Val → Bool
  | .nan, _ => false
  | _, .nan => false
  | .inf a, .inf b => a && !b
  | .inf a, .fin .. => a
  | .fin .., .inf b => !b
  | .fin na ma ea, .fin nb mb eb =>
    if ma = 0 ∧ mb = 0 then na && !nb
    else
      let k := min ea eb
      decide (scaled na ma ea k < scaled nb mb eb k)

/-- MAX (R201): NaN if either is NaN; of +0 and −0, +0. -/
def fmax (a b : F32) : F32 :=
  if (f32Val a).isNan || (f32Val b).isNan then f32Of .nan
  else if (f32Val a).lt (f32Val b) then f32Of (f32Val b) else f32Of (f32Val a)

/-- MIN (R201): NaN if either is NaN; of +0 and −0, −0. -/
def fmin (a b : F32) : F32 :=
  if (f32Val a).isNan || (f32Val b).isNan then f32Of .nan
  else if (f32Val b).lt (f32Val a) then f32Of (f32Val b) else f32Of (f32Val a)

/-- ABS (R201). -/
def fabs (a : F32) : F32 :=
  f32Of (match f32Val a with
    | .nan => .nan
    | .inf _ => .inf false
    | .fin _ m e => .fin false m e)

/-- NEG (R201). -/
def fneg (a : F32) : F32 := f32Of (f32Val a).neg

/-- SGN (R201): +1, −1, or +0 for a zero; a NaN input gives the canonical NaN (R59). -/
def fsgn (a : F32) : F32 :=
  f32Of (match f32Val a with
    | .nan => .nan
    | .inf neg => .fin neg 1 0
    | .fin neg m _ => if m = 0 then .fin false 0 0 else .fin neg 1 0)

/-- A > 0, as SEL tests it (R201): false for a NaN and for zeros. -/
def fpos (a : F32) : Bool :=
  match f32Val a with
  | .nan => false
  | .inf neg => !neg
  | .fin neg m _ => !neg && m != 0

/-! ### Noise (R78) -/

/-- The mixing function of R78, modulo 2^64. -/
def mix (z : BitVec 64) : BitVec 64 :=
  let z := z + 0x9E3779B97F4A7C15#64
  let z := (z ^^^ (z >>> 30)) * 0xBF58476D1CE4E5B9#64
  let z := (z ^^^ (z >>> 27)) * 0x94D049BB133111EB#64
  z ^^^ (z >>> 31)

/-- The 16-bit noise of an element (R78). -/
def noise (seed : BitVec 64) (epoch tensor index : Nat) : Nat :=
  let h := mix ((BitVec.ofNat 64 epoch <<< 32) ||| BitVec.ofNat 64 tensor)
  let h := mix (seed ^^^ h)
  let x := mix (h ^^^ BitVec.ofNat 64 (index / 4))
  (x.toNat >>> (16 * (index % 4))) % 65536

/-! ### Tensor format codes (R54) -/

/-- The floating format of an element stored under a format code: codes 0x0 to 0x6 (an MXFP8 element is E4M3 or
E5M2). Codes 0x7 to 0x9 have no floating element and 0xA to 0xF are reserved. -/
def elemFmt : Nat → Option FloatFmt
  | 0 => some e4m3 | 1 => some e5m2 | 2 => some fp16 | 3 => some bf16 | 4 => some fp32
  | 5 => some e4m3 | 6 => some e5m2 | _ => none

/-- Is the code MXFP8? -/
def isMx (c : Nat) : Bool := c = 5 || c = 6

/-- Element bits of a format code (R54), the scale apart. -/
def elemBits : Nat → Nat
  | 0 => 8 | 1 => 8 | 2 => 16 | 3 => 16 | 4 => 32 | 5 => 8 | 6 => 8 | 7 => 64 | 8 => 1 | 9 => 2 | _ => 0

/-! ### MX blocks (R63, R65) -/

/-- The exponent an E8M0 scale stands for; none for the NaN scale 0xFF (R63). -/
def e8m0 (b : Nat) : Option Int := if b = 0xFF then none else some ((b : Int) - 127)

/-- An element's value under its block scale (R63). -/
def mxVal (f : FloatFmt) (scale elem : Nat) : Val :=
  match e8m0 scale with
  | none => .nan
  | some k => (f.decode elem).scale k

/-- The larger of two magnitudes' floor(log2), for finite nonzero values. -/
def maxLog (a : Option Int) (v : Val) : Option Int :=
  match v with
  | .fin _ m e =>
    if m = 0 then a
    else match a with
      | none => some (floorLog2 m e)
      | some k => some (max k (floorLog2 m e))
  | _ => a

/-- Is the value finite? -/
def Val.isFin : Val → Bool
  | .fin .. => true
  | _ => false

/-- emax_elem of R65: 8 for E4M3, 15 for E5M2. -/
def emaxElem (f : FloatFmt) : Int := if f.p = 3 then 8 else 15

/-- The scale R65 derives for a block. -/
def mxScale (f : FloatFmt) (xs : List Val) : Nat :=
  if xs.any (fun v => !v.isFin) then 0xFF
  else match xs.foldl maxLog none with
    | none => 0
    | some k => (min (max (k - emaxElem f + 127) 0) 0xFE).toNat

/-- Conversion of one block to MXFP8 (R65): the scale byte, the element bytes and the counts; `ns` gives each
element's noise. A NaN block stores canonical NaNs and counts its finite inputs as normal. -/
def mxBlock (f : FloatFmt) (mode : Rounding) (ns : Nat → Nat) (xs : List Val) : Nat × List Nat × List Count :=
  let sc := mxScale f xs
  if sc = 0xFF then
    (sc, xs.map fun _ => f.nanCode,
      xs.map fun v => countOf v (if v.isFin then .normal else .nonfinite))
  else
    let conv := xs.mapIdx fun i v => f.convertMx mode (ns i) (v.scale (127 - (sc : Int)))
    (sc, conv.map (·.1), (xs.zip conv).map fun p => countOf p.1 p.2.2)

/-! ### Weight codes (R66 to R68) and code-mode alignment (R70 to R72) -/

/-- R66. -/
def w1Val (c : Nat) : Int := if c = 0 then -1 else 1

/-- A 4-bit two's-complement codebook entry, −4 to +4 (R67). -/
def codeEntry (n : Nat) : Int := if n < 8 then n else (n : Int) - 16

/-- R67: the entry of a codebook word (C0 in bits 3:0, C3 in bits 15:12) that code `c` selects. -/
def w2Val (codebook c : Nat) : Int := codeEntry (codebook / 16 ^ (c % 4) % 16)

/-- The exponent of an element for R70: a subnormal counts as having the smallest normal exponent. -/
def alignExp (f : FloatFmt) : Val → Option Int
  | .fin _ m e => if m = 0 then none else some (max (floorLog2 m e) f.emin)
  | _ => none

/-- e_max of a K-block (R70); none where every element is zero. -/
def blockEmax (f : FloatFmt) (xs : List Val) : Option Int :=
  xs.foldl (fun a v => match a, alignExp f v with
    | none, b => b
    | a, none => a
    | some x, some y => some (max x y)) none

/-- floor(|x| · 2^(12 − e_max)) with the sign of x (R70). -/
def alignTo (emax : Int) : Val → Int
  | .fin neg m e =>
    let sh := e + 12 - emax
    let a : Nat := if 0 ≤ sh then m * 2 ^ sh.toNat else m / 2 ^ (-sh).toNat
    if neg then -(a : Int) else a
  | _ => 0

/-- A K-block as the row feeder sends it (R70 to R72): the lane inputs, the block exponent, the non-finite flag and
the counts of the row-feeder conversion point. -/
structure Aligned where
  lanes : List Int
  exp : Int
  nonFinite : Bool
  counts : List Count
  deriving DecidableEq, Repr

/-- The row feeder on one K-block (R70, R71, R72). -/
def alignBlock (f : FloatFmt) (xs : List Val) : Aligned :=
  if xs.any (fun v => !v.isFin) then
    ⟨xs.map fun _ => 0, 0, true, xs.map fun v => countOf v (if v.isFin then .normal else .nonfinite)⟩
  else match blockEmax f xs with
    | none => ⟨xs.map fun _ => 0, 0, false, []⟩
    | some em =>
      let ls := xs.map (alignTo em)
      ⟨ls, em - 12, false, (xs.zip ls).map fun p =>
        countOf p.1 (match p.1 with
          | .fin _ m _ => if m ≠ 0 ∧ p.2 = 0 then .van else .normal
          | _ => .normal)⟩

end Sys2Proof.Machine
end

