-- ==== Sys2Proof/Machine/Regs.lean ====
section
/-! DEFINITION. The register catalogue: every register the spec's register chapters table, its place in the
register windows (R14 to R18 and the offset tables of each chapter), its fields with bits and access types (R12),
and the value it reads as at reset. The rows follow the spec's own tables. -/

namespace Sys2Proof.Machine

/-- Access types of R12. -/
inductive Acc where
  | ro | rw | w1c | w1s | rc | wo
  deriving DecidableEq, Repr

/-- Every register of the module, under the spec's own name. -/
inductive RegName where
  | CORE_ARRAY_ID | CORE_ARRAY_CTRL | CORE_ARRAY_STATUS | CORE_ARRAY_COLMASK_LO | CORE_ARRAY_COLMASK_HI
  | CORE_ARRAY_WIDTH | CORE_ARRAY_CODEBOOK | CORE_ARRAY_KAFAIL_LO | CORE_ARRAY_KAFAIL_HI | CORE_ARRAY_CYC_TOTAL
  | CORE_ARRAY_CYC_BUSY | CORE_ARRAY_CYC_BUBBLE | CORE_ARRAY_CYC_LOADWAIT | CORE_ARRAY_CYC_STARVE
  | CORE_ARRAY_TILES | GE_RSTAT_CTRL | GE_RSTAT_SNAP | GE_RSTAT_BANK0 | GE_RSTAT_BANK1 | GE_NOISE_SEED
  | GE_RSTAT_SLOT_SNAP | GE_RSTAT_SLOT_LIVE0 | GE_RSTAT_SLOT_LIVE1 | ACC_STATUS | ACC_CTRL | ACC_DBG_ADDR
  | ACC_DBG_DATA | ACC_DBG_FLAGS | OUT_CYC_BUSY | OUT_CYC_STALL | GE_CTRL | GE_GRAPH_BASE | GE_DOORBELL
  | GE_CANCEL | GE_QUANTUM | GE_CORE_HOLD | GE_CORE_RELEASE | GE_CORE_STATE | GE_UNPLACED | GE_LIVE | GE_TEST_CFG
  | GE_GRAPH_STATUS | GE_REGION_BUSY | GE_TEST_DUE | GE_TOKEN | FE_CFG | FE_STAGE | FE_STATUS | FE_CTRL
  | FE_RD_BYTES | FE_RD_REQ | FE_RD_DISCARD | FE_CYC_ENTRIES_FULL | FE_CYC_SPACE | FE_STG_FULL | FE_STG_EMPTY
  | CRU_CTRL | CRU_STATUS | CRU_SEED | CRU_THERM | CRU_ECC | CRU_ECC_LAST | CRU_WCB | CRU_REGION_A | CRU_REGION_B
  | CRU_ROW_DST | CRU_ROW_CFG | CRU_ROW_PARK | CRU_ROW_STATE | CRU_UPD_STATUS | CRU_UPD_PROG | CRU_VER_CFG
  | CRU_VER_STATUS | CRU_MARGIN_CTRL | CRU_MARGIN_RESULT | BRZ_CFG | BRZ_STATUS | BRZ_REPLAY | BRZ_CTRL
  | BRZ_CRC_ERR | BOOT_CLK_STATUS | BOOT_RST_CTRL | BOOT_RST_STATUS | LL_CTRL | LL_STATUS | LL_ROT_CFG | LL_FF
  | LC_CFG | LC_ROUTE | LC_STATUS | LL_LOSS | LL_MON_CFG | LL_RING | PORT_STATUS | PORT_CFG | PORT_LANE | PORT_MON
  | PORT_MON_F | PORT_IL_CFG | PORT_IL_STATUS | PORT_IL_NEIGH | PORT_IL_NEIGH_INFO | PORT_IL_CTRL | PORT_IL_RETRY
  | PORT_IL_CRC_ERR | PORT_IL_DROP | PORT_IL_STOMP | PORT_IL_LINKDOWN | PORT_IL_TX_BYTES | PORT_IL_RX_BYTES
  | PORT_MOD_ID | PORT_MOD_COORD | PORT_MOD_DISC | PORT_MOD_ORIGIN | PORT_MOD_CFG | PORT_MOD_PIN | PORT_MOD_JOB
  | PORT_MOD_SHARE | PORT_MOD_PERMIT | COL_CFG | COL_STATUS | COL_CTRL | COL_FAIL | AS_CHECKS | AS_MISMATCH
  | AS_LAST | COL_CHAN | COL_SEAL_CFG | COL_SEAL_STATE | COL_CHECK | COL_RETRACT | COL_SEAL_NBR | ING_CTRL
  | ING_STATUS | ING_CADENCE | ING_POLICY | ING_PARTNER | ING_RX | ING_EXCLUDE | ING_MEMBERS | ING_T2
  | ING_PROGRESS | ING_ADVICE | ING_RESTORE | ING_RD | GE_RED_CFG | AS_DLOG_BASE | AS_DUAL_CNT | AS_DUAL_LAST
  | AS_DUAL_DIG_P | AS_DUAL_DIG_T | GE_TEST_LAST | HIC_RED_CFG | HIC_TRIG_CFG | HIC_TRIG_STATUS | HIC_QUAR
  | HIC_ELOG_BASE | HIC_ELOG_PROD | HIC_ELOG_CONS | HIC_ELOG_CFG | HIC_ELOG_DROP | PWR_LV_CFG | PWR_LV_MAP
  | PWR_LV_STATUS | PWR_LV_WAIT | THM_CFG | THM_STATUS | THM_CTRL | THM_SENSOR | PWR_CFG | PWR_STATUS | PWR_IN
  | PWR_OTHER | PWR_BUDGET | THM_COOLANT | PWR_RAIL | HIC_CTRL | HIC_LEVEL | HIC_PEND | HIC_MASK | HIC_CLAIM
  | HIC_COMPLETE | HIC_TARGET | HIC_FORGE_CFG | HIC_FORGE_STATUS | HIC_FORGE_CLS | HIC_FORGE_CYC | HIC_MGMT_STATUS
  | HIC_PCIE_STATUS | TIME_NOW | TIME_FRAC | TIME_CFG | TIME_SET_NEXT | TIME_STATUS | TIME_PPS_LAST | DBG_CTRL
  | DBG_STATUS | DBG_NONCE0 | DBG_NONCE1 | DBG_GE_CTRL | MON_CFG | MON_SCALE | MON_STATUS | MON_RANGE | MON_COUNT
  | MON_BIN | BOOT_STATUS | BOOT_SLOT | PROF_STATUS | PROF_CMD | BOOT_FLASH_CMD | BOOT_FLASH_BUF | BOOT_CTR
  | BOOT_T | PWR_PINS | THM_PLATE
  deriving DecidableEq, Repr

/-- One register of the module: its name, the unit that holds it and its index in an array of registers.
`inst` is the compute die for the die-common registers, die × 34 + physical core for the per-core ones,
die × 8 + edge for Braze, the port for a port engine, the stack for a stack, die (4 for the hub) for a monitor
and 0 for the hub and the light layer; `idx` is the array index (0 where there is no array). -/
structure RegKey where
  name : RegName
  inst : Nat
  idx : Nat
  deriving DecidableEq, Repr

/-- The order in which the canonical register file lists its entries. -/
def RegKey.lt (a b : RegKey) : Bool :=
  if a.name.ctorIdx = b.name.ctorIdx then
    if a.inst = b.inst then a.idx < b.idx else a.inst < b.inst
  else a.name.ctorIdx < b.name.ctorIdx

/-- A field of a register: bits `hi` to `lo`, its access type, and whether only the management agent may change it
(R403). -/
structure Field where
  reg : RegName
  hi : Nat
  lo : Nat
  acc : Acc
  agent : Bool := false
  deriving DecidableEq, Repr

/-- The width of a field in bits. -/
def Field.width (f : Field) : Nat := f.hi + 1 - f.lo

/-! ### Fields, in the order of the spec's register tables -/

def CORE_ARRAY_ID_DIE : Field := ⟨.CORE_ARRAY_ID, 17, 16, .ro, false⟩
def CORE_ARRAY_ID_SPARED : Field := ⟨.CORE_ARRAY_ID, 15, 15, .ro, false⟩
def CORE_ARRAY_ID_LOGICAL : Field := ⟨.CORE_ARRAY_ID, 12, 8, .ro, false⟩
def CORE_ARRAY_ID_PHYSICAL : Field := ⟨.CORE_ARRAY_ID, 5, 0, .ro, false⟩
def CORE_ARRAY_CTRL_KA_START : Field := ⟨.CORE_ARRAY_CTRL, 3, 3, .wo, false⟩
def CORE_ARRAY_CTRL_CNT_CLR : Field := ⟨.CORE_ARRAY_CTRL, 2, 2, .wo, false⟩
def CORE_ARRAY_CTRL_RETIRE : Field := ⟨.CORE_ARRAY_CTRL, 1, 1, .w1s, false⟩
def CORE_ARRAY_CTRL_APPLY : Field := ⟨.CORE_ARRAY_CTRL, 0, 0, .wo, false⟩
def CORE_ARRAY_STATUS_BYPASS_COUNT : Field := ⟨.CORE_ARRAY_STATUS, 23, 16, .ro, false⟩
def CORE_ARRAY_STATUS_ROW_FAULT : Field := ⟨.CORE_ARRAY_STATUS, 10, 10, .w1c, false⟩
def CORE_ARRAY_STATUS_APPLY_ERR : Field := ⟨.CORE_ARRAY_STATUS, 9, 9, .w1c, false⟩
def CORE_ARRAY_STATUS_RETIRED : Field := ⟨.CORE_ARRAY_STATUS, 8, 8, .ro, false⟩
def CORE_ARRAY_STATUS_KA_BUSY : Field := ⟨.CORE_ARRAY_STATUS, 7, 7, .ro, false⟩
def CORE_ARRAY_STATUS_SHADOW_MODE : Field := ⟨.CORE_ARRAY_STATUS, 5, 4, .ro, false⟩
def CORE_ARRAY_STATUS_ACTIVE_MODE : Field := ⟨.CORE_ARRAY_STATUS, 3, 2, .ro, false⟩
def CORE_ARRAY_STATUS_SHADOW_VALID : Field := ⟨.CORE_ARRAY_STATUS, 1, 1, .ro, false⟩
def CORE_ARRAY_STATUS_IDLE : Field := ⟨.CORE_ARRAY_STATUS, 0, 0, .ro, false⟩
def CORE_ARRAY_COLMASK_LO_BYPASS : Field := ⟨.CORE_ARRAY_COLMASK_LO, 63, 0, .rw, false⟩
def CORE_ARRAY_COLMASK_HI_BYPASS : Field := ⟨.CORE_ARRAY_COLMASK_HI, 63, 0, .rw, false⟩
def CORE_ARRAY_WIDTH_W1 : Field := ⟨.CORE_ARRAY_WIDTH, 42, 32, .ro, false⟩
def CORE_ARRAY_WIDTH_W2 : Field := ⟨.CORE_ARRAY_WIDTH, 25, 16, .ro, false⟩
def CORE_ARRAY_WIDTH_BF16 : Field := ⟨.CORE_ARRAY_WIDTH, 14, 8, .ro, false⟩
def CORE_ARRAY_WIDTH_FP8 : Field := ⟨.CORE_ARRAY_WIDTH, 7, 0, .ro, false⟩
def CORE_ARRAY_CODEBOOK_SH_C3 : Field := ⟨.CORE_ARRAY_CODEBOOK, 31, 28, .ro, false⟩
def CORE_ARRAY_CODEBOOK_SH_C2 : Field := ⟨.CORE_ARRAY_CODEBOOK, 27, 24, .ro, false⟩
def CORE_ARRAY_CODEBOOK_SH_C1 : Field := ⟨.CORE_ARRAY_CODEBOOK, 23, 20, .ro, false⟩
def CORE_ARRAY_CODEBOOK_SH_C0 : Field := ⟨.CORE_ARRAY_CODEBOOK, 19, 16, .ro, false⟩
def CORE_ARRAY_CODEBOOK_AC_C3 : Field := ⟨.CORE_ARRAY_CODEBOOK, 15, 12, .ro, false⟩
def CORE_ARRAY_CODEBOOK_AC_C2 : Field := ⟨.CORE_ARRAY_CODEBOOK, 11, 8, .ro, false⟩
def CORE_ARRAY_CODEBOOK_AC_C1 : Field := ⟨.CORE_ARRAY_CODEBOOK, 7, 4, .ro, false⟩
def CORE_ARRAY_CODEBOOK_AC_C0 : Field := ⟨.CORE_ARRAY_CODEBOOK, 3, 0, .ro, false⟩
def CORE_ARRAY_KAFAIL_LO_FAIL : Field := ⟨.CORE_ARRAY_KAFAIL_LO, 63, 0, .w1c, false⟩
def CORE_ARRAY_KAFAIL_HI_FAIL : Field := ⟨.CORE_ARRAY_KAFAIL_HI, 63, 0, .w1c, false⟩
def CORE_ARRAY_CYC_TOTAL_COUNT : Field := ⟨.CORE_ARRAY_CYC_TOTAL, 63, 0, .ro, false⟩
def CORE_ARRAY_CYC_BUSY_COUNT : Field := ⟨.CORE_ARRAY_CYC_BUSY, 63, 0, .ro, false⟩
def CORE_ARRAY_CYC_BUBBLE_COUNT : Field := ⟨.CORE_ARRAY_CYC_BUBBLE, 63, 0, .ro, false⟩
def CORE_ARRAY_CYC_LOADWAIT_COUNT : Field := ⟨.CORE_ARRAY_CYC_LOADWAIT, 63, 0, .ro, false⟩
def CORE_ARRAY_CYC_STARVE_COUNT : Field := ⟨.CORE_ARRAY_CYC_STARVE, 63, 0, .ro, false⟩
def CORE_ARRAY_TILES_COUNT : Field := ⟨.CORE_ARRAY_TILES, 63, 0, .ro, false⟩
def GE_RSTAT_CTRL_IRQ_EN : Field := ⟨.GE_RSTAT_CTRL, 3, 3, .rw, false⟩
def GE_RSTAT_CTRL_CLR_ALL : Field := ⟨.GE_RSTAT_CTRL, 2, 2, .wo, false⟩
def GE_RSTAT_CTRL_SNAP_NOW : Field := ⟨.GE_RSTAT_CTRL, 1, 1, .wo, false⟩
def GE_RSTAT_CTRL_EN : Field := ⟨.GE_RSTAT_CTRL, 0, 0, .rw, false⟩
def GE_RSTAT_SNAP_EPOCH : Field := ⟨.GE_RSTAT_SNAP, 63, 32, .ro, false⟩
def GE_RSTAT_SNAP_SEQ : Field := ⟨.GE_RSTAT_SNAP, 31, 16, .ro, false⟩
def GE_RSTAT_SNAP_MIXED : Field := ⟨.GE_RSTAT_SNAP, 4, 4, .ro, false⟩
def GE_RSTAT_SNAP_OVERRUN : Field := ⟨.GE_RSTAT_SNAP, 3, 3, .w1c, false⟩
def GE_RSTAT_SNAP_FORCED : Field := ⟨.GE_RSTAT_SNAP, 2, 2, .ro, false⟩
def GE_RSTAT_SNAP_READY : Field := ⟨.GE_RSTAT_SNAP, 0, 0, .w1c, false⟩
def GE_RSTAT_BANK0_TAG : Field := ⟨.GE_RSTAT_BANK0, 63, 32, .ro, false⟩
def GE_RSTAT_BANK0_MIXED : Field := ⟨.GE_RSTAT_BANK0, 1, 1, .ro, false⟩
def GE_RSTAT_BANK0_NONEMPTY : Field := ⟨.GE_RSTAT_BANK0, 0, 0, .ro, false⟩
def GE_RSTAT_BANK1_TAG : Field := ⟨.GE_RSTAT_BANK1, 63, 32, .ro, false⟩
def GE_RSTAT_BANK1_MIXED : Field := ⟨.GE_RSTAT_BANK1, 1, 1, .ro, false⟩
def GE_RSTAT_BANK1_NONEMPTY : Field := ⟨.GE_RSTAT_BANK1, 0, 0, .ro, false⟩
def GE_NOISE_SEED_SEED : Field := ⟨.GE_NOISE_SEED, 63, 0, .rw, false⟩
def GE_RSTAT_SLOT_SNAP_WORD : Field := ⟨.GE_RSTAT_SLOT_SNAP, 63, 0, .ro, false⟩
def GE_RSTAT_SLOT_LIVE0_WORD : Field := ⟨.GE_RSTAT_SLOT_LIVE0, 63, 0, .ro, false⟩
def GE_RSTAT_SLOT_LIVE1_WORD : Field := ⟨.GE_RSTAT_SLOT_LIVE1, 63, 0, .ro, false⟩
def ACC_STATUS_ECC_CORR : Field := ⟨.ACC_STATUS, 63, 56, .ro, false⟩
def ACC_STATUS_FREE_UNITS : Field := ⟨.ACC_STATUS, 47, 40, .ro, false⟩
def ACC_STATUS_BOUND_TILES : Field := ⟨.ACC_STATUS, 39, 32, .ro, false⟩
def ACC_STATUS_PORT_TILE : Field := ⟨.ACC_STATUS, 27, 16, .ro, false⟩
def ACC_STATUS_RESUME_BUSY : Field := ⟨.ACC_STATUS, 2, 2, .ro, false⟩
def ACC_STATUS_SPILL_BUSY : Field := ⟨.ACC_STATUS, 1, 1, .ro, false⟩
def ACC_STATUS_DRAIN_BUSY : Field := ⟨.ACC_STATUS, 0, 0, .ro, false⟩
def ACC_CTRL_CNT_CLR : Field := ⟨.ACC_CTRL, 0, 0, .wo, false⟩
def ACC_DBG_ADDR_ENTRY : Field := ⟨.ACC_DBG_ADDR, 16, 0, .rw, false⟩
def ACC_DBG_DATA_UPPER : Field := ⟨.ACC_DBG_DATA, 63, 32, .ro, false⟩
def ACC_DBG_DATA_LOWER : Field := ⟨.ACC_DBG_DATA, 31, 0, .ro, false⟩
def ACC_DBG_FLAGS_TILE_ID : Field := ⟨.ACC_DBG_FLAGS, 31, 20, .ro, false⟩
def ACC_DBG_FLAGS_COUNT : Field := ⟨.ACC_DBG_FLAGS, 15, 8, .ro, false⟩
def ACC_DBG_FLAGS_ECC_FIXED : Field := ⟨.ACC_DBG_FLAGS, 4, 4, .ro, false⟩
def ACC_DBG_FLAGS_ECC_ERR : Field := ⟨.ACC_DBG_FLAGS, 3, 3, .ro, false⟩
def ACC_DBG_FLAGS_PAIR : Field := ⟨.ACC_DBG_FLAGS, 2, 2, .ro, false⟩
def ACC_DBG_FLAGS_BOUND : Field := ⟨.ACC_DBG_FLAGS, 1, 1, .ro, false⟩
def ACC_DBG_FLAGS_IN_FLIGHT : Field := ⟨.ACC_DBG_FLAGS, 0, 0, .ro, false⟩
def OUT_CYC_BUSY_COUNT : Field := ⟨.OUT_CYC_BUSY, 63, 0, .ro, false⟩
def OUT_CYC_STALL_COUNT : Field := ⟨.OUT_CYC_STALL, 63, 0, .ro, false⟩
def GE_CTRL_TEST_EN : Field := ⟨.GE_CTRL, 1, 1, .rw, false⟩
def GE_CTRL_EN : Field := ⟨.GE_CTRL, 0, 0, .rw, false⟩
def GE_GRAPH_BASE_BASE : Field := ⟨.GE_GRAPH_BASE, 43, 23, .rw, false⟩
def GE_DOORBELL_OP : Field := ⟨.GE_DOORBELL, 63, 62, .wo, false⟩
def GE_DOORBELL_G : Field := ⟨.GE_DOORBELL, 51, 48, .wo, false⟩
def GE_DOORBELL_COUNT : Field := ⟨.GE_DOORBELL, 32, 16, .wo, false⟩
def GE_DOORBELL_START : Field := ⟨.GE_DOORBELL, 15, 0, .wo, false⟩
def GE_CANCEL_CANCEL : Field := ⟨.GE_CANCEL, 8, 8, .wo, false⟩
def GE_CANCEL_REGION : Field := ⟨.GE_CANCEL, 7, 0, .wo, false⟩
def GE_QUANTUM_QUANTUM_US : Field := ⟨.GE_QUANTUM, 15, 0, .rw, false⟩
def GE_CORE_HOLD_HOLD : Field := ⟨.GE_CORE_HOLD, 31, 0, .w1s, false⟩
def GE_CORE_RELEASE_RELEASE : Field := ⟨.GE_CORE_RELEASE, 31, 0, .wo, false⟩
def GE_CORE_STATE_CORES : Field := ⟨.GE_CORE_STATE, 63, 0, .ro, false⟩
def GE_UNPLACED_VALID : Field := ⟨.GE_UNPLACED, 63, 63, .w1c, false⟩
def GE_UNPLACED_G : Field := ⟨.GE_UNPLACED, 51, 48, .ro, false⟩
def GE_UNPLACED_TASK : Field := ⟨.GE_UNPLACED, 15, 0, .ro, false⟩
def GE_LIVE_READY : Field := ⟨.GE_LIVE, 48, 32, .ro, false⟩
def GE_LIVE_LIVE : Field := ⟨.GE_LIVE, 16, 0, .ro, false⟩
def GE_TEST_CFG_KA_GAP_S : Field := ⟨.GE_TEST_CFG, 63, 48, .rw, false⟩
def GE_TEST_CFG_GRACE_MIN : Field := ⟨.GE_TEST_CFG, 47, 32, .rw, false⟩
def GE_TEST_CFG_STRUCT_MIN : Field := ⟨.GE_TEST_CFG, 31, 16, .rw, false⟩
def GE_TEST_CFG_KA_S : Field := ⟨.GE_TEST_CFG, 15, 0, .rw, false⟩
def GE_GRAPH_STATUS_STATE : Field := ⟨.GE_GRAPH_STATUS, 63, 61, .ro, false⟩
def GE_GRAPH_STATUS_UNPLACEABLE : Field := ⟨.GE_GRAPH_STATUS, 60, 60, .ro, false⟩
def GE_GRAPH_STATUS_ERR_CODE : Field := ⟨.GE_GRAPH_STATUS, 55, 48, .ro, false⟩
def GE_GRAPH_STATUS_ERR_TASK : Field := ⟨.GE_GRAPH_STATUS, 47, 32, .ro, false⟩
def GE_GRAPH_STATUS_REMAINING : Field := ⟨.GE_GRAPH_STATUS, 16, 0, .ro, false⟩
def GE_REGION_BUSY_BUSY : Field := ⟨.GE_REGION_BUSY, 63, 0, .ro, false⟩
def GE_TEST_DUE_DUE : Field := ⟨.GE_TEST_DUE, 63, 0, .rw, false⟩
def GE_TOKEN_COUNT : Field := ⟨.GE_TOKEN, 31, 0, .rw, false⟩
def FE_CFG_HORIZON : Field := ⟨.FE_CFG, 20, 16, .rw, false⟩
def FE_CFG_MERGE_EN : Field := ⟨.FE_CFG, 0, 0, .rw, false⟩
def FE_STAGE_SIZE : Field := ⟨.FE_STAGE, 22, 16, .rw, false⟩
def FE_STAGE_BASE : Field := ⟨.FE_STAGE, 5, 0, .rw, false⟩
def FE_STATUS_FUSED : Field := ⟨.FE_STATUS, 55, 55, .ro, false⟩
def FE_STATUS_STAGES : Field := ⟨.FE_STATUS, 51, 48, .ro, false⟩
def FE_STATUS_ITEM : Field := ⟨.FE_STATUS, 47, 24, .ro, false⟩
def FE_STATUS_QUEUED : Field := ⟨.FE_STATUS, 20, 16, .ro, false⟩
def FE_STATUS_ENTRIES : Field := ⟨.FE_STATUS, 8, 0, .ro, false⟩
def FE_CTRL_CNT_CLR : Field := ⟨.FE_CTRL, 0, 0, .wo, false⟩
def FE_RD_BYTES_COUNT : Field := ⟨.FE_RD_BYTES, 63, 0, .ro, false⟩
def FE_RD_REQ_COUNT : Field := ⟨.FE_RD_REQ, 63, 0, .ro, false⟩
def FE_RD_DISCARD_COUNT : Field := ⟨.FE_RD_DISCARD, 63, 0, .ro, false⟩
def FE_CYC_ENTRIES_FULL_COUNT : Field := ⟨.FE_CYC_ENTRIES_FULL, 63, 0, .ro, false⟩
def FE_CYC_SPACE_COUNT : Field := ⟨.FE_CYC_SPACE, 63, 0, .ro, false⟩
def FE_STG_FULL_COUNT : Field := ⟨.FE_STG_FULL, 63, 0, .ro, false⟩
def FE_STG_EMPTY_COUNT : Field := ⟨.FE_STG_EMPTY, 63, 0, .ro, false⟩
def CRU_CTRL_CNT_CLR : Field := ⟨.CRU_CTRL, 2, 2, .wo, false⟩
def CRU_CTRL_SCRUB_EN : Field := ⟨.CRU_CTRL, 1, 1, .rw, false⟩
def CRU_CTRL_RT_PUBLISH : Field := ⟨.CRU_CTRL, 0, 0, .wo, false⟩
def CRU_STATUS_COMP_LOST : Field := ⟨.CRU_STATUS, 63, 48, .ro, false⟩
def CRU_STATUS_RT_ENTRY : Field := ⟨.CRU_STATUS, 15, 10, .ro, false⟩
def CRU_STATUS_RT_ERR : Field := ⟨.CRU_STATUS, 5, 2, .ro, false⟩
def CRU_STATUS_RT_PENDING : Field := ⟨.CRU_STATUS, 1, 1, .ro, false⟩
def CRU_STATUS_RT_VALID : Field := ⟨.CRU_STATUS, 0, 0, .ro, false⟩
def CRU_SEED_SEED : Field := ⟨.CRU_SEED, 63, 0, .rw, false⟩
def CRU_THERM_CAP_PCT : Field := ⟨.CRU_THERM, 55, 48, .rw, false⟩
def CRU_THERM_STATE : Field := ⟨.CRU_THERM, 33, 32, .ro, false⟩
def CRU_THERM_TEMP : Field := ⟨.CRU_THERM, 15, 0, .ro, false⟩
def CRU_ECC_CORR : Field := ⟨.CRU_ECC, 63, 32, .ro, false⟩
def CRU_ECC_UNCORR : Field := ⟨.CRU_ECC, 31, 16, .ro, false⟩
def CRU_ECC_LAST_VALID : Field := ⟨.CRU_ECC_LAST, 63, 63, .w1c, false⟩
def CRU_ECC_LAST_UNCORR : Field := ⟨.CRU_ECC_LAST, 62, 62, .ro, false⟩
def CRU_ECC_LAST_CHANNEL : Field := ⟨.CRU_ECC_LAST, 30, 26, .ro, false⟩
def CRU_ECC_LAST_ROWG : Field := ⟨.CRU_ECC_LAST, 25, 7, .ro, false⟩
def CRU_ECC_LAST_GRAN : Field := ⟨.CRU_ECC_LAST, 6, 0, .ro, false⟩
def CRU_WCB_FLUSH : Field := ⟨.CRU_WCB, 63, 63, .wo, false⟩
def CRU_WCB_OCCUPANCY : Field := ⟨.CRU_WCB, 8, 0, .ro, false⟩
def CRU_REGION_A_VALID : Field := ⟨.CRU_REGION_A, 63, 63, .rw, false⟩
def CRU_REGION_A_IL : Field := ⟨.CRU_REGION_A, 62, 61, .rw, false⟩
def CRU_REGION_A_DIE : Field := ⟨.CRU_REGION_A, 60, 59, .rw, false⟩
def CRU_REGION_A_COMP : Field := ⟨.CRU_REGION_A, 58, 56, .rw, false⟩
def CRU_REGION_A_VER : Field := ⟨.CRU_REGION_A, 55, 55, .rw, false⟩
def CRU_REGION_A_RND : Field := ⟨.CRU_REGION_A, 54, 54, .rw, false⟩
def CRU_REGION_A_ELEM : Field := ⟨.CRU_REGION_A, 53, 50, .rw, false⟩
def CRU_REGION_A_LRATIO : Field := ⟨.CRU_REGION_A, 49, 44, .rw, false⟩
def CRU_REGION_A_BASE : Field := ⟨.CRU_REGION_A, 43, 21, .rw, false⟩
def CRU_REGION_B_CHOFF : Field := ⟨.CRU_REGION_B, 47, 32, .rw, false⟩
def CRU_REGION_B_SIZE : Field := ⟨.CRU_REGION_B, 15, 0, .rw, false⟩
def CRU_ROW_DST_LEN_G : Field := ⟨.CRU_ROW_DST, 63, 44, .ro, false⟩
def CRU_ROW_DST_DST : Field := ⟨.CRU_ROW_DST, 43, 0, .ro, false⟩
def CRU_ROW_CFG_VALID : Field := ⟨.CRU_ROW_CFG, 63, 63, .ro, false⟩
def CRU_ROW_CFG_FMT : Field := ⟨.CRU_ROW_CFG, 62, 61, .ro, false⟩
def CRU_ROW_CFG_INIT : Field := ⟨.CRU_ROW_CFG, 60, 60, .ro, false⟩
def CRU_ROW_CFG_RND : Field := ⟨.CRU_ROW_CFG, 59, 59, .ro, false⟩
def CRU_ROW_CFG_DIG : Field := ⟨.CRU_ROW_CFG, 58, 58, .ro, false⟩
def CRU_ROW_CFG_STAT : Field := ⟨.CRU_ROW_CFG, 57, 57, .ro, false⟩
def CRU_ROW_CFG_SLOT : Field := ⟨.CRU_ROW_CFG, 56, 47, .ro, false⟩
def CRU_ROW_CFG_NCONTRIB : Field := ⟨.CRU_ROW_CFG, 43, 32, .ro, false⟩
def CRU_ROW_CFG_TENSOR : Field := ⟨.CRU_ROW_CFG, 31, 0, .ro, false⟩
def CRU_ROW_PARK_PARK_SLOTS : Field := ⟨.CRU_ROW_PARK, 63, 48, .ro, false⟩
def CRU_ROW_PARK_PARK : Field := ⟨.CRU_ROW_PARK, 43, 0, .ro, false⟩
def CRU_ROW_STATE_DONE : Field := ⟨.CRU_ROW_STATE, 63, 44, .ro, false⟩
def CRU_ROW_STATE_PARKED : Field := ⟨.CRU_ROW_STATE, 43, 28, .ro, false⟩
def CRU_ROW_STATE_COMPLETE : Field := ⟨.CRU_ROW_STATE, 0, 0, .ro, false⟩
def CRU_UPD_STATUS_PROG : Field := ⟨.CRU_UPD_STATUS, 63, 58, .ro, false⟩
def CRU_UPD_STATUS_BUSY : Field := ⟨.CRU_UPD_STATUS, 57, 57, .ro, false⟩
def CRU_UPD_STATUS_STOPPED : Field := ⟨.CRU_UPD_STATUS, 56, 56, .w1c, false⟩
def CRU_UPD_STATUS_DONE : Field := ⟨.CRU_UPD_STATUS, 39, 0, .ro, false⟩
def CRU_UPD_PROG_OP_HI : Field := ⟨.CRU_UPD_PROG, 63, 32, .rw, false⟩
def CRU_UPD_PROG_OP_LO : Field := ⟨.CRU_UPD_PROG, 31, 0, .rw, false⟩
def CRU_VER_CFG_FORCE_MS : Field := ⟨.CRU_VER_CFG, 47, 32, .rw, false⟩
def CRU_VER_CFG_RESERVE : Field := ⟨.CRU_VER_CFG, 15, 0, .rw, false⟩
def CRU_VER_STATUS_FORCED_EPOCH : Field := ⟨.CRU_VER_STATUS, 63, 32, .ro, false⟩
def CRU_VER_STATUS_FORCED : Field := ⟨.CRU_VER_STATUS, 31, 31, .w1c, false⟩
def CRU_VER_STATUS_ABANDONED : Field := ⟨.CRU_VER_STATUS, 30, 30, .w1c, false⟩
def CRU_VER_STATUS_WAITING : Field := ⟨.CRU_VER_STATUS, 29, 29, .ro, false⟩
def CRU_VER_STATUS_FREE : Field := ⟨.CRU_VER_STATUS, 15, 0, .ro, false⟩
def CRU_MARGIN_CTRL_GO : Field := ⟨.CRU_MARGIN_CTRL, 63, 63, .wo, false⟩
def CRU_MARGIN_CTRL_TARGET : Field := ⟨.CRU_MARGIN_CTRL, 62, 62, .rw, false⟩
def CRU_MARGIN_CTRL_UNIT : Field := ⟨.CRU_MARGIN_CTRL, 55, 48, .rw, false⟩
def CRU_MARGIN_CTRL_T_OFF : Field := ⟨.CRU_MARGIN_CTRL, 47, 40, .rw, false⟩
def CRU_MARGIN_CTRL_V_OFF : Field := ⟨.CRU_MARGIN_CTRL, 39, 32, .rw, false⟩
def CRU_MARGIN_CTRL_BITS_LOG2 : Field := ⟨.CRU_MARGIN_CTRL, 31, 0, .rw, false⟩
def CRU_MARGIN_RESULT_DONE : Field := ⟨.CRU_MARGIN_RESULT, 63, 63, .ro, false⟩
def CRU_MARGIN_RESULT_ERRORS : Field := ⟨.CRU_MARGIN_RESULT, 47, 0, .ro, false⟩
def BRZ_CFG_PERSIST : Field := ⟨.BRZ_CFG, 39, 32, .rw, false⟩
def BRZ_CFG_RETIRE_THR : Field := ⟨.BRZ_CFG, 31, 16, .rw, false⟩
def BRZ_CFG_RETIRE : Field := ⟨.BRZ_CFG, 7, 0, .w1s, false⟩
def BRZ_STATUS_PEER : Field := ⟨.BRZ_STATUS, 63, 61, .ro, false⟩
def BRZ_STATUS_PEER_IDX : Field := ⟨.BRZ_STATUS, 60, 56, .ro, false⟩
def BRZ_STATUS_STATE : Field := ⟨.BRZ_STATUS, 41, 40, .ro, false⟩
def BRZ_STATUS_MARGIN : Field := ⟨.BRZ_STATUS, 39, 32, .ro, false⟩
def BRZ_STATUS_TRAIN_FAIL : Field := ⟨.BRZ_STATUS, 31, 24, .ro, false⟩
def BRZ_STATUS_RETIRED : Field := ⟨.BRZ_STATUS, 23, 16, .ro, false⟩
def BRZ_STATUS_ACTIVE : Field := ⟨.BRZ_STATUS, 7, 0, .ro, false⟩
def BRZ_REPLAY_COUNT : Field := ⟨.BRZ_REPLAY, 63, 0, .ro, false⟩
def BRZ_CTRL_CNT_CLR : Field := ⟨.BRZ_CTRL, 0, 0, .wo, false⟩
def BRZ_CRC_ERR_COUNT : Field := ⟨.BRZ_CRC_ERR, 63, 0, .ro, false⟩
def BOOT_CLK_STATUS_LOST : Field := ⟨.BOOT_CLK_STATUS, 63, 46, .w1c, false⟩
def BOOT_CLK_STATUS_ROOT_LOCK : Field := ⟨.BOOT_CLK_STATUS, 31, 31, .ro, false⟩
def BOOT_CLK_STATUS_ROOT_LOST : Field := ⟨.BOOT_CLK_STATUS, 30, 30, .w1c, false⟩
def BOOT_CLK_STATUS_ARRAY_HALF : Field := ⟨.BOOT_CLK_STATUS, 29, 26, .ro, false⟩
def BOOT_CLK_STATUS_LOCK : Field := ⟨.BOOT_CLK_STATUS, 17, 0, .ro, false⟩
def BOOT_RST_CTRL_SEQ_GO : Field := ⟨.BOOT_RST_CTRL, 63, 63, .wo, false⟩
def BOOT_RST_CTRL_DOMAIN_RST : Field := ⟨.BOOT_RST_CTRL, 17, 0, .wo, false⟩
def BOOT_RST_STATUS_PHASE : Field := ⟨.BOOT_RST_STATUS, 63, 61, .ro, false⟩
def BOOT_RST_STATUS_SEQ_DONE : Field := ⟨.BOOT_RST_STATUS, 60, 60, .ro, false⟩
def BOOT_RST_STATUS_REFUSED : Field := ⟨.BOOT_RST_STATUS, 59, 59, .w1c, false⟩
def BOOT_RST_STATUS_STOPPED : Field := ⟨.BOOT_RST_STATUS, 58, 58, .ro, false⟩
def BOOT_RST_STATUS_CAUSE : Field := ⟨.BOOT_RST_STATUS, 57, 56, .ro, false⟩
def BOOT_RST_STATUS_IN_RESET : Field := ⟨.BOOT_RST_STATUS, 17, 0, .ro, false⟩
def LL_CTRL_FF_EN : Field := ⟨.LL_CTRL, 3, 3, .rw, false⟩
def LL_CTRL_ROT_EN : Field := ⟨.LL_CTRL, 2, 2, .rw, false⟩
def LL_CTRL_LOC_EN : Field := ⟨.LL_CTRL, 1, 1, .rw, false⟩
def LL_CTRL_CNT_CLR : Field := ⟨.LL_CTRL, 0, 0, .wo, false⟩
def LL_STATUS_DR_ACTIVE : Field := ⟨.LL_STATUS, 47, 40, .ro, false⟩
def LL_STATUS_UNLOCKED : Field := ⟨.LL_STATUS, 24, 16, .ro, false⟩
def LL_STATUS_START_PHASE : Field := ⟨.LL_STATUS, 7, 4, .ro, false⟩
def LL_STATUS_DR_SPARE_BUSY : Field := ⟨.LL_STATUS, 3, 3, .ro, false⟩
def LL_STATUS_FF_VALID : Field := ⟨.LL_STATUS, 2, 2, .ro, false⟩
def LL_STATUS_STOPPED : Field := ⟨.LL_STATUS, 1, 1, .ro, false⟩
def LL_STATUS_READY : Field := ⟨.LL_STATUS, 0, 0, .ro, false⟩
def LL_ROT_CFG_SLOT_MS : Field := ⟨.LL_ROT_CFG, 31, 0, .rw, false⟩
def LL_FF_GAIN : Field := ⟨.LL_FF, 63, 48, .rw, false⟩
def LL_FF_TAU_US : Field := ⟨.LL_FF, 47, 32, .rw, false⟩
def LL_FF_DEAD_US : Field := ⟨.LL_FF, 31, 24, .rw, false⟩
def LL_FF_VALID : Field := ⟨.LL_FF, 0, 0, .ro, false⟩
def LC_CFG_BOUNDARY_MS : Field := ⟨.LC_CFG, 63, 48, .rw, false⟩
def LC_CFG_HARD_DB : Field := ⟨.LC_CFG, 31, 24, .rw, false⟩
def LC_CFG_TARNISH_DB : Field := ⟨.LC_CFG, 23, 16, .rw, false⟩
def LC_CFG_DROPOUT_DB : Field := ⟨.LC_CFG, 15, 8, .rw, false⟩
def LC_CFG_SWBACK_EN : Field := ⟨.LC_CFG, 0, 0, .rw, false⟩
def LC_ROUTE_CMD : Field := ⟨.LC_ROUTE, 7, 6, .wo, false⟩
def LC_ROUTE_AT_BOUNDARY : Field := ⟨.LC_ROUTE, 5, 5, .wo, false⟩
def LC_ROUTE_PENDING : Field := ⟨.LC_ROUTE, 4, 4, .ro, false⟩
def LC_ROUTE_A_SRC : Field := ⟨.LC_ROUTE, 3, 2, .ro, false⟩
def LC_ROUTE_B_SRC : Field := ⟨.LC_ROUTE, 1, 0, .ro, false⟩
def LC_STATUS_PRESENT : Field := ⟨.LC_STATUS, 63, 63, .ro, false⟩
def LC_STATUS_LATCH : Field := ⟨.LC_STATUS, 62, 62, .ro, false⟩
def LC_STATUS_STATE : Field := ⟨.LC_STATUS, 61, 60, .ro, false⟩
def LC_STATUS_TARNISH : Field := ⟨.LC_STATUS, 59, 59, .w1c, false⟩
def LC_STATUS_HARD : Field := ⟨.LC_STATUS, 58, 58, .w1c, false⟩
def LC_STATUS_WORST_LINE : Field := ⟨.LC_STATUS, 57, 53, .ro, false⟩
def LC_STATUS_WORST_DB : Field := ⟨.LC_STATUS, 47, 32, .ro, false⟩
def LC_STATUS_SERIAL : Field := ⟨.LC_STATUS, 31, 0, .ro, false⟩
def LL_LOSS_VALID : Field := ⟨.LL_LOSS, 63, 63, .w1c, false⟩
def LL_LOSS_STAGE : Field := ⟨.LL_LOSS, 62, 60, .ro, false⟩
def LL_LOSS_PORT : Field := ⟨.LL_LOSS, 59, 57, .ro, false⟩
def LL_LOSS_LINE : Field := ⟨.LL_LOSS, 56, 52, .ro, false⟩
def LL_LOSS_EXCESS : Field := ⟨.LL_LOSS, 47, 32, .ro, false⟩
def LL_MON_CFG_STEP : Field := ⟨.LL_MON_CFG, 15, 0, .rw, false⟩
def LL_RING_HEATER : Field := ⟨.LL_RING, 63, 48, .ro, false⟩
def LL_RING_DETUNE : Field := ⟨.LL_RING, 47, 32, .ro, false⟩
def LL_RING_RELOCKS : Field := ⟨.LL_RING, 31, 16, .ro, false⟩
def LL_RING_STATE : Field := ⟨.LL_RING, 1, 0, .ro, false⟩
def PORT_STATUS_SPARE_FOR : Field := ⟨.PORT_STATUS, 55, 51, .ro, false⟩
def PORT_STATUS_SPARE_USE : Field := ⟨.PORT_STATUS, 50, 48, .ro, false⟩
def PORT_STATUS_ACTIVE : Field := ⟨.PORT_STATUS, 47, 32, .ro, false⟩
def PORT_STATUS_FAILED : Field := ⟨.PORT_STATUS, 31, 16, .ro, false⟩
def PORT_STATUS_LOS : Field := ⟨.PORT_STATUS, 4, 4, .ro, false⟩
def PORT_STATUS_HOLD : Field := ⟨.PORT_STATUS, 3, 3, .ro, false⟩
def PORT_STATUS_PORT : Field := ⟨.PORT_STATUS, 2, 0, .ro, false⟩
def PORT_CFG_LOS_MS : Field := ⟨.PORT_CFG, 15, 8, .rw, false⟩
def PORT_CFG_CAL_EN : Field := ⟨.PORT_CFG, 0, 0, .rw, false⟩
def PORT_LANE_CAL_AGE_S : Field := ⟨.PORT_LANE, 63, 48, .ro, false⟩
def PORT_LANE_MARGIN : Field := ⟨.PORT_LANE, 47, 32, .ro, false⟩
def PORT_LANE_CAL_FAILS : Field := ⟨.PORT_LANE, 31, 16, .ro, false⟩
def PORT_LANE_STATE : Field := ⟨.PORT_LANE, 1, 0, .ro, false⟩
def PORT_MON_S_DBM : Field := ⟨.PORT_MON, 63, 48, .ro, false⟩
def PORT_MON_M_DBM : Field := ⟨.PORT_MON, 47, 32, .ro, false⟩
def PORT_MON_R_DBM : Field := ⟨.PORT_MON, 31, 16, .ro, false⟩
def PORT_MON_R_FAR_DBM : Field := ⟨.PORT_MON, 15, 0, .ro, false⟩
def PORT_MON_F_F_DBM : Field := ⟨.PORT_MON_F, 63, 48, .ro, false⟩
def PORT_IL_CFG_ACK_TO_US : Field := ⟨.PORT_IL_CFG, 47, 32, .rw, false⟩
def PORT_IL_CFG_RETRY_MAX : Field := ⟨.PORT_IL_CFG, 31, 16, .rw, false⟩
def PORT_IL_CFG_EN : Field := ⟨.PORT_IL_CFG, 0, 0, .rw, false⟩
def PORT_IL_STATUS_STATE : Field := ⟨.PORT_IL_STATUS, 63, 61, .ro, false⟩
def PORT_IL_STATUS_NPORT : Field := ⟨.PORT_IL_STATUS, 60, 58, .ro, false⟩
def PORT_IL_STATUS_FAULT : Field := ⟨.PORT_IL_STATUS, 57, 57, .w1c, false⟩
def PORT_IL_STATUS_BADSIG : Field := ⟨.PORT_IL_STATUS, 56, 56, .w1c, false⟩
def PORT_IL_STATUS_FAULT_KIND : Field := ⟨.PORT_IL_STATUS, 55, 52, .ro, false⟩
def PORT_IL_STATUS_TX_UNACK : Field := ⟨.PORT_IL_STATUS, 31, 12, .ro, false⟩
def PORT_IL_NEIGH_ID : Field := ⟨.PORT_IL_NEIGH, 63, 0, .ro, false⟩
def PORT_IL_NEIGH_INFO_FEED : Field := ⟨.PORT_IL_NEIGH_INFO, 63, 56, .ro, false⟩
def PORT_IL_NEIGH_INFO_NX : Field := ⟨.PORT_IL_NEIGH_INFO, 55, 48, .ro, false⟩
def PORT_IL_NEIGH_INFO_NY : Field := ⟨.PORT_IL_NEIGH_INFO, 47, 40, .ro, false⟩
def PORT_IL_NEIGH_INFO_NZ : Field := ⟨.PORT_IL_NEIGH_INFO, 39, 32, .ro, false⟩
def PORT_IL_NEIGH_INFO_GEN : Field := ⟨.PORT_IL_NEIGH_INFO, 31, 0, .ro, false⟩
def PORT_IL_CTRL_CNT_CLR : Field := ⟨.PORT_IL_CTRL, 0, 0, .wo, false⟩
def PORT_IL_RETRY_COUNT : Field := ⟨.PORT_IL_RETRY, 63, 0, .ro, false⟩
def PORT_IL_CRC_ERR_COUNT : Field := ⟨.PORT_IL_CRC_ERR, 63, 0, .ro, false⟩
def PORT_IL_DROP_COUNT : Field := ⟨.PORT_IL_DROP, 63, 0, .ro, false⟩
def PORT_IL_STOMP_COUNT : Field := ⟨.PORT_IL_STOMP, 63, 0, .ro, false⟩
def PORT_IL_LINKDOWN_COUNT : Field := ⟨.PORT_IL_LINKDOWN, 63, 0, .ro, false⟩
def PORT_IL_TX_BYTES_COUNT : Field := ⟨.PORT_IL_TX_BYTES, 63, 0, .ro, false⟩
def PORT_IL_RX_BYTES_COUNT : Field := ⟨.PORT_IL_RX_BYTES, 63, 0, .ro, false⟩
def PORT_MOD_ID_ID : Field := ⟨.PORT_MOD_ID, 63, 0, .ro, false⟩
def PORT_MOD_COORD_VALID : Field := ⟨.PORT_MOD_COORD, 63, 63, .ro, false⟩
def PORT_MOD_COORD_FAULT : Field := ⟨.PORT_MOD_COORD, 62, 62, .ro, false⟩
def PORT_MOD_COORD_CLOSED_X : Field := ⟨.PORT_MOD_COORD, 61, 61, .ro, false⟩
def PORT_MOD_COORD_CLOSED_Y : Field := ⟨.PORT_MOD_COORD, 60, 60, .ro, false⟩
def PORT_MOD_COORD_CLOSED_Z : Field := ⟨.PORT_MOD_COORD, 59, 59, .ro, false⟩
def PORT_MOD_COORD_LX_M1 : Field := ⟨.PORT_MOD_COORD, 47, 40, .ro, false⟩
def PORT_MOD_COORD_LY_M1 : Field := ⟨.PORT_MOD_COORD, 39, 32, .ro, false⟩
def PORT_MOD_COORD_LZ_M1 : Field := ⟨.PORT_MOD_COORD, 31, 24, .ro, false⟩
def PORT_MOD_COORD_X : Field := ⟨.PORT_MOD_COORD, 23, 16, .ro, false⟩
def PORT_MOD_COORD_Y : Field := ⟨.PORT_MOD_COORD, 15, 8, .ro, false⟩
def PORT_MOD_COORD_Z : Field := ⟨.PORT_MOD_COORD, 7, 0, .ro, false⟩
def PORT_MOD_DISC_GEN : Field := ⟨.PORT_MOD_DISC, 63, 32, .ro, false⟩
def PORT_MOD_DISC_PHASE : Field := ⟨.PORT_MOD_DISC, 31, 28, .ro, false⟩
def PORT_MOD_ORIGIN_ID : Field := ⟨.PORT_MOD_ORIGIN, 63, 0, .ro, false⟩
def PORT_MOD_CFG_SETTLE_MS : Field := ⟨.PORT_MOD_CFG, 47, 32, .rw, false⟩
def PORT_MOD_CFG_PIN_EN : Field := ⟨.PORT_MOD_CFG, 1, 1, .rw, false⟩
def PORT_MOD_CFG_DISC_EN : Field := ⟨.PORT_MOD_CFG, 0, 0, .rw, false⟩
def PORT_MOD_PIN_ORIGIN : Field := ⟨.PORT_MOD_PIN, 63, 0, .rw, false⟩
def PORT_MOD_JOB_TRANSIT_PCT : Field := ⟨.PORT_MOD_JOB, 47, 40, .rw, true⟩
def PORT_MOD_JOB_JOB : Field := ⟨.PORT_MOD_JOB, 15, 0, .rw, false⟩
def PORT_MOD_SHARE_W4 : Field := ⟨.PORT_MOD_SHARE, 23, 16, .rw, false⟩
def PORT_MOD_SHARE_W1 : Field := ⟨.PORT_MOD_SHARE, 15, 8, .rw, false⟩
def PORT_MOD_SHARE_W0 : Field := ⟨.PORT_MOD_SHARE, 7, 0, .rw, false⟩
def PORT_MOD_PERMIT_VALID : Field := ⟨.PORT_MOD_PERMIT, 63, 63, .rw, true⟩
def PORT_MOD_PERMIT_JOB : Field := ⟨.PORT_MOD_PERMIT, 15, 0, .rw, false⟩
def COL_CFG_STALL_MS : Field := ⟨.COL_CFG, 47, 32, .rw, false⟩
def COL_CFG_CREDIT_CHUNKS : Field := ⟨.COL_CFG, 31, 16, .rw, false⟩
def COL_STATUS_WAITING : Field := ⟨.COL_STATUS, 31, 16, .ro, false⟩
def COL_STATUS_BUSY : Field := ⟨.COL_STATUS, 15, 0, .ro, false⟩
def COL_CTRL_CNT_CLR : Field := ⟨.COL_CTRL, 0, 0, .wo, false⟩
def COL_FAIL_VALID : Field := ⟨.COL_FAIL, 63, 63, .w1c, false⟩
def COL_FAIL_CODE : Field := ⟨.COL_FAIL, 55, 48, .ro, false⟩
def COL_FAIL_CHAN : Field := ⟨.COL_FAIL, 43, 40, .ro, false⟩
def COL_FAIL_G : Field := ⟨.COL_FAIL, 19, 16, .ro, false⟩
def COL_FAIL_TASK : Field := ⟨.COL_FAIL, 15, 0, .ro, false⟩
def AS_CHECKS_COUNT : Field := ⟨.AS_CHECKS, 63, 0, .ro, false⟩
def AS_MISMATCH_COUNT : Field := ⟨.AS_MISMATCH, 63, 0, .ro, false⟩
def AS_LAST_VALID : Field := ⟨.AS_LAST, 63, 63, .w1c, false⟩
def AS_LAST_RESOLVED : Field := ⟨.AS_LAST, 62, 62, .ro, false⟩
def AS_LAST_CHAN : Field := ⟨.AS_LAST, 31, 28, .ro, false⟩
def AS_LAST_SRC_DIE : Field := ⟨.AS_LAST, 26, 24, .ro, false⟩
def AS_LAST_SRC : Field := ⟨.AS_LAST, 23, 0, .ro, false⟩
def COL_CHAN_DISCARDED : Field := ⟨.COL_CHAN, 63, 32, .ro, false⟩
def COL_CHAN_STAGE : Field := ⟨.COL_CHAN, 27, 26, .ro, false⟩
def COL_CHAN_STATE : Field := ⟨.COL_CHAN, 25, 24, .ro, false⟩
def COL_CHAN_G : Field := ⟨.COL_CHAN, 19, 16, .ro, false⟩
def COL_CHAN_TASK : Field := ⟨.COL_CHAN, 15, 0, .ro, false⟩
def COL_SEAL_CFG_SEAL_MS : Field := ⟨.COL_SEAL_CFG, 47, 32, .rw, false⟩
def COL_SEAL_CFG_CARRIED : Field := ⟨.COL_SEAL_CFG, 2, 0, .rw, false⟩
def COL_SEAL_STATE_EPOCH : Field := ⟨.COL_SEAL_STATE, 63, 32, .ro, false⟩
def COL_SEAL_STATE_OWN : Field := ⟨.COL_SEAL_STATE, 31, 30, .ro, false⟩
def COL_SEAL_STATE_COMBINED : Field := ⟨.COL_SEAL_STATE, 29, 28, .ro, false⟩
def COL_SEAL_STATE_ROUND : Field := ⟨.COL_SEAL_STATE, 27, 24, .ro, false⟩
def COL_SEAL_STATE_RETRACTING : Field := ⟨.COL_SEAL_STATE, 23, 23, .ro, false⟩
def COL_SEAL_STATE_RETRACT_DONE : Field := ⟨.COL_SEAL_STATE, 22, 22, .w1c, false⟩
def COL_CHECK_EPOCH : Field := ⟨.COL_CHECK, 63, 32, .wo, false⟩
def COL_CHECK_VERDICT : Field := ⟨.COL_CHECK, 31, 30, .wo, false⟩
def COL_CHECK_ROUND : Field := ⟨.COL_CHECK, 29, 29, .wo, false⟩
def COL_CHECK_SUSPECT_DIE : Field := ⟨.COL_CHECK, 26, 24, .wo, false⟩
def COL_CHECK_SUSPECT : Field := ⟨.COL_CHECK, 23, 0, .wo, false⟩
def COL_RETRACT_EPOCH : Field := ⟨.COL_RETRACT, 63, 32, .ro, false⟩
def COL_RETRACT_REASON : Field := ⟨.COL_RETRACT, 31, 28, .ro, false⟩
def COL_RETRACT_VALID : Field := ⟨.COL_RETRACT, 27, 27, .w1c, false⟩
def COL_RETRACT_SUSPECT_DIE : Field := ⟨.COL_RETRACT, 26, 24, .ro, false⟩
def COL_RETRACT_SUSPECT : Field := ⟨.COL_RETRACT, 23, 0, .ro, false⟩
def COL_SEAL_NBR_VALID : Field := ⟨.COL_SEAL_NBR, 63, 63, .rw, false⟩
def COL_SEAL_NBR_X : Field := ⟨.COL_SEAL_NBR, 23, 16, .rw, false⟩
def COL_SEAL_NBR_Y : Field := ⟨.COL_SEAL_NBR, 15, 8, .rw, false⟩
def COL_SEAL_NBR_Z : Field := ⟨.COL_SEAL_NBR, 7, 0, .rw, false⟩
def ING_CTRL_CNT_CLR : Field := ⟨.ING_CTRL, 3, 3, .wo, false⟩
def ING_CTRL_RESTORE : Field := ⟨.ING_CTRL, 2, 2, .wo, false⟩
def ING_CTRL_ABORT : Field := ⟨.ING_CTRL, 1, 1, .wo, false⟩
def ING_CTRL_EN : Field := ⟨.ING_CTRL, 0, 0, .rw, false⟩
def ING_STATUS_LAST_EPOCH : Field := ⟨.ING_STATUS, 63, 32, .ro, false⟩
def ING_STATUS_SERIAL : Field := ⟨.ING_STATUS, 31, 16, .ro, false⟩
def ING_STATUS_STATE : Field := ⟨.ING_STATUS, 15, 12, .ro, false⟩
def ING_STATUS_CO_FED : Field := ⟨.ING_STATUS, 11, 11, .ro, false⟩
def ING_STATUS_LOST_ALERT : Field := ⟨.ING_STATUS, 10, 10, .w1c, false⟩
def ING_STATUS_PACED : Field := ⟨.ING_STATUS, 9, 9, .ro, false⟩
def ING_STATUS_SKIPPED : Field := ⟨.ING_STATUS, 8, 8, .w1c, false⟩
def ING_STATUS_VOID : Field := ⟨.ING_STATUS, 7, 7, .w1c, false⟩
def ING_STATUS_VOID_CAUSE : Field := ⟨.ING_STATUS, 6, 4, .ro, false⟩
def ING_CADENCE_FROM_EPOCH : Field := ⟨.ING_CADENCE, 63, 32, .rw, false⟩
def ING_CADENCE_INTERVAL : Field := ⟨.ING_CADENCE, 31, 16, .rw, false⟩
def ING_CADENCE_T2_EVERY : Field := ⟨.ING_CADENCE, 15, 8, .rw, false⟩
def ING_CADENCE_T3_EVERY : Field := ⟨.ING_CADENCE, 7, 0, .rw, false⟩
def ING_POLICY_COMMON : Field := ⟨.ING_POLICY, 63, 32, .rw, false⟩
def ING_POLICY_LOST_MAX : Field := ⟨.ING_POLICY, 31, 16, .rw, false⟩
def ING_POLICY_C_MIN_MS : Field := ⟨.ING_POLICY, 15, 8, .rw, false⟩
def ING_POLICY_M_PRIOR_KH : Field := ⟨.ING_POLICY, 7, 0, .rw, false⟩
def ING_PARTNER_OUT_VALID : Field := ⟨.ING_PARTNER, 63, 63, .rw, false⟩
def ING_PARTNER_IN_VALID : Field := ⟨.ING_PARTNER, 62, 62, .rw, false⟩
def ING_PARTNER_CO_FED : Field := ⟨.ING_PARTNER, 61, 61, .ro, false⟩
def ING_PARTNER_FEED_KNOWN : Field := ⟨.ING_PARTNER, 60, 60, .ro, false⟩
def ING_PARTNER_OUT_FEED : Field := ⟨.ING_PARTNER, 55, 48, .ro, false⟩
def ING_PARTNER_OUT : Field := ⟨.ING_PARTNER, 47, 24, .rw, false⟩
def ING_PARTNER_IN : Field := ⟨.ING_PARTNER, 23, 0, .rw, false⟩
def ING_RX_VALID : Field := ⟨.ING_RX, 63, 63, .rw, false⟩
def ING_RX_STATE : Field := ⟨.ING_RX, 62, 60, .ro, false⟩
def ING_RX_SIZE : Field := ⟨.ING_RX, 59, 44, .rw, false⟩
def ING_RX_BASE : Field := ⟨.ING_RX, 43, 21, .rw, false⟩
def ING_EXCLUDE_EXCLUDE : Field := ⟨.ING_EXCLUDE, 63, 0, .rw, false⟩
def ING_MEMBERS_SELF : Field := ⟨.ING_MEMBERS, 63, 50, .rw, false⟩
def ING_MEMBERS_COUNT_M1 : Field := ⟨.ING_MEMBERS, 49, 36, .rw, false⟩
def ING_MEMBERS_ADDR : Field := ⟨.ING_MEMBERS, 35, 0, .rw, false⟩
def ING_T2_VALID : Field := ⟨.ING_T2, 63, 63, .rw, false⟩
def ING_T2_SLOTS_M1 : Field := ⟨.ING_T2, 62, 60, .rw, false⟩
def ING_T2_FORGE : Field := ⟨.ING_T2, 59, 52, .ro, false⟩
def ING_T2_HAND : Field := ⟨.ING_T2, 51, 44, .wo, false⟩
def ING_T2_BASE : Field := ⟨.ING_T2, 43, 21, .rw, false⟩
def ING_PROGRESS_PAGES : Field := ⟨.ING_PROGRESS, 63, 45, .ro, false⟩
def ING_PROGRESS_T1_DONE : Field := ⟨.ING_PROGRESS, 44, 26, .ro, false⟩
def ING_PROGRESS_T2_DONE : Field := ⟨.ING_PROGRESS, 25, 7, .ro, false⟩
def ING_ADVICE_K : Field := ⟨.ING_ADVICE, 63, 48, .ro, false⟩
def ING_ADVICE_L : Field := ⟨.ING_ADVICE, 47, 40, .ro, false⟩
def ING_ADVICE_C_MS : Field := ⟨.ING_ADVICE, 39, 20, .ro, false⟩
def ING_ADVICE_MS_MIN : Field := ⟨.ING_ADVICE, 19, 0, .ro, false⟩
def ING_RESTORE_EPOCH : Field := ⟨.ING_RESTORE, 63, 32, .rw, false⟩
def ING_RESTORE_SRC : Field := ⟨.ING_RESTORE, 31, 30, .rw, false⟩
def ING_RESTORE_SLOT : Field := ⟨.ING_RESTORE, 29, 29, .rw, false⟩
def ING_RESTORE_PEER : Field := ⟨.ING_RESTORE, 23, 0, .rw, false⟩
def ING_RD_PINNED : Field := ⟨.ING_RD, 63, 48, .ro, false⟩
def ING_RD_LATE : Field := ⟨.ING_RD, 47, 32, .ro, false⟩
def ING_RD_WAIT_US : Field := ⟨.ING_RD, 31, 0, .ro, false⟩
def GE_RED_CFG_TWIN_VALID : Field := ⟨.GE_RED_CFG, 18, 18, .rw, false⟩
def GE_RED_CFG_TWIN_OF : Field := ⟨.GE_RED_CFG, 17, 16, .rw, false⟩
def GE_RED_CFG_TWIN_SLOTS : Field := ⟨.GE_RED_CFG, 15, 0, .rw, false⟩
def AS_DLOG_BASE_VALID : Field := ⟨.AS_DLOG_BASE, 63, 63, .rw, false⟩
def AS_DLOG_BASE_BASE : Field := ⟨.AS_DLOG_BASE, 43, 26, .rw, false⟩
def AS_DUAL_CNT_CHECKS : Field := ⟨.AS_DUAL_CNT, 63, 32, .ro, false⟩
def AS_DUAL_CNT_MISMATCH : Field := ⟨.AS_DUAL_CNT, 31, 16, .ro, false⟩
def AS_DUAL_CNT_UNMATCHED : Field := ⟨.AS_DUAL_CNT, 15, 0, .ro, false⟩
def AS_DUAL_LAST_VALID : Field := ⟨.AS_DUAL_LAST, 63, 63, .w1c, false⟩
def AS_DUAL_LAST_G : Field := ⟨.AS_DUAL_LAST, 51, 48, .ro, false⟩
def AS_DUAL_LAST_TASK : Field := ⟨.AS_DUAL_LAST, 47, 32, .ro, false⟩
def AS_DUAL_LAST_EPOCH : Field := ⟨.AS_DUAL_LAST, 31, 0, .ro, false⟩
def AS_DUAL_DIG_P_DIE : Field := ⟨.AS_DUAL_DIG_P, 63, 62, .ro, false⟩
def AS_DUAL_DIG_P_DIGEST : Field := ⟨.AS_DUAL_DIG_P, 60, 0, .ro, false⟩
def AS_DUAL_DIG_T_DIE : Field := ⟨.AS_DUAL_DIG_T, 63, 62, .ro, false⟩
def AS_DUAL_DIG_T_DIGEST : Field := ⟨.AS_DUAL_DIG_T, 60, 0, .ro, false⟩
def GE_TEST_LAST_KA_EPOCH : Field := ⟨.GE_TEST_LAST, 63, 32, .ro, false⟩
def GE_TEST_LAST_ST_EPOCH : Field := ⟨.GE_TEST_LAST, 31, 0, .ro, false⟩
def HIC_RED_CFG_TS_FROM : Field := ⟨.HIC_RED_CFG, 63, 32, .rw, false⟩
def HIC_RED_CFG_TS_N : Field := ⟨.HIC_RED_CFG, 31, 16, .rw, false⟩
def HIC_RED_CFG_MODE : Field := ⟨.HIC_RED_CFG, 1, 0, .rw, false⟩
def HIC_TRIG_CFG_ECC_BURST : Field := ⟨.HIC_TRIG_CFG, 63, 48, .rw, false⟩
def HIC_TRIG_CFG_ASSAY_BURST : Field := ⟨.HIC_TRIG_CFG, 47, 32, .rw, false⟩
def HIC_TRIG_CFG_NORM_RATIO : Field := ⟨.HIC_TRIG_CFG, 31, 24, .rw, false⟩
def HIC_TRIG_CFG_MAX_PER_H : Field := ⟨.HIC_TRIG_CFG, 23, 16, .rw, false⟩
def HIC_TRIG_STATUS_EPOCH : Field := ⟨.HIC_TRIG_STATUS, 63, 32, .ro, false⟩
def HIC_TRIG_STATUS_NORM : Field := ⟨.HIC_TRIG_STATUS, 4, 4, .w1c, false⟩
def HIC_TRIG_STATUS_RSTAT : Field := ⟨.HIC_TRIG_STATUS, 3, 3, .w1c, false⟩
def HIC_TRIG_STATUS_TEST : Field := ⟨.HIC_TRIG_STATUS, 2, 2, .w1c, false⟩
def HIC_TRIG_STATUS_ECC : Field := ⟨.HIC_TRIG_STATUS, 1, 1, .w1c, false⟩
def HIC_TRIG_STATUS_ASSAY : Field := ⟨.HIC_TRIG_STATUS, 0, 0, .w1c, false⟩
def HIC_QUAR_Q : Field := ⟨.HIC_QUAR, 63, 63, .rw, true⟩
def HIC_QUAR_CAUSE : Field := ⟨.HIC_QUAR, 62, 60, .rw, false⟩
def HIC_QUAR_SINCE : Field := ⟨.HIC_QUAR, 59, 0, .ro, false⟩
def HIC_ELOG_BASE_VALID : Field := ⟨.HIC_ELOG_BASE, 63, 63, .rw, false⟩
def HIC_ELOG_BASE_SIZE_LOG2 : Field := ⟨.HIC_ELOG_BASE, 48, 44, .rw, false⟩
def HIC_ELOG_BASE_BASE : Field := ⟨.HIC_ELOG_BASE, 43, 6, .rw, false⟩
def HIC_ELOG_PROD_INDEX : Field := ⟨.HIC_ELOG_PROD, 31, 0, .ro, false⟩
def HIC_ELOG_CONS_INDEX : Field := ⟨.HIC_ELOG_CONS, 31, 0, .rw, false⟩
def HIC_ELOG_CFG_STREAM_MIN : Field := ⟨.HIC_ELOG_CFG, 1, 0, .rw, false⟩
def HIC_ELOG_DROP_FAILED : Field := ⟨.HIC_ELOG_DROP, 63, 48, .ro, false⟩
def HIC_ELOG_DROP_SUSPECT : Field := ⟨.HIC_ELOG_DROP, 47, 32, .ro, false⟩
def HIC_ELOG_DROP_DEGRADED : Field := ⟨.HIC_ELOG_DROP, 31, 16, .ro, false⟩
def HIC_ELOG_DROP_INFO : Field := ⟨.HIC_ELOG_DROP, 15, 0, .ro, false⟩
def PWR_LV_CFG_RAMP : Field := ⟨.PWR_LV_CFG, 63, 48, .rw, false⟩
def PWR_LV_CFG_BACKFILL_US : Field := ⟨.PWR_LV_CFG, 47, 40, .rw, false⟩
def PWR_LV_CFG_HOLD_US : Field := ⟨.PWR_LV_CFG, 39, 32, .rw, false⟩
def PWR_LV_CFG_FLOOR_W : Field := ⟨.PWR_LV_CFG, 9, 0, .rw, false⟩
def PWR_LV_MAP_CLASS0 : Field := ⟨.PWR_LV_MAP, 7, 0, .ro, false⟩
def PWR_LV_MAP_CLASS1 : Field := ⟨.PWR_LV_MAP, 15, 8, .rw, false⟩
def PWR_LV_MAP_CLASS2 : Field := ⟨.PWR_LV_MAP, 23, 16, .rw, false⟩
def PWR_LV_MAP_CLASS3 : Field := ⟨.PWR_LV_MAP, 31, 24, .rw, false⟩
def PWR_LV_MAP_CLASS4 : Field := ⟨.PWR_LV_MAP, 39, 32, .rw, false⟩
def PWR_LV_MAP_CLASS5 : Field := ⟨.PWR_LV_MAP, 47, 40, .rw, false⟩
def PWR_LV_MAP_CLASS6 : Field := ⟨.PWR_LV_MAP, 55, 48, .rw, false⟩
def PWR_LV_MAP_CLASS7 : Field := ⟨.PWR_LV_MAP, 63, 56, .rw, false⟩
def PWR_LV_STATUS_GRANTED : Field := ⟨.PWR_LV_STATUS, 63, 48, .ro, false⟩
def PWR_LV_STATUS_BUDGET : Field := ⟨.PWR_LV_STATUS, 47, 32, .ro, false⟩
def PWR_LV_STATUS_QUEUED : Field := ⟨.PWR_LV_STATUS, 31, 16, .ro, false⟩
def PWR_LV_STATUS_HELD : Field := ⟨.PWR_LV_STATUS, 15, 8, .ro, false⟩
def PWR_LV_STATUS_HEAD_LOCK : Field := ⟨.PWR_LV_STATUS, 1, 1, .ro, false⟩
def PWR_LV_STATUS_RAMPED : Field := ⟨.PWR_LV_STATUS, 0, 0, .ro, false⟩
def PWR_LV_WAIT_COUNT : Field := ⟨.PWR_LV_WAIT, 63, 0, .ro, false⟩
def THM_CFG_RISE_C : Field := ⟨.THM_CFG, 63, 56, .rw, false⟩
def THM_CFG_RISE_US : Field := ⟨.THM_CFG, 55, 40, .rw, false⟩
def THM_CFG_TMAX : Field := ⟨.THM_CFG, 39, 32, .rw, false⟩
def THM_CFG_QMIN_US : Field := ⟨.THM_CFG, 31, 16, .rw, false⟩
def THM_CFG_QMAX : Field := ⟨.THM_CFG, 15, 8, .rw, false⟩
def THM_STATUS_QUENCHED : Field := ⟨.THM_STATUS, 63, 63, .ro, false⟩
def THM_STATUS_HELD : Field := ⟨.THM_STATUS, 62, 62, .ro, false⟩
def THM_STATUS_C_RISE : Field := ⟨.THM_STATUS, 61, 61, .ro, false⟩
def THM_STATUS_C_ABS : Field := ⟨.THM_STATUS, 60, 60, .ro, false⟩
def THM_STATUS_C_STACK : Field := ⟨.THM_STATUS, 59, 59, .ro, false⟩
def THM_STATUS_C_MODULE : Field := ⟨.THM_STATUS, 58, 58, .ro, false⟩
def THM_STATUS_HOT : Field := ⟨.THM_STATUS, 53, 48, .ro, false⟩
def THM_STATUS_QCOUNT : Field := ⟨.THM_STATUS, 47, 40, .ro, false⟩
def THM_STATUS_TEMP_MAX : Field := ⟨.THM_STATUS, 15, 0, .ro, false⟩
def THM_CTRL_CNT_CLR : Field := ⟨.THM_CTRL, 1, 1, .wo, false⟩
def THM_CTRL_RELEASE : Field := ⟨.THM_CTRL, 0, 0, .wo, false⟩
def THM_SENSOR_REF : Field := ⟨.THM_SENSOR, 31, 16, .ro, false⟩
def THM_SENSOR_TEMP : Field := ⟨.THM_SENSOR, 15, 0, .ro, false⟩
def PWR_CFG_P_LIM_W : Field := ⟨.PWR_CFG, 63, 48, .rw, false⟩
def PWR_CFG_IN_MAX_W : Field := ⟨.PWR_CFG, 47, 32, .ro, false⟩
def PWR_CFG_DIE_CAP_W : Field := ⟨.PWR_CFG, 31, 16, .rw, false⟩
def PWR_CFG_MARGIN_W : Field := ⟨.PWR_CFG, 15, 0, .rw, false⟩
def PWR_STATUS_STATE : Field := ⟨.PWR_STATUS, 63, 61, .ro, false⟩
def PWR_STATUS_UV_WARN : Field := ⟨.PWR_STATUS, 60, 60, .w1c, false⟩
def PWR_STATUS_OV_WARN : Field := ⟨.PWR_STATUS, 59, 59, .w1c, false⟩
def PWR_STATUS_PFAIL : Field := ⟨.PWR_STATUS, 58, 58, .ro, false⟩
def PWR_STATUS_OVERPOWER : Field := ⟨.PWR_STATUS, 57, 57, .w1c, false⟩
def PWR_STATUS_RAIL_FAULT : Field := ⟨.PWR_STATUS, 56, 56, .w1c, false⟩
def PWR_STATUS_QUENCHED : Field := ⟨.PWR_STATUS, 55, 52, .ro, false⟩
def PWR_IN_VOLT : Field := ⟨.PWR_IN, 63, 48, .ro, false⟩
def PWR_IN_CURR : Field := ⟨.PWR_IN, 47, 32, .ro, false⟩
def PWR_IN_POWER : Field := ⟨.PWR_IN, 31, 16, .ro, false⟩
def PWR_OTHER_STACKS_W : Field := ⟨.PWR_OTHER, 63, 52, .ro, false⟩
def PWR_OTHER_LL_W : Field := ⟨.PWR_OTHER, 51, 40, .ro, false⟩
def PWR_OTHER_LASER_W : Field := ⟨.PWR_OTHER, 39, 28, .ro, false⟩
def PWR_OTHER_HUB_W : Field := ⟨.PWR_OTHER, 27, 16, .ro, false⟩
def PWR_OTHER_LOSS_W : Field := ⟨.PWR_OTHER, 11, 0, .ro, false⟩
def PWR_BUDGET_BUDGET_W : Field := ⟨.PWR_BUDGET, 63, 48, .ro, false⟩
def PWR_BUDGET_GRANTED_W : Field := ⟨.PWR_BUDGET, 47, 32, .ro, false⟩
def PWR_BUDGET_MEASURED_W : Field := ⟨.PWR_BUDGET, 31, 16, .ro, false⟩
def PWR_BUDGET_DEMAND_W : Field := ⟨.PWR_BUDGET, 15, 0, .ro, false⟩
def THM_COOLANT_INLET : Field := ⟨.THM_COOLANT, 63, 48, .ro, false⟩
def THM_COOLANT_OUTLET : Field := ⟨.THM_COOLANT, 47, 32, .ro, false⟩
def PWR_RAIL_VOLT : Field := ⟨.PWR_RAIL, 63, 48, .ro, false⟩
def PWR_RAIL_CURR : Field := ⟨.PWR_RAIL, 47, 32, .ro, false⟩
def PWR_RAIL_POWER : Field := ⟨.PWR_RAIL, 31, 16, .ro, false⟩
def PWR_RAIL_GOOD : Field := ⟨.PWR_RAIL, 0, 0, .ro, false⟩
def HIC_CTRL_EN : Field := ⟨.HIC_CTRL, 0, 0, .rw, false⟩
def HIC_LEVEL_BITS : Field := ⟨.HIC_LEVEL, 63, 0, .ro, false⟩
def HIC_PEND_BITS : Field := ⟨.HIC_PEND, 63, 0, .rw, false⟩
def HIC_MASK_BITS : Field := ⟨.HIC_MASK, 63, 0, .rw, false⟩
def HIC_CLAIM_VALID : Field := ⟨.HIC_CLAIM, 63, 63, .rc, false⟩
def HIC_CLAIM_SOURCE : Field := ⟨.HIC_CLAIM, 10, 0, .rc, false⟩
def HIC_COMPLETE_SOURCE : Field := ⟨.HIC_COMPLETE, 10, 0, .wo, false⟩
def HIC_TARGET_PRIO : Field := ⟨.HIC_TARGET, 11, 8, .rw, false⟩
def HIC_TARGET_CORE : Field := ⟨.HIC_TARGET, 3, 0, .rw, false⟩
def HIC_FORGE_CFG_LOCK : Field := ⟨.HIC_FORGE_CFG, 63, 63, .w1s, false⟩
def HIC_FORGE_CFG_AGENT_MASK : Field := ⟨.HIC_FORGE_CFG, 15, 0, .rw, false⟩
def HIC_FORGE_STATUS_OVERLOAD : Field := ⟨.HIC_FORGE_STATUS, 63, 63, .rw, true⟩
def HIC_FORGE_STATUS_WINDOWS_OVER : Field := ⟨.HIC_FORGE_STATUS, 31, 0, .ro, false⟩
def HIC_FORGE_CLS_CLASS : Field := ⟨.HIC_FORGE_CLS, 2, 0, .rw, false⟩
def HIC_FORGE_CYC_COUNT : Field := ⟨.HIC_FORGE_CYC, 63, 0, .ro, false⟩
def HIC_MGMT_STATUS_LINK : Field := ⟨.HIC_MGMT_STATUS, 63, 63, .ro, false⟩
def HIC_MGMT_STATUS_FEC : Field := ⟨.HIC_MGMT_STATUS, 62, 61, .ro, false⟩
def HIC_MGMT_STATUS_STREAM : Field := ⟨.HIC_MGMT_STATUS, 60, 60, .ro, false⟩
def HIC_MGMT_STATUS_SPOOL : Field := ⟨.HIC_MGMT_STATUS, 31, 0, .ro, false⟩
def HIC_PCIE_STATUS_UP : Field := ⟨.HIC_PCIE_STATUS, 63, 63, .ro, false⟩
def HIC_PCIE_STATUS_RATE : Field := ⟨.HIC_PCIE_STATUS, 62, 60, .ro, false⟩
def HIC_PCIE_STATUS_WIDTH : Field := ⟨.HIC_PCIE_STATUS, 59, 56, .ro, false⟩
def HIC_PCIE_STATUS_PRESENT : Field := ⟨.HIC_PCIE_STATUS, 55, 55, .ro, false⟩
def HIC_PCIE_STATUS_FAILED : Field := ⟨.HIC_PCIE_STATUS, 54, 54, .ro, false⟩
def HIC_PCIE_STATUS_DMA_BLOCKED : Field := ⟨.HIC_PCIE_STATUS, 31, 0, .ro, false⟩
def TIME_NOW_NS : Field := ⟨.TIME_NOW, 63, 0, .ro, false⟩
def TIME_FRAC_FRAC : Field := ⟨.TIME_FRAC, 15, 0, .ro, false⟩
def TIME_CFG_SET_IMMEDIATE : Field := ⟨.TIME_CFG, 3, 3, .wo, false⟩
def TIME_CFG_SET_VALID : Field := ⟨.TIME_CFG, 2, 2, .w1s, false⟩
def TIME_CFG_PPS_OUT_EN : Field := ⟨.TIME_CFG, 1, 1, .rw, false⟩
def TIME_CFG_PPS_EN : Field := ⟨.TIME_CFG, 0, 0, .rw, false⟩
def TIME_SET_NEXT_NS : Field := ⟨.TIME_SET_NEXT, 63, 0, .rw, false⟩
def TIME_STATUS_LOCKED : Field := ⟨.TIME_STATUS, 63, 63, .ro, false⟩
def TIME_STATUS_HOLDOVER : Field := ⟨.TIME_STATUS, 62, 62, .ro, false⟩
def TIME_STATUS_STEPPED : Field := ⟨.TIME_STATUS, 61, 61, .w1c, false⟩
def TIME_STATUS_SPURIOUS : Field := ⟨.TIME_STATUS, 60, 60, .w1c, false⟩
def TIME_STATUS_RATE : Field := ⟨.TIME_STATUS, 47, 32, .ro, false⟩
def TIME_STATUS_OFFSET : Field := ⟨.TIME_STATUS, 31, 0, .ro, false⟩
def TIME_PPS_LAST_NS : Field := ⟨.TIME_PPS_LAST, 63, 0, .ro, false⟩
def DBG_CTRL_LOCK : Field := ⟨.DBG_CTRL, 0, 0, .wo, false⟩
def DBG_STATUS_UNLOCKED : Field := ⟨.DBG_STATUS, 63, 63, .ro, false⟩
def DBG_STATUS_DEBUG_MODE : Field := ⟨.DBG_STATUS, 62, 62, .ro, false⟩
def DBG_STATUS_SERVICE : Field := ⟨.DBG_STATUS, 61, 61, .ro, false⟩
def DBG_STATUS_SCOPE : Field := ⟨.DBG_STATUS, 47, 32, .ro, false⟩
def DBG_STATUS_REMAIN_S : Field := ⟨.DBG_STATUS, 31, 0, .ro, false⟩
def DBG_NONCE0_NONCE : Field := ⟨.DBG_NONCE0, 63, 0, .ro, false⟩
def DBG_NONCE1_NONCE : Field := ⟨.DBG_NONCE1, 63, 0, .ro, false⟩
def DBG_GE_CTRL_HALT : Field := ⟨.DBG_GE_CTRL, 63, 63, .rw, false⟩
def DBG_GE_CTRL_STEP : Field := ⟨.DBG_GE_CTRL, 62, 62, .wo, false⟩
def DBG_GE_CTRL_BREAK_EN : Field := ⟨.DBG_GE_CTRL, 61, 61, .rw, false⟩
def DBG_GE_CTRL_HALTED : Field := ⟨.DBG_GE_CTRL, 60, 60, .ro, false⟩
def DBG_GE_CTRL_G : Field := ⟨.DBG_GE_CTRL, 51, 48, .rw, false⟩
def DBG_GE_CTRL_TASK : Field := ⟨.DBG_GE_CTRL, 15, 0, .rw, false⟩
def MON_CFG_EN : Field := ⟨.MON_CFG, 63, 63, .rw, false⟩
def MON_CFG_IRQ_EN : Field := ⟨.MON_CFG, 62, 62, .rw, false⟩
def MON_CFG_LOG2 : Field := ⟨.MON_CFG, 61, 61, .rw, false⟩
def MON_CFG_SRC : Field := ⟨.MON_CFG, 55, 48, .rw, false⟩
def MON_CFG_INST : Field := ⟨.MON_CFG, 47, 32, .rw, false⟩
def MON_CFG_WIN_US : Field := ⟨.MON_CFG, 31, 0, .rw, false⟩
def MON_SCALE_LO : Field := ⟨.MON_SCALE, 63, 32, .rw, false⟩
def MON_SCALE_STEP : Field := ⟨.MON_SCALE, 31, 0, .rw, false⟩
def MON_STATUS_WINDOW : Field := ⟨.MON_STATUS, 63, 32, .ro, false⟩
def MON_STATUS_SEQ : Field := ⟨.MON_STATUS, 31, 16, .ro, false⟩
def MON_STATUS_OVERRUN : Field := ⟨.MON_STATUS, 3, 3, .w1c, false⟩
def MON_STATUS_STEPPED : Field := ⟨.MON_STATUS, 2, 2, .ro, false⟩
def MON_STATUS_READY : Field := ⟨.MON_STATUS, 0, 0, .w1c, false⟩
def MON_RANGE_MAX : Field := ⟨.MON_RANGE, 63, 32, .ro, false⟩
def MON_RANGE_MIN : Field := ⟨.MON_RANGE, 31, 0, .ro, false⟩
def MON_COUNT_LATE : Field := ⟨.MON_COUNT, 63, 32, .ro, false⟩
def MON_COUNT_COUNT : Field := ⟨.MON_COUNT, 31, 0, .ro, false⟩
def MON_BIN_COUNT : Field := ⟨.MON_BIN, 63, 0, .ro, false⟩
def BOOT_STATUS_PHASE : Field := ⟨.BOOT_STATUS, 63, 60, .ro, false⟩
def BOOT_STATUS_READY : Field := ⟨.BOOT_STATUS, 59, 59, .ro, false⟩
def BOOT_STATUS_STOPPED : Field := ⟨.BOOT_STATUS, 58, 58, .ro, false⟩
def BOOT_STATUS_RECOVERY : Field := ⟨.BOOT_STATUS, 57, 57, .ro, false⟩
def BOOT_STATUS_UNOWNED : Field := ⟨.BOOT_STATUS, 56, 56, .ro, false⟩
def BOOT_STATUS_FIELD_REPAIR_BAD : Field := ⟨.BOOT_STATUS, 55, 55, .ro, false⟩
def BOOT_STATUS_LINKLESS : Field := ⟨.BOOT_STATUS, 54, 54, .ro, false⟩
def BOOT_SLOT_ACTIVE : Field := ⟨.BOOT_SLOT, 63, 63, .ro, false⟩
def BOOT_SLOT_PREF : Field := ⟨.BOOT_SLOT, 62, 62, .ro, false⟩
def BOOT_SLOT_TRIAL : Field := ⟨.BOOT_SLOT, 61, 61, .ro, false⟩
def BOOT_SLOT_TRIES : Field := ⟨.BOOT_SLOT, 60, 59, .ro, false⟩
def BOOT_SLOT_FALLBACK : Field := ⟨.BOOT_SLOT, 58, 58, .w1c, false⟩
def BOOT_SLOT_A_VALID : Field := ⟨.BOOT_SLOT, 57, 57, .ro, false⟩
def BOOT_SLOT_B_VALID : Field := ⟨.BOOT_SLOT, 56, 56, .ro, false⟩
def BOOT_SLOT_FW_SVN : Field := ⟨.BOOT_SLOT, 31, 0, .ro, false⟩
def PROF_STATUS_ACTIVE : Field := ⟨.PROF_STATUS, 63, 62, .ro, false⟩
def PROF_STATUS_PINS : Field := ⟨.PROF_STATUS, 61, 60, .ro, false⟩
def PROF_STATUS_SOURCE : Field := ⟨.PROF_STATUS, 59, 59, .ro, false⟩
def PROF_STATUS_PENDING : Field := ⟨.PROF_STATUS, 58, 58, .ro, false⟩
def PROF_STATUS_PENDING_PROF : Field := ⟨.PROF_STATUS, 57, 56, .ro, false⟩
def PROF_STATUS_RESET_PENDING : Field := ⟨.PROF_STATUS, 55, 55, .ro, false⟩
def PROF_STATUS_DEFAULTS : Field := ⟨.PROF_STATUS, 54, 54, .ro, false⟩
def PROF_STATUS_OWNER_VER : Field := ⟨.PROF_STATUS, 31, 0, .ro, false⟩
def PROF_CMD_GO : Field := ⟨.PROF_CMD, 63, 63, .wo, true⟩
def PROF_CMD_RESET : Field := ⟨.PROF_CMD, 62, 62, .wo, false⟩
def PROF_CMD_PROFILE : Field := ⟨.PROF_CMD, 61, 60, .wo, false⟩
def BOOT_FLASH_CMD_OP : Field := ⟨.BOOT_FLASH_CMD, 63, 62, .wo, true⟩
def BOOT_FLASH_CMD_BUSY : Field := ⟨.BOOT_FLASH_CMD, 61, 61, .ro, false⟩
def BOOT_FLASH_CMD_ERR : Field := ⟨.BOOT_FLASH_CMD, 60, 60, .w1c, false⟩
def BOOT_FLASH_CMD_ADDR : Field := ⟨.BOOT_FLASH_CMD, 26, 0, .wo, false⟩
def BOOT_FLASH_BUF_LEN : Field := ⟨.BOOT_FLASH_BUF, 60, 44, .rw, false⟩
def BOOT_FLASH_BUF_ADDR : Field := ⟨.BOOT_FLASH_BUF, 43, 0, .rw, false⟩
def BOOT_CTR_VALUE : Field := ⟨.BOOT_CTR, 31, 0, .rw, false⟩
def BOOT_T_NS : Field := ⟨.BOOT_T, 63, 0, .ro, false⟩
def PWR_PINS_FEED_ID : Field := ⟨.PWR_PINS, 63, 56, .ro, false⟩
def PWR_PINS_FEED_PREV : Field := ⟨.PWR_PINS, 55, 48, .ro, false⟩
def PWR_PINS_FEED_CHG : Field := ⟨.PWR_PINS, 47, 47, .w1c, false⟩
def PWR_PINS_FEED_UNWIRED : Field := ⟨.PWR_PINS, 46, 46, .ro, false⟩
def PWR_PINS_PROFILE_SEL : Field := ⟨.PWR_PINS, 45, 44, .ro, false⟩
def PWR_PINS_PWR_EN : Field := ⟨.PWR_PINS, 43, 43, .ro, false⟩
def PWR_PINS_RESET_N : Field := ⟨.PWR_PINS, 42, 42, .ro, false⟩
def PWR_PINS_PPS_IN : Field := ⟨.PWR_PINS, 41, 41, .ro, false⟩
def THM_PLATE_LEAK : Field := ⟨.THM_PLATE, 63, 63, .w1c, false⟩
def THM_PLATE_LEAK_NOW : Field := ⟨.THM_PLATE, 62, 62, .ro, false⟩
def THM_PLATE_ZONE : Field := ⟨.THM_PLATE, 61, 60, .ro, false⟩
def THM_PLATE_RISE : Field := ⟨.THM_PLATE, 31, 16, .ro, false⟩

/-- The fields of each register; every bit no field covers is reserved (R12). -/
def fieldsOf : RegName → List Field
  | .CORE_ARRAY_ID => [CORE_ARRAY_ID_DIE, CORE_ARRAY_ID_SPARED, CORE_ARRAY_ID_LOGICAL, CORE_ARRAY_ID_PHYSICAL]
  | .CORE_ARRAY_CTRL => [CORE_ARRAY_CTRL_KA_START, CORE_ARRAY_CTRL_CNT_CLR, CORE_ARRAY_CTRL_RETIRE,
      CORE_ARRAY_CTRL_APPLY]
  | .CORE_ARRAY_STATUS => [CORE_ARRAY_STATUS_BYPASS_COUNT, CORE_ARRAY_STATUS_ROW_FAULT,
      CORE_ARRAY_STATUS_APPLY_ERR, CORE_ARRAY_STATUS_RETIRED, CORE_ARRAY_STATUS_KA_BUSY,
      CORE_ARRAY_STATUS_SHADOW_MODE, CORE_ARRAY_STATUS_ACTIVE_MODE, CORE_ARRAY_STATUS_SHADOW_VALID,
      CORE_ARRAY_STATUS_IDLE]
  | .CORE_ARRAY_COLMASK_LO => [CORE_ARRAY_COLMASK_LO_BYPASS]
  | .CORE_ARRAY_COLMASK_HI => [CORE_ARRAY_COLMASK_HI_BYPASS]
  | .CORE_ARRAY_WIDTH => [CORE_ARRAY_WIDTH_W1, CORE_ARRAY_WIDTH_W2, CORE_ARRAY_WIDTH_BF16, CORE_ARRAY_WIDTH_FP8]
  | .CORE_ARRAY_CODEBOOK => [CORE_ARRAY_CODEBOOK_SH_C3, CORE_ARRAY_CODEBOOK_SH_C2, CORE_ARRAY_CODEBOOK_SH_C1,
      CORE_ARRAY_CODEBOOK_SH_C0, CORE_ARRAY_CODEBOOK_AC_C3, CORE_ARRAY_CODEBOOK_AC_C2, CORE_ARRAY_CODEBOOK_AC_C1,
      CORE_ARRAY_CODEBOOK_AC_C0]
  | .CORE_ARRAY_KAFAIL_LO => [CORE_ARRAY_KAFAIL_LO_FAIL]
  | .CORE_ARRAY_KAFAIL_HI => [CORE_ARRAY_KAFAIL_HI_FAIL]
  | .CORE_ARRAY_CYC_TOTAL => [CORE_ARRAY_CYC_TOTAL_COUNT]
  | .CORE_ARRAY_CYC_BUSY => [CORE_ARRAY_CYC_BUSY_COUNT]
  | .CORE_ARRAY_CYC_BUBBLE => [CORE_ARRAY_CYC_BUBBLE_COUNT]
  | .CORE_ARRAY_CYC_LOADWAIT => [CORE_ARRAY_CYC_LOADWAIT_COUNT]
  | .CORE_ARRAY_CYC_STARVE => [CORE_ARRAY_CYC_STARVE_COUNT]
  | .CORE_ARRAY_TILES => [CORE_ARRAY_TILES_COUNT]
  | .GE_RSTAT_CTRL => [GE_RSTAT_CTRL_IRQ_EN, GE_RSTAT_CTRL_CLR_ALL, GE_RSTAT_CTRL_SNAP_NOW, GE_RSTAT_CTRL_EN]
  | .GE_RSTAT_SNAP => [GE_RSTAT_SNAP_EPOCH, GE_RSTAT_SNAP_SEQ, GE_RSTAT_SNAP_MIXED, GE_RSTAT_SNAP_OVERRUN,
      GE_RSTAT_SNAP_FORCED, GE_RSTAT_SNAP_READY]
  | .GE_RSTAT_BANK0 => [GE_RSTAT_BANK0_TAG, GE_RSTAT_BANK0_MIXED, GE_RSTAT_BANK0_NONEMPTY]
  | .GE_RSTAT_BANK1 => [GE_RSTAT_BANK1_TAG, GE_RSTAT_BANK1_MIXED, GE_RSTAT_BANK1_NONEMPTY]
  | .GE_NOISE_SEED => [GE_NOISE_SEED_SEED]
  | .GE_RSTAT_SLOT_SNAP => [GE_RSTAT_SLOT_SNAP_WORD]
  | .GE_RSTAT_SLOT_LIVE0 => [GE_RSTAT_SLOT_LIVE0_WORD]
  | .GE_RSTAT_SLOT_LIVE1 => [GE_RSTAT_SLOT_LIVE1_WORD]
  | .ACC_STATUS => [ACC_STATUS_ECC_CORR, ACC_STATUS_FREE_UNITS, ACC_STATUS_BOUND_TILES, ACC_STATUS_PORT_TILE,
      ACC_STATUS_RESUME_BUSY, ACC_STATUS_SPILL_BUSY, ACC_STATUS_DRAIN_BUSY]
  | .ACC_CTRL => [ACC_CTRL_CNT_CLR]
  | .ACC_DBG_ADDR => [ACC_DBG_ADDR_ENTRY]
  | .ACC_DBG_DATA => [ACC_DBG_DATA_UPPER, ACC_DBG_DATA_LOWER]
  | .ACC_DBG_FLAGS => [ACC_DBG_FLAGS_TILE_ID, ACC_DBG_FLAGS_COUNT, ACC_DBG_FLAGS_ECC_FIXED, ACC_DBG_FLAGS_ECC_ERR,
      ACC_DBG_FLAGS_PAIR, ACC_DBG_FLAGS_BOUND, ACC_DBG_FLAGS_IN_FLIGHT]
  | .OUT_CYC_BUSY => [OUT_CYC_BUSY_COUNT]
  | .OUT_CYC_STALL => [OUT_CYC_STALL_COUNT]
  | .GE_CTRL => [GE_CTRL_TEST_EN, GE_CTRL_EN]
  | .GE_GRAPH_BASE => [GE_GRAPH_BASE_BASE]
  | .GE_DOORBELL => [GE_DOORBELL_OP, GE_DOORBELL_G, GE_DOORBELL_COUNT, GE_DOORBELL_START]
  | .GE_CANCEL => [GE_CANCEL_CANCEL, GE_CANCEL_REGION]
  | .GE_QUANTUM => [GE_QUANTUM_QUANTUM_US]
  | .GE_CORE_HOLD => [GE_CORE_HOLD_HOLD]
  | .GE_CORE_RELEASE => [GE_CORE_RELEASE_RELEASE]
  | .GE_CORE_STATE => [GE_CORE_STATE_CORES]
  | .GE_UNPLACED => [GE_UNPLACED_VALID, GE_UNPLACED_G, GE_UNPLACED_TASK]
  | .GE_LIVE => [GE_LIVE_READY, GE_LIVE_LIVE]
  | .GE_TEST_CFG => [GE_TEST_CFG_KA_GAP_S, GE_TEST_CFG_GRACE_MIN, GE_TEST_CFG_STRUCT_MIN, GE_TEST_CFG_KA_S]
  | .GE_GRAPH_STATUS => [GE_GRAPH_STATUS_STATE, GE_GRAPH_STATUS_UNPLACEABLE, GE_GRAPH_STATUS_ERR_CODE,
      GE_GRAPH_STATUS_ERR_TASK, GE_GRAPH_STATUS_REMAINING]
  | .GE_REGION_BUSY => [GE_REGION_BUSY_BUSY]
  | .GE_TEST_DUE => [GE_TEST_DUE_DUE]
  | .GE_TOKEN => [GE_TOKEN_COUNT]
  | .FE_CFG => [FE_CFG_HORIZON, FE_CFG_MERGE_EN]
  | .FE_STAGE => [FE_STAGE_SIZE, FE_STAGE_BASE]
  | .FE_STATUS => [FE_STATUS_FUSED, FE_STATUS_STAGES, FE_STATUS_ITEM, FE_STATUS_QUEUED, FE_STATUS_ENTRIES]
  | .FE_CTRL => [FE_CTRL_CNT_CLR]
  | .FE_RD_BYTES => [FE_RD_BYTES_COUNT]
  | .FE_RD_REQ => [FE_RD_REQ_COUNT]
  | .FE_RD_DISCARD => [FE_RD_DISCARD_COUNT]
  | .FE_CYC_ENTRIES_FULL => [FE_CYC_ENTRIES_FULL_COUNT]
  | .FE_CYC_SPACE => [FE_CYC_SPACE_COUNT]
  | .FE_STG_FULL => [FE_STG_FULL_COUNT]
  | .FE_STG_EMPTY => [FE_STG_EMPTY_COUNT]
  | .CRU_CTRL => [CRU_CTRL_CNT_CLR, CRU_CTRL_SCRUB_EN, CRU_CTRL_RT_PUBLISH]
  | .CRU_STATUS => [CRU_STATUS_COMP_LOST, CRU_STATUS_RT_ENTRY, CRU_STATUS_RT_ERR, CRU_STATUS_RT_PENDING,
      CRU_STATUS_RT_VALID]
  | .CRU_SEED => [CRU_SEED_SEED]
  | .CRU_THERM => [CRU_THERM_CAP_PCT, CRU_THERM_STATE, CRU_THERM_TEMP]
  | .CRU_ECC => [CRU_ECC_CORR, CRU_ECC_UNCORR]
  | .CRU_ECC_LAST => [CRU_ECC_LAST_VALID, CRU_ECC_LAST_UNCORR, CRU_ECC_LAST_CHANNEL, CRU_ECC_LAST_ROWG,
      CRU_ECC_LAST_GRAN]
  | .CRU_WCB => [CRU_WCB_FLUSH, CRU_WCB_OCCUPANCY]
  | .CRU_REGION_A => [CRU_REGION_A_VALID, CRU_REGION_A_IL, CRU_REGION_A_DIE, CRU_REGION_A_COMP, CRU_REGION_A_VER,
      CRU_REGION_A_RND, CRU_REGION_A_ELEM, CRU_REGION_A_LRATIO, CRU_REGION_A_BASE]
  | .CRU_REGION_B => [CRU_REGION_B_CHOFF, CRU_REGION_B_SIZE]
  | .CRU_ROW_DST => [CRU_ROW_DST_LEN_G, CRU_ROW_DST_DST]
  | .CRU_ROW_CFG => [CRU_ROW_CFG_VALID, CRU_ROW_CFG_FMT, CRU_ROW_CFG_INIT, CRU_ROW_CFG_RND, CRU_ROW_CFG_DIG,
      CRU_ROW_CFG_STAT, CRU_ROW_CFG_SLOT, CRU_ROW_CFG_NCONTRIB, CRU_ROW_CFG_TENSOR]
  | .CRU_ROW_PARK => [CRU_ROW_PARK_PARK_SLOTS, CRU_ROW_PARK_PARK]
  | .CRU_ROW_STATE => [CRU_ROW_STATE_DONE, CRU_ROW_STATE_PARKED, CRU_ROW_STATE_COMPLETE]
  | .CRU_UPD_STATUS => [CRU_UPD_STATUS_PROG, CRU_UPD_STATUS_BUSY, CRU_UPD_STATUS_STOPPED, CRU_UPD_STATUS_DONE]
  | .CRU_UPD_PROG => [CRU_UPD_PROG_OP_HI, CRU_UPD_PROG_OP_LO]
  | .CRU_VER_CFG => [CRU_VER_CFG_FORCE_MS, CRU_VER_CFG_RESERVE]
  | .CRU_VER_STATUS => [CRU_VER_STATUS_FORCED_EPOCH, CRU_VER_STATUS_FORCED, CRU_VER_STATUS_ABANDONED,
      CRU_VER_STATUS_WAITING, CRU_VER_STATUS_FREE]
  | .CRU_MARGIN_CTRL => [CRU_MARGIN_CTRL_GO, CRU_MARGIN_CTRL_TARGET, CRU_MARGIN_CTRL_UNIT, CRU_MARGIN_CTRL_T_OFF,
      CRU_MARGIN_CTRL_V_OFF, CRU_MARGIN_CTRL_BITS_LOG2]
  | .CRU_MARGIN_RESULT => [CRU_MARGIN_RESULT_DONE, CRU_MARGIN_RESULT_ERRORS]
  | .BRZ_CFG => [BRZ_CFG_PERSIST, BRZ_CFG_RETIRE_THR, BRZ_CFG_RETIRE]
  | .BRZ_STATUS => [BRZ_STATUS_PEER, BRZ_STATUS_PEER_IDX, BRZ_STATUS_STATE, BRZ_STATUS_MARGIN,
      BRZ_STATUS_TRAIN_FAIL, BRZ_STATUS_RETIRED, BRZ_STATUS_ACTIVE]
  | .BRZ_REPLAY => [BRZ_REPLAY_COUNT]
  | .BRZ_CTRL => [BRZ_CTRL_CNT_CLR]
  | .BRZ_CRC_ERR => [BRZ_CRC_ERR_COUNT]
  | .BOOT_CLK_STATUS => [BOOT_CLK_STATUS_LOST, BOOT_CLK_STATUS_ROOT_LOCK, BOOT_CLK_STATUS_ROOT_LOST,
      BOOT_CLK_STATUS_ARRAY_HALF, BOOT_CLK_STATUS_LOCK]
  | .BOOT_RST_CTRL => [BOOT_RST_CTRL_SEQ_GO, BOOT_RST_CTRL_DOMAIN_RST]
  | .BOOT_RST_STATUS => [BOOT_RST_STATUS_PHASE, BOOT_RST_STATUS_SEQ_DONE, BOOT_RST_STATUS_REFUSED,
      BOOT_RST_STATUS_STOPPED, BOOT_RST_STATUS_CAUSE, BOOT_RST_STATUS_IN_RESET]
  | .LL_CTRL => [LL_CTRL_FF_EN, LL_CTRL_ROT_EN, LL_CTRL_LOC_EN, LL_CTRL_CNT_CLR]
  | .LL_STATUS => [LL_STATUS_DR_ACTIVE, LL_STATUS_UNLOCKED, LL_STATUS_START_PHASE, LL_STATUS_DR_SPARE_BUSY,
      LL_STATUS_FF_VALID, LL_STATUS_STOPPED, LL_STATUS_READY]
  | .LL_ROT_CFG => [LL_ROT_CFG_SLOT_MS]
  | .LL_FF => [LL_FF_GAIN, LL_FF_TAU_US, LL_FF_DEAD_US, LL_FF_VALID]
  | .LC_CFG => [LC_CFG_BOUNDARY_MS, LC_CFG_HARD_DB, LC_CFG_TARNISH_DB, LC_CFG_DROPOUT_DB, LC_CFG_SWBACK_EN]
  | .LC_ROUTE => [LC_ROUTE_CMD, LC_ROUTE_AT_BOUNDARY, LC_ROUTE_PENDING, LC_ROUTE_A_SRC, LC_ROUTE_B_SRC]
  | .LC_STATUS => [LC_STATUS_PRESENT, LC_STATUS_LATCH, LC_STATUS_STATE, LC_STATUS_TARNISH, LC_STATUS_HARD,
      LC_STATUS_WORST_LINE, LC_STATUS_WORST_DB, LC_STATUS_SERIAL]
  | .LL_LOSS => [LL_LOSS_VALID, LL_LOSS_STAGE, LL_LOSS_PORT, LL_LOSS_LINE, LL_LOSS_EXCESS]
  | .LL_MON_CFG => [LL_MON_CFG_STEP]
  | .LL_RING => [LL_RING_HEATER, LL_RING_DETUNE, LL_RING_RELOCKS, LL_RING_STATE]
  | .PORT_STATUS => [PORT_STATUS_SPARE_FOR, PORT_STATUS_SPARE_USE, PORT_STATUS_ACTIVE, PORT_STATUS_FAILED,
      PORT_STATUS_LOS, PORT_STATUS_HOLD, PORT_STATUS_PORT]
  | .PORT_CFG => [PORT_CFG_LOS_MS, PORT_CFG_CAL_EN]
  | .PORT_LANE => [PORT_LANE_CAL_AGE_S, PORT_LANE_MARGIN, PORT_LANE_CAL_FAILS, PORT_LANE_STATE]
  | .PORT_MON => [PORT_MON_S_DBM, PORT_MON_M_DBM, PORT_MON_R_DBM, PORT_MON_R_FAR_DBM]
  | .PORT_MON_F => [PORT_MON_F_F_DBM]
  | .PORT_IL_CFG => [PORT_IL_CFG_ACK_TO_US, PORT_IL_CFG_RETRY_MAX, PORT_IL_CFG_EN]
  | .PORT_IL_STATUS => [PORT_IL_STATUS_STATE, PORT_IL_STATUS_NPORT, PORT_IL_STATUS_FAULT, PORT_IL_STATUS_BADSIG,
      PORT_IL_STATUS_FAULT_KIND, PORT_IL_STATUS_TX_UNACK]
  | .PORT_IL_NEIGH => [PORT_IL_NEIGH_ID]
  | .PORT_IL_NEIGH_INFO => [PORT_IL_NEIGH_INFO_FEED, PORT_IL_NEIGH_INFO_NX, PORT_IL_NEIGH_INFO_NY,
      PORT_IL_NEIGH_INFO_NZ, PORT_IL_NEIGH_INFO_GEN]
  | .PORT_IL_CTRL => [PORT_IL_CTRL_CNT_CLR]
  | .PORT_IL_RETRY => [PORT_IL_RETRY_COUNT]
  | .PORT_IL_CRC_ERR => [PORT_IL_CRC_ERR_COUNT]
  | .PORT_IL_DROP => [PORT_IL_DROP_COUNT]
  | .PORT_IL_STOMP => [PORT_IL_STOMP_COUNT]
  | .PORT_IL_LINKDOWN => [PORT_IL_LINKDOWN_COUNT]
  | .PORT_IL_TX_BYTES => [PORT_IL_TX_BYTES_COUNT]
  | .PORT_IL_RX_BYTES => [PORT_IL_RX_BYTES_COUNT]
  | .PORT_MOD_ID => [PORT_MOD_ID_ID]
  | .PORT_MOD_COORD => [PORT_MOD_COORD_VALID, PORT_MOD_COORD_FAULT, PORT_MOD_COORD_CLOSED_X,
      PORT_MOD_COORD_CLOSED_Y, PORT_MOD_COORD_CLOSED_Z, PORT_MOD_COORD_LX_M1, PORT_MOD_COORD_LY_M1,
      PORT_MOD_COORD_LZ_M1, PORT_MOD_COORD_X, PORT_MOD_COORD_Y, PORT_MOD_COORD_Z]
  | .PORT_MOD_DISC => [PORT_MOD_DISC_GEN, PORT_MOD_DISC_PHASE]
  | .PORT_MOD_ORIGIN => [PORT_MOD_ORIGIN_ID]
  | .PORT_MOD_CFG => [PORT_MOD_CFG_SETTLE_MS, PORT_MOD_CFG_PIN_EN, PORT_MOD_CFG_DISC_EN]
  | .PORT_MOD_PIN => [PORT_MOD_PIN_ORIGIN]
  | .PORT_MOD_JOB => [PORT_MOD_JOB_TRANSIT_PCT, PORT_MOD_JOB_JOB]
  | .PORT_MOD_SHARE => [PORT_MOD_SHARE_W4, PORT_MOD_SHARE_W1, PORT_MOD_SHARE_W0]
  | .PORT_MOD_PERMIT => [PORT_MOD_PERMIT_VALID, PORT_MOD_PERMIT_JOB]
  | .COL_CFG => [COL_CFG_STALL_MS, COL_CFG_CREDIT_CHUNKS]
  | .COL_STATUS => [COL_STATUS_WAITING, COL_STATUS_BUSY]
  | .COL_CTRL => [COL_CTRL_CNT_CLR]
  | .COL_FAIL => [COL_FAIL_VALID, COL_FAIL_CODE, COL_FAIL_CHAN, COL_FAIL_G, COL_FAIL_TASK]
  | .AS_CHECKS => [AS_CHECKS_COUNT]
  | .AS_MISMATCH => [AS_MISMATCH_COUNT]
  | .AS_LAST => [AS_LAST_VALID, AS_LAST_RESOLVED, AS_LAST_CHAN, AS_LAST_SRC_DIE, AS_LAST_SRC]
  | .COL_CHAN => [COL_CHAN_DISCARDED, COL_CHAN_STAGE, COL_CHAN_STATE, COL_CHAN_G, COL_CHAN_TASK]
  | .COL_SEAL_CFG => [COL_SEAL_CFG_SEAL_MS, COL_SEAL_CFG_CARRIED]
  | .COL_SEAL_STATE => [COL_SEAL_STATE_EPOCH, COL_SEAL_STATE_OWN, COL_SEAL_STATE_COMBINED, COL_SEAL_STATE_ROUND,
      COL_SEAL_STATE_RETRACTING, COL_SEAL_STATE_RETRACT_DONE]
  | .COL_CHECK => [COL_CHECK_EPOCH, COL_CHECK_VERDICT, COL_CHECK_ROUND, COL_CHECK_SUSPECT_DIE, COL_CHECK_SUSPECT]
  | .COL_RETRACT => [COL_RETRACT_EPOCH, COL_RETRACT_REASON, COL_RETRACT_VALID, COL_RETRACT_SUSPECT_DIE,
      COL_RETRACT_SUSPECT]
  | .COL_SEAL_NBR => [COL_SEAL_NBR_VALID, COL_SEAL_NBR_X, COL_SEAL_NBR_Y, COL_SEAL_NBR_Z]
  | .ING_CTRL => [ING_CTRL_CNT_CLR, ING_CTRL_RESTORE, ING_CTRL_ABORT, ING_CTRL_EN]
  | .ING_STATUS => [ING_STATUS_LAST_EPOCH, ING_STATUS_SERIAL, ING_STATUS_STATE, ING_STATUS_CO_FED,
      ING_STATUS_LOST_ALERT, ING_STATUS_PACED, ING_STATUS_SKIPPED, ING_STATUS_VOID, ING_STATUS_VOID_CAUSE]
  | .ING_CADENCE => [ING_CADENCE_FROM_EPOCH, ING_CADENCE_INTERVAL, ING_CADENCE_T2_EVERY, ING_CADENCE_T3_EVERY]
  | .ING_POLICY => [ING_POLICY_COMMON, ING_POLICY_LOST_MAX, ING_POLICY_C_MIN_MS, ING_POLICY_M_PRIOR_KH]
  | .ING_PARTNER => [ING_PARTNER_OUT_VALID, ING_PARTNER_IN_VALID, ING_PARTNER_CO_FED, ING_PARTNER_FEED_KNOWN,
      ING_PARTNER_OUT_FEED, ING_PARTNER_OUT, ING_PARTNER_IN]
  | .ING_RX => [ING_RX_VALID, ING_RX_STATE, ING_RX_SIZE, ING_RX_BASE]
  | .ING_EXCLUDE => [ING_EXCLUDE_EXCLUDE]
  | .ING_MEMBERS => [ING_MEMBERS_SELF, ING_MEMBERS_COUNT_M1, ING_MEMBERS_ADDR]
  | .ING_T2 => [ING_T2_VALID, ING_T2_SLOTS_M1, ING_T2_FORGE, ING_T2_HAND, ING_T2_BASE]
  | .ING_PROGRESS => [ING_PROGRESS_PAGES, ING_PROGRESS_T1_DONE, ING_PROGRESS_T2_DONE]
  | .ING_ADVICE => [ING_ADVICE_K, ING_ADVICE_L, ING_ADVICE_C_MS, ING_ADVICE_MS_MIN]
  | .ING_RESTORE => [ING_RESTORE_EPOCH, ING_RESTORE_SRC, ING_RESTORE_SLOT, ING_RESTORE_PEER]
  | .ING_RD => [ING_RD_PINNED, ING_RD_LATE, ING_RD_WAIT_US]
  | .GE_RED_CFG => [GE_RED_CFG_TWIN_VALID, GE_RED_CFG_TWIN_OF, GE_RED_CFG_TWIN_SLOTS]
  | .AS_DLOG_BASE => [AS_DLOG_BASE_VALID, AS_DLOG_BASE_BASE]
  | .AS_DUAL_CNT => [AS_DUAL_CNT_CHECKS, AS_DUAL_CNT_MISMATCH, AS_DUAL_CNT_UNMATCHED]
  | .AS_DUAL_LAST => [AS_DUAL_LAST_VALID, AS_DUAL_LAST_G, AS_DUAL_LAST_TASK, AS_DUAL_LAST_EPOCH]
  | .AS_DUAL_DIG_P => [AS_DUAL_DIG_P_DIE, AS_DUAL_DIG_P_DIGEST]
  | .AS_DUAL_DIG_T => [AS_DUAL_DIG_T_DIE, AS_DUAL_DIG_T_DIGEST]
  | .GE_TEST_LAST => [GE_TEST_LAST_KA_EPOCH, GE_TEST_LAST_ST_EPOCH]
  | .HIC_RED_CFG => [HIC_RED_CFG_TS_FROM, HIC_RED_CFG_TS_N, HIC_RED_CFG_MODE]
  | .HIC_TRIG_CFG => [HIC_TRIG_CFG_ECC_BURST, HIC_TRIG_CFG_ASSAY_BURST, HIC_TRIG_CFG_NORM_RATIO,
      HIC_TRIG_CFG_MAX_PER_H]
  | .HIC_TRIG_STATUS => [HIC_TRIG_STATUS_EPOCH, HIC_TRIG_STATUS_NORM, HIC_TRIG_STATUS_RSTAT, HIC_TRIG_STATUS_TEST,
      HIC_TRIG_STATUS_ECC, HIC_TRIG_STATUS_ASSAY]
  | .HIC_QUAR => [HIC_QUAR_Q, HIC_QUAR_CAUSE, HIC_QUAR_SINCE]
  | .HIC_ELOG_BASE => [HIC_ELOG_BASE_VALID, HIC_ELOG_BASE_SIZE_LOG2, HIC_ELOG_BASE_BASE]
  | .HIC_ELOG_PROD => [HIC_ELOG_PROD_INDEX]
  | .HIC_ELOG_CONS => [HIC_ELOG_CONS_INDEX]
  | .HIC_ELOG_CFG => [HIC_ELOG_CFG_STREAM_MIN]
  | .HIC_ELOG_DROP => [HIC_ELOG_DROP_FAILED, HIC_ELOG_DROP_SUSPECT, HIC_ELOG_DROP_DEGRADED, HIC_ELOG_DROP_INFO]
  | .PWR_LV_CFG => [PWR_LV_CFG_RAMP, PWR_LV_CFG_BACKFILL_US, PWR_LV_CFG_HOLD_US, PWR_LV_CFG_FLOOR_W]
  | .PWR_LV_MAP => [PWR_LV_MAP_CLASS0, PWR_LV_MAP_CLASS1, PWR_LV_MAP_CLASS2, PWR_LV_MAP_CLASS3, PWR_LV_MAP_CLASS4,
      PWR_LV_MAP_CLASS5, PWR_LV_MAP_CLASS6, PWR_LV_MAP_CLASS7]
  | .PWR_LV_STATUS => [PWR_LV_STATUS_GRANTED, PWR_LV_STATUS_BUDGET, PWR_LV_STATUS_QUEUED, PWR_LV_STATUS_HELD,
      PWR_LV_STATUS_HEAD_LOCK, PWR_LV_STATUS_RAMPED]
  | .PWR_LV_WAIT => [PWR_LV_WAIT_COUNT]
  | .THM_CFG => [THM_CFG_RISE_C, THM_CFG_RISE_US, THM_CFG_TMAX, THM_CFG_QMIN_US, THM_CFG_QMAX]
  | .THM_STATUS => [THM_STATUS_QUENCHED, THM_STATUS_HELD, THM_STATUS_C_RISE, THM_STATUS_C_ABS, THM_STATUS_C_STACK,
      THM_STATUS_C_MODULE, THM_STATUS_HOT, THM_STATUS_QCOUNT, THM_STATUS_TEMP_MAX]
  | .THM_CTRL => [THM_CTRL_CNT_CLR, THM_CTRL_RELEASE]
  | .THM_SENSOR => [THM_SENSOR_REF, THM_SENSOR_TEMP]
  | .PWR_CFG => [PWR_CFG_P_LIM_W, PWR_CFG_IN_MAX_W, PWR_CFG_DIE_CAP_W, PWR_CFG_MARGIN_W]
  | .PWR_STATUS => [PWR_STATUS_STATE, PWR_STATUS_UV_WARN, PWR_STATUS_OV_WARN, PWR_STATUS_PFAIL,
      PWR_STATUS_OVERPOWER, PWR_STATUS_RAIL_FAULT, PWR_STATUS_QUENCHED]
  | .PWR_IN => [PWR_IN_VOLT, PWR_IN_CURR, PWR_IN_POWER]
  | .PWR_OTHER => [PWR_OTHER_STACKS_W, PWR_OTHER_LL_W, PWR_OTHER_LASER_W, PWR_OTHER_HUB_W, PWR_OTHER_LOSS_W]
  | .PWR_BUDGET => [PWR_BUDGET_BUDGET_W, PWR_BUDGET_GRANTED_W, PWR_BUDGET_MEASURED_W, PWR_BUDGET_DEMAND_W]
  | .THM_COOLANT => [THM_COOLANT_INLET, THM_COOLANT_OUTLET]
  | .PWR_RAIL => [PWR_RAIL_VOLT, PWR_RAIL_CURR, PWR_RAIL_POWER, PWR_RAIL_GOOD]
  | .HIC_CTRL => [HIC_CTRL_EN]
  | .HIC_LEVEL => [HIC_LEVEL_BITS]
  | .HIC_PEND => [HIC_PEND_BITS]
  | .HIC_MASK => [HIC_MASK_BITS]
  | .HIC_CLAIM => [HIC_CLAIM_VALID, HIC_CLAIM_SOURCE]
  | .HIC_COMPLETE => [HIC_COMPLETE_SOURCE]
  | .HIC_TARGET => [HIC_TARGET_PRIO, HIC_TARGET_CORE]
  | .HIC_FORGE_CFG => [HIC_FORGE_CFG_LOCK, HIC_FORGE_CFG_AGENT_MASK]
  | .HIC_FORGE_STATUS => [HIC_FORGE_STATUS_OVERLOAD, HIC_FORGE_STATUS_WINDOWS_OVER]
  | .HIC_FORGE_CLS => [HIC_FORGE_CLS_CLASS]
  | .HIC_FORGE_CYC => [HIC_FORGE_CYC_COUNT]
  | .HIC_MGMT_STATUS => [HIC_MGMT_STATUS_LINK, HIC_MGMT_STATUS_FEC, HIC_MGMT_STATUS_STREAM, HIC_MGMT_STATUS_SPOOL]
  | .HIC_PCIE_STATUS => [HIC_PCIE_STATUS_UP, HIC_PCIE_STATUS_RATE, HIC_PCIE_STATUS_WIDTH, HIC_PCIE_STATUS_PRESENT,
      HIC_PCIE_STATUS_FAILED, HIC_PCIE_STATUS_DMA_BLOCKED]
  | .TIME_NOW => [TIME_NOW_NS]
  | .TIME_FRAC => [TIME_FRAC_FRAC]
  | .TIME_CFG => [TIME_CFG_SET_IMMEDIATE, TIME_CFG_SET_VALID, TIME_CFG_PPS_OUT_EN, TIME_CFG_PPS_EN]
  | .TIME_SET_NEXT => [TIME_SET_NEXT_NS]
  | .TIME_STATUS => [TIME_STATUS_LOCKED, TIME_STATUS_HOLDOVER, TIME_STATUS_STEPPED, TIME_STATUS_SPURIOUS,
      TIME_STATUS_RATE, TIME_STATUS_OFFSET]
  | .TIME_PPS_LAST => [TIME_PPS_LAST_NS]
  | .DBG_CTRL => [DBG_CTRL_LOCK]
  | .DBG_STATUS => [DBG_STATUS_UNLOCKED, DBG_STATUS_DEBUG_MODE, DBG_STATUS_SERVICE, DBG_STATUS_SCOPE,
      DBG_STATUS_REMAIN_S]
  | .DBG_NONCE0 => [DBG_NONCE0_NONCE]
  | .DBG_NONCE1 => [DBG_NONCE1_NONCE]
  | .DBG_GE_CTRL => [DBG_GE_CTRL_HALT, DBG_GE_CTRL_STEP, DBG_GE_CTRL_BREAK_EN, DBG_GE_CTRL_HALTED, DBG_GE_CTRL_G,
      DBG_GE_CTRL_TASK]
  | .MON_CFG => [MON_CFG_EN, MON_CFG_IRQ_EN, MON_CFG_LOG2, MON_CFG_SRC, MON_CFG_INST, MON_CFG_WIN_US]
  | .MON_SCALE => [MON_SCALE_LO, MON_SCALE_STEP]
  | .MON_STATUS => [MON_STATUS_WINDOW, MON_STATUS_SEQ, MON_STATUS_OVERRUN, MON_STATUS_STEPPED, MON_STATUS_READY]
  | .MON_RANGE => [MON_RANGE_MAX, MON_RANGE_MIN]
  | .MON_COUNT => [MON_COUNT_LATE, MON_COUNT_COUNT]
  | .MON_BIN => [MON_BIN_COUNT]
  | .BOOT_STATUS => [BOOT_STATUS_PHASE, BOOT_STATUS_READY, BOOT_STATUS_STOPPED, BOOT_STATUS_RECOVERY,
      BOOT_STATUS_UNOWNED, BOOT_STATUS_FIELD_REPAIR_BAD, BOOT_STATUS_LINKLESS]
  | .BOOT_SLOT => [BOOT_SLOT_ACTIVE, BOOT_SLOT_PREF, BOOT_SLOT_TRIAL, BOOT_SLOT_TRIES, BOOT_SLOT_FALLBACK,
      BOOT_SLOT_A_VALID, BOOT_SLOT_B_VALID, BOOT_SLOT_FW_SVN]
  | .PROF_STATUS => [PROF_STATUS_ACTIVE, PROF_STATUS_PINS, PROF_STATUS_SOURCE, PROF_STATUS_PENDING,
      PROF_STATUS_PENDING_PROF, PROF_STATUS_RESET_PENDING, PROF_STATUS_DEFAULTS, PROF_STATUS_OWNER_VER]
  | .PROF_CMD => [PROF_CMD_GO, PROF_CMD_RESET, PROF_CMD_PROFILE]
  | .BOOT_FLASH_CMD => [BOOT_FLASH_CMD_OP, BOOT_FLASH_CMD_BUSY, BOOT_FLASH_CMD_ERR, BOOT_FLASH_CMD_ADDR]
  | .BOOT_FLASH_BUF => [BOOT_FLASH_BUF_LEN, BOOT_FLASH_BUF_ADDR]
  | .BOOT_CTR => [BOOT_CTR_VALUE]
  | .BOOT_T => [BOOT_T_NS]
  | .PWR_PINS => [PWR_PINS_FEED_ID, PWR_PINS_FEED_PREV, PWR_PINS_FEED_CHG, PWR_PINS_FEED_UNWIRED,
      PWR_PINS_PROFILE_SEL, PWR_PINS_PWR_EN, PWR_PINS_RESET_N, PWR_PINS_PPS_IN]
  | .THM_PLATE => [THM_PLATE_LEAK, THM_PLATE_LEAK_NOW, THM_PLATE_ZONE, THM_PLATE_RISE]

/-- Where in a die's window a group of registers lies (R17, R18, R183, R259). -/
inductive Home where
  | die
  | core
  | braze
  | port
  | stack (unit : Nat)
  | light (unit : Nat)
  | hub (unit : Nat)
  | mon
  deriving DecidableEq, Repr

/-- A row of an offset table: a register, or an array of `count` of them `stride` bytes apart. -/
structure RegRow where
  reg : RegName
  home : Home
  base : Nat
  stride : Nat
  count : Nat
  deriving DecidableEq, Repr

def regRows0 : List RegRow :=
  [⟨.CORE_ARRAY_ID, .core, 0x2000, 0, 1⟩,
   ⟨.CORE_ARRAY_CTRL, .core, 0x2008, 0, 1⟩,
   ⟨.CORE_ARRAY_STATUS, .core, 0x2010, 0, 1⟩,
   ⟨.CORE_ARRAY_COLMASK_LO, .core, 0x2018, 0, 1⟩,
   ⟨.CORE_ARRAY_COLMASK_HI, .core, 0x2020, 0, 1⟩,
   ⟨.CORE_ARRAY_WIDTH, .core, 0x2028, 0, 1⟩,
   ⟨.CORE_ARRAY_CODEBOOK, .core, 0x2030, 0, 1⟩,
   ⟨.CORE_ARRAY_KAFAIL_LO, .core, 0x2038, 0, 1⟩,
   ⟨.CORE_ARRAY_KAFAIL_HI, .core, 0x2040, 0, 1⟩,
   ⟨.CORE_ARRAY_CYC_TOTAL, .core, 0x2048, 0, 1⟩,
   ⟨.CORE_ARRAY_CYC_BUSY, .core, 0x2050, 0, 1⟩,
   ⟨.CORE_ARRAY_CYC_BUBBLE, .core, 0x2058, 0, 1⟩,
   ⟨.CORE_ARRAY_CYC_LOADWAIT, .core, 0x2060, 0, 1⟩,
   ⟨.CORE_ARRAY_CYC_STARVE, .core, 0x2068, 0, 1⟩,
   ⟨.CORE_ARRAY_TILES, .core, 0x2070, 0, 1⟩,
   ⟨.GE_RSTAT_CTRL, .die, 0x400000, 0, 1⟩,
   ⟨.GE_RSTAT_SNAP, .die, 0x400008, 0, 1⟩,
   ⟨.GE_RSTAT_BANK0, .die, 0x400010, 0, 1⟩,
   ⟨.GE_RSTAT_BANK1, .die, 0x400018, 0, 1⟩,
   ⟨.GE_NOISE_SEED, .die, 0x400100, 0, 1⟩,
   ⟨.GE_RSTAT_SLOT_SNAP, .die, 0x410000, 8, 4096⟩,
   ⟨.GE_RSTAT_SLOT_LIVE0, .die, 0x420000, 8, 4096⟩,
   ⟨.GE_RSTAT_SLOT_LIVE1, .die, 0x430000, 8, 4096⟩,
   ⟨.ACC_STATUS, .core, 0x3000, 0, 1⟩,
   ⟨.ACC_CTRL, .core, 0x3008, 0, 1⟩,
   ⟨.ACC_DBG_ADDR, .core, 0x3010, 0, 1⟩,
   ⟨.ACC_DBG_DATA, .core, 0x3018, 0, 1⟩,
   ⟨.ACC_DBG_FLAGS, .core, 0x3020, 0, 1⟩,
   ⟨.OUT_CYC_BUSY, .core, 0x3028, 0, 1⟩,
   ⟨.OUT_CYC_STALL, .core, 0x3030, 0, 1⟩,
   ⟨.GE_CTRL, .die, 0x0, 0, 1⟩,
   ⟨.GE_GRAPH_BASE, .die, 0x8, 0, 1⟩,
   ⟨.GE_DOORBELL, .die, 0x10, 0, 1⟩,
   ⟨.GE_CANCEL, .die, 0x18, 0, 1⟩,
   ⟨.GE_QUANTUM, .die, 0x20, 0, 1⟩,
   ⟨.GE_CORE_HOLD, .die, 0x28, 0, 1⟩]

def regRows1 : List RegRow :=
  [⟨.GE_CORE_RELEASE, .die, 0x30, 0, 1⟩,
   ⟨.GE_CORE_STATE, .die, 0x38, 0, 1⟩,
   ⟨.GE_UNPLACED, .die, 0x40, 0, 1⟩,
   ⟨.GE_LIVE, .die, 0x48, 0, 1⟩,
   ⟨.GE_TEST_CFG, .die, 0x50, 0, 1⟩,
   ⟨.GE_GRAPH_STATUS, .die, 0x100, 8, 16⟩,
   ⟨.GE_REGION_BUSY, .die, 0x200, 8, 4⟩,
   ⟨.GE_TEST_DUE, .die, 0x1000, 8, 32⟩,
   ⟨.GE_TOKEN, .die, 0x10000, 8, 4096⟩,
   ⟨.FE_CFG, .core, 0x4000, 0, 1⟩,
   ⟨.FE_STAGE, .core, 0x4008, 0, 1⟩,
   ⟨.FE_STATUS, .core, 0x4010, 0, 1⟩,
   ⟨.FE_CTRL, .core, 0x4018, 0, 1⟩,
   ⟨.FE_RD_BYTES, .core, 0x4020, 0, 1⟩,
   ⟨.FE_RD_REQ, .core, 0x4028, 0, 1⟩,
   ⟨.FE_RD_DISCARD, .core, 0x4030, 0, 1⟩,
   ⟨.FE_CYC_ENTRIES_FULL, .core, 0x4038, 0, 1⟩,
   ⟨.FE_CYC_SPACE, .core, 0x4040, 0, 1⟩,
   ⟨.FE_STG_FULL, .core, 0x4100, 8, 8⟩,
   ⟨.FE_STG_EMPTY, .core, 0x4140, 8, 8⟩,
   ⟨.CRU_CTRL, (.stack 0), 0x0, 0, 1⟩,
   ⟨.CRU_STATUS, (.stack 0), 0x8, 0, 1⟩,
   ⟨.CRU_SEED, (.stack 0), 0x10, 0, 1⟩,
   ⟨.CRU_THERM, (.stack 0), 0x18, 0, 1⟩,
   ⟨.CRU_ECC, (.stack 0), 0x20, 0, 1⟩,
   ⟨.CRU_ECC_LAST, (.stack 0), 0x28, 0, 1⟩,
   ⟨.CRU_WCB, (.stack 0), 0x30, 0, 1⟩,
   ⟨.CRU_REGION_A, (.stack 0), 0x1000, 16, 64⟩,
   ⟨.CRU_REGION_B, (.stack 0), 0x1008, 16, 64⟩,
   ⟨.CRU_ROW_DST, (.stack 1), 0x0, 32, 256⟩,
   ⟨.CRU_ROW_CFG, (.stack 1), 0x8, 32, 256⟩,
   ⟨.CRU_ROW_PARK, (.stack 1), 0x10, 32, 256⟩,
   ⟨.CRU_ROW_STATE, (.stack 1), 0x18, 32, 256⟩,
   ⟨.CRU_UPD_STATUS, (.stack 2), 0x0, 0, 1⟩,
   ⟨.CRU_UPD_PROG, (.stack 2), 0x1000, 8, 64⟩,
   ⟨.CRU_VER_CFG, (.stack 3), 0x0, 0, 1⟩]

def regRows2 : List RegRow :=
  [⟨.CRU_VER_STATUS, (.stack 3), 0x8, 0, 1⟩,
   ⟨.CRU_MARGIN_CTRL, (.stack 4), 0x0, 0, 1⟩,
   ⟨.CRU_MARGIN_RESULT, (.stack 4), 0x8, 0, 1⟩,
   ⟨.BRZ_CFG, .braze, 0x0, 0, 1⟩,
   ⟨.BRZ_STATUS, .braze, 0x8, 0, 1⟩,
   ⟨.BRZ_REPLAY, .braze, 0x10, 0, 1⟩,
   ⟨.BRZ_CTRL, .braze, 0x18, 0, 1⟩,
   ⟨.BRZ_CRC_ERR, .braze, 0x100, 8, 8⟩,
   ⟨.BOOT_CLK_STATUS, (.hub 1), 0x0, 0, 1⟩,
   ⟨.BOOT_RST_CTRL, (.hub 1), 0x8, 0, 1⟩,
   ⟨.BOOT_RST_STATUS, (.hub 1), 0x10, 0, 1⟩,
   ⟨.LL_CTRL, (.light 0), 0x0, 0, 1⟩,
   ⟨.LL_STATUS, (.light 0), 0x8, 0, 1⟩,
   ⟨.LL_ROT_CFG, (.light 0), 0x10, 0, 1⟩,
   ⟨.LL_FF, (.light 0), 0x100, 8, 4⟩,
   ⟨.LC_CFG, (.light 1), 0x0, 0, 1⟩,
   ⟨.LC_ROUTE, (.light 1), 0x8, 0, 1⟩,
   ⟨.LC_STATUS, (.light 1), 0x100, 8, 3⟩,
   ⟨.LL_LOSS, (.light 3), 0x0, 0, 1⟩,
   ⟨.LL_MON_CFG, (.light 3), 0x8, 0, 1⟩,
   ⟨.LL_RING, (.light 4), 0x0, 8, 294⟩,
   ⟨.PORT_STATUS, .port, 0x0, 0, 1⟩,
   ⟨.PORT_CFG, .port, 0x8, 0, 1⟩,
   ⟨.PORT_LANE, .port, 0x100, 8, 17⟩,
   ⟨.PORT_MON, .port, 0x200, 8, 17⟩,
   ⟨.PORT_MON_F, .port, 0x300, 0, 1⟩,
   ⟨.PORT_IL_CFG, .port, 0x1000, 0, 1⟩,
   ⟨.PORT_IL_STATUS, .port, 0x1008, 0, 1⟩,
   ⟨.PORT_IL_NEIGH, .port, 0x1010, 0, 1⟩,
   ⟨.PORT_IL_NEIGH_INFO, .port, 0x1018, 0, 1⟩,
   ⟨.PORT_IL_CTRL, .port, 0x1020, 0, 1⟩,
   ⟨.PORT_IL_RETRY, .port, 0x1028, 0, 1⟩,
   ⟨.PORT_IL_CRC_ERR, .port, 0x1030, 0, 1⟩,
   ⟨.PORT_IL_DROP, .port, 0x1038, 0, 1⟩,
   ⟨.PORT_IL_STOMP, .port, 0x1040, 0, 1⟩,
   ⟨.PORT_IL_LINKDOWN, .port, 0x1048, 0, 1⟩]

def regRows3 : List RegRow :=
  [⟨.PORT_IL_TX_BYTES, .port, 0x1100, 8, 5⟩,
   ⟨.PORT_IL_RX_BYTES, .port, 0x1140, 8, 5⟩,
   ⟨.PORT_MOD_ID, (.hub 2), 0x0, 0, 1⟩,
   ⟨.PORT_MOD_COORD, (.hub 2), 0x8, 0, 1⟩,
   ⟨.PORT_MOD_DISC, (.hub 2), 0x10, 0, 1⟩,
   ⟨.PORT_MOD_ORIGIN, (.hub 2), 0x18, 0, 1⟩,
   ⟨.PORT_MOD_CFG, (.hub 2), 0x20, 0, 1⟩,
   ⟨.PORT_MOD_PIN, (.hub 2), 0x28, 0, 1⟩,
   ⟨.PORT_MOD_JOB, (.hub 2), 0x30, 0, 1⟩,
   ⟨.PORT_MOD_SHARE, (.hub 2), 0x38, 0, 1⟩,
   ⟨.PORT_MOD_PERMIT, (.hub 2), 0x100, 8, 64⟩,
   ⟨.COL_CFG, .die, 0x800000, 0, 1⟩,
   ⟨.COL_STATUS, .die, 0x800008, 0, 1⟩,
   ⟨.COL_CTRL, .die, 0x800010, 0, 1⟩,
   ⟨.COL_FAIL, .die, 0x800018, 0, 1⟩,
   ⟨.AS_CHECKS, .die, 0x800020, 0, 1⟩,
   ⟨.AS_MISMATCH, .die, 0x800028, 0, 1⟩,
   ⟨.AS_LAST, .die, 0x800030, 0, 1⟩,
   ⟨.COL_CHAN, .die, 0x800100, 8, 16⟩,
   ⟨.COL_SEAL_CFG, (.hub 3), 0x0, 0, 1⟩,
   ⟨.COL_SEAL_STATE, (.hub 3), 0x8, 0, 1⟩,
   ⟨.COL_CHECK, (.hub 3), 0x10, 0, 1⟩,
   ⟨.COL_RETRACT, (.hub 3), 0x18, 0, 1⟩,
   ⟨.COL_SEAL_NBR, (.hub 3), 0x100, 8, 6⟩,
   ⟨.ING_CTRL, (.hub 4), 0x0, 0, 1⟩,
   ⟨.ING_STATUS, (.hub 4), 0x8, 0, 1⟩,
   ⟨.ING_CADENCE, (.hub 4), 0x10, 0, 1⟩,
   ⟨.ING_POLICY, (.hub 4), 0x18, 0, 1⟩,
   ⟨.ING_PARTNER, (.hub 4), 0x20, 0, 1⟩,
   ⟨.ING_RX, (.hub 4), 0x28, 8, 2⟩,
   ⟨.ING_EXCLUDE, (.hub 4), 0x38, 0, 1⟩,
   ⟨.ING_MEMBERS, (.hub 4), 0x40, 0, 1⟩,
   ⟨.ING_T2, (.hub 4), 0x48, 0, 1⟩,
   ⟨.ING_PROGRESS, (.hub 4), 0x50, 0, 1⟩,
   ⟨.ING_ADVICE, (.hub 4), 0x58, 0, 1⟩,
   ⟨.ING_RESTORE, (.hub 4), 0x60, 0, 1⟩]

def regRows4 : List RegRow :=
  [⟨.ING_RD, (.hub 4), 0x100, 8, 12⟩,
   ⟨.GE_RED_CFG, .die, 0xC00000, 0, 1⟩,
   ⟨.AS_DLOG_BASE, .die, 0xC00008, 0, 1⟩,
   ⟨.AS_DUAL_CNT, .die, 0xC00010, 0, 1⟩,
   ⟨.AS_DUAL_LAST, .die, 0xC00018, 0, 1⟩,
   ⟨.AS_DUAL_DIG_P, .die, 0xC00020, 0, 1⟩,
   ⟨.AS_DUAL_DIG_T, .die, 0xC00028, 0, 1⟩,
   ⟨.GE_TEST_LAST, .die, 0xC01000, 8, 32⟩,
   ⟨.HIC_RED_CFG, (.hub 5), 0x0, 0, 1⟩,
   ⟨.HIC_TRIG_CFG, (.hub 5), 0x8, 0, 1⟩,
   ⟨.HIC_TRIG_STATUS, (.hub 5), 0x10, 0, 1⟩,
   ⟨.HIC_QUAR, (.hub 5), 0x18, 0, 1⟩,
   ⟨.HIC_ELOG_BASE, (.hub 5), 0x100, 0, 1⟩,
   ⟨.HIC_ELOG_PROD, (.hub 5), 0x108, 0, 1⟩,
   ⟨.HIC_ELOG_CONS, (.hub 5), 0x110, 0, 1⟩,
   ⟨.HIC_ELOG_CFG, (.hub 5), 0x118, 0, 1⟩,
   ⟨.HIC_ELOG_DROP, (.hub 5), 0x120, 0, 1⟩,
   ⟨.PWR_LV_CFG, .die, 0xD00000, 0, 1⟩,
   ⟨.PWR_LV_MAP, .die, 0xD00008, 0, 1⟩,
   ⟨.PWR_LV_STATUS, .die, 0xD00010, 0, 1⟩,
   ⟨.PWR_LV_WAIT, .die, 0xD00018, 0, 1⟩,
   ⟨.THM_CFG, .die, 0xD00100, 0, 1⟩,
   ⟨.THM_STATUS, .die, 0xD00108, 0, 1⟩,
   ⟨.THM_CTRL, .die, 0xD00110, 0, 1⟩,
   ⟨.THM_SENSOR, .die, 0xD00200, 8, 64⟩,
   ⟨.PWR_CFG, (.hub 6), 0x0, 0, 1⟩,
   ⟨.PWR_STATUS, (.hub 6), 0x8, 0, 1⟩,
   ⟨.PWR_IN, (.hub 6), 0x10, 0, 1⟩,
   ⟨.PWR_OTHER, (.hub 6), 0x18, 0, 1⟩,
   ⟨.PWR_BUDGET, (.hub 6), 0x20, 8, 4⟩,
   ⟨.THM_COOLANT, (.hub 6), 0x40, 0, 1⟩,
   ⟨.PWR_RAIL, (.hub 6), 0x100, 8, 32⟩,
   ⟨.HIC_CTRL, (.hub 7), 0x0, 0, 1⟩,
   ⟨.HIC_LEVEL, (.hub 7), 0x100, 8, 18⟩,
   ⟨.HIC_PEND, (.hub 7), 0x200, 8, 18⟩,
   ⟨.HIC_MASK, (.hub 7), 0x300, 8, 18⟩]

def regRows5 : List RegRow :=
  [⟨.HIC_CLAIM, (.hub 7), 0x400, 8, 16⟩,
   ⟨.HIC_COMPLETE, (.hub 7), 0x480, 8, 16⟩,
   ⟨.HIC_TARGET, (.hub 7), 0x1000, 8, 1152⟩,
   ⟨.HIC_FORGE_CFG, (.hub 8), 0x0, 0, 1⟩,
   ⟨.HIC_FORGE_STATUS, (.hub 8), 0x8, 0, 1⟩,
   ⟨.HIC_FORGE_CLS, (.hub 8), 0x100, 8, 16⟩,
   ⟨.HIC_FORGE_CYC, (.hub 8), 0x200, 8, 5⟩,
   ⟨.HIC_MGMT_STATUS, (.hub 8), 0x300, 0, 1⟩,
   ⟨.HIC_PCIE_STATUS, (.hub 8), 0x400, 8, 2⟩,
   ⟨.TIME_NOW, (.hub 9), 0x0, 0, 1⟩,
   ⟨.TIME_FRAC, (.hub 9), 0x8, 0, 1⟩,
   ⟨.TIME_CFG, (.hub 9), 0x10, 0, 1⟩,
   ⟨.TIME_SET_NEXT, (.hub 9), 0x18, 0, 1⟩,
   ⟨.TIME_STATUS, (.hub 9), 0x20, 0, 1⟩,
   ⟨.TIME_PPS_LAST, (.hub 9), 0x28, 0, 1⟩,
   ⟨.DBG_CTRL, (.hub 10), 0x0, 0, 1⟩,
   ⟨.DBG_STATUS, (.hub 10), 0x8, 0, 1⟩,
   ⟨.DBG_NONCE0, (.hub 10), 0x10, 0, 1⟩,
   ⟨.DBG_NONCE1, (.hub 10), 0x18, 0, 1⟩,
   ⟨.DBG_GE_CTRL, (.hub 10), 0x100, 8, 4⟩,
   ⟨.MON_CFG, .mon, 0x0, 0, 1⟩,
   ⟨.MON_SCALE, .mon, 0x8, 0, 1⟩,
   ⟨.MON_STATUS, .mon, 0x10, 0, 1⟩,
   ⟨.MON_RANGE, .mon, 0x18, 0, 1⟩,
   ⟨.MON_COUNT, .mon, 0x20, 0, 1⟩,
   ⟨.MON_BIN, .mon, 0x100, 8, 32⟩,
   ⟨.BOOT_STATUS, (.hub 12), 0x0, 0, 1⟩,
   ⟨.BOOT_SLOT, (.hub 12), 0x8, 0, 1⟩,
   ⟨.PROF_STATUS, (.hub 12), 0x10, 0, 1⟩,
   ⟨.PROF_CMD, (.hub 12), 0x18, 0, 1⟩,
   ⟨.BOOT_FLASH_CMD, (.hub 12), 0x20, 0, 1⟩,
   ⟨.BOOT_FLASH_BUF, (.hub 12), 0x28, 0, 1⟩,
   ⟨.BOOT_CTR, (.hub 12), 0x100, 8, 4⟩,
   ⟨.BOOT_T, (.hub 12), 0x200, 8, 11⟩,
   ⟨.PWR_PINS, (.hub 13), 0x0, 0, 1⟩,
   ⟨.THM_PLATE, (.hub 13), 0x8, 0, 1⟩]

/-- The offset tables of the register chapters, in one list. -/
def regRows : List RegRow :=
  regRows0 ++ regRows1 ++ regRows2 ++ regRows3 ++ regRows4 ++ regRows5

/-- Compute neighbours of die `d` over Braze, lower index first (R21: the diagonals have no edge). -/
def brazeNeighbours (d : Nat) : Nat × Nat :=
  if d = 0 then (1, 2) else if d = 1 then (0, 3) else if d = 2 then (0, 3) else (1, 2)

/-- PEER and PEER_IDX of BRZ_STATUS for edge `e` of die `d` (R228): 0 hub, 1 and 2 compute, 3 to 5 owned stacks. -/
def brazePeer (d e : Nat) : Nat × Nat :=
  if e = 0 then (0, 4)
  else if e = 1 then (1, (brazeNeighbours d).1)
  else if e = 2 then (1, (brazeNeighbours d).2)
  else if e < 6 then (2, 6 + 3 * d + (e - 3))
  else (7, 0)

/-- The value each register reads as right after reset. The numbers are the Reset columns of the register tables.
DESIGN CHOICE and PRESUMED values (sampled pins, profile fields, kept bits) are named in the assumption log. -/
def RegKey.reset (k : RegKey) : BitVec 64 :=
  match k.name with
  | .GE_TEST_DUE => BitVec.ofNat 64 (1440 * 60 * 1000000000 * (k.idx + 1) / 32)
  | .GE_RSTAT_SLOT_SNAP | .GE_RSTAT_SLOT_LIVE0 | .GE_RSTAT_SLOT_LIVE1 =>
    if k.idx % 4 = 3 then 0x80007FFF else 0
  | .BRZ_STATUS =>
    BitVec.ofNat 64 ((brazePeer (k.inst / 8) (k.inst % 8)).1 * 2 ^ 61
      + (brazePeer (k.inst / 8) (k.inst % 8)).2 * 2 ^ 56)
  | .PORT_STATUS => BitVec.ofNat 64 (0x1F * 2 ^ 51 + k.inst)
  | .PORT_MOD_ID => Config.moduleId
  | .DBG_NONCE0 => (Config.nonce 0).setWidth 64
  | .DBG_NONCE1 => (Config.nonce 0 >>> 64).setWidth 64
  | .PWR_PINS => 0x0000_0C00_0000_0000
  | .CORE_ARRAY_STATUS => 0x1
  | .CORE_ARRAY_WIDTH => 0x40002004080
  | .CORE_ARRAY_CODEBOOK => 0x2F102F10
  | .GE_RSTAT_CTRL => 0x1
  | .ACC_STATUS => 0x800000000000
  | .GE_CTRL => 0x2
  | .GE_QUANTUM => 0x7D0
  | .GE_TEST_CFG => 0x3C003C05A00258
  | .FE_CFG => 0x40001
  | .FE_STAGE => 0x200020
  | .CRU_CTRL => 0x2
  | .CRU_THERM => 0x32000000000000
  | .CRU_REGION_A => 0x1000000000000
  | .CRU_VER_CFG => 0x6400001000
  | .CRU_VER_STATUS => 0x1000
  | .CRU_MARGIN_CTRL => 0x1E
  | .BRZ_CFG => 0x400100000
  | .BOOT_RST_STATUS => 0x3FFFF
  | .LL_CTRL => 0xE
  | .LL_ROT_CFG => 0x927C
  | .LL_FF => 0xFED4015E0F000000
  | .LC_CFG => 0x271000001E0F6401
  | .LC_ROUTE => 0x1
  | .LL_MON_CFG => 0x32
  | .PORT_CFG => 0x101
  | .PORT_LANE => 0xFFFF000000000000
  | .PORT_IL_CFG => 0x1400400001
  | .PORT_MOD_CFG => 0x1400000001
  | .PORT_MOD_JOB => 0xA0000000000
  | .PORT_MOD_SHARE => 0x2020C0
  | .COL_CFG => 0x3E800400000
  | .COL_SEAL_CFG => 0x271000000000
  | .ING_CTRL => 0x1
  | .ING_POLICY => 0x1000A32
  | .HIC_RED_CFG => 0x400000
  | .HIC_TRIG_CFG => 0x40000410080000
  | .HIC_ELOG_BASE => 0x1000000000000
  | .HIC_ELOG_CFG => 0x1
  | .PWR_LV_CFG => 0xF014320000005A
  | .PWR_LV_MAP => 0x6860503020100800
  | .THM_CFG => 0xA01F46E07D00400
  | .PWR_CFG => 0xFA0113003840028
  | .PWR_STATUS => 0x2000000000000000
  | .HIC_FORGE_CFG => 0x3
  | .TIME_CFG => 0x3
  | .MON_CFG => 0xF4240
  | .MON_SCALE => 0x1
  | .MON_RANGE => 0x800000007FFFFFFF
  | _ => 0

/-- The register at offset `off` of a unit with home `h`, with its array index. -/
def findRow (h : Home) (off : Nat) : List RegRow → Option (RegName × Nat)
  | [] => none
  | r :: rs =>
    if r.home = h && r.base ≤ off && off < r.base + (r.count - 1) * r.stride + 8 &&
        (if r.stride = 0 then off = r.base else (off - r.base) % r.stride = 0) then
      some (r.reg, if r.stride = 0 then 0 else (off - r.base) / r.stride)
    else findRow h off rs

/-- The key of the register at `off` of a unit with home `h` and instance `inst`. -/
def keyAt (h : Home) (inst off : Nat) : Option RegKey :=
  (findRow h off regRows).map fun r => ⟨r.1, inst, r.2⟩

/-- Monitor registers repeat every 0x200 from `base` (R429): monitor m keeps its registers under index m, its bins
under index 32 m + b. -/
def monAt (inst off : Nat) : Option RegKey :=
  if off / 0x200 < 64 then
    (findRow .mon (off % 0x200) regRows).map fun r =>
      ⟨r.1, inst, if r.1 = .MON_BIN then 32 * (off / 0x200) + r.2 else off / 0x200⟩
  else none

/-- The fabric port whose engine is unit `u` (48 or 49) of compute die `d` (R10, R17); none on CD3. -/
def portOfUnit (d u : Nat) : Option Nat := if d < 3 then some (2 * d + (u - 48)) else none

/-- The register at a package address of the register space (R14, R16 to R18, R183, R259); `none` where the
address holds no register (reserved, or outside the space). Addresses are 8-byte aligned (R13). -/
def regAt (a : Nat) : Option RegKey :=
  if a < 0xF0000000000 ∨ 0xF1200000000 ≤ a then none else
  let w := (a - 0xF0000000000) / 0x100000000
  let u := (a % 0x100000000) / 0x1000000
  let off := a % 0x1000000
  if w < 4 then
    if u = 0 then if 0xE00000 ≤ off then monAt w (off - 0xE00000) else keyAt .die w off
    else if u ≤ 34 then keyAt .core (w * 34 + (u - 1)) off
    else if 40 ≤ u ∧ u < 46 then keyAt .braze (w * 8 + (u - 40)) off
    else if u = 48 ∨ u = 49 then (portOfUnit w u).bind fun p => keyAt .port p off
    else none
  else if w = 4 then if u = 11 then monAt 4 off else keyAt (.hub u) 0 off
  else if w = 5 then keyAt (.light u) 0 off
  else keyAt (.stack u) (w - 6) off

/-- The die_index (R16) whose window holds address `a`. -/
def dieOfAddr (a : Nat) : Nat := (a - 0xF0000000000) / 0x100000000

end Sys2Proof.Machine
end

