-- ==== Sys2Proof/Machine/Table.lean ====
section
/-! DEFINITION. Sparse tables in one canonical form: a list of key and value pairs, keys strictly rising, no entry
equal to what an unlisted key reads as. Memory (a list of `Host.Cell`) and every array of the state use it. -/

namespace Sys2Proof.Machine

/-- A sparse table as plain data. -/
abbrev Tab (κ α : Type) := List (κ × α)

/-- The value at `k`: the listed one, else what an unlisted key reads as. -/
def Tab.get {κ α : Type} [DecidableEq κ] (d : κ → α) : Tab κ α → κ → α
  | [], k => d k
  | e :: t, k => if e.1 = k then e.2 else Tab.get d t k

/-- The table without `k`. -/
def Tab.erase {κ α : Type} [DecidableEq κ] : Tab κ α → κ → Tab κ α
  | [], _ => []
  | e :: t, k => if e.1 = k then Tab.erase t k else e :: Tab.erase t k

/-- `k` entered in order. -/
def Tab.insert {κ α : Type} (lt : κ → κ → Bool) : Tab κ α → κ → α → Tab κ α
  | [], k, v => [(k, v)]
  | e :: t, k, v => if lt k e.1 then (k, v) :: e :: t else e :: Tab.insert lt t k v

/-- `v` stored at `k`; storing what an unlisted key reads as removes the entry. -/
def Tab.put {κ α : Type} [DecidableEq κ] [DecidableEq α] (lt : κ → κ → Bool) (d : κ → α)
    (t : Tab κ α) (k : κ) (v : α) : Tab κ α :=
  if v = d k then Tab.erase t k else Tab.insert lt (Tab.erase t k) k v

/-- The order of natural keys. -/
def natLt (a b : Nat) : Bool := decide (a < b)

/-- Keys strictly rising and no entry at its unlisted value. -/
def Tab.wf {κ α : Type} [DecidableEq α] (lt : κ → κ → Bool) (d : κ → α) : Tab κ α → Bool
  | [] => true
  | e :: t => e.2 != d e.1 && t.all (fun x => lt e.1 x.1) && Tab.wf lt d t

/-- A table by natural keys whose unlisted keys all read `d`. -/
def Tab.getN {α : Type} (d : α) (t : Tab Nat α) (k : Nat) : α := Tab.get (fun _ => d) t k

/-- `v` stored at a natural key. -/
def Tab.putN {α : Type} [DecidableEq α] (d : α) (t : Tab Nat α) (k : Nat) (v : α) : Tab Nat α :=
  Tab.put natLt (fun _ => d) t k v

end Sys2Proof.Machine
end

