-- ==== Sys2Proof/Machine/State.lean ====
section
/-! DEFINITION. The state of the module as plain data, and the state right after reset. -/

namespace Sys2Proof.Machine

/-! ### Tasks and the graph engine (Task graphs and the graph engine) -/

/-- Where a task stands (R120, R126, R130). -/
inductive TStat where
  | waiting | queued | dispatched | completed | cancelled
  deriving DecidableEq, Repr

/-- One task of a graph slot. `w` is the eight descriptor words: 0 to 3 as validation read them, 4 to 7 as read again
when the task was queued; `ext` the operand extension words of that second reading (R114), and `mask` the row mask read with it, each
byte with whether it came poisoned (R149, R169). -/
structure Task where
  idx : Nat
  w : List Word
  ext : List Word := []
  succ : List Nat := []
  pred : Nat := 0
  status : TStat := .waiting
  core : Option Nat := none
  started : Bool := false
  fin : Bool := false
  dispatchedAt : Nat := 0
  startedAt : Nat := 0
  digest : Nat := 0
  item : Nat := 0
  stopAtYield : Bool := false
  overrun : Bool := false
  mask : List (Byte × Bool) := []
  deriving DecidableEq, Repr

/-- The graph held by a slot (R111); `clash` says that its range met another graph's when it was submitted (R112). -/
structure Graph where
  start : Nat := 0
  count : Nat := 0
  clash : Bool := false
  tasks : List Task := []
  deriving DecidableEq, Repr

/-- The test schedule of one logical core (R134 to R137). -/
structure Sched where
  due : Option TestKind := none
  running : Option TestKind := none
  hold : Bool := false
  failedHold : Bool := false
  preempt : Bool := false
  kaDue : Nat := 600000000000
  topEpoch : Nat := 0
  startEpoch : Nat := 0
  byTask : Option TaskId := none
  deriving DecidableEq, Repr

/-- A twin entry waiting for its primary record (R355). -/
structure TwinEntry where
  g : Nat
  idx : Nat
  epoch : Nat
  tensor : Nat
  digest : Nat
  core : Nat
  kind : Nat := 0
  deriving DecidableEq, Repr

/-- A leave request waiting in the arbiter (R385). -/
structure LeaveReq where
  task : TaskId
  tokens : Nat
  prio : Nat
  crit : Nat
  since : Nat
  core : Nat
  deriving DecidableEq, Repr

/-- A grant issued and not yet in effect (R386). -/
structure Grant where
  task : TaskId
  tokens : Nat
  core : Nat
  since : Nat
  deriving DecidableEq, Repr

/-- One compute die's graph engine, leave arbiter and digest comparison: `top` is one more than the highest epoch of a task
dispatched, `boundary` one more than the epoch of the last step boundary; `unmatched` the
primary records (epoch, slot, index) that no twin has matched (R358). -/
structure Engine where
  graphs : Tab Nat Graph := []
  submitted : List Nat := []
  validating : Option Nat := none
  sched : Tab Nat Sched := []
  top : Nat := 0
  boundary : Nat := 0
  twins : List TwinEntry := []
  stepping : Bool := false
  waitq : List LeaveReq := []
  issued : List Grant := []
  backfilled : Bool := false
  g0 : Nat := 0
  unmatched : List (Nat × Nat × Nat) := []
  deriving DecidableEq, Repr

/-! ### Cores (Matrix array; Accumulators and the output stage; Fetch engines) -/

/-- A weight tile in the active or shadow registers (R29, R33 to R37), with the task it was loaded for and whether an
in-field test has run on the core since: the element
encodings by array row and presented column, the MX scale of each segment and column, and, in the code modes, which
(row, column) codes came from poisoned granules (R149). -/
structure WTile where
  valid : Bool := false
  mode : Nat := 0
  fmt : Nat := 0
  transposed : Bool := false
  kt : Nat := 0
  codebook : Nat := 0x2F10
  addr : Nat := 0
  cols : Nat := 0
  cells : List (List Nat) := []
  scales : List (List Nat) := []
  bad : List (Nat × Nat) := []
  owner : Option TaskId := none
  tested : Bool := false
  deriving DecidableEq, Repr

/-- A token in the segments or the foot, with the column sums it will hand over (R38, R92). -/
structure Hand where
  task : TaskId
  tile : Nat
  m : Nat
  sums : List F32
  add : Bool
  discard : Bool := false
  deriving DecidableEq, Repr

/-- A tile bound to the core (R88, R89): its units, shape and in-flight counter. -/
structure Bound where
  g : Nat
  tile : Nat
  base : Nat
  m : Nat
  n : Nat
  pair : Bool
  inflight : Nat := 0
  releasing : Bool := false
  deriving DecidableEq, Repr

/-- An outstanding read (R147): its task, address and bytes, whether its data will be discarded (R148), when it was
issued, and whether its latency is sampled (R422). -/
structure FetchEntry where
  task : TaskId
  addr : Nat
  len : Nat
  discard : Bool := false
  issuedAt : Nat := 0
  sampled : Bool := false
  deriving DecidableEq, Repr

/-- A staging reservation (R141): the bytes reserved, the 64-byte lines still to be read, and the bytes staged by source
address, each with its poison (R149). -/
structure Reservation where
  task : TaskId
  bytes : Nat
  todo : List Nat := []
  have_ : Tab Nat (Option (Byte × Bool)) := []
  deriving DecidableEq, Repr

/-- One stage of a running chain (R152, R153): items done, credits of its output queue. -/
structure StageRt where
  done : Nat := 0
  credits : Nat := 0
  deriving DecidableEq, Repr

/-- The FUSED chain that holds a core (R151). -/
structure Chain where
  task : TaskId
  items : Nat
  stages : List StageRt
  draining : Bool := false
  deriving DecidableEq, Repr

/-- One physical core. `acc` lists the accumulator entries written since their tile was bound; `accSeed` is the draw that
gives the others their content. -/
structure CoreSt where
  active : WTile := {}
  shadow : WTile := {}
  mask : BitVec 128 := 0
  foot : List Hand := []
  acc : Tab Nat (Option F32) := []
  accSeed : Nat := 0
  tiles : List Bound := []
  port : List TaskId := []
  portGo : Bool := false
  runAhead : List TaskId := []
  entries : List FetchEntry := []
  resv : List Reservation := []
  chain : Option Chain := none
  held : Nat := 0
  deriving DecidableEq, Repr

/-! ### Stacks (Crucible stacks) -/

/-- A line of the write-combining buffer (R187): its line address and the bytes present, each with the epoch of its
write, and the 32-byte granules written with the poison code (R180). -/
structure WcbLine where
  line : Nat
  bytes : Tab Nat (Option (Byte × Option Nat)) := []
  poison : List Nat := []
  deriving DecidableEq, Repr

/-- A retained frame (R204): the frame, the epoch whose contents it holds, and the epoch of an ingot pin on it. -/
structure Retained where
  frame : Nat
  tag : Nat
  pin : Option Nat := none
  deriving DecidableEq, Repr

/-- A version-table entry (R204). -/
structure PageVer where
  cur : Nat
  vep : Nat := 0
  retained : List Retained := []
  pin : Option Nat := none
  deriving DecidableEq, Repr

/-- A first-touch copy running (R205): its page, the epoch of the write that started it, and the new frame. -/
structure FtCopy where
  page : Nat
  epoch : Nat
  frame : Nat
  deriving DecidableEq, Repr

/-- A map entry of a lossless granule (R190). -/
structure CompEntry where
  raw : Bool := false
  lost : Bool := false
  sectors : Nat := 0
  first : Nat := 0
  deriving DecidableEq, Repr

/-- A contribution chunk waiting in a park slot (R195). -/
structure Parked where
  q : Nat
  k : Nat
  slot : Nat
  len : Nat
  leaf : Bool
  data : List Byte := []
  deriving DecidableEq, Repr

/-- The part of a reduce-on-write context that no register holds: its task, the digest origin, whether its area lies in
memory, the phase, chain step and half that a collective's own context serves, the parked chunks, the next expected k
of each chunk with the two norm partials (R196), and the header: digest, local and sum; `sentQ` and `sentDig` are the
chunks forwarded from it and the sum of their digests (R313). -/
structure RowCtx where
  owner : Option TaskId := none
  origin : Nat := 0
  inMem : Bool := false
  phase : Nat := 0
  h : Nat := 0
  up : Bool := false
  parked : List Parked := []
  next : Tab Nat Nat := []
  leafSum : Tab Nat Nat := []
  doneSum : Tab Nat Nat := []
  digest : Nat := 0
  loc : Nat := 0
  sum : Nat := 0
  sentQ : Nat := 0
  sentDig : Nat := 0
  deriving DecidableEq, Repr

/-- A stream of a Crucible program (R198). -/
structure PStream where
  fmt : Nat
  rnd : Nat
  slot : Nat
  addr : Nat
  tensor : Nat
  index0 : Nat
  deriving DecidableEq, Repr

/-- The element a stack's update unit works on (R201): the COPY, its streams and constants, the registers f0 to
f15, the element and the micro-op that comes next, and the partial digest so far. -/
structure UpdRun where
  task : TaskId
  prog : Nat
  streams : List PStream
  konst : List F32
  f : List F32
  i : Nat
  pc : Nat := 0
  length : Nat
  digStream : Nat
  digest : Nat := 0
  ended : Bool := false
  deriving DecidableEq, Repr

/-- One stack. -/
structure StackSt where
  wcb : List WcbLine := []
  freed : List Nat := []
  taken : Nat := 0
  ver : Tab Nat (Option PageVer) := []
  copies : List FtCopy := []
  waiting : List WriteReq := []
  waitSince : Option Nat := none
  waitStage : Nat := 0
  retract : Option Nat := none
  comp : Tab Nat CompEntry := []
  rows : Tab Nat RowCtx := []
  upd : Option UpdRun := none
  margining : Option Nat := none
  corrWin : Tab Nat Nat := []
  burst : Nat × Nat := (0, 0)
  refreshed : Nat := 0
  deriving DecidableEq, Repr

/-! ### Error records (Silent errors, in-field test and error records) -/

/-- An error record (R370), field by field; bytes are laid out by `ErrRec.bytes`. -/
structure ErrRec where
  time : Nat
  frac : Nat
  severity : Nat
  stale : Bool
  lost : Bool
  lcore : Option Nat
  unit : Nat
  subunit : Nat
  seq : Nat
  event : Nat
  job : Nat
  epoch : Nat
  task : Option (Nat × Nat × Nat)
  temp : Nat
  sensor : Nat
  rail : Nat
  volt : Nat
  age : Nat
  syndrome : BitVec 128
  deriving DecidableEq, Repr

/-- The hub's record delivery (R374, R375, R415): the next sequence number, the 64-entry buffer, whether the next
record delivered carries LOST, the ring indices of FAILED records, and what has been sent on the management stream or
waits in the spool. -/
structure ErrLog where
  seq : Nat := 0
  hub : List ErrRec := []
  lost : Bool := false
  failedAt : List Nat := []
  stream : List (ErrRec × Bool) := []
  spool : List (ErrRec × Bool) := []
  spoolDropped : Bool := false
  deriving DecidableEq, Repr

/-- Trigger windows (R365, R366): the assay and per-core counts of the running one-second window, and the hour
window's trigger count. -/
structure TrigSt where
  assayWin : Nat := 0
  assayCount : Nat := 0
  coreWin : Nat := 0
  coreCount : Tab Nat Nat := []
  hour : Nat := 0
  inHour : Nat := 0
  budgetSaid : Bool := false
  deriving DecidableEq, Repr

/-! ### Collective engines and the seal (Collectives, sharding and mapping a job) -/

/-- A chunk of a stream (R306). `phase` is the schedule it belongs to: 0 the package stage, 1 to 3 a reducing stage by axis,
4 this member's own source, 5 to 7 a gathering stage, 9 to 11 the exchange of norm pairs (R314), 12 direct delivery (R303,
R304). `off` is its byte offset from the digest origin (R312); `addr` where this member keeps it; `h` its chain step (R299);
`owner` the member whose range it is of; `part` and `plen` the start and length of the contiguous range its
reduce-on-write context covers. A chunk of length 0 is a stored digest's total (R313). `data` is what a resharding read. -/
structure Chunk where
  phase : Nat
  owner : Nat := 0
  h : Nat := 0
  up : Bool := false
  off : Nat
  len : Nat
  addr : Nat := 0
  part : Nat := 0
  plen : Nat := 0
  data : Option (List Byte) := none
  deriving DecidableEq, Repr

/-- A stream a channel sends (R306): the peer's coordinates and die, its chunks in schedule order, the next one, the
chunks of credit granted in all, one more than the chunk to be sent again with RESENT set, whether its first frame of
length (R306) and its last frame have gone. -/
structure TxStream where
  stage : Nat
  dst : Nat
  dstDie : Nat
  chunks : List Chunk
  next : Nat := 0
  grant : Nat := 0
  sent : Nat := 0
  resend : Nat := 0
  opened : Bool := false
  ended : Bool := false
  deriving DecidableEq, Repr

/-- A stream a channel receives: its chunks, the next one, the credit given in all, whether a resend is awaited after a
digest mismatch (R313), and whether its last frame has come. -/
structure RxStream where
  stage : Nat
  src : Nat
  srcDie : Nat
  member : Nat := 0
  chunks : List Chunk
  next : Nat := 0
  given : Nat := 0
  bad : Bool := false
  ended : Bool := false
  deriving DecidableEq, Repr

/-- What a completed context left to the fold (R314): its phase, chain step, half and range, its stack, its local and sum
partials, and whether it was a final one. -/
structure Partial where
  phase : Nat
  h : Nat
  up : Bool
  part : Nat
  stack : Nat
  loc : Nat
  sum : Nat
  final : Bool
  deriving DecidableEq, Repr

/-- One channel of a die's collective engine (R290): its task and whether its engine has begun it, its streams, the chunks
done as (phase, offset), the counts of an ALL_TO_ALL by member (R303), digest sums and totals by owner (R313), the
partials and pairs of R314, the verdict combined so far (R319), what a remote
transfer still sends and waits for (R310), a STREAM's length, the chunks resent after a mismatch, whether credit or data
has come, the counts of an ALL_TO_ALL that came before its task began, the body of the FUSED stage it works for (R157), whether
that stage's item is through, and since when it has waited for credit. -/
structure ChanSt where
  task : Option TaskId := none
  begun : Bool := false
  tx : List TxStream := []
  rx : List RxStream := []
  done : List (Nat × Nat) := []
  counts : Tab Nat (Option Nat) := []
  sums : Tab Nat Nat := []
  totals : Tab Nat (Option Nat) := []
  parts : List Partial := []
  pairs : Tab Nat (Option (Nat × Nat)) := []
  verdict : Nat := 0
  todo : List (Nat × Nat) := []
  length : Option Nat := none
  resent : Nat := 0
  progress : Bool := false
  early : List Frame := []
  body : Option Task := none
  through : Bool := false
  since : Option Nat := none
  deriving DecidableEq, Repr

/-- The verdict a module keeps for one unsealed step (R318 to R321): its own parts (a failure, the open checks of the
Forge, a trigger and the dual check), the verdict combined so far, whether GOOD or HOLD has been sent, the carrier and
whether it has completed, the round, the axis being gathered, whose verdicts have come, the ends of an open axis heard
from, frames ahead of the axis, and the job-wide verdict. -/
structure StepVerdict where
  epoch : Nat
  failed : Bool := false
  forgeHold : Bool := false
  trigHold : Bool := false
  dualHold : Bool := false
  combined : Nat := 0
  sentGood : Bool := false
  sentHold : Bool := false
  carrier : Option TaskId := none
  carrierDone : Bool := false
  round : Nat := 0
  axis : Option Nat := none
  got : List (Nat × Nat) := []
  ends : List Nat := []
  early : List Frame := []
  jobWide : Option Nat := none
  deriving DecidableEq, Repr

/-- The hub's seal agent (R319 to R323): the unsealed steps, the retract being carried out, and the last one received
(it covers every later step until work of its epochs starts again). -/
structure SealSt where
  steps : List StepVerdict := []
  retracting : Option Nat := none
  lastRetract : Option Nat := none
  deriving DecidableEq, Repr

/-! ### Fabric ports and discovery (Iluxo links, hallmark discovery and machine shape) -/

/-- The content of a hallmark (R277), its link map as (state, identity, port, feed) of ports 0 to 5. -/
structure Hallmark where
  identity : Nat := 0
  feed : Nat := 0
  port : Nat := 0
  gen : Nat := 0
  phase : Nat := 0
  pinned : Bool := false
  fault : Bool := false
  candidate : Nat := 0
  at_ : List Int := [0, 0, 0]
  hops : Nat := 0
  len : List Nat := [0, 0, 0]
  closed : List Bool := [false, false, false]
  lo : List Int := [0, 0, 0]
  hi : List Int := [0, 0, 0]
  links : List (Nat × Nat × Nat × Nat) := []
  deriving DecidableEq, Repr

/-- A frame waiting at a port: its credit class on this hop, the receive space it still holds where it is being
forwarded (port, class), and the frame. -/
structure TxItem where
  cls : Nat
  back : Option (Nat × Nat) := none
  frame : Frame
  deriving DecidableEq, Repr

/-- One fabric port's link layer (R265 to R268): the next sequence number to send and to expect, whether a NAK has been
sent for it, the frames sent and not acknowledged with the time each was first sent, the frames waiting, the credit held and owed by class (units of 256
bytes), the resends of the oldest frame, the neighbour's last verified hallmark, the identities whose certificate chain
is cached, the pieces of a chain arriving, the second of the last drop record, and whether a bad signature holds the
link down. -/
structure PortSt where
  seq : Nat := 0
  expect : Nat := 0
  nakSent : Bool := false
  replay : List Frame := []
  sentAt : Tab Nat Nat := []
  txq : List TxItem := []
  credit : Tab Nat Nat := []
  owed : Tab Nat Nat := []
  resends : Nat := 0
  peer : Option Hallmark := none
  known : List Nat := []
  certs : List (List Byte) := []
  sent : Option Hallmark := none
  dropSec : Option Nat := none
  badSig : Bool := false
  deriving DecidableEq, Repr

/-- The discovery state of the running generation (R278 to R283): the best origin candidate, the claim taken, the
axes' closures and lengths, the smallest and largest coordinate seen, whether a cabling fault is known, and the frames
of other lanes that wait until coordinates are published. -/
structure DiscSt where
  candidate : Nat := 0
  pinned : Bool := false
  claim : Option (Nat × Nat) := none
  at_ : List Int := [0, 0, 0]
  closed : List Bool := [false, false, false]
  len : List Nat := [0, 0, 0]
  lo : List Int := [0, 0, 0]
  hi : List Int := [0, 0, 0]
  clash : Bool := false
  fault : Bool := false
  waiting : List Frame := []
  deriving DecidableEq, Repr

/-! ### Ingots (Ingots: securing and restoring training state) -/

/-- A gossip record (R332), with the hour window it was last refreshed in. -/
structure Gossip where
  coord : Nat
  feed : Nat
  seq : Nat
  up : Nat
  fails : Nat
  coFed : Bool
  hour : Nat
  deriving DecidableEq, Repr

/-- A page of the ingot in progress: where it lies, its pinned frame, whether the copy reader has read it, the digest it
found, the partner's answer, its bad reports, and its tier-2 copy (not wanted, in a ring slot, handed back). -/
structure IngPage where
  stack : Nat
  entry : Nat
  page : Nat
  frame : Nat
  read : Bool := false
  digest : Nat := 0
  ok1 : Bool := false
  bad : Nat := 0
  slot : Option Nat := none
  ok2 : Bool := false
  deriving DecidableEq, Repr

/-- An image arriving, in a receive slot or in a restore: its serial and epoch, its header and manifest bytes by piece,
each page's running digest, the pages found good or bad, and, in a restore, the bytes of pages not yet checked. -/
structure Image where
  serial : Nat := 0
  epoch : Nat := 0
  count : Nat := 0
  header : Option (List Byte) := none
  manifest : Tab Nat (Option (List Byte)) := []
  sums : Tab Nat Nat := []
  good : Tab Nat Bool := []
  bad : Tab Nat Bool := []
  checked : Bool := false
  complete : Bool := false
  buf : Tab Nat Byte := []
  deriving DecidableEq, Repr

/-- The ingot engine beyond its registers: the ingot in progress and its pages; the next serial and the epoch of the last
step boundary; what the advice is computed from (R343, R344); the epochs of this module's images in the partner's
slots; the images of the receive slots; the restore under way and the pages restored so far; the gossip table by identity; and the step logs kept. -/
structure IngotSt where
  active : Bool := false
  epoch : Nat := 0
  serial : Nat := 0
  tier2 : Bool := false
  slot : Nat := 0
  pages : List IngPage := []
  sentAll : Bool := false
  complete1 : Bool := false
  startedAt : Nat := 0
  next : Nat := 0
  boundary : Option Nat := none
  lostSaid : Bool := false
  commitAt : Option Nat := none
  steps : List (Nat × Bool) := []
  cost : List Int := []
  lags : List Nat := []
  costNow : Int := 0
  held : Tab Nat (Option Nat) := []
  rx : Tab Nat Image := []
  restore : Image := {}
  restored : Tab Nat Bool := []
  gossip : Tab Nat (Option Gossip) := []
  seq : Nat := 0
  upHours : Tab Nat Nat := []
  failHours : Tab Nat Nat := []
  upMark : Nat := 0
  ownLog : List (List Byte) := []
  partnerLog : List (List Byte) := []
  deriving DecidableEq, Repr


/-! ### Power and temperature (Power, leave and temperature) -/

/-- A compute die's quench (R394 to R396): when it began, the start of the time without a module cause, the second
its quenches are counted in, and whether it is resuming. -/
structure QuenchSt where
  since : Nat := 0
  clearSince : Nat := 0
  second : Nat := 0
  deriving DecidableEq, Repr

/-- The samples of a sensor within its rise window, newest first: device time and signed 1/16 °C (R393). -/
structure SensorSt where
  samples : List (Nat × Int) := []
  deriving DecidableEq, Repr

/-- The 52 V input and the rails (R378 to R382): the switch, the good output, the running rail phase, and what
warnings the present excursion has raised. -/
structure InputSt where
  switchClosed : Bool := true
  off : Bool := false
  inrush : Bool := false
  powerGood : Bool := true
  railPhase : Nat := 0
  railStopped : Bool := false
  uvSaid : Bool := false
  ovSaid : Bool := false
  holdUp : Bool := false
  orderly : Bool := false
  deriving DecidableEq, Repr
/-! ### Braze (Braze links, clocks and resets) -/

/-- One bundle in one direction: at the receiver the bundle sequence expected, whether a resend is asked for, and the
failures in a row of the expected flit; at the sender its replay buffer of flits not yet acknowledged (R217, R219). -/
structure BundleSt where
  expect : BitVec 8 := 0
  asked : Bool := false
  fails : Nat := 0
  replay : List Flit := []
  deriving DecidableEq, Repr

/-- One direction of an edge: the edge sequence to deliver next, flits received ahead of it, the payloads delivered to
the NoC in order (R216), its bundles, and the CRC errors of the running 1 ms window, and
flits of a retired bundle to be sent again on the others (R219). -/
structure LinkSt where
  expect : BitVec 16 := 0
  early : List Flit := []
  delivered : List (List Byte) := []
  bundles : Tab Nat BundleSt := []
  window : Nat := 0
  errors : Tab Nat Nat := []
  again : List Flit := []
  deriving DecidableEq, Repr

/-! ### The light layer -/

/-- A grant-change notice on its way to the light layer (R243): token change and when it takes effect. -/
structure Notice where
  tokens : Int
  t0 : Nat
  deriving DecidableEq, Repr

/-- A ring's relock: 0 none, 1 search, 2 sweep, 3 failed; its lane moved to the spare as ring cover; its lock-in
output. -/
structure RingSt where
  relock : Nat := 0
  cover : Bool := false
  lockIn : Nat := 0
  deriving DecidableEq, Repr

/-- A fibre's calibration (fibres 0 to 5 transmit of the ports, 6 the die ring): the phase of R246 (0 none), the lane,
whether the second check runs, the next lane of the rotation, the
lanes' settings, and when each last passed. -/
structure CalSt where
  phase : Nat := 0
  lane : Nat := 0
  second : Bool := false
  next : Nat := 0
  settings : Tab Nat LaneSet := []
  passedAt : Tab Nat (Option Nat) := []
  deriving DecidableEq, Repr

/-- A laser cartridge: the L baseline of its 17 lines where one is set, the heater offsets recorded at its
commissioning, and whether it is grid-locked, commissioned or not used. -/
structure CartSt where
  base : Option (List (BitVec 16)) := none
  offsets : List (BitVec 16) := []
  locked : Bool := false
  commissioned : Bool := false
  rejected : Bool := false
  field : Bool := false
  deriving DecidableEq, Repr

/-- A group's switchover (R254, R255): the phase running (0 none), the source it goes to, and the source a boundary
request waits for. -/
structure SwitchSt where
  phase : Nat := 0
  dest : Nat := 0
  waiting : Option Nat := none
  overrun : Bool := false
  deriving DecidableEq, Repr

/-- The light layer beyond its registers. `ringOwner` is the die position that owned the previous slot of each die-ring
lane; `reported` the excess last reported by stage, port and line (R252); `farBase` the R baselines by port, far identity and far port
(R251). -/
structure LightSt where
  rings : Tab Nat RingSt := []
  cal : Tab Nat CalSt := []
  carts : Tab Nat CartSt := []
  switch : Tab Nat SwitchSt := []
  notices : Tab Nat (List Notice) := []
  trajectories : Tab Nat (List Notice) := []
  baseline : Option LossReadings := none
  ringOwner : Tab Nat (Option Nat) := []
  ringFailed : Tab Nat Bool := []
  reported : Tab Nat Nat := []
  farBase : List (Nat × Nat × Nat × List (BitVec 16)) := []
  deriving DecidableEq, Repr

/-! ### Hub (Hub die, Forge cores and management) -/

/-- Device time beyond its registers: whether the next edge is a first edge, the offset still to be slewed (1/65536
ns), the part of the rate trim below 1/65536 ns, the second of the last spurious record, and the PPS_OUT level (R418 to R420). -/
structure TimeSt where
  first : Bool := true
  lastAt : Nat := 0
  slew : Int := 0
  rem : Int := 0
  spurious : Option Nat := none
  rejected : Nat := 0
  ppsOut : Bool := false
  deriving DecidableEq, Repr

/-- One bank of a monitor (R422, R423). -/
structure MonBank where
  window : Option Nat := none
  lo : Int := 0x7FFFFFFF
  hi : Int := -0x80000000
  count : Nat := 0
  stepped : Bool := false
  bins : Tab Nat Nat := []
  deriving DecidableEq, Repr

/-- A monitor: its live banks by parity, the settings in force, and late samples of the current snapshot. -/
structure MonSt where
  even : MonBank := {}
  odd : MonBank := {}
  cfg : Word := 0xF4240
  scale : Word := 1
  late : Nat := 0
  snapped : Option Nat := none
  deriving DecidableEq, Repr

/-- What the module last answered on its management links (R416, R417, R424, R440). -/
inductive Reply where
  | none
  | mctp (request : List Byte)
  | pldm (volt curr power inlet outlet hottest state : Nat)
  | spdm (kind : SpdmKind) (identity : Word) (measured : List Word)
  | nonce (n : BitVec 128)
  | word (w : Word)
  | bits (b : List Bool)
  deriving DecidableEq, Repr

/-- The hub beyond its registers: consecutive overloaded and clear windows (R405), when an unlock ends, how many nonces
have been renewed, the TAP instruction register (IDCODE after a TAP reset, as IEEE 1149.1 has it), and the last
answer. -/
structure HubSt where
  overRun : Nat := 0
  clearRun : Nat := 0
  unlockEnd : Nat := 0
  nonces : Nat := 0
  ir : Nat := 0x01
  reply : Reply := .none
  deriving DecidableEq, Repr

/-! ### Start-up, profiles and trust -/

/-- A copy of the slot header (R432). -/
structure SlotHdr where
  valid : Bool := false
  seq : Nat := 0
  pref : Nat := 0
  trial : Bool := false
  tries : Nat := 0
  deriving DecidableEq, Repr

/-- What a flash byte holds where it is not as delivered: erased, or a programmed byte. -/
inductive FlashByte where
  | asDelivered
  | erased
  | byte (b : Byte)
  deriving DecidableEq, Repr

/-- A flash operation in progress (R431): read, program or erase. -/
structure FlashOp where
  op : Nat
  addr : Nat
  len : Nat
  buf : Nat
  deriving DecidableEq, Repr

/-- A profile's built-in values by letter (R443). -/
def builtinProfile (p : Fin 4) : Profile where
  letter := p
  pLim := if p = 0 then 4000 else if p = 3 then 1200 else 3200
  dieCap := if p = 1 then 720 else if p = 3 then 400 else 900
  ramp := if p = 0 then 240 else if p = 1 then 192 else 120
  testEn := p ≠ 3
  pinEn := false
  origin := 0
  reserve := 4096
  agentMask := 0x0003
  service := p = 3
  margining := if p = 2 then 1 else if p = 3 then 2 else 0
  debugAll := p = 3
  linkWait := if p = 2 then 60 else if p = 3 then 0 else 10
  addr := []
  collector := []

/-- Start-up and trust beyond their registers. The flash and the slot header copies keep their content through every
reset (R430, R465). -/
structure BootSt where
  hdr0 : SlotHdr := {}
  hdr1 : SlotHdr := {}
  osHdr0 : SlotHdr := {}
  osHdr1 : SlotHdr := {}
  osSlot : Option Nat := none
  fwImages : Option (ImageCheck × ImageCheck) := none
  osImages : Option (ImageCheck × ImageCheck) := none
  flash : Tab Nat FlashByte := []
  erased : Tab Nat Bool := []
  flashOp : Option FlashOp := none
  prof : Profile := builtinProfile 0
  commanded : Option (Fin 4) := none
  pendingProf : Option Profile := none
  phase2At : Nat := 0
  owner : Option Owner := none
  runningKey : Nat := 0
  seqMask : Nat := 0
  held : Bool := false
  feedReads : List (BitVec 8) := []
  feedSeen : Bool := false
  deriving DecidableEq, Repr


/-! ### The whole module -/

/-- The state of the module. Registers are the one home of everything that has a register; the structures hold what
no register shows. -/
structure State where
  pending : List Instr
  time : Nat
  frac : Nat
  fresh : Nat
  regs : Tab RegKey Word
  mem : List Host.Cell
  linePoison : Tab Nat Bool
  dram : List Host.Cell
  granPoison : Tab Nat Bool
  packed : List Host.Cell
  published : Tab Nat (Word × Word)
  publishing : Option (Tab Nat (Word × Word))
  repair : Tab Nat (Option Nat)
  readData : Word
  readBytes : List Byte
  readPoison : List Bool
  engines : Tab Nat Engine
  cores : Tab Nat CoreSt
  stackTab : Tab Nat StackSt
  chans : Tab Nat ChanSt
  sealer : SealSt
  ports : Tab Nat PortSt
  disc : DiscSt
  ingot : IngotSt
  elog : ErrLog
  trig : TrigSt
  inService : Tab Nat Bool
  quench : Tab Nat QuenchSt
  sensors : Tab Nat SensorSt
  input : InputSt
  links : Tab Nat LinkSt
  light : LightSt
  clock : TimeSt
  mons : Tab Nat MonSt
  hub : HubSt
  boot : BootSt
  tier2Lost : Bool
  tier2Stopped : Bool
  deriving DecidableEq, Repr

/-- Why a step could stop with a fault. No command of this model faults: an event whose premise does not hold in a state
leaves the state unchanged. -/
inductive Fault where
  /-- Raised by nothing: it is there because the interface asks for a type with a value (safe). -/
  | unused
  deriving DecidableEq, Repr

/-- Why a step could be refused. -/
inductive Refusal where
  /-- A command whose meaning has not been written: raised by no command that has one (safe: the machine stops). -/
  | notModelled (mnemonic : String)
  deriving DecidableEq, Repr

/-- What an unlisted physical core of the repair map is (R8): with no failed core, cores 32 and 33 are spared and
physical core i is logical core i. -/
def repairDefault (k : Nat) : Option Nat := if k % 34 < 32 then some (k % 34) else none

/-- The machine right after a package reset: every register at the value of the register tables, nothing queued,
memory with nothing listed. -/
def State.reset : State where
  pending := []
  time := 0
  frac := 0
  fresh := 0
  regs := []
  mem := []
  linePoison := []
  dram := []
  granPoison := []
  packed := []
  published := []
  publishing := none
  repair := []
  readData := 0
  readBytes := []
  readPoison := []
  engines := []
  cores := []
  stackTab := []
  chans := []
  sealer := {}
  ports := []
  disc := {}
  ingot := {}
  elog := {}
  trig := {}
  inService := []
  quench := []
  sensors := []
  input := {}
  links := []
  light := {}
  clock := {}
  mons := []
  hub := {}
  boot := {}
  tier2Lost := false
  tier2Stopped := false

end Sys2Proof.Machine
end

