-- ==== Sys2Proof/Machine/Ops.lean ====
section
/-! DEFINITION. The named operations every meaning is built from: register fields, free values, package addresses,
byte memory behind the region table and the write-combining buffers, poison, and CRC-32C. -/

namespace Sys2Proof.Machine

/-! ### Register fields -/

/-- A field of a register word. -/
def Field.get (f : Field) (w : Word) : Nat := (w.toNat >>> f.lo) % 2 ^ f.width

/-- The ones of a field. -/
def Field.mask (f : Field) : Word := BitVec.ofNat 64 ((2 ^ f.width - 1) * 2 ^ f.lo)

/-- A register word with one field replaced by the low bits of `v`. -/
def Field.set (f : Field) (w : Word) (v : Nat) : Word :=
  (w &&& ~~~f.mask) ||| ((BitVec.ofNat 64 v <<< f.lo) &&& f.mask)

/-- The key of a field's register. -/
def Field.key (f : Field) (inst idx : Nat) : RegKey := ⟨f.reg, inst, idx⟩

namespace State

/-- A register's word. -/
def getR (s : State) (k : RegKey) : Word := Tab.get RegKey.reset s.regs k

/-- A register set. -/
def putR (s : State) (k : RegKey) (v : Word) : State :=
  { s with regs := Tab.put RegKey.lt RegKey.reset s.regs k v }

/-- A field read. -/
def getF (s : State) (f : Field) (inst idx : Nat) : Nat := f.get (s.getR (f.key inst idx))

/-- A field set, the register's other bits unchanged. -/
def setF (s : State) (f : Field) (inst idx : Nat) (v : Nat) : State :=
  s.putR (f.key inst idx) (f.set (s.getR (f.key inst idx)) v)

/-- A one-bit field as a flag. -/
def flag (s : State) (f : Field) (inst idx : Nat) : Bool := s.getF f inst idx != 0

/-- A counter field raised by `n`, holding at all ones (R53, R84). -/
def addF (s : State) (f : Field) (inst idx n : Nat) : State :=
  s.setF f inst idx (min (s.getF f inst idx + n) (2 ^ f.width - 1))

/-- A counter field raised by one, wrapping. -/
def wrapF (s : State) (f : Field) (inst idx : Nat) : State :=
  s.setF f inst idx (s.getF f inst idx + 1)

/-! ### The parts of the state -/

def engine (s : State) (d : Nat) : Engine := Tab.getN {} s.engines d
def setEngine (s : State) (d : Nat) (e : Engine) : State := { s with engines := Tab.putN {} s.engines d e }
def core (s : State) (k : Nat) : CoreSt := Tab.getN {} s.cores k
def setCore (s : State) (k : Nat) (c : CoreSt) : State := { s with cores := Tab.putN {} s.cores k c }
def stack (s : State) (ms : Nat) : StackSt := Tab.getN {} s.stackTab ms
def setStack (s : State) (ms : Nat) (t : StackSt) : State := { s with stackTab := Tab.putN {} s.stackTab ms t }
def chan (s : State) (d c : Nat) : ChanSt := Tab.getN {} s.chans (16 * d + c)
def setChan (s : State) (d c : Nat) (x : ChanSt) : State := { s with chans := Tab.putN {} s.chans (16 * d + c) x }
def port (s : State) (p : Nat) : PortSt := Tab.getN {} s.ports p
def setPort (s : State) (p : Nat) (x : PortSt) : State := { s with ports := Tab.putN {} s.ports p x }
def quenchOf (s : State) (d : Nat) : QuenchSt := Tab.getN {} s.quench d
def setQuench (s : State) (d : Nat) (x : QuenchSt) : State := { s with quench := Tab.putN {} s.quench d x }
def sensorOf (s : State) (d i : Nat) : SensorSt := Tab.getN {} s.sensors (64 * d + i)
def setSensor (s : State) (d i : Nat) (x : SensorSt) : State :=
  { s with sensors := Tab.putN {} s.sensors (64 * d + i) x }

/-! ### Cores by logical and physical index (R7, R8) -/

/-- The logical index of physical core `p` of die `d`; none when it is spared (R8). -/
def logicalOf (s : State) (d p : Nat) : Option Nat := Tab.get repairDefault s.repair (d * 34 + p)

/-- The physical core behind logical core `c`, from the repair map (R7). -/
def physOf (s : State) (d c : Nat) : Option Nat :=
  (List.range 34).find? fun p => s.logicalOf d p = some c

/-- The key of a core's state and registers by logical index; a logical index the map does not hold names none. -/
def coreKey (s : State) (d c : Nat) : Nat := d * 34 + (s.physOf d c).getD 0

/-- A domain held in reset (R225); the hub's own bit does not stop the hub (R226). -/
def inReset (s : State) (die : Nat) : Bool :=
  die != 4 && (s.getF BOOT_RST_STATUS_IN_RESET 0 0).testBit die

/-- A core retired in the field, or spared (R8, R46). -/
def coreGone (s : State) (d p : Nat) : Bool :=
  s.flag CORE_ARRAY_STATUS_RETIRED (d * 34 + p) 0 || (s.logicalOf d p).isNone

/-- A free value and the state after it is drawn. -/
def draw (s : State) : BitVec 64 × State := (Config.freeValue s.fresh, { s with fresh := s.fresh + 1 })

/-- Is a requester the management agent (R403)? -/
def isAgent (s : State) : Requester → Bool
  | .forge c => (s.getF HIC_FORGE_CFG_AGENT_MASK 0 0).testBit c.val
  | _ => false

end State

/-! ### The region table (R184, R185, R189) -/

/-- A region-table entry, decoded from its two words (R213). -/
structure Region where
  valid : Bool
  il : Nat
  die : Nat
  comp : Nat
  ver : Bool
  rnd : Nat
  elem : Nat
  lratio : Nat
  base : Nat
  choff : Nat
  size : Nat
  deriving DecidableEq, Repr

/-- R213: the fields of CRU_REGION_A and CRU_REGION_B. -/
def Region.of (a b : Word) : Region where
  valid := a.bit 63
  il := a.bits 62 61
  die := a.bits 60 59
  comp := a.bits 58 56
  ver := a.bit 55
  rnd := a.bits 54 54
  elem := a.bits 53 50
  lratio := a.bits 49 44
  base := a.bits 43 21 * 0x200000
  choff := b.bits 47 32
  size := b.bits 15 0

/-- Bytes of a page group (R184). -/
def Region.group (r : Region) : Nat := if r.il = 1 then 0x600000 else 0x1800000

/-- Logical bytes of a region (R184, R189). -/
def Region.length (r : Region) : Nat :=
  if r.comp = 1 then r.size * r.group * r.lratio / 16 else r.size * r.group

/-- A place in DRAM: stack, channel, row-granule, byte (R178, R185). -/
structure Place where
  stack : Nat
  channel : Nat
  rowg : Nat
  off : Nat
  deriving DecidableEq, Repr

/-- Where offset `o` of a region lies (R185). -/
def Region.place (r : Region) (o : Nat) : Place :=
  let g := o / 4096
  if r.il = 1 then
    ⟨3 * r.die + g % 96 / 32, g % 96 % 32, 16 * r.choff + g / 96, o % 4096⟩
  else
    ⟨g % 384 / 32, g % 384 % 32, 16 * r.choff + g / 384, o % 4096⟩

/-- The number of a DRAM byte: each channel holds 2 GiB (R178). -/
def Place.addr (p : Place) : Nat := (p.stack * 32 + p.channel) * 2 ^ 31 + p.rowg * 4096 + p.off

namespace State

/-- Entry `e` of the published table. -/
def region (s : State) (e : Nat) : Region :=
  Region.of (Tab.getN (0, 0) s.published e).1 (Tab.getN (0, 0) s.published e).2

/-- Does a published entry cover address `a`? -/
def covers (s : State) (a e : Nat) : Bool :=
  (s.region e).valid && decide ((s.region e).base ≤ a) && decide (a < (s.region e).base + (s.region e).length)

/-- The published entry that covers a stack-memory address (R184). -/
def findRegion (s : State) (a : Nat) : Option Nat := (List.range 64).find? (s.covers a)

/-- The version-table entry of a page (R204); a page never written maps to its own frame. -/
def pageVer (s : State) (ms p : Nat) : PageVer :=
  (Tab.getN none (s.stack ms).ver p).getD { cur := p }

def setPageVer (s : State) (ms p : Nat) (v : PageVer) : State :=
  let st := s.stack ms
  s.setStack ms { st with ver := Tab.putN none st.ver p (some v) }

/-- The DRAM place of a stack-memory address: for a versioned page, in its current frame (R204). -/
def locate (s : State) (e a : Nat) : Place :=
  let r := s.region e
  let p := r.place (a - r.base)
  if r.ver then { p with rowg := (s.pageVer p.stack (p.rowg / 16)).cur * 16 + p.rowg % 16 } else p

/-! ### Package addresses (R14 to R16, R20) -/

def isStackAddr (a : Nat) : Bool := decide (a < 0xC000000000)
def isPoolAddr (a : Nat) : Bool := decide (0x10000000000 ≤ a ∧ a < 0x10020000000)
def isScratchAddr (a : Nat) : Bool := decide (0x20000000000 ≤ a ∧ a < 0x20020000000)
def isRegAddr (a : Nat) : Bool := decide (0xF0000000000 ≤ a ∧ a < 0xF1200000000)

/-- The die and logical core whose scratchpad window holds `a` (R15). -/
def scratchCore (a : Nat) : Nat × Nat :=
  ((a - 0x20000000000) / 0x400000 / 32, (a - 0x20000000000) / 0x400000 % 32)

/-- First byte of a core's scratchpad window (R15). -/
def scratchBase (d c : Nat) : Nat := 0x20000000000 + (d * 32 + c) * 0x400000

/-- First byte of a die's pool (R15). -/
def poolBase (d : Nat) : Nat := 0x10000000000 + d * 0x8000000

/-- Is the byte at `a` backed by storage that can be reached: a mapped region, its core in service, its die out of
reset (R14, R19, R20, R184, R225)? -/
def mapped (s : State) (a : Nat) : Bool :=
  if isPoolAddr a then !s.inReset ((a - 0x10000000000) / 0x8000000)
  else if isScratchAddr a then
    let dc := scratchCore a
    !s.inReset dc.1 &&
      (match s.physOf dc.1 dc.2 with
        | some p => !s.coreGone dc.1 p
        | none => false)
  else if isStackAddr a then
    (match s.findRegion a with
      | some e => !s.inReset (6 + ((s.region e).place (a - (s.region e).base)).stack)
      | none => false)
  else false

/-! ### DRAM, the write-combining buffer, and byte reads (R180, R187) -/

/-- What a byte of memory reads as before anything has written it (DESIGN CHOICE, assumption 3). -/
def memDefault : Byte := 0

def dramByte (s : State) (p : Place) : Byte := Tab.getN memDefault s.dram p.addr
def setDram (s : State) (p : Place) (b : Byte) : State :=
  { s with dram := Tab.putN memDefault s.dram p.addr b }

/-- Poison of the 32-byte granule at a DRAM place (R180). -/
def granBad (s : State) (p : Place) : Bool := Tab.getN false s.granPoison (p.addr / 32)
def setGranBad (s : State) (p : Place) (b : Bool) : State :=
  { s with granPoison := Tab.putN false s.granPoison (p.addr / 32) b }

/-- The buffer line of a line address, if present. -/
def wcbLine (s : State) (ms line : Nat) : Option WcbLine := (s.stack ms).wcb.find? fun l => l.line = line

/-- The buffered byte of an address, if present. -/
def wcbByte (s : State) (ms a : Nat) : Option Byte :=
  match s.wcbLine ms (a / 64) with
  | some l => (Tab.getN none l.bytes (a % 64)).map (·.1)
  | none => none

/-- A byte of stack memory as every read of the stack returns it: the buffer's byte merged over DRAM (R187), through
the compression path of the region (R189 to R191). -/
def stackByte (s : State) (a : Nat) : Byte :=
  match s.findRegion a with
  | none => 0
  | some e =>
    let r := s.region e
    if r.comp = 1 then Tab.getN memDefault s.packed a
    else if r.comp = 2 ∨ r.comp = 3 then
      if a - r.base < r.length / 2 + r.length / 64 then s.dramByte (s.locate e a) else 0
    else
      match s.wcbByte (s.locate e a).stack a with
      | some b => b
      | none => s.dramByte (s.locate e a)

/-- The map entry of a lossless granule (R190), by granule address. -/
def compEntry (s : State) (e a : Nat) : CompEntry :=
  Tab.getN {} (s.stack ((s.region e).place (a - (s.region e).base)).stack).comp (a / 4096)

/-- A granule whose bytes a mask covers whole: all 32 of them present in the line (R180). -/
def coversGran (bytes : Tab Nat (Option (Byte × Option Nat))) (g : Nat) : Bool :=
  (List.range 32).all fun i => (Tab.getN none bytes (32 * g + i)).isSome

/-- Where the poison of a granule of a lossless region is kept among the line marks: its place in DRAM is not fixed. -/
def packedMark (a : Nat) : Nat := 2 ^ 50 + a / 32

/-- A stack behind a failed edge (R221). -/
def unreachable (s : State) (ms : Nat) : Bool := s.getF BRZ_STATUS_STATE ((ms / 3) * 8 + 3 + ms % 3) 0 = 3

/-- Is a stack-memory byte poisoned: of a stack that cannot be reached (R221), an uncorrectable granule that the buffer does not hold whole, or one written with the
poison code (R180), or a lost one (R190)? -/
def stackBad (s : State) (a : Nat) : Bool :=
  match s.findRegion a with
  | none => false
  | some e =>
    if s.unreachable (s.locate e a).stack then true
    else if (s.region e).comp = 1 then (s.compEntry e a).lost || Tab.getN false s.linePoison (packedMark a)
    else
      match s.wcbLine (s.locate e a).stack (a / 64) with
      | some l => if coversGran l.bytes (a % 64 / 32) then l.poison.contains (a % 64 / 32) else s.granBad (s.locate e a)
      | none => s.granBad (s.locate e a)

/-- A byte of the package address space as a load sees it; an unmapped byte reads zero (R19). -/
def readByte (s : State) (a : Nat) : Byte :=
  if !s.mapped a then 0
  else if isStackAddr a then s.stackByte a
  else Tab.getN memDefault s.mem a

/-- Is the byte poisoned, in stack memory or on a marked pool or scratchpad line (R180)? -/
def readBad (s : State) (a : Nat) : Bool :=
  if !s.mapped a then false
  else if isStackAddr a then s.stackBad a
  else Tab.getN false s.linePoison (a / 64)

/-- Consecutive bytes. -/
def readBytesAt (s : State) (a n : Nat) : List Byte := (List.range n).map fun i => s.readByte (a + i)

/-- Is any byte of a range poisoned? -/
def anyBad (s : State) (a n : Nat) : Bool := (List.range n).any fun i => s.readBad (a + i)

end State

/-- A number from little-endian bytes. -/
def ofLe : List Byte → Nat
  | [] => 0
  | b :: t => b.toNat + 256 * ofLe t

/-- `n` little-endian bytes of a number. -/
def toLe : Nat → Nat → List Byte
  | 0, _ => []
  | n + 1, v => BitVec.ofNat 8 v :: toLe n (v / 256)

namespace State

/-- The 64-bit word at an address. -/
def readWord (s : State) (a : Nat) : Word := BitVec.ofNat 64 (ofLe (s.readBytesAt a 8))

/-- One byte of a line stored to DRAM. -/
def storeLineByte (line : Nat) (s : State) (x : Nat × Option (Byte × Option Nat)) : State :=
  match x.2, s.findRegion (line * 64 + x.1) with
  | some b, some e => s.setDram (s.locate e (line * 64 + x.1)) b.1
  | _, _ => s

/-- Poison of granule `g` of a line ends when a write covers it whole (R180). -/
def clearGran (line : Nat) (bytes : Tab Nat (Option (Byte × Option Nat))) (s : State) (g : Nat) : State :=
  match s.findRegion (line * 64 + 32 * g) with
  | some e => if coversGran bytes g then s.setGranBad (s.locate e (line * 64 + 32 * g)) false else s
  | none => s

/-- Poison of granule `g` of a line entered. -/
def markGran (line : Nat) (s : State) (g : Nat) : State :=
  match s.findRegion (line * 64 + 32 * g) with
  | some e => s.setGranBad (s.locate e (line * 64 + 32 * g)) true
  | none => s

/-- A buffer line written to DRAM (R188): its bytes merged into their granules. -/
def storeLine (s : State) (l : WcbLine) : State :=
  l.poison.foldl (markGran l.line) ([0, 1].foldl (clearGran l.line l.bytes) (l.bytes.foldl (storeLineByte l.line) s))

/-- A line leaves the buffer for DRAM. -/
def writeBack (s : State) (ms : Nat) (l : WcbLine) : State :=
  let s := s.storeLine l
  let st := s.stack ms
  s.setStack ms { st with wcb := st.wcb.filter fun x => x.line ≠ l.line }

/-- Every line of a stack's buffer, oldest first, written to DRAM (R188). -/
def flushStack (s : State) (ms : Nat) : State := (s.stack ms).wcb.foldl (fun s l => s.writeBack ms l) s

/-- Bytes entered into one line; a granule written whole takes the poison of the write (R180). -/
def mergeBytes (l : WcbLine) (off : Nat) (data : List Byte) (epoch : Option Nat) (poison : List Nat) : WcbLine :=
  let put := fun t i => Tab.putN none t (off + i) (some (data.getD i 0, epoch))
  let whole := fun (g : Nat) => decide (off ≤ 32 * g ∧ 32 * g + 32 ≤ off + data.length)
  { l with
    bytes := (List.range data.length).foldl put l.bytes
    poison := [0, 1].filter fun g => if whole g then poison.contains g else l.poison.contains g }

/-- A write within one line enters the stack's buffer (R187); the need for a free line writes the oldest (R188). -/
def wcbEnter (s : State) (ms a : Nat) (data : List Byte) (epoch : Option Nat) (poison : List Nat := []) : State :=
  let st := s.stack ms
  if st.wcb.any fun l => l.line = a / 64 then
    s.setStack ms { st with wcb := st.wcb.map fun l =>
      if l.line = a / 64 then mergeBytes l (a % 64) data epoch poison else l }
  else
    let s := match st.wcb with
      | l :: _ => if 256 ≤ st.wcb.length then s.writeBack ms l else s
      | [] => s
    let st := s.stack ms
    s.setStack ms { st with wcb := st.wcb ++ [mergeBytes { line := a / 64 } (a % 64) data epoch poison] }

/-- One byte of a pool or a scratchpad. -/
def setMem (s : State) (a : Nat) (b : Byte) : State := { s with mem := Tab.putN memDefault s.mem a b }

/-- Bytes stored to a pool or scratchpad; a whole 64-byte line written ends a poison mark on it (DEDUCED from R180,
assumption 12). -/
def storeLocal (s : State) (a : Nat) (data : List Byte) : State :=
  let s := (List.range data.length).foldl (fun s i => s.setMem (a + i) (data.getD i 0)) s
  if a % 64 = 0 ∧ data.length = 64 then { s with linePoison := Tab.putN false s.linePoison (a / 64) false } else s

/-- Bytes within one 64-byte line stored below the versioning and compression paths: into a pool or scratchpad, or
into the buffer of the stack that holds them. An unmapped address drops them (R19). -/
def storeRaw (s : State) (a : Nat) (data : List Byte) (epoch : Option Nat) : State :=
  if !s.mapped a then s
  else if isStackAddr a then
    match s.findRegion a with
    | some e => if s.unreachable (s.locate e a).stack then s else s.wcbEnter (s.locate e a).stack a data epoch
    | none => s
  else s.storeLocal a data

end State

/-- A byte range cut at 64-byte line boundaries: (address, bytes) pieces in address order. `fuel` bounds the number of
lines. -/
def lineSplit : Nat → Nat → List Byte → List (Nat × List Byte)
  | 0, _, _ => []
  | fuel + 1, a, data =>
    if data = [] then []
    else (a, data.take (64 - a % 64)) :: lineSplit fuel (a + (64 - a % 64)) (data.drop (64 - a % 64))

/-- The lines a byte range touches. -/
def linesOf (a : Nat) (data : List Byte) : List (Nat × List Byte) := lineSplit (data.length + 1) a data

namespace State

/-- Consecutive bytes stored line by line below the versioning path. -/
def storeAll (s : State) (a : Nat) (data : List Byte) (epoch : Option Nat) : State :=
  (linesOf a data).foldl (fun s l => s.storeRaw l.1 l.2 epoch) s

end State

/-! ### CRC-32C (R475) -/

/-- One bit of the reflected CRC register. -/
def crcBit (c : Nat) : Nat := if c % 2 = 1 then (c / 2) ^^^ 0x82F63B78 else c / 2

/-- One byte entered, least significant bit first. -/
def crcByte (c : Nat) (b : Byte) : Nat := (List.range 8).foldl (fun c _ => crcBit c) (c ^^^ b.toNat)

/-- CRC-32C in the reflected form (R475). -/
def crc32c (bs : List Byte) : Nat := (bs.foldl crcByte 0xFFFFFFFF) ^^^ 0xFFFFFFFF

/-! ### Assay digests (R312) -/

/-- p = 2^61 − 1. -/
def digP : Nat := 2 ^ 61 - 1

/-- The key of a job seed and an epoch (R312). -/
def digKey (seed : Word) (epoch : Nat) : Nat :=
  (mix (seed ^^^ mix ((BitVec.ofNat 64 epoch <<< 32) ||| 0xA55AA55A#64))).toNat % (digP - 2) + 2

/-- b^e mod p, by the bits of e (64 of them). -/
def powMod (b e : Nat) : Nat :=
  (List.range 64).foldl (fun acc i =>
    let acc := acc * acc % digP
    if e.testBit (63 - i) then acc * b % digP else acc) 1

/-- The term of word `w` at position `j` (R312). -/
def digTerm (r j w : Nat) : Nat := w * powMod r (j + 1) % digP

/-- The digest of consecutive words from position `j`. -/
def digWords (r : Nat) : Nat → List Nat → Nat
  | _, [] => 0
  | j, w :: t => (digTerm r j w + digWords r (j + 1) t) % digP

/-- Little-endian 32-bit words of bytes, a short last word zero-filled (R312). -/
def words32 : Nat → List Byte → List Nat
  | 0, _ => []
  | fuel + 1, bs => if bs = [] then [] else ofLe (bs.take 4) :: words32 fuel (bs.drop 4)

/-- The digest of bytes at byte offset `off` from the origin (R312). -/
def digBytes (r off : Nat) (bs : List Byte) : Nat := digWords r (off / 4) (words32 (bs.length + 1) bs)

end Sys2Proof.Machine
end

