-- ==== Sys2Proof/Machine/Records.lean ====
section
/-! DEFINITION. Error records: their layout (R370, R371), their delivery to the ring, the hub buffer and the management
stream (R374, R375, R415), and the one operation `record` by which every unit reports an event (R372). -/

namespace Sys2Proof.Machine

/-- The severities of R370. -/
def sevInfo : Nat := 0
def sevDegraded : Nat := 1
def sevSuspect : Nat := 2
def sevFailed : Nat := 3

/-- What a unit reports: the event, the unit and subunit that name it (die_index × 256 + unit number), the physical
core named, the step epoch, the task, the named data of the syndrome, and whether the manual calls it an alert. -/
structure RecArg where
  event : Nat
  sev : Nat
  unit : Nat
  sub : Nat := 0
  core : Option (Nat × Nat) := none
  epoch : Nat := 0
  task : Option (Nat × Nat × Nat) := none
  syn : BitVec 128 := 0
  alert : Bool := false
  deriving DecidableEq, Repr

/-- UNIT of unit `u` of the die with die_index `d` (R370). -/
def unitOf (d u : Nat) : Nat := d * 256 + u

/-- UNIT of the module as a whole (R370). -/
def unitModule : Nat := 0x1FFF

/-- The 64 bytes of a record up to its CRC (R370). -/
def ErrRec.body (r : ErrRec) : List Byte :=
  toLe 8 r.time ++ toLe 2 r.frac ++
  toLe 1 (r.severity + (if r.stale then 4 else 0) + (if r.lost then 8 else 0)) ++
  toLe 1 (match r.lcore with | some c => 0x80 + c | none => 0) ++
  toLe 2 r.unit ++ toLe 2 r.subunit ++ toLe 4 r.seq ++ toLe 2 r.event ++ toLe 2 r.job ++ toLe 4 r.epoch ++
  toLe 2 (match r.task with | some (_, _, i) => i | none => 0) ++
  toLe 1 (match r.task with | some (k, g, _) => k * 16 + g | none => 0) ++
  toLe 1 (if r.task.isSome then 1 else 0) ++
  toLe 2 r.temp ++ toLe 1 r.sensor ++ toLe 1 r.rail ++ toLe 2 r.volt ++ toLe 1 r.age ++ toLe 1 0 ++
  toLe 16 r.syndrome.toNat ++ toLe 4 0

/-- A record with its CRC-32C over bytes 0 to 59 (R370). -/
def ErrRec.bytes (r : ErrRec) : List Byte := r.body ++ toLe 4 (crc32c r.body)

/-- The sensor that belongs to a unit of a compute die (R371, R473). -/
def sensorOfUnit (s : State) (d u : Nat) : Nat :=
  if u = 0 then 40
  else if u ≤ 34 then u - 1
  else if 40 ≤ u ∧ u ≤ 45 then 34 + (u - 40)
  else if u = 48 then 41
  else if u = 49 then 42
  else s.getF THM_STATUS_HOT d 0

/-- The rail that supplies a die (R381), the 52 V input for the module as a whole (DEDUCED, assumption 14). -/
def railOfUnit (unit : Nat) : Nat := if unit = unitModule then 18 else unit / 256

namespace State

/-- Latest sample of the sensor of a unit, with the sensor's index (R371). -/
def unitTemp (s : State) (unit : Nat) (core : Option (Nat × Nat)) : Nat × Nat :=
  if unit = unitModule then ((Config.dieSensor 4 s.time).toNat, 0)
  else
    let d := unit / 256
    if d < 4 then
      let i := match core with
        | some (_, p) => p
        | none => sensorOfUnit s d (unit % 256)
      (s.getF THM_SENSOR_TEMP d i, i)
    else if d < 6 then ((Config.dieSensor d s.time).toNat, 0)
    else (s.getF CRU_THERM_TEMP (d - 6) 0, 0)

/-- Voltage of a rail in mV (R370, R401). -/
def railVolt (s : State) (r : Nat) : Nat :=
  let v := s.getF PWR_RAIL_VOLT 0 r
  if r = 18 ∨ r = 19 ∨ r = 29 ∨ r = 31 then 10 * v else v

/-- Free entries of the log ring (R375). -/
def ringUsed (s : State) : Nat :=
  (s.getF HIC_ELOG_PROD_INDEX 0 0 + 2 ^ 32 - s.getF HIC_ELOG_CONS_INDEX 0 0) % 2 ^ 32

def ringSize (s : State) : Nat := 2 ^ s.getF HIC_ELOG_BASE_SIZE_LOG2 0 0

/-- A record written to the ring at entry PROD mod 2^SIZE_LOG2, PROD incremented (R374); the first one after a drop
carries LOST (R375). -/
def ringPut (s : State) (r : ErrRec) : State :=
  let r := { r with lost := s.elog.lost }
  let s := { s with elog := { s.elog with lost := false } }
  let prod := s.getF HIC_ELOG_PROD_INDEX 0 0
  let s := s.storeAll (s.getF HIC_ELOG_BASE_BASE 0 0 * 64 + prod % s.ringSize * 64) r.bytes none
  let s := s.wrapF HIC_ELOG_PROD_INDEX 0 0
  if r.severity = sevFailed then { s with elog := { s.elog with failedAt := s.elog.failedAt ++ [prod] } } else s

/-- Records waiting in the hub buffer enter the ring in SEQ order while it has room (R375). -/
def drainHub : Nat → State → State
  | 0, s => s
  | n + 1, s =>
    match s.elog.hub with
    | [] => s
    | r :: t =>
      if s.flag HIC_ELOG_BASE_VALID 0 0 && decide (s.ringUsed < s.ringSize) then
        drainHub n ({ s with elog := { s.elog with hub := t } }.ringPut r)
      else s

/-- A record dropped: counted by severity; the next record delivered carries LOST (R375). -/
def dropRec (s : State) (sev : Nat) : State :=
  let f := if sev = sevFailed then HIC_ELOG_DROP_FAILED else if sev = sevSuspect then HIC_ELOG_DROP_SUSPECT
    else if sev = sevDegraded then HIC_ELOG_DROP_DEGRADED else HIC_ELOG_DROP_INFO
  let s := s.addF f 0 0 1
  { s with elog := { s.elog with lost := true } }

/-- A record put in the hub buffer (R375). -/
def hubPut (s : State) (r : ErrRec) : State :=
  { s with elog := { s.elog with hub := s.elog.hub ++ [r] } }

/-- The oldest waiting INFO or DEGRADED record. -/
def oldestMinor (l : List ErrRec) : Option ErrRec := l.find? fun r => r.severity < sevSuspect

/-- A record delivered to the ring or the hub buffer, or dropped (R374, R375). -/
def ringDeliver (s : State) (r : ErrRec) : State :=
  if !s.flag HIC_ELOG_BASE_VALID 0 0 then
    if s.elog.hub.length < 64 then s.hubPut r
    else if r.severity < sevSuspect then s.dropRec r.severity
    else match oldestMinor s.elog.hub with
      | some o =>
        let s := { s with elog := { s.elog with hub := s.elog.hub.erase o } }
        (s.dropRec o.severity).hubPut r
      | none => s.dropRec r.severity
  else if s.ringUsed < s.ringSize then
    s.ringPut r
  else if r.severity < sevSuspect then s.dropRec r.severity
  else if s.elog.hub.length < 64 then s.hubPut r
  else s.dropRec r.severity

/-- Records the 256 MiB spool holds, 64 bytes each (R415). -/
def spoolMax : Nat := 4194304

/-- One record more in a full spool drops the oldest INFO, else the oldest DEGRADED record (R415). -/
def spoolTrim (l : List (ErrRec × Bool)) : List (ErrRec × Bool) :=
  if l.length ≤ spoolMax then l
  else match l.find? (fun r => r.1.severity = sevInfo) with
    | some o => l.erase o
    | none => match l.find? (fun r => r.1.severity = sevDegraded) with
      | some o => l.erase o
      | none => l

/-- A record sent on the management stream, or spooled while the collector is unreachable (R374, R415). -/
def streamDeliver (s : State) (r : ErrRec) (alert : Bool) : State :=
  if r.severity < s.getF HIC_ELOG_CFG_STREAM_MIN 0 0 ∧ !alert then s
  else if s.flag HIC_MGMT_STATUS_STREAM 0 0 then
    { s with elog := { s.elog with stream := s.elog.stream ++ [(r, alert)] } }
  else
    let spool := spoolTrim (s.elog.spool ++ [(r, alert)])
    let s := { s with elog := { s.elog with
      spool := spool, spoolDropped := s.elog.spoolDropped || decide (spool.length ≤ s.elog.spool.length) } }
    s.setF HIC_MGMT_STATUS_SPOOL 0 0 spool.length

/-- A failure event of this module, counted in its hour window (R342). -/
def countFailure (s : State) : State :=
  let h := s.time / 3600000000000
  { s with ingot := { s.ingot with failHours := Tab.putN 0 s.ingot.failHours h (Tab.getN 0 s.ingot.failHours h + 1) } }

/-- A unit's record reaches the hub: it is stamped, numbered and delivered (R370, R371, R374). AGE is a free value
(assumption 15). -/
def record (s : State) (a : RecArg) : State :=
  let t := s.unitTemp a.unit a.core
  let rail := railOfUnit a.unit
  let r : ErrRec :=
    { time := s.time, frac := s.frac, severity := a.sev,
      stale := a.unit != unitModule && s.inReset (a.unit / 256), lost := false,
      lcore := a.core.bind fun c => s.logicalOf c.1 c.2,
      unit := a.unit, subunit := a.sub, seq := s.elog.seq, event := a.event,
      job := s.getF PORT_MOD_JOB_JOB 0 0, epoch := a.epoch, task := a.task,
      temp := t.1, sensor := t.2, rail := rail, volt := s.railVolt rail % 65536,
      age := (Config.freeValue s.fresh).toNat % 256, syndrome := a.syn }
  let s := { s with fresh := s.fresh + 1, elog := { s.elog with seq := (s.elog.seq + 1) % 2 ^ 32 } }
  let s := if a.sev = sevFailed then s.countFailure else s
  (s.ringDeliver r).streamDeliver r a.alert

/-- A record naming a requester and an address (R13, R19, R108): layout of the syndrome not given. -/
def requesterCode : Requester → Nat
  | .forge c => c.val
  | .debug => 16
  | .bootRom => 17
  | .task t => 18 + (t.d * 16 + t.g) * 65536 + t.idx

/-- An INFO record of class 0x01 naming the requester and the address (R13, R19); its unit is the module's hub
(DEDUCED, assumption 16). -/
def accessRecord (s : State) (event : Nat) (r : Requester) (a : Nat) : State :=
  s.record { event := event, sev := sevInfo, unit := unitModule, syn := Config.syndrome event [requesterCode r, a] }

/-- The refusal of a register write that no other row names (R372): UNIT is the unit that holds the register; the
syndrome holds the address in bytes 40 to 47 and the value in bytes 48 to 55. -/
def refuseWrite (s : State) (a : Nat) (v : Word) : State :=
  s.record { event := 0x0103, sev := sevInfo,
             unit := unitOf ((a - 0xF0000000000) / 0x100000000) (a % 0x100000000 / 0x1000000),
             syn := (BitVec.ofNat 128 v.toNat <<< 64) ||| BitVec.ofNat 128 a }

/-- A record about physical core `p` of die `d`. -/
def coreRecord (s : State) (event sev d p : Nat) (details : List Nat) (epoch : Nat := 0)
    (task : Option (Nat × Nat × Nat) := none) : State :=
  s.record { event := event, sev := sev, unit := unitOf d (p + 1), sub := p, core := some (d, p), epoch := epoch,
             task := task, syn := Config.syndrome event details }

/-- A record about die-common logic of compute die `d` (unit 0). -/
def dieRecord (s : State) (event sev d sub : Nat) (details : List Nat) (epoch : Nat := 0)
    (task : Option (Nat × Nat × Nat) := none) : State :=
  s.record { event := event, sev := sev, unit := unitOf d 0, sub := sub, epoch := epoch, task := task,
             syn := Config.syndrome event details }

/-- A record about a unit of stack `ms`. -/
def stackRecord (s : State) (event sev ms unit sub : Nat) (details : List Nat) (epoch : Nat := 0)
    (task : Option (Nat × Nat × Nat) := none) : State :=
  s.record { event := event, sev := sev, unit := unitOf (6 + ms) unit, sub := sub, epoch := epoch, task := task,
             syn := Config.syndrome event details }

/-- A record about a unit of the hub. -/
def hubRecord (s : State) (event sev unit sub : Nat) (details : List Nat) (alert : Bool := false)
    (epoch : Nat := 0) : State :=
  s.record { event := event, sev := sev, unit := unitOf 4 unit, sub := sub, alert := alert, epoch := epoch,
             syn := Config.syndrome event details }

/-- A record about a unit of the light layer. -/
def lightRecord (s : State) (event sev unit sub : Nat) (details : List Nat) : State :=
  s.record { event := event, sev := sev, unit := unitOf 5 unit, sub := sub, syn := Config.syndrome event details }

/-- The die_index and unit of a fabric port's engine (R10, R17). -/
def portUnit (p : Nat) : Nat := unitOf (p / 2) (48 + p % 2)

/-- A record about a fabric port. -/
def portRecord (s : State) (event sev p : Nat) (details : List Nat) (epoch : Nat := 0) : State :=
  s.record { event := event, sev := sev, unit := portUnit p, sub := p, epoch := epoch,
             syn := Config.syndrome event details }

/-- ALERT_N is asserted while a FAILED record lies in the ring between CONS and PROD or waits in the hub buffer
(R374). -/
def alertAsserted (s : State) : Bool :=
  s.elog.hub.any (fun r => r.severity = sevFailed) ||
  s.elog.failedAt.any fun i =>
    decide ((i + 2 ^ 32 - s.getF HIC_ELOG_CONS_INDEX 0 0) % 2 ^ 32 < s.ringUsed)

/-- A register write or read reaching its unit: to a domain in reset it completes without effect, with the INFO record
of R19 (R225). -/
def atReg (s : State) (r : Requester) (a : Nat) (t : State) : State :=
  if s.inReset ((a - 0xF0000000000) / 0x100000000) then s.accessRecord 0x0102 r a else t

end State

/-! ### Register addresses (R16, R17, R183, R259) -/

def dieReg (d off : Nat) : Nat := 0xF0000000000 + d * 0x100000000 + off
def coreReg (d p off : Nat) : Nat := dieReg d ((p + 1) * 0x1000000 + off)
def brzReg (d e off : Nat) : Nat := dieReg d ((40 + e) * 0x1000000 + off)
def stackReg (ms unit off : Nat) : Nat := dieReg (6 + ms) (unit * 0x1000000 + off)
def hubReg (unit off : Nat) : Nat := dieReg 4 (unit * 0x1000000 + off)
def lightReg (unit off : Nat) : Nat := dieReg 5 (unit * 0x1000000 + off)

end Sys2Proof.Machine
end

