-- ==== Sys2Proof/Machine/Flags.lean ====
section
/-! DEFINITION. Interrupt sources: the level of each flag and condition source (R411, R448, R466), the pending bit a
rising edge sets (R406), and `commit`, which every meaning ends with. -/

namespace Sys2Proof.Machine

namespace State

/-- A pending bit set (R406). -/
def pend (s : State) (g i : Nat) : State :=
  s.putR ⟨.HIC_PEND, 0, g⟩ (s.getR ⟨.HIC_PEND, 0, g⟩ ||| (1#64 <<< i))

/-- A pulse source fires: its rising edge sets the pending bit, masked or in service or not (R406, R407). -/
def pulse (s : State) (g i : Nat) : State := s.pend g i

/-- A monitor with IRQ_EN has a snapshot unacknowledged (R411 group 0 i = 9, group 4 i = 17). -/
def monReady (s : State) (inst : Nat) : Bool :=
  (List.range 64).any fun m => s.flag MON_CFG_IRQ_EN inst m && s.flag MON_STATUS_READY inst m

/-- The state code of a graph slot (R111). -/
def slotState (s : State) (d g : Nat) : Nat := s.getF GE_GRAPH_STATUS_STATE d g

/-- The level of source `i` of group `g` (R411, R448, R466). Pulse and reserved sources read low. -/
def level (s : State) (g i : Nat) : Bool :=
  if g < 4 then
    match i with
    | 0 => (List.range 16).any fun k => decide (4 ≤ s.slotState g k)
    | 1 => s.flag GE_UNPLACED_VALID g 0
    | 2 => (s.engine g).sched.any fun e => e.2.failedHold
    | 3 => s.flag GE_RSTAT_SNAP_READY g 0 && s.flag GE_RSTAT_CTRL_IRQ_EN g 0
    | 4 => s.flag COL_FAIL_VALID g 0
    | 5 => s.flag AS_LAST_VALID g 0
    | 6 => s.flag AS_DUAL_LAST_VALID g 0
    | 7 => s.flag THM_STATUS_QUENCHED g 0
    | 8 => s.flag THM_STATUS_HELD g 0
    | 9 => s.monReady g
    | 10 => s.flag DBG_GE_CTRL_HALTED 0 g
    | 18 => g < 3 && s.flag PORT_IL_STATUS_FAULT (2 * g) 0
    | 19 => g < 3 && s.flag PORT_IL_STATUS_BADSIG (2 * g) 0
    | 26 => g < 3 && s.flag PORT_IL_STATUS_FAULT (2 * g + 1) 0
    | 27 => g < 3 && s.flag PORT_IL_STATUS_BADSIG (2 * g + 1) 0
    | _ => false
  else if g = 4 then
    match i with
    | 2 => s.flag COL_SEAL_STATE_RETRACT_DONE 0 0
    | 4 => s.flag ING_STATUS_VOID 0 0
    | 5 => s.flag ING_STATUS_SKIPPED 0 0
    | 6 => s.flag ING_STATUS_LOST_ALERT 0 0
    | 7 => s.flag ING_PARTNER_CO_FED 0 0
    | 9 => s.flag ING_T2_FORGE 0 0
    | 10 => decide ((s.getR ⟨.HIC_TRIG_STATUS, 0, 0⟩).toNat % 32 ≠ 0)
    | 11 => decide (s.ringSize ≤ 2 * s.ringUsed)
    | 12 => s.alertAsserted
    | 13 => s.flag PWR_STATUS_UV_WARN 0 0 || s.flag PWR_STATUS_OV_WARN 0 0
    | 14 => s.flag PWR_STATUS_PFAIL 0 0
    | 15 => s.flag PWR_STATUS_RAIL_FAULT 0 0
    | 16 => s.flag TIME_STATUS_STEPPED 0 0 || s.flag TIME_STATUS_SPURIOUS 0 0
    | 17 => s.monReady 4
    | 22 => s.flag THM_PLATE_LEAK 0 0
    | 23 => s.flag PWR_PINS_FEED_CHG 0 0
    | _ => false
  else if g = 5 then
    match i with
    | 1 => (List.range 3).any fun k => s.flag LC_STATUS_TARNISH 0 k
    | 2 => (List.range 3).any fun k => s.flag LC_STATUS_HARD 0 k
    | 3 => s.flag LL_LOSS_VALID 0 0
    | 6 => s.flag LL_STATUS_STOPPED 0 0
    | _ => false
  else if g < 18 then
    match i with
    | 0 => s.flag CRU_ECC_LAST_VALID (g - 6) 0 && s.flag CRU_ECC_LAST_UNCORR (g - 6) 0
    | 3 => s.flag CRU_VER_STATUS_ABANDONED (g - 6) 0
    | 4 => s.flag CRU_VER_STATUS_FORCED (g - 6) 0
    | _ => false
  else false

end State

/-- The flag and condition sources of R411 and of hub sources 22 and 23 (R466), by group. -/
def levelSources : List (Nat × Nat) :=
  ((List.range 4).flatMap fun g => [0, 1, 2, 3, 4, 5, 6, 7, 8, 9, 10, 18, 19, 26, 27].map fun i => (g, i)) ++
  ([2, 4, 5, 6, 7, 9, 10, 11, 12, 13, 14, 15, 16, 17, 22, 23].map fun i => (4, i)) ++
  ([1, 2, 3, 6].map fun i => (5, i)) ++
  ((List.range 12).flatMap fun n => [0, 3, 4].map fun i => (6 + n, i))

namespace State

/-- Rising edges between two states set their pending bits (R406). -/
def latchEdges (s t : State) : State :=
  (levelSources.filter fun x => !s.level x.1 x.2 && t.level x.1 x.2).foldl (fun u x => u.pend x.1 x.2) t

/-- The sources whose level is high, not pending and not in service, and which target core `c`, get their pending bit
(R408). -/
def resample (s : State) (c : Nat) : State :=
  (levelSources.filter fun x =>
      decide (s.getF HIC_TARGET_CORE 0 (64 * x.1 + x.2) = c) && s.level x.1 x.2 &&
      !(s.getR ⟨.HIC_PEND, 0, x.1⟩).getLsbD x.2 && !Tab.getN false s.inService (64 * x.1 + x.2)).foldl
    (fun u x => u.pend x.1 x.2) s

end State

/-- The answer of a meaning: the state after its effect, with every rising interrupt level latched. -/
def commit (s t : State) : Host.Outcome State Fault Refusal := .next (s.latchEdges t)

end Sys2Proof.Machine
end

