-- ==== Sys2Proof/Machine/Operands.lean ====
section
/-! DEFINITION. Operand forms: the fields of a task descriptor and of the body of every task kind (R115 to R118,
R150 to R152, R169, R198, R292 to R295, R469, R470). -/

namespace Sys2Proof.Machine

/-- Word `i` of a descriptor. -/
def Task.word (t : Task) (i : Nat) : Word := t.w.getD i 0

/-- Word `i` of the operand extension. -/
def Task.xword (t : Task) (i : Nat) : Word := t.ext.getD i 0

/-- The task kinds of R116. -/
inductive Kind where
  | reserved | matmul | vector | drain | spill | resume | copy | collective
  | send | recv | fused | signal | wait | fence | regwrite | test
  deriving DecidableEq, Repr

/-- The kind of a code (R116). -/
def Kind.ofCode (n : Nat) : Kind :=
  match n with
  | 1 => .matmul | 2 => .vector | 3 => .drain | 4 => .spill | 5 => .resume | 6 => .copy | 7 => .collective
  | 8 => .send | 9 => .recv | 10 => .fused | 11 => .signal | 12 => .wait | 13 => .fence | 14 => .regwrite
  | 15 => .test | _ => .reserved

/-- Core kinds (R116). -/
def Kind.isCore : Kind → Bool
  | .matmul | .vector | .drain | .spill | .resume | .fused | .test => true
  | _ => false

namespace Task

/-! ### Words 0 to 3 (R115) -/

def kindCode (t : Task) : Nat := (t.word 0).bits 63 60
def kind (t : Task) : Kind := Kind.ofCode t.kindCode
def priority (t : Task) : Nat := (t.word 0).bits 59 56
def leave (t : Task) : Nat := (t.word 0).bits 55 53
def region (t : Task) : Nat := (t.word 0).bits 51 44
def yields (t : Task) : Bool := (t.word 0).bit 43
def extFlag (t : Task) : Bool := (t.word 0).bit 42
def predCount (t : Task) : Nat := (t.word 0).bits 39 24
def succCount (t : Task) : Nat := (t.word 0).bits 23 8
def crit (t : Task) : Nat := (t.word 0).bits 7 0
def epoch (t : Task) : Nat := (t.word 1).bits 63 32
def elig (t : Task) : Nat := (t.word 1).bits 31 0
def declN (t : Task) : Nat := (t.word 2).bits 10 0
def succExt (t : Task) : Nat := (t.word 3).bits 63 48
def opndExt (t : Task) : Nat := (t.word 3).bits 47 32
def tensor (t : Task) : Nat := (t.word 3).bits 31 0

/-- The 256-bit body of words 4 to 7 (R118). -/
def body (t : Task) : Nat :=
  (t.word 4).toNat + (t.word 5).toNat * 2 ^ 64 + (t.word 6).toNat * 2 ^ 128 + (t.word 7).toNat * 2 ^ 192

/-- Bits `hi` to `lo` of the body. -/
def bodyBits (t : Task) (hi lo : Nat) : Nat := (t.body >>> lo) % 2 ^ (hi + 1 - lo)

/-! ### MATMUL (R117, R169) -/

def mmMode (t : Task) : Nat := (t.word 4).bits 63 60
def mmWFmt (t : Task) : Nat := (t.word 4).bits 59 56
def mmTransposed (t : Task) : Bool := (t.word 4).bit 55
def mmKt (t : Task) : Nat := (t.word 4).bits 54 48 + 1
def mmWAddr (t : Task) : Nat := (t.word 4).bits 43 0
def mmXFmt (t : Task) : Nat := (t.word 5).bits 63 60
def mmXSlot (t : Task) : Nat := (t.word 5).bits 59 50
def mmXAddr (t : Task) : Nat := (t.word 5).bits 43 0
def mmAdd (t : Task) : Bool := (t.word 6).bit 63
def mmPair (t : Task) : Bool := (t.word 6).bit 62
def mmTile (t : Task) : Nat := (t.word 6).bits 61 50
def mmBase (t : Task) : Nat := (t.word 6).bits 49 43
def mmM (t : Task) : Nat := (t.word 6).bits 42 32 + 1
def mmCodebook (t : Task) : Nat := (t.word 6).bits 31 16
def mmXStride (t : Task) : Nat := (t.word 7).bits 63 32
def mmWStride (t : Task) : Nat := (t.word 7).bits 31 0
def mmXScale (t : Task) : Nat := (t.xword 0).bits 43 0
def mmWScale (t : Task) : Nat := (t.xword 1).bits 43 0
def mmCoarse (t : Task) : Bool := (t.xword 2).bit 63
def mmMask (t : Task) : Nat := if t.extFlag then (t.xword 2).bits 43 0 else 0

/-! ### DRAIN (R469) and SPILL, RESUME (R470) -/

def drRelease (t : Task) : Bool := (t.word 4).bit 63
def drDeriv (t : Task) : Bool := (t.word 4).bit 62
def drFunc (t : Task) : Nat := (t.word 4).bits 61 59
def drRnd (t : Task) : Nat := (t.word 4).bits 58 57
def drFmt (t : Task) : Nat := (t.word 4).bits 56 53
def drSlot (t : Task) : Nat := (t.word 4).bits 52 43
def drPair (t : Task) : Bool := (t.word 4).bit 42
def drTile (t : Task) : Nat := (t.word 4).bits 41 30
def drBase (t : Task) : Nat := (t.word 4).bits 29 23
def drM (t : Task) : Nat := (t.word 4).bits 22 12 + 1
def drN (t : Task) : Nat := (t.word 4).bits 11 1
def drAlpha (t : Task) : Nat := (t.word 5).bits 63 48
def drDst (t : Task) : Nat := (t.word 5).bits 43 0
def drScale (t : Task) : Nat := (t.word 6).bits 43 0
def drBiasBf16 (t : Task) : Bool := (t.word 7).bit 63
def drBias (t : Task) : Nat := (t.word 7).bits 43 0
def drRow0 (t : Task) : Nat := if t.extFlag then (t.xword 0).bits 63 32 else 0
def drCol0 (t : Task) : Nat := if t.extFlag then (t.xword 0).bits 31 0 else 0
def drRows (t : Task) : Nat := if t.extFlag then (t.xword 1).bits 63 32 else t.drM
def drCols (t : Task) : Nat := if t.extFlag then (t.xword 1).bits 31 0 else t.drN
def drSavedZ (t : Task) : Bool := t.extFlag && (t.xword 2).bit 48
def drSavedFmt (t : Task) : Nat := if t.extFlag then (t.xword 2).bits 47 44 else 0
def drSaved (t : Task) : Nat := if t.extFlag then (t.xword 2).bits 43 0 else 0
def drOutScale (t : Task) : Nat := if t.extFlag then (t.xword 3).bits 43 0 else 0
def drSavedScale (t : Task) : Nat := if t.extFlag then (t.xword 4).bits 43 0 else 0
def drSecSlot (t : Task) : Nat := (t.xword 5).bits 61 52
def drSecPost (t : Task) : Bool := (t.xword 5).bit 51
def drSecRnd (t : Task) : Nat := (t.xword 5).bits 50 49
def drSecFmt (t : Task) : Nat := (t.xword 5).bits 47 44
def drSec (t : Task) : Nat := if t.extFlag then (t.xword 5).bits 43 0 else 0
def drSecTensor (t : Task) : Nat := (t.xword 6).bits 63 32
def drSecScale (t : Task) : Nat := (t.xword 7).bits 43 0
def spBuf (t : Task) : Nat := (t.word 5).bits 43 0

/-! ### VECTOR (R150) and FUSED (R151) -/

def veNExt (t : Task) : Nat := (t.word 4).bits 43 40
def veNBody (t : Task) : Nat := (t.word 4).bits 39 38
def veProgLen (t : Task) : Nat := (t.word 4).bits 37 22
def veProgOff (t : Task) : Nat := (t.word 4).bits 21 0

/-- The operand words of a VECTOR task, body order then extension order (R150). -/
def veOperands (t : Task) : List Word :=
  ((List.range t.veNBody).map fun i => t.word (5 + i)) ++ ((List.range t.veNExt).map fun i => t.xword i)

def fuYieldLog2 (t : Task) : Nat := (t.word 4).bits 31 28
def fuItems (t : Task) : Nat := (t.word 4).bits 27 4
def fuStages (t : Task) : Nat := (t.word 4).bits 3 0

/-- The 128-bit record of stage `j`, low word first (R151, R152): stage 0 in words 5 and 6, the others in the
extension. -/
def fuStage (t : Task) (j : Nat) : Word × Word :=
  if j = 0 then (t.word 5, t.word 6) else (t.xword (2 * (j - 1)), t.xword (2 * (j - 1) + 1))

/-! ### COPY (R198) -/

def cpProgram (t : Task) : Bool := (t.word 4).bit 63
def cpUpdate (t : Task) : Bool := (t.word 4).bit 62
def cpProg (t : Task) : Nat := (t.word 4).bits 61 56
def cpStreams (t : Task) : Nat := (t.word 4).bits 55 52
def cpDigStream (t : Task) : Nat := (t.word 4).bits 51 49
def cpSrc (t : Task) : Nat := (t.word 4).bits 43 0
def cpDst (t : Task) : Nat := (t.word 5).bits 43 0
def cpLength (t : Task) : Nat := (t.word 6).bits 39 0

/-- Stream `k` of a program COPY, from OPND_EXT and OPND_EXT + 1 (R198). -/
def cpStream (t : Task) (k : Nat) : PStream where
  fmt := (t.xword k).bits 63 60
  rnd := (t.xword k).bits 59 58
  slot := (t.xword k).bits 57 48
  addr := (t.xword k).bits 43 0
  tensor := (t.xword (8 + k)).bits 63 32
  index0 := (t.xword (8 + k)).bits 31 0

/-- Constants k0 to k15, two per word of OPND_EXT + 2 (R198). -/
def cpConst (t : Task) : List F32 :=
  (List.range 16).map fun i => BitVec.ofNat 32 ((t.xword (16 + i / 2)).toNat / 2 ^ (32 * (i % 2)))

/-! ### COLLECTIVE (R292) -/

def coOp (t : Task) : Nat := (t.word 4).bits 63 60
def coChan (t : Task) : Nat := (t.word 4).bits 59 56
def coDies (t : Task) : Nat := (t.word 4).bits 55 52
def coFmt (t : Task) : Nat := (t.word 4).bits 51 50
def coRnd (t : Task) : Bool := (t.word 4).bit 49
def coDigSrc (t : Task) : Bool := (t.word 4).bit 48
def coStat (t : Task) : Bool := (t.word 4).bit 47
def coStatStage (t : Task) : Nat := (t.word 4).bits 46 45
def coSeal (t : Task) : Bool := (t.word 4).bit 44
def coG (t : Task) (a : Nat) : Nat :=
  (if a = 0 then (t.word 4).bits 43 36 else if a = 1 then (t.word 4).bits 35 28 else (t.word 4).bits 27 20) + 1
def coSelf (t : Task) : Nat := (t.word 4).bits 19 6
def coPkg (t : Task) : Bool := (t.word 4).bit 5
def coSlot (t : Task) : Nat := (t.word 5).bits 63 54
def coSrc (t : Task) : Nat := (t.word 5).bits 43 0
def coRoot (t : Task) : Nat := (t.word 6).bits 63 50
def coDst (t : Task) : Nat := (t.word 6).bits 43 0
def coMembers (t : Task) : Nat := (t.word 7).bits 43 0
def coExtents (t : Task) : Nat := (t.xword 0).bits 43 0
def coResult (t : Task) : Nat := (t.xword 1).bits 43 0
def coDigests (t : Task) : Nat := (t.xword 2).bits 43 0
def coAux (t : Task) : Nat := (t.xword 3).bits 43 0

/-- Element bytes of the COLLECTIVE's FMT (R292, R295). -/
def coWidth (t : Task) : Nat := if t.coFmt = 0 then 4 else if t.coFmt = 3 then 1 else 2

/-! ### SEND and RECV (R293) -/

def srChan (t : Task) : Nat := (t.word 4).bits 63 60
def srMode (t : Task) : Nat := (t.word 4).bits 59 58
def srDigSrc (t : Task) : Bool := (t.word 4).bit 57
def srX (t : Task) : Nat := (t.word 4).bits 47 40
def srY (t : Task) : Nat := (t.word 4).bits 39 32
def srZ (t : Task) : Nat := (t.word 4).bits 31 24
def srDie (t : Task) : Nat := (t.word 4).bits 23 21
def srVl (t : Task) : Nat := (t.word 4).bits 20 18
def srLocal (t : Task) : Nat := (t.word 5).bits 43 0
def srRemote (t : Task) : Nat := (t.word 6).bits 43 0
def srLength (t : Task) : Nat := (t.word 7).bits 39 0

/-! ### SIGNAL, WAIT, FENCE, REGWRITE, TEST (R118) -/

def sgLocal (t : Task) : Bool := t.bodyBits 0 0 = 1
def sgX (t : Task) : Nat := t.bodyBits 8 1
def sgY (t : Task) : Nat := t.bodyBits 16 9
def sgZ (t : Task) : Nat := t.bodyBits 24 17
def sgDie (t : Task) : Nat := t.bodyBits 27 25
def sgToken (t : Task) : Nat := t.bodyBits 39 28
def sgInc (t : Task) : Nat := t.bodyBits 55 40
def waToken (t : Task) : Nat := t.bodyBits 11 0
def waConsume (t : Task) : Bool := t.bodyBits 12 12 = 1
def waThreshold (t : Task) : Nat := t.bodyBits 44 13
def feMask (t : Task) : Nat := t.bodyBits 11 0
def rwAddr (t : Task) (i : Nat) : Nat := if i = 0 then t.bodyBits 43 0 else t.bodyBits 151 108
def rwValue (t : Task) (i : Nat) : Nat := if i = 0 then t.bodyBits 107 44 else t.bodyBits 215 152
def teStructural (t : Task) : Bool := t.bodyBits 0 0 = 1

/-- Operand extension words the second reading takes (R114), by kind: one record of eight words, two for a FUSED
chain, three for a program COPY. -/
def extWords (t : Task) : Nat :=
  match t.kind with
  | .fused => 16
  | .copy => 24
  | _ => 8

/-- The tile a MATMUL, DRAIN, SPILL or RESUME names (R88): identifier, base unit, M, N_t, pair format. -/
def tileOf (t : Task) : Option Bound :=
  match t.kind with
  | .matmul => some { g := 0, tile := t.mmTile, base := t.mmBase, m := t.mmM, n := t.declN, pair := t.mmPair }
  | .drain | .spill | .resume =>
    some { g := 0, tile := t.drTile, base := t.drBase, m := t.drM, n := t.drN, pair := t.drPair }
  | _ => none

/-- The channel a COLLECTIVE, SEND or RECV names (R290). -/
def channel (t : Task) : Option Nat :=
  match t.kind with
  | .collective => some t.coChan
  | .send | .recv => some t.srChan
  | _ => none

end Task

/-- Units a tile occupies from its base (R88). -/
def Bound.units (b : Bound) : Nat := (b.m * b.n * (if b.pair then 2 else 1) + 1023) / 1024

/-- Do two tiles' unit ranges overlap (R89)? -/
def Bound.overlaps (a b : Bound) : Bool := decide (a.base < b.base + b.units ∧ b.base < a.base + a.units)

/-- Fields of a stage record (R152), low word first. -/
def stAdv (x : Word × Word) : Nat := x.2.bits 63 32
def stTemplate (x : Word × Word) : Nat := x.2.bits 15 0
def stQOff (x : Word × Word) : Nat := x.1.bits 58 32
def stQEntry (x : Word × Word) : Nat := x.1.bits 23 8
def stQDepth (x : Word × Word) : Nat := x.1.bits 7 4
def stKind (x : Word × Word) : Nat := x.1.bits 3 0

/-- Fields of a VECTOR operand word (R150). -/
def voSlot (w : Word) : Nat := w.bits 57 48
def voFmt (w : Word) : Nat := w.bits 47 44
def voAddr (w : Word) : Nat := w.bits 43 0

end Sys2Proof.Machine
end

