-- ==== Sys2Proof/Machine/Reset.lean ====
section
/-! DEFINITION. Reset domains, the reset sequencer's domain release and the package reset (R224 to R227, R50). -/

namespace Sys2Proof.Machine

/-- The reset domain (die_index) of a register (R16, R17, R225). -/
def RegKey.domain (k : RegKey) : Nat :=
  match ((regRows.find? fun r => r.reg = k.name).map fun r => r.home : Option Home) with
  | some .die => k.inst
  | some .core => k.inst / 34
  | some .braze => k.inst / 8
  | some .port => k.inst / 2
  | some (.stack _) => 6 + k.inst
  | some (.light _) => 5
  | some .mon => k.inst
  | _ => 4

/-- The other compute die's end of a compute-compute edge (R21, R228); an edge to the hub or a stack has one window. -/
def edgeEnds (d e : Nat) : List (Nat × Nat) :=
  if (brazePeer d e).1 = 1 then
    let p := (brazePeer d e).2
    [(d, e), (p, if (brazeNeighbours p).1 = d then 1 else 2)]
  else [(d, e)]

/-- The edges that end at a reset domain, each by one of its windows. -/
def edgesOf (i : Nat) : List (Nat × Nat) :=
  if i < 4 then (List.range 6).map fun e => (i, e)
  else if i = 4 then (List.range 4).map fun d => (d, 0)
  else if 6 ≤ i ∧ i < 18 then [((i - 6) / 3, 3 + (i - 6) % 3)]
  else []

/-- Bundles of an edge (R214). -/
def bundlesOf (e : Nat) : Nat := if e = 0 then 1 else 8

/-- The key of one direction of an edge: towards die `d`, or away from it to the hub or a stack. -/
def linkKey (d e : Nat) (far : Bool) : Nat := (d * 8 + e) * 2 + (if far then 1 else 0)

namespace State

def link (s : State) (k : Nat) : LinkSt := Tab.getN {} s.links k
def setLink (s : State) (k : Nat) (l : LinkSt) : State := { s with links := Tab.putN {} s.links k l }

/-- A graph of the die is RUNNING (R111). -/
def graphRunning (s : State) (d : Nat) : Bool := (List.range 16).any fun g => s.slotState d g = 3

/-- A graph of any compute die is RUNNING. -/
def anyRunning (s : State) : Bool := (List.range 4).any s.graphRunning

/-- An edge's status as it reads while a domain at either end is in reset: STATE 0b00, nothing retired (R225). -/
def edgeReset (s : State) (d e : Nat) : State :=
  (edgeEnds d e).foldl (fun s x =>
    let s := s.putR ⟨.BRZ_STATUS, x.1 * 8 + x.2, 0⟩ (RegKey.reset ⟨.BRZ_STATUS, x.1 * 8 + x.2, 0⟩)
    { s with links := Tab.putN {} (Tab.putN {} s.links (linkKey x.1 x.2 false) {}) (linkKey x.1 x.2 true) {} }) s

/-- An edge trains once the domains at both ends are released (R218). -/
def edgeTrain (s : State) (d e : Nat) : State :=
  if s.inReset d || s.inReset (brazePeer d e).2 then s
  else (edgeEnds d e).foldl (fun s x => s.setF BRZ_STATUS_STATE (x.1 * 8 + x.2) 0 1) s

/-- A bit of IN_RESET. -/
def setInReset (s : State) (i : Nat) (v : Bool) : State :=
  let m := s.getF BOOT_RST_STATUS_IN_RESET 0 0
  s.setF BOOT_RST_STATUS_IN_RESET 0 0 (if v then m ||| 2 ^ i else m - (m &&& 2 ^ i))

/-- What the bays sense of the cartridges stays through a reset (R257, R459). -/
def keepCarts (s t : State) : State :=
  [0, 1, 2].foldl (fun t i =>
    let w := s.getR ⟨.LC_STATUS, 0, i⟩
    ((t.setF LC_STATUS_PRESENT 0 i (LC_STATUS_PRESENT.get w)).setF LC_STATUS_LATCH 0 i
      (LC_STATUS_LATCH.get w)).setF LC_STATUS_SERIAL 0 i (LC_STATUS_SERIAL.get w)) t

/-- A domain held in reset: its registers at their reset values, what its units hold gone, its memory as memory that
nothing has written (R50, R225, R227; assumption 3), its edges down. The repair map stays. -/
def domainHold (s : State) (i : Nat) : State :=
  let s0 := s
  let s := { s with
    regs := s.regs.filter fun e => e.1.domain ≠ i
    engines := Tab.erase s.engines i
    cores := s.cores.filter fun e => e.1 / 34 ≠ i
    chans := s.chans.filter fun e => e.1 / 16 ≠ i
    quench := Tab.erase s.quench i
    sensors := s.sensors.filter fun e => e.1 / 64 ≠ i
    mons := s.mons.filter fun e => e.1 / 64 ≠ i
    ports := s.ports.filter fun e => e.1 / 2 ≠ i
    mem := s.mem.filter fun e =>
      !((isPoolAddr e.1 && (e.1 - 0x10000000000) / 0x8000000 = i) || (isScratchAddr e.1 && (scratchCore e.1).1 = i))
    linePoison := s.linePoison.filter fun e =>
      !((isPoolAddr (e.1 * 64) && (e.1 * 64 - 0x10000000000) / 0x8000000 = i) ||
        (isScratchAddr (e.1 * 64) && (scratchCore (e.1 * 64)).1 = i))
    stackTab := s.stackTab.filter fun e => 6 + e.1 ≠ i
    dram := s.dram.filter fun e => 6 + e.1 / 2 ^ 36 ≠ i
    granPoison := s.granPoison.filter fun e => 6 + e.1 * 32 / 2 ^ 36 ≠ i
    packed := s.packed.filter fun e =>
      match s.findRegion e.1 with
      | some r => 6 + ((s.region r).place (e.1 - (s.region r).base)).stack ≠ i
      | none => true
    light := if i = 5 then { carts := s.light.carts, baseline := s.light.baseline, farBase := s.light.farBase } else s.light }
  let s := if i = 5 then s0.keepCarts s else s
  let s := if i < 4 then s.setF BOOT_CLK_STATUS_ARRAY_HALF 0 0
      (s.getF BOOT_CLK_STATUS_ARRAY_HALF 0 0 - (s.getF BOOT_CLK_STATUS_ARRAY_HALF 0 0 &&& 2 ^ i)) else s
  (edgesOf i).foldl (fun s x => s.edgeReset x.1 x.2) (s.setInReset i true)

/-- A domain released from reset, its edges training (R218, R226); the fields that reset to the profile's take it (R213,
R400). -/
def domainRelease (s : State) (i : Nat) : State :=
  let s := if i < 4 then s.setF PWR_LV_CFG_RAMP i 0 s.boot.prof.ramp
    else if 6 ≤ i then s.setF CRU_VER_CFG_RESERVE (i - 6) 0 s.boot.prof.reserve
    else s
  (edgesOf i).foldl (fun s x => s.edgeTrain x.1 x.2) (s.setInReset i false)

/-- The sequencer set to bring up the domains of `mask` from the clock phase on (R226, R227). -/
def sequence (s : State) (mask : Nat) : State :=
  let s := { s with boot := { s.boot with seqMask := s.boot.seqMask ||| mask } }
  let s := s.setF BOOT_RST_STATUS_PHASE 0 0 2
  s.setF BOOT_RST_STATUS_SEQ_DONE 0 0 0

/-- The registers a package reset does not put back: kept clock-loss bits (R224), the counters of the flash (R430), the
pins and the cartridges the bays sense (R459, R467). -/
def keptAtReset (k : RegKey) : Bool :=
  k.name = .BOOT_CTR || k.name = .PWR_PINS || k.name = .PWR_IN || k.name = .THM_PLATE

/-- A package reset (R226): every register and unit at reset, memory as after power-on, the nonce renewed (R425), the
cause shown. Kept: what the flash, the drives, the pins and the bays hold, and the loss bits of R224. -/
def packageReset (s : State) (cause : Nat) : State :=
  let clk := s.getR ⟨.BOOT_CLK_STATUS, 0, 0⟩
  let kept := s.regs.filter fun e => keptAtReset e.1
  let n := s.hub.nonces + 1
  let t : State := { State.reset with
    pending := s.pending
    fresh := s.fresh
    regs := kept
    input := { s.input with railPhase := 0, railStopped := false, orderly := false }
    elog := { stream := s.elog.stream, spool := s.elog.spool, spoolDropped := s.elog.spoolDropped }
    light := { carts := s.light.carts, farBase := s.light.farBase }
    ingot := { failHours := s.ingot.failHours, upHours := s.ingot.upHours, ownLog := s.ingot.ownLog,
               partnerLog := s.ingot.partnerLog }
    hub := { nonces := n }
    boot := { hdr0 := s.boot.hdr0, hdr1 := s.boot.hdr1, osHdr0 := s.boot.osHdr0, osHdr1 := s.boot.osHdr1, flash := s.boot.flash, erased := s.boot.erased,
              commanded := s.boot.commanded, feedReads := s.boot.feedReads, feedSeen := s.boot.feedSeen } }
  let t := (t.setF BOOT_CLK_STATUS_LOST 0 0 (BOOT_CLK_STATUS_LOST.get clk)).setF BOOT_CLK_STATUS_ROOT_LOST 0 0
    (BOOT_CLK_STATUS_ROOT_LOST.get clk)
  let t := (t.putR ⟨.DBG_NONCE0, 0, 0⟩ ((Config.nonce n).setWidth 64)).putR ⟨.DBG_NONCE1, 0, 0⟩
    ((Config.nonce n >>> 64).setWidth 64)
  s.keepCarts (t.setF BOOT_RST_STATUS_CAUSE 0 0 cause)

end State

end Sys2Proof.Machine
end

