-- ==== Sys2Proof/Machine/Tasks.lean ====
section
/-! DEFINITION. Tasks by identifier, the tokens their leave classes stand for (R384), and samples offered to the monitors
(R422, R423). -/

namespace Sys2Proof.Machine

namespace State

/-- The graph held by slot `g` of die `d`. -/
def graph (s : State) (d g : Nat) : Graph := Tab.getN {} (s.engine d).graphs g

def setGraph (s : State) (d g : Nat) (x : Graph) : State :=
  let e := s.engine d
  s.setEngine d { e with graphs := Tab.putN {} e.graphs g x }

/-- A task of a graph slot. -/
def task? (s : State) (t : TaskId) : Option Task := (s.graph t.d t.g).tasks.find? fun x => x.idx = t.idx

/-- A task replaced by its new state. -/
def setTask (s : State) (t : TaskId) (x : Task) : State :=
  let g := s.graph t.d t.g
  s.setGraph t.d t.g { g with tasks := g.tasks.map fun y => if y.idx = t.idx then x else y }

/-- Every task of a die, slot by slot. -/
def tasksOf (s : State) (d : Nat) : List (TaskId × Task) :=
  (List.range 16).flatMap fun g => (s.graph d g).tasks.map fun x => (⟨d, g, x.idx⟩, x)

/-- The dispatched tasks of a die. -/
def dispatchedOf (s : State) (d : Nat) : List (TaskId × Task) :=
  (s.tasksOf d).filter fun x => x.2.status = .dispatched

/-- The dispatched task of physical core `p`, if any. -/
def coreTask (s : State) (d p : Nat) : Option (TaskId × Task) :=
  (s.dispatchedOf d).find? fun x => x.2.core = some p

/-- A core of a die by its physical index. -/
def coreAt (s : State) (d p : Nat) : CoreSt := s.core (d * 34 + p)

def setCoreAt (s : State) (d p : Nat) (c : CoreSt) : State := s.setCore (d * 34 + p) c

end State

/-- The field of PWR_LV_MAP for a leave class (R400). -/
def classField (c : Nat) : Field :=
  match c with
  | 0 => PWR_LV_MAP_CLASS0 | 1 => PWR_LV_MAP_CLASS1 | 2 => PWR_LV_MAP_CLASS2 | 3 => PWR_LV_MAP_CLASS3
  | 4 => PWR_LV_MAP_CLASS4 | 5 => PWR_LV_MAP_CLASS5 | 6 => PWR_LV_MAP_CLASS6 | _ => PWR_LV_MAP_CLASS7

/-- A 64-bit window length in ns: 0 is taken as 1 µs (R429). -/
def winNs (cfg : Word) : Nat := max 1 (MON_CFG_WIN_US.get cfg) * 1000

/-- The bin of a value (R422). -/
def monBin (cfg scale : Word) (v : Int) : Nat :=
  let lo := (BitVec.ofNat 32 (MON_SCALE_LO.get scale)).toInt
  let b : Int :=
    if MON_CFG_LOG2.get cfg = 1 then
      if v ≤ 0 then 0 else (Nat.log2 v.toNat : Int) - lo + 1
    else (v - lo) / (max 1 (MON_SCALE_STEP.get scale) : Nat)
  (max 0 (min 31 b)).toNat

/-- A value entered into a bank. -/
def MonBank.enter (b : MonBank) (cfg scale : Word) (v : Int) : MonBank :=
  let i := monBin cfg scale v
  { b with lo := min b.lo v, hi := max b.hi v, count := b.count + 1, bins := Tab.putN 0 b.bins i (Tab.getN 0 b.bins i + 1) }

/-- Does a monitor's INST select this instance (R422)? For task latency the kind and the core or engine are compared,
0x3F standing for any. -/
def monInst (src inst v : Nat) : Bool :=
  if src = 1 then inst / 4096 = v / 4096 && (inst % 64 = 0x3F || inst % 64 = v % 64) else inst = v

/-- A sample offered to one monitor: binned in the bank of its window, or counted late when that window has been
snapshotted (R423). -/
def MonSt.offer (m : MonSt) (src inst : Nat) (v : Int) (stamp : Nat) : MonSt :=
  if MON_CFG_EN.get m.cfg = 1 && MON_CFG_SRC.get m.cfg = src && monInst src (MON_CFG_INST.get m.cfg) inst then
    let n := stamp / winNs m.cfg
    if m.snapped.any fun w => decide (n ≤ w) then { m with late := min (m.late + 1) (2 ^ 32 - 1) }
    else if n % 2 = 0 then { m with even := { m.even.enter m.cfg m.scale v with window := some n } }
    else { m with odd := { m.odd.enter m.cfg m.scale v with window := some n } }
  else m

namespace State

/-- A monitor's state: before its first window its settings are the register reset values (R429). -/
def mon (s : State) (die m : Nat) : MonSt := Tab.getN {} s.mons (die * 64 + m)

/-- A sample offered to the monitors of a die (4 the hub). -/
def offer (s : State) (die src inst : Nat) (v : Int) (stamp : Nat) : State :=
  { s with mons := s.mons.map fun e => if e.1 / 64 = die then (e.1, e.2.offer src inst v stamp) else e }

/-- Tokens of a leave class on a die (R384). -/
def tokensOf (s : State) (d c : Nat) : Nat := s.getF (classField c) d 0

end State

end Sys2Proof.Machine
end

