-- ==== Sys2Proof/Machine/Power.lean ====
section
/-! DEFINITION. Power, leave and temperature: the 52 V input and the rails (R378 to R382), power states (R383), the leave
arbiter (R384 to R389), the package budget (R390 to R392), sensors and quench (R393 to R398). -/

namespace Sys2Proof.Machine

/-- A signed 16-bit reading. -/
def sgn16 (n : Nat) : Int := (BitVec.ofNat 16 n).toInt

namespace State

/-! ### Power state (R383) -/

/-- Tokens are granted or held on some die. -/
def anyTokens (s : State) : Bool := (List.range 4).any fun d => s.getF PWR_LV_STATUS_GRANTED d 0 ≠ 0

/-- STATE among READY, RUN and QUENCHED, with QUENCHED over RUN and READY (R383). -/
def restate (s : State) : State :=
  let st := s.getF PWR_STATUS_STATE 0 0
  if st = 2 ∨ st = 3 ∨ st = 4 then
    s.setF PWR_STATUS_STATE 0 0 (if s.getF PWR_STATUS_QUENCHED 0 0 ≠ 0 then 4 else if s.anyTokens then 3 else 2)
  else s

/-! ### Leave (R384 to R389) -/

/-- A grant change told to the light layer (R243). -/
def notify (s : State) (d : Nat) (tokens : Int) (t0 : Nat) : State :=
  let l := s.light.notices
  { s with light := { s.light with notices := Tab.putN [] l d (Tab.getN [] l d ++ [⟨tokens, t0⟩]) } }

/-- The granted total of a die. -/
def granted (s : State) (d : Nat) : Nat := s.getF PWR_LV_STATUS_GRANTED d 0

/-- Tokens released: G falls at once (R386). -/
def releaseTokens (s : State) (d n : Nat) : State :=
  if n = 0 then s
  else ((s.setF PWR_LV_STATUS_GRANTED d 0 (s.granted d - n)).notify d (-(n : Int)) s.time).restate

/-- The die's ramp limit, 0 taken as 1 (R388, R400). -/
def ramp (s : State) (d : Nat) : Nat := max 1 (s.getF PWR_LV_CFG_RAMP d 0)

/-- Does a request fit under the budget? -/
def fitsBudget (s : State) (d n : Nat) : Bool := decide (s.granted d + n ≤ s.getF PWR_LV_STATUS_BUDGET d 0)

/-- Does a request fit within the ramp of the period (R388)? -/
def fitsRamp (s : State) (d n : Nat) : Bool := decide (s.granted d + n ≤ (s.engine d).g0 + s.ramp d)

/-- Is request `a` ordered before `b` (R385)? -/
def leaveBefore (a b : LeaveReq) : Bool :=
  decide (b.prio < a.prio) || (decide (b.prio = a.prio) && decide (a.since < b.since))

/-- The head of the waiting requests: highest PRIORITY, then oldest, the earlier in the queue at a tie. -/
def leaveHead : List LeaveReq → Option LeaveReq
  | [] => none
  | r :: t => match leaveHead t with
    | some h => if leaveBefore h r then some h else some r
    | none => some r

/-- The waiting requests in the arbiter's order. -/
def leaveOrder : Nat → List LeaveReq → List LeaveReq
  | 0, _ => []
  | n + 1, l => match leaveHead l with
    | some h => h :: leaveOrder n (l.erase h)
    | none => []

/-- Has backfill stopped for the head (R385)? BACKFILL_US = 0 disables it. -/
def headLocked (s : State) (d : Nat) (h : LeaveReq) : Bool :=
  (s.engine d).backfilled || decide (h.since + s.getF PWR_LV_CFG_BACKFILL_US d 0 * 1000 ≤ s.time)

/-- The request the arbiter grants next, if any: the head, else by backfill the first later one that fits. -/
def leavePick (s : State) (d : Nat) : Option LeaveReq :=
  let fits := fun (r : LeaveReq) => s.fitsBudget d r.tokens && s.fitsRamp d r.tokens
  match leaveOrder (s.engine d).waitq.length (s.engine d).waitq with
  | [] => none
  | h :: t => if fits h then some h else if s.headLocked d h then none else t.find? fits

/-- LEAVE_GRANT (R385, R386): issued now, told to the light layer now, in effect 40 µs later. -/
def leaveGrant (s : State) (d : Nat) : State :=
  if s.flag THM_STATUS_QUENCHED d 0 || s.flag PWR_STATUS_PFAIL 0 0 then s
  else match s.leavePick d with
    | some r =>
      let e := s.engine d
      let lock := e.backfilled && !(leaveHead e.waitq == some r)
      let s := s.setEngine d { e with
        waitq := e.waitq.erase r, issued := e.issued ++ [⟨r.task, r.tokens, r.core, r.since⟩], backfilled := lock }
      ((s.setF PWR_LV_STATUS_GRANTED d 0 (s.granted d + r.tokens)).notify d r.tokens (s.time + 40000)).restate
    | none =>
      match leaveHead (s.engine d).waitq with
      | some h => if s.fitsBudget d h.tokens && !s.fitsRamp d h.tokens then s.setF PWR_LV_STATUS_RAMPED d 0 1 else s
      | none => s

/-- GRANT_TAKES_EFFECT (R386): the task starts with its tokens on its core. -/
def grantTakesEffect (s : State) (t : TaskId) : State :=
  let e := s.engine t.d
  match e.issued.find? fun g => g.task = t with
  | some g =>
    let s := s.setEngine t.d { e with issued := e.issued.erase g }
    let s := match s.task? t with
      | some x => s.setTask t { x with started := true, startedAt := s.time }
      | none => s
    let s := if g.core < 34 then
        let c := s.coreAt t.d g.core
        s.setCoreAt t.d g.core { c with held := c.held + g.tokens }
      else s
    let s := s.addF PWR_LV_WAIT_COUNT t.d 0 ((s.time - g.since) / 1000)
    s.offer t.d 0x02 g.core (s.time - g.since : Nat) g.since
  | none => s

/-- BACKFILL_EXPIRY (R385): no later request is granted until the head is. -/
def backfillExpiry (s : State) (d : Nat) : State :=
  let e := s.engine d
  if e.waitq = [] then s else s.setEngine d { e with backfilled := true }

/-- Tokens a task still asks for: waiting, or granted and not yet in effect. -/
def askedFor (s : State) (t : TaskId) : Nat :=
  let e := s.engine t.d
  ((e.waitq.filter fun r => r.task = t).map (·.tokens)).foldl (· + ·) 0 +
  ((e.issued.filter fun g => g.task = t).map (·.tokens)).foldl (· + ·) 0

/-- Tokens of physical core `p` that the tasks dispatched on it use or have set aside (R387). -/
def inUse (s : State) (d p : Nat) : Nat :=
  ((s.dispatchedOf d).filter fun x => x.2.core = some p).foldl (fun n x =>
    n + (s.tokensOf d x.2.leave - s.askedFor x.1)) 0

/-- Tokens a core keeps beyond those its tasks use, released. -/
def releaseKept (s : State) (d p : Nat) : State :=
  let c := s.coreAt d p
  let need := s.inUse d p
  if c.held ≤ need then s
  else (s.setCoreAt d p { c with held := need }).releaseTokens d (c.held - need)

/-- LEAVE_HOLD_EXPIRY (R387): held tokens beyond the need of the tasks on the core are released. -/
def leaveHoldExpiry (s : State) (d p : Nat) : State := s.releaseKept d p

/-! ### Quench (R394 to R397) -/

/-- The causes of R394. -/
inductive QuenchCause where
  | rise | absolute | stack | module
  deriving DecidableEq, Repr

def QuenchCause.field : QuenchCause → Field
  | .rise => THM_STATUS_C_RISE
  | .absolute => THM_STATUS_C_ABS
  | .stack => THM_STATUS_C_STACK
  | .module => THM_STATUS_C_MODULE

def QuenchCause.code : QuenchCause → Nat
  | .rise => 0
  | .absolute => 1
  | .stack => 2
  | .module => 3

/-- Held tokens of every core of a die dropped. -/
def dropHeld (s : State) (d : Nat) : State :=
  (List.range 34).foldl (fun s p => s.setCoreAt d p { s.coreAt d p with held := 0 }) s

/-- The cut of a quench (R394): no grant stands, G is 0, a grant not yet in effect waits again (DEDUCED, assumption 17),
the light layer sees the cut as a release, the array runs at ÷10, and the quench is counted in its second (R396). -/
def quenchDie (s : State) (d : Nat) (cause : QuenchCause) (sensor : Nat) : State :=
  let s := s.setF cause.field d 0 1
  let q := s.quenchOf d
  let s := if cause = .module then s.setQuench d { q with clearSince := s.time } else s
  if s.flag THM_STATUS_QUENCHED d 0 then s
  else
    let g := s.granted d
    let e := s.engine d
    let s := s.setEngine d { e with
      issued := []
      waitq := e.waitq ++ (e.issued.filterMap fun x => (s.task? x.task).map fun t =>
        ⟨x.task, x.tokens, t.priority, t.crit, x.since, x.core⟩) }
    let s := (s.dropHeld d).setF PWR_LV_STATUS_GRANTED d 0 0
    let s := if g = 0 then s else s.notify d (-(g : Int)) s.time
    let s := s.setF BOOT_CLK_STATUS_ARRAY_HALF 0 0 (s.getF BOOT_CLK_STATUS_ARRAY_HALF 0 0 ||| 2 ^ d)
    let s := s.setF THM_STATUS_QUENCHED d 0 1
    let s := s.setF PWR_STATUS_QUENCHED 0 0 (s.getF PWR_STATUS_QUENCHED 0 0 ||| 2 ^ d)
    let n := (if (s.quenchOf d).second = s.time / 1000000000 then s.getF THM_STATUS_QCOUNT d 0 else 0) + 1
    let s := s.setQuench d { s.quenchOf d with since := s.time, second := s.time / 1000000000 }
    let s := s.setF THM_STATUS_QCOUNT d 0 (min n 255)
    let s := s.dieRecord 0x0D05 sevDegraded d 0
      [cause.code, sensor, s.getF THM_SENSOR_REF d sensor, s.getF THM_SENSOR_TEMP d sensor, g]
    let s := if s.getF THM_CFG_QMAX d 0 ≠ 0 ∧ s.getF THM_CFG_QMAX d 0 ≤ n ∧ !s.flag THM_STATUS_HELD d 0 then
        (s.setF THM_STATUS_HELD d 0 1).dieRecord 0x0D06 sevFailed d 0 [n]
      else s
    s.restate

/-- Every compute die quenched by a module cause. -/
def quenchAll (s : State) : State := (List.range 4).foldl (fun s d => s.quenchDie d .module 0) s

/-- A module cause is present (R394). -/
def moduleCause (s : State) : Bool :=
  s.flag PWR_STATUS_PFAIL 0 0 || !s.flag PWR_PINS_PWR_EN 0 0 ||
  decide (960 ≤ sgn16 (s.getF THM_COOLANT_OUTLET 0 0)) ||
  decide (s.getF PWR_CFG_IN_MAX_W 0 0 < s.getF PWR_IN_POWER 0 0)

/-- A module cause present until now: its absence counts from here (R395). -/
def markCause (s : State) : State :=
  if s.moduleCause then
    (List.range 4).foldl (fun s d => s.setQuench d { s.quenchOf d with clearSince := s.time }) s
  else s

/-- TMAX in force, above 110 taken as 110 (R400). -/
def tMax (s : State) (d : Nat) : Int := (min 110 (s.getF THM_CFG_TMAX d 0) : Nat) * 16

/-- Tokens of the die's running tasks. -/
def runningTokens (s : State) (d : Nat) : Nat :=
  ((s.dispatchedOf d).filter fun x => x.2.started).foldl (fun n x => n + s.tokensOf d x.2.leave) 0

/-- The conditions of R395, and that the tasks left running add no more than one ramp step. -/
def quenchCleared (s : State) (d : Nat) : Bool :=
  let q := s.quenchOf d
  decide (q.since + s.getF THM_CFG_QMIN_US d 0 * 1000 ≤ s.time) &&
  (List.range 64).all (fun i =>
    decide (sgn16 (s.getF THM_SENSOR_TEMP d i) - sgn16 (s.getF THM_SENSOR_REF d i) < 80) &&
    decide (sgn16 (s.getF THM_SENSOR_TEMP d i) ≤ s.tMax d - 80)) &&
  (List.range 3).all (fun j => decide (sgn16 (s.getF CRU_THERM_TEMP (3 * d + j) 0) < 1600)) &&
  !s.moduleCause && decide (q.clearSince + 1000000 ≤ s.time ∨ q.clearSince = 0) &&
  decide (s.runningTokens d ≤ s.ramp d)

/-- Tokens put back on the cores of the running tasks of a die. -/
def rehold (s : State) (d : Nat) : State :=
  ((s.dispatchedOf d).filter fun x => x.2.started).foldl (fun s x =>
    match x.2.core with
    | some p => s.setCoreAt d p { s.coreAt d p with held := (s.coreAt d p).held + s.tokensOf d x.2.leave }
    | none => s) s

/-- QUENCH_EXIT (R395). -/
def quenchExit (s : State) (d : Nat) : State :=
  if s.flag THM_STATUS_QUENCHED d 0 && !s.flag THM_STATUS_HELD d 0 && s.quenchCleared d then
    let g := s.runningTokens d
    let since := (s.quenchOf d).since
    let s := (s.notify d g (s.time + 40000)).rehold d
    let half := s.getF BOOT_CLK_STATUS_ARRAY_HALF 0 0
    let s := s.setF BOOT_CLK_STATUS_ARRAY_HALF 0 0 (half - (half &&& 2 ^ d))
    let s := [THM_STATUS_QUENCHED, THM_STATUS_C_RISE, THM_STATUS_C_ABS, THM_STATUS_C_STACK, THM_STATUS_C_MODULE].foldl
      (fun s f => s.setF f d 0 0) s
    let q := s.getF PWR_STATUS_QUENCHED 0 0
    let s := s.setF PWR_STATUS_QUENCHED 0 0 (q - (q &&& 2 ^ d))
    let e := s.engine d
    let s := (s.setEngine d { e with g0 := g }).setF PWR_LV_STATUS_GRANTED d 0 g
    (s.dieRecord 0x0D07 sevInfo d 0 [(s.time - since) / 1000]).restate
  else s

/-- RELEASE (R396): a hold ends; the die then resumes under R395. -/
def thmRelease (s : State) (d : Nat) : State := s.setF THM_STATUS_HELD d 0 0

/-- THM_CNT_CLR (R400). -/
def thmCntClr (s : State) (d : Nat) : State := s.setF PWR_LV_WAIT_COUNT d 0 0

/-! ### Sensors (R393) -/

/-- RISE_US in ns, below 100 taken as 100 (R400). -/
def riseNs (s : State) (d : Nat) : Nat := max 100 (s.getF THM_CFG_RISE_US d 0) * 1000

/-- The hottest sampled sensor: the lowest index of the highest sample. -/
def hottest (s : State) (d : Nat) : Nat :=
  (List.range 64).foldl (fun h i =>
    if (s.sensorOf d i).samples = [] then h
    else if (s.sensorOf d h).samples = [] ∨ sgn16 (s.getF THM_SENSOR_TEMP d h) < sgn16 (s.getF THM_SENSOR_TEMP d i)
      then i else h) 0

/-- A rise at or over the threshold at some sensor, RISE_C below 5 taken as 5 (R394, R400). -/
def riseAt (s : State) (d i : Nat) : Bool :=
  decide ((max 5 (s.getF THM_CFG_RISE_C d 0) : Nat) * 16 ≤
    sgn16 (s.getF THM_SENSOR_TEMP d i) - sgn16 (s.getF THM_SENSOR_REF d i))

def hotAt (s : State) (d i : Nat) : Bool := decide (s.tMax d ≤ sgn16 (s.getF THM_SENSOR_TEMP d i))

/-- SENSOR_SAMPLE (R393, R394): REF is the lowest sample of the last RISE_US, this one among them. -/
def sensorSample (s : State) (d i : Nat) (v : BitVec 16) : State :=
  if s.inReset d then s
  else
    let kept := ((s.sensorOf d i).samples.filter fun x => decide (s.time < x.1 + s.riseNs d))
    let samples := (s.time, v.toInt) :: kept
    let ref := kept.foldl (fun m x => min m x.2) v.toInt
    let s := s.setSensor d i ⟨samples⟩
    let s := (s.setF THM_SENSOR_TEMP d i v.toNat).setF THM_SENSOR_REF d i (BitVec.ofInt 16 ref).toNat
    let h := s.hottest d
    let s := (s.setF THM_STATUS_HOT d 0 h).setF THM_STATUS_TEMP_MAX d 0 (s.getF THM_SENSOR_TEMP d h)
    let s := s.setF THM_STATUS_C_RISE d 0 (if (List.range 64).any (s.riseAt d) then 1 else 0)
    let s := s.setF THM_STATUS_C_ABS d 0 (if (List.range 64).any (s.hotAt d) then 1 else 0)
    let s := s.offer d 0x06 i v.toInt s.time
    let s := if s.riseAt d i then s.quenchDie d .rise i else s
    if s.hotAt d i then s.quenchDie d .absolute i else s

/-! ### The 52 V input and the rails (R378 to R382) -/

/-- A rail's GOOD bit. -/
def railGood (s : State) (i : Nat) (v : Bool) : State := s.setF PWR_RAIL_GOOD 0 i (if v then 1 else 0)

/-- The rails taken down and the switch opened: OFF (R379, R380). -/
def goOff (s : State) : State :=
  let s := ((List.range 32).filter fun i => i ≠ 18).foldl (fun s i => s.railGood i false) s
  { s with input := { s.input with switchClosed := false, off := true, inrush := false, powerGood := false,
                                   holdUp := false } }

/-- The switch closes with limited inrush (R379). -/
def closeSwitch (s : State) (mv : Nat) : State :=
  if s.flag PWR_PINS_PWR_EN 0 0 && decide (44000 ≤ mv) && !s.input.switchClosed then
    { s with input := { s.input with switchClosed := true, inrush := true } }
  else s

/-- PWR_EN_ASSERT (R379). -/
def pwrEnAssert (s : State) (mv : Nat) : State := (s.setF PWR_PINS_PWR_EN 0 0 1).closeSwitch mv

/-- INPUT_RETURN (R379): PWR_EN held asserted. -/
def inputReturn (s : State) (mv : Nat) : State := s.closeSwitch mv

/-- INRUSH_DONE (R379, R445): STANDBY with PWR_GOOD, after a power-up that keeps nothing of the loss bits (R224). -/
def inrushDone (s : State) : State :=
  if !s.input.inrush then s
  else
    let s := (if s.input.orderly then s else s.countFailure).packageReset 0
    let s := (s.setF BOOT_CLK_STATUS_LOST 0 0 0).setF BOOT_CLK_STATUS_ROOT_LOST 0 0 0
    let s := [4, 19, 30, 31].foldl (fun s i => s.railGood i true) s
    { s with input := { s.input with inrush := false, off := false, powerGood := true, uvSaid := false, ovSaid := false } }

/-- PWR_EN_DEASSERT (R379): an orderly shutdown (R342). -/
def pwrEnDeassert (s : State) : State :=
  let s := ((s.setF PWR_PINS_PWR_EN 0 0 0).quenchAll).goOff
  { s with input := { s.input with orderly := true } }

/-- INPUT_OVERVOLTAGE (R378). -/
def inputOvervoltage (s : State) (mv : Nat) : State :=
  if 59000 < mv then (s.record { event := 0x0D02, sev := sevFailed, unit := unitModule, sub := 18,
                                 syn := Config.syndrome 0x0D02 [mv] }).goOff
  else s

/-- INPUT_VOLTAGE_WARNING (R378): once per excursion; the low warning is an alert. -/
def inputVoltageWarning (s : State) (mv : Nat) : State :=
  if 58000 ≤ mv ∧ mv ≤ 59000 then
    let said := s.input.ovSaid
    let s := { s with input := { s.input with ovSaid := true } }.setF PWR_STATUS_OV_WARN 0 0 1
    if said then s
    else s.record { event := 0x0D02, sev := sevDegraded, unit := unitModule, sub := 18,
                    syn := Config.syndrome 0x0D02 [mv] }
  else if mv < 44000 then
    let said := s.input.uvSaid
    let s := { s with input := { s.input with uvSaid := true } }.setF PWR_STATUS_UV_WARN 0 0 1
    if said then s
    else s.record { event := 0x0D01, sev := sevDegraded, unit := unitModule, sub := 18, alert := true,
                    syn := Config.syndrome 0x0D01 [mv] }
  else s

/-- INPUT_WARNING_CLEAR (R378): back in the operating range. -/
def inputWarningClear (s : State) (mv : Nat) : State :=
  if 46000 ≤ mv ∧ mv ≤ 58000 then
    ({ s with input := { s.input with uvSaid := false, ovSaid := false } }.setF PWR_STATUS_UV_WARN 0 0 0).setF
      PWR_STATUS_OV_WARN 0 0 0
  else s

/-- POWER_FAIL (R380). -/
def powerFail (s : State) (mv watts : Nat) : State :=
  if 40000 ≤ mv ∨ s.input.off then s
  else
    let s := { s with input := { s.input with powerGood := false, holdUp := true } }.setF PWR_STATUS_PFAIL 0 0 1
    s.quenchAll.record { event := 0x0D03, sev := sevFailed, unit := unitModule, sub := 18, alert := true,
                         syn := Config.syndrome 0x0D03 [mv, watts] }

/-- HOLD_UP_END (R380). -/
def holdUpEnd (s : State) : State := if s.input.holdUp then s.goOff else s

/-- The rails of a bring-up phase (R382). -/
def phaseRails (p : Nat) : List Nat :=
  match p with
  | 1 => (List.range 12).map (· + 6) ++ [24, 25]
  | 2 => [0, 1, 2, 3, 20, 21, 22, 23, 26]
  | 3 => [5, 27, 28]
  | 4 => [29]
  | _ => []

/-- The record of a rail fault or of a bring-up phase over its bound (R382, R399). -/
def railRecord (s : State) (rail volt curr : Nat) : State :=
  (s.setF PWR_STATUS_RAIL_FAULT 0 0 1).record
    { event := 0x0D0A, sev := sevFailed, unit := unitOf 4 6, sub := rail, syn := Config.syndrome 0x0D0A [rail, volt, curr] }

/-- RAIL_PHASE_END (R382): the next phase begins, or start-up stops. At the end of phase 4 present cartridges warm up. -/
def railPhaseEnd (s : State) (ok : Bool) : State :=
  let p := s.input.railPhase
  if p = 0 ∨ 4 < p ∨ s.input.railStopped then s
  else if ok then
    let s := (phaseRails p).foldl (fun s i => s.railGood i true) s
    let s := { s with input := { s.input with railPhase := p + 1 } }
    if p = 4 then [0, 1, 2].foldl (fun s i =>
      if s.flag LC_STATUS_PRESENT 0 i && s.flag LC_STATUS_LATCH 0 i then s.setF LC_STATUS_STATE 0 i 1 else s) s
    else s
  else
    { s with input := { s.input with railStopped := true } }.railRecord
      ((phaseRails p).head?.getD 0) 0 0

/-- The reset domains a rail supplies (R381). -/
def railDomains (r : Nat) : List Nat :=
  if r < 4 then [r] else if r = 4 then [4] else if r = 5 ∨ r = 27 ∨ r = 28 then [5]
  else if 6 ≤ r ∧ r < 18 then [r] else if 20 ≤ r ∧ r < 24 then [r - 20]
  else if r = 24 ∨ r = 25 then (List.range 12).map (· + 6)
  else if r = 26 then List.range 18
  else []

/-- RAIL_FAULT (R382): rails 19 and 30 take the module to OFF; any other holds its domains in reset, and holding the hub
resets the package (R225). -/
def railFault (s : State) (r volt curr : Nat) : State :=
  if r = 18 then s
  else
    let s := s.railGood r false
    let s := (s.setF PWR_RAIL_VOLT 0 r volt).setF PWR_RAIL_CURR 0 r curr
    let s := s.railRecord r volt curr
    if r = 19 ∨ r = 30 then s.goOff
    else if (railDomains r).contains 4 then
      let cause := s.getF BOOT_RST_STATUS_CAUSE 0 0
      let t := s.packageReset cause
      { t with input := { t.input with railStopped := true } }
    else (railDomains r).foldl (fun s i => s.domainHold i) s

/-! ### The package budget (R390 to R392, R474) -/

/-- Watts of a set of rails. -/
def railWatts (rd : List RailReading) (l : List Nat) : Nat :=
  l.foldl (fun n i => n + (rd.map (·.power.toNat)).getD i 0) 0

/-- p_loss: input power minus the other rails but the intermediate bus (R474). -/
def lossWatts (rd : List RailReading) : Int :=
  (railWatts rd [18] : Int) - railWatts rd ((List.range 18) ++ ((List.range 12).map (· + 20)))

/-- avail of R390 in W. -/
def availWatts (s : State) (rd : List RailReading) : Int :=
  (min 4000 (s.getF PWR_CFG_P_LIM_W 0 0) : Nat) -
  ((railWatts rd ((List.range 12).map (· + 6) ++ [24, 25]) + railWatts rd [4, 26, 30, 31] + railWatts rd [5, 27, 28] +
    railWatts rd [29] : Nat) + lossWatts rd) - s.getF PWR_CFG_MARGIN_W 0 0

/-- Tokens of the die's waiting requests. -/
def queuedTokens (s : State) (d : Nat) : Nat := (s.engine d).waitq.foldl (fun n r => n + r.tokens) 0

/-- A stack of the die is at its 95 °C cap (R391). -/
def stackCapped (s : State) (d : Nat) : Bool :=
  (List.range 3).any fun j => decide (2 ≤ s.getF CRU_THERM_STATE (3 * d + j) 0)

/-- g_i of R390 in quarter watts. -/
def quarterG (s : State) (d : Nat) : Nat := 4 * s.getF PWR_LV_CFG_FLOOR_W d 0 + s.granted d

/-- u_i of R390 in quarter watts: never below 0, since a budget is never below what is granted; 0 for a capped die. -/
def quarterU (s : State) (d : Nat) : Nat :=
  if s.stackCapped d then 0
  else min (min (s.quarterG d + s.queuedTokens d) (4 * min 1000 (s.getF PWR_CFG_DIE_CAP_W 0 0)))
    (s.quarterG d + s.ramp d) - s.quarterG d

/-- budget_i of R390 in tokens. -/
def budgetOf (s : State) (avail : Int) (d : Nat) : Nat :=
  let sumG := (List.range 4).foldl (fun n i => n + s.quarterG i) 0
  let sumU := (List.range 4).foldl (fun n i => n + s.quarterU i) 0
  let r4 : Int := 4 * avail - sumG
  let add := if 0 < r4 ∧ 0 < sumU then min (s.quarterU d) (4 * (r4.toNat * s.quarterU d / (4 * sumU))) else 0
  s.granted d + add

/-- The budget, ramp base and power registers of one die at a period start. -/
def dieBudget (s : State) (rd : List RailReading) (b : Nat) (d : Nat) : State :=
  let floor := s.getF PWR_LV_CFG_FLOOR_W d 0
  let w := railWatts rd [d, 20 + d]
  let q := s.queuedTokens d
  let s := (s.setF PWR_LV_STATUS_BUDGET d 0 b).setF PWR_LV_STATUS_RAMPED d 0 0
  let e := s.engine d
  let s := s.setEngine d { e with g0 := s.granted d }
  let s := s.setF PWR_BUDGET_BUDGET_W 0 d (floor + b / 4)
  let s := s.setF PWR_BUDGET_GRANTED_W 0 d (floor + s.granted d / 4)
  let s := s.setF PWR_BUDGET_MEASURED_W 0 d w
  let s := s.setF PWR_BUDGET_DEMAND_W 0 d (floor + (s.granted d + q) / 4)
  let s := s.offer d 0x07 0 w s.time
  if 4 * (floor + 50) + s.granted d < 4 * w then
    s.record { event := 0x0D08, sev := sevInfo, unit := unitOf d 0, syn := Config.syndrome 0x0D08 [w, floor + s.granted d / 4] }
  else s

/-- A rail's registers from its reading. -/
def railRead (s : State) (rd : List RailReading) (i : Nat) : State :=
  match rd[i]? with
  | some x => ((((s.setF PWR_RAIL_VOLT 0 i x.volt.toNat).setF PWR_RAIL_CURR 0 i x.curr.toNat).setF PWR_RAIL_POWER 0 i
      x.power.toNat).railGood i x.good)
  | none => s

/-- BUDGET_PERIOD (R390). -/
def budgetPeriod (s : State) (rd : List RailReading) : State :=
  let s := (List.range 32).foldl (fun s i => s.railRead rd i) s.markCause
  let s := match rd[18]? with
    | some x => ((s.setF PWR_IN_VOLT 0 0 x.volt.toNat).setF PWR_IN_CURR 0 0 x.curr.toNat).setF PWR_IN_POWER 0 0 x.power.toNat
    | none => s
  let s := s.setF PWR_OTHER_STACKS_W 0 0 (railWatts rd ((List.range 12).map (· + 6) ++ [24, 25]))
  let s := s.setF PWR_OTHER_LL_W 0 0 (railWatts rd [5, 27, 28])
  let s := s.setF PWR_OTHER_LASER_W 0 0 (railWatts rd [29])
  let s := s.setF PWR_OTHER_HUB_W 0 0 (railWatts rd [4, 26, 30, 31])
  let s := s.setF PWR_OTHER_LOSS_W 0 0 (lossWatts rd).toNat
  let bs := (List.range 4).map (s.budgetOf (s.availWatts rd))
  (List.range 4).foldl (fun s d => if s.inReset d then s else s.dieBudget rd (bs.getD d 0) d) s

/-- INPUT_OVERPOWER (R392). -/
def inputOverpower (s : State) (watts : Nat) : State :=
  if s.getF PWR_CFG_IN_MAX_W 0 0 < watts then
    (s.quenchAll.setF PWR_STATUS_OVERPOWER 0 0 1).record
      { event := 0x0D04, sev := sevDegraded, unit := unitModule, sub := 18, syn := Config.syndrome 0x0D04 [watts] }
  else s

/-- The coolant readings and their difference (R401, R467). -/
def coolant (s : State) (inlet outlet : BitVec 16) : State :=
  ((s.markCause.setF THM_COOLANT_INLET 0 0 inlet.toNat).setF THM_COOLANT_OUTLET 0 0 outlet.toNat).setF THM_PLATE_RISE 0 0
    (outlet - inlet).toNat

/-- COOLANT_INLET_HIGH (R398). -/
def coolantInletHigh (s : State) (inlet outlet : BitVec 16) : State :=
  let s := s.coolant inlet outlet
  if 640 < inlet.toInt then
    s.record { event := 0x0D09, sev := sevDegraded, unit := unitModule, alert := true,
               syn := Config.syndrome 0x0D09 [inlet.toNat, outlet.toNat] }
  else s

/-- COOLANT_OUTLET_HIGH (R394). -/
def coolantOutletHigh (s : State) (inlet outlet : BitVec 16) : State :=
  let s := s.coolant inlet outlet
  if 960 ≤ outlet.toInt then s.quenchAll else s

end State

def execPwrEnAssert (mv : Nat) (s : State) := commit s (s.pwrEnAssert mv)
def execInrushDone (s : State) := commit s s.inrushDone
def execPwrEnDeassert (s : State) := commit s s.pwrEnDeassert
def execInputOvervoltage (mv : Nat) (s : State) := commit s (s.inputOvervoltage mv)
def execInputVoltageWarning (mv : Nat) (s : State) := commit s (s.inputVoltageWarning mv)
def execInputWarningClear (mv : Nat) (s : State) := commit s (s.inputWarningClear mv)
def execPowerFail (mv watts : Nat) (s : State) := commit s (s.powerFail mv watts)
def execRailPhaseEnd (ok : Bool) (s : State) := commit s (s.railPhaseEnd ok)
def execRailFault (rail : Fin 32) (volt curr : Nat) (s : State) := commit s (s.railFault rail volt curr)
def execBudgetPeriod (rd : List RailReading) (s : State) := commit s (s.budgetPeriod rd)
def execLeaveGrant (d : Fin 4) (s : State) := commit s (s.leaveGrant d)
def execGrantTakesEffect (t : TaskId) (s : State) := commit s (s.grantTakesEffect t)
def execBackfillExpiry (d : Fin 4) (s : State) := commit s (s.backfillExpiry d)
def execLeaveHoldExpiry (d : Fin 4) (c : Fin 34) (s : State) := commit s (s.leaveHoldExpiry d c)
def execInputOverpower (watts : Nat) (s : State) := commit s (s.inputOverpower watts)
def execSensorSample (d : Fin 4) (i : Fin 64) (v : BitVec 16) (s : State) := commit s (s.sensorSample d i v)
def execQuenchExit (d : Fin 4) (s : State) := commit s (s.quenchExit d)
def execRelease (r : Requester) (d : Fin 4) (s : State) := commit s (s.atReg r (dieReg d 0xD00110) (s.thmRelease d))
def execThmCntClr (r : Requester) (d : Fin 4) (s : State) := commit s (s.atReg r (dieReg d 0xD00110) (s.thmCntClr d))
def execCoolantInletHigh (inlet outlet : BitVec 16) (s : State) := commit s (s.coolantInletHigh inlet outlet)
def execInputReturn (mv : Nat) (s : State) := commit s (s.inputReturn mv)
def execHoldUpEnd (s : State) := commit s s.holdUpEnd
def execCoolantOutletHigh (inlet outlet : BitVec 16) (s : State) := commit s (s.coolantOutletHigh inlet outlet)

end Sys2Proof.Machine
end

