-- ==== Sys2Proof/Machine/Hub.lean ====
section
/-! DEFINITION. The hub: interrupt controller (R406 to R409), Forge windows (R405), PCIe and NVMe (R412, R413), the
management links (R414 to R417), device time (R418 to R421), monitor windows (R423) and the debug port (R424 to R427). -/

namespace Sys2Proof.Machine

/-- A running monitor window cut short by a step (R423). -/
def MonSt.cut (m : MonSt) (now : Nat) : MonSt :=
  let n := now / winNs m.cfg
  if MON_CFG_EN.get m.cfg ≠ 1 then m
  else if n % 2 = 0 then { m with even := { m.even with window := some n, stepped := true } }
  else { m with odd := { m.odd with window := some n, stepped := true } }

/-- A signed 32-bit value, saturating (TIME_STATUS.OFFSET). -/
def sat32 (i : Int) : Nat := (BitVec.ofInt 32 (max (-2147483648) (min 2147483647 i))).toNat

namespace State

/-! ### Interrupt controller -/

/-- Sources that target a core, pending, unmasked and not in service (R407). -/
def claimable (s : State) (c i : Nat) : Bool :=
  decide (s.getF HIC_TARGET_CORE 0 i = c) && (s.getR ⟨.HIC_PEND, 0, i / 64⟩).getLsbD (i % 64) &&
  (s.getR ⟨.HIC_MASK, 0, i / 64⟩).getLsbD (i % 64) && !Tab.getN false s.inService i

/-- The highest priority first, then the lowest number (R407). -/
def bestSource (s : State) (c : Nat) : Option Nat :=
  (List.range 1152).foldl (fun b i =>
    if s.claimable c i then
      match b with
      | some j => if s.getF HIC_TARGET_PRIO 0 j < s.getF HIC_TARGET_PRIO 0 i then some i else b
      | none => some i
    else b) none

/-- HIC_CLAIM (R407): the controller delivers nothing while HIC_CTRL.EN is 0 (DEDUCED, assumption 18). -/
def hicClaim (s : State) (c : Nat) : State :=
  match (if s.flag HIC_CTRL_EN 0 0 then s.bestSource c else none) with
  | some i =>
    let p := s.getR ⟨.HIC_PEND, 0, i / 64⟩
    let s := s.putR ⟨.HIC_PEND, 0, i / 64⟩ (p &&& ~~~(1#64 <<< (i % 64)))
    { s with inService := Tab.putN false s.inService i true, readData := (1#64 <<< 63) ||| BitVec.ofNat 64 i }
  | none => { s with readData := 0 }

/-- HIC_COMPLETE (R408). -/
def hicComplete (s : State) (c i : Nat) : State :=
  let s := if Tab.getN false s.inService i && decide (s.getF HIC_TARGET_CORE 0 i = c) then
      { s with inService := Tab.putN false s.inService i false } else s
  s.resample c

/-! ### Forge cores -/

/-- AGENT_MASK_LOCK (R403). -/
def agentMaskLock (s : State) : State := s.setF HIC_FORGE_CFG_LOCK 0 0 1

/-- FORGE_WINDOW (R404, R405): the cycles by class, overload after 3 consecutive overloaded windows, its end after 100
without one. -/
def forgeWindow (s : State) (cycles : List Nat) (overloaded paceLost : Bool) : State :=
  let s := (List.range 5).foldl (fun s k => s.setF HIC_FORGE_CYC_COUNT 0 k (cycles.getD k 0)) s
  let h := s.hub
  let s := if overloaded then
      { s with hub := { h with overRun := h.overRun + 1, clearRun := 0 } }.addF HIC_FORGE_STATUS_WINDOWS_OVER 0 0 1
    else { s with hub := { h with overRun := 0, clearRun := h.clearRun + 1 } }
  let on := s.flag HIC_FORGE_STATUS_OVERLOAD 0 0
  let s := if !on && decide (3 ≤ s.hub.overRun) then
      ((s.setF HIC_FORGE_STATUS_OVERLOAD 0 0 1).setF ING_STATUS_PACED 0 0 1).hubRecord 0x0E01 sevDegraded 8 0 []
    else if on && decide (100 ≤ s.hub.clearRun) then
      ((s.setF HIC_FORGE_STATUS_OVERLOAD 0 0 0).setF ING_STATUS_PACED 0 0 0).hubRecord 0x0E02 sevInfo 8 0 []
    else s
  if paceLost && s.flag HIC_FORGE_STATUS_OVERLOAD 0 0 then s.hubRecord 0x0E03 sevDegraded 8 0 [] true else s

/-! ### PCIe and NVMe -/

/-- The Forge region (R402). -/
def inForgeRegion (a n : Nat) : Bool := decide (0x0BC10000000 ≤ a ∧ a + n ≤ 0x0C000000000)

/-- The ING_T2 ring: slots of 0x21_0000 bytes from BASE (R351). -/
def inT2Ring (s : State) (a n : Nat) : Bool :=
  let base := s.getF ING_T2_BASE 0 0 * 0x200000
  s.flag ING_T2_VALID 0 0 && decide (base ≤ a ∧ a + n ≤ base + (s.getF ING_T2_SLOTS_M1 0 0 + 1) * 0x210000)

/-- DMA_REQUEST (R412). -/
def dmaRequest (s : State) (p : Nat) (write : Bool) (a : Nat) (data : List Byte) : State :=
  if inForgeRegion a data.length || s.inT2Ring a data.length then
    if write then s.storeAll a data none
    else { s with readBytes := s.readBytesAt a data.length,
                  readPoison := (List.range data.length).map fun i => s.readBad (a + i) }
  else
    (s.addF HIC_PCIE_STATUS_DMA_BLOCKED 0 p 1).hubRecord 0x0E08 sevInfo 8 p [p, a]

/-- DRIVE_FAIL (R413). -/
def driveFail (s : State) (p : Nat) : State :=
  let s := s.setF HIC_PCIE_STATUS_FAILED 0 p 1
  let both := s.flag HIC_PCIE_STATUS_FAILED 0 0 && s.flag HIC_PCIE_STATUS_FAILED 0 1
  let s := { s with tier2Lost := true, tier2Stopped := s.tier2Stopped || both }
  (s.hubRecord 0x0E09 (if both then sevFailed else sevDegraded) 8 p [p]).pulse 4 19

/-- PCIE_LINK_CHANGE (R412): down, or trained to a lower rate or width, is recorded. -/
def pcieLinkChange (s : State) (p : Nat) (up : Bool) (rate width : Nat) : State :=
  let lower := !up || (s.flag HIC_PCIE_STATUS_UP 0 p &&
    (decide (rate < s.getF HIC_PCIE_STATUS_RATE 0 p) || decide (width < s.getF HIC_PCIE_STATUS_WIDTH 0 p)))
  let s := s.setF HIC_PCIE_STATUS_UP 0 p (if up then 1 else 0)
  let s := if up then
      ((s.setF HIC_PCIE_STATUS_RATE 0 p rate).setF HIC_PCIE_STATUS_WIDTH 0 p width).setF HIC_PCIE_STATUS_PRESENT 0 p 1
    else s
  (if lower then s.hubRecord 0x0E08 sevDegraded 8 p [p] else s).pulse 4 19

/-! ### Management links -/

/-- MANAGEMENT_LINK_CHANGE (R414). -/
def managementLinkChange (s : State) (up : Bool) (fec : Nat) : State :=
  ((s.setF HIC_MGMT_STATUS_LINK 0 0 (if up then 1 else 0)).setF HIC_MGMT_STATUS_FEC 0 0 (if up then fec else 0)).pulse 4 18

/-- COLLECTOR_UNREACHABLE (R415). -/
def collectorUnreachable (s : State) : State :=
  if s.flag HIC_MGMT_STATUS_STREAM 0 0 then
    (s.setF HIC_MGMT_STATUS_STREAM 0 0 0).hubRecord 0x0E0A sevDegraded 8 0 []
  else s

/-- COLLECTOR_RECONNECT (R415): the spool goes out oldest first. -/
def collectorReconnect (s : State) : State :=
  let dropped := s.elog.spoolDropped
  let s := { s with elog := { s.elog with stream := s.elog.stream ++ s.elog.spool, spool := [], spoolDropped := false } }
  let s := (s.setF HIC_MGMT_STATUS_STREAM 0 0 1).setF HIC_MGMT_STATUS_SPOOL 0 0 0
  if dropped then s.hubRecord 0x0E0B sevDegraded 8 0 [] else s

/-- TRANSIT (R270, R416): the agent writes TRANSIT_PCT for the operator. -/
def transit (s : State) (authorised : Bool) (pct : Nat) : State :=
  if authorised then s.setF PORT_MOD_JOB_TRANSIT_PCT 0 0 pct else s

/-- PERMIT (R276, R416). -/
def permit (s : State) (authorised : Bool) (entries : List (Nat × Word)) : State :=
  if authorised then entries.foldl (fun s e =>
    if e.1 < 64 then
      (s.setF PORT_MOD_PERMIT_VALID 0 e.1 (e.2.bits 63 63)).setF PORT_MOD_PERMIT_JOB 0 e.1 (e.2.bits 15 0)
    else s) s
  else s

/-- SERVICE_ENTER (R383): from READY, with no job. -/
def serviceEnter (s : State) (authorised : Bool) : State :=
  if authorised && decide (s.getF PWR_STATUS_STATE 0 0 = 2) && decide (s.getF PORT_MOD_JOB_JOB 0 0 = 0) then
    s.setF PWR_STATUS_STATE 0 0 5
  else s

/-- SERVICE_LEAVE (R383). -/
def serviceLeave (s : State) (authorised : Bool) : State :=
  if authorised && decide (s.getF PWR_STATUS_STATE 0 0 = 5) then (s.setF PWR_STATUS_STATE 0 0 2).restate else s

/-- What the module answers on a management link. -/
def answer (s : State) (r : Reply) : State := { s with hub := { s.hub with reply := r } }

/-- The debug nonce in force (R425). -/
def nonce (s : State) : BitVec 128 :=
  ((s.getR ⟨.DBG_NONCE1, 0, 0⟩).setWidth 128 <<< 64) ||| (s.getR ⟨.DBG_NONCE0, 0, 0⟩).setWidth 128

/-- DEBUG_NONCE (R416). -/
def debugNonce (s : State) (authorised : Bool) : State := if authorised then s.answer (.nonce s.nonce) else s

/-- MCTP_CONTROL (R417). -/
def mctpControl (s : State) (request : List Byte) : State := (s.answer (.mctp request)).pulse 4 20

/-- The hottest compute-die sample (R417). -/
def hottestDie (s : State) : Nat :=
  (List.range 4).foldl (fun h d =>
    if sgn16 h < sgn16 (s.getF THM_STATUS_TEMP_MAX d 0) then s.getF THM_STATUS_TEMP_MAX d 0 else h)
    (s.getF THM_STATUS_TEMP_MAX 0 0)

/-- PLDM_MONITORING (R417). -/
def pldmMonitoring (s : State) : State :=
  (s.answer (.pldm (s.getF PWR_IN_VOLT 0 0) (s.getF PWR_IN_CURR 0 0) (s.getF PWR_IN_POWER 0 0)
    (s.getF THM_COOLANT_INLET 0 0) (s.getF THM_COOLANT_OUTLET 0 0) s.hottestDie (s.getF PWR_STATUS_STATE 0 0))).pulse 4 20

/-- SPDM_REQUEST (R440): the measured state of the table's indices 2, 3 (the image that runs, 2 for
none yet), 4, 5, 9 and 10. -/
def spdmRequest (s : State) (k : SpdmKind) : State :=
  let m := [s.getR ⟨.BOOT_SLOT, 0, 0⟩, BitVec.ofNat 64 (s.boot.osSlot.getD 2), s.getR ⟨.PROF_STATUS, 0, 0⟩,
    s.getR ⟨.BOOT_CTR, 0, 0⟩, s.getR ⟨.BOOT_CTR, 0, 1⟩, s.getR ⟨.BOOT_CTR, 0, 2⟩, s.getR ⟨.BOOT_CTR, 0, 3⟩, s.getR ⟨.DBG_STATUS, 0, 0⟩]
  (s.answer (.spdm k (s.getR ⟨.PORT_MOD_ID, 0, 0⟩) (if k = .measurements then m else []))).pulse 4 20

/-! ### Device time -/

/-- Device time moved once (R419, R421). -/
def stepTime (s : State) (now : Nat) : State :=
  let old := s.time
  let s := { s with time := now, frac := 0, mons := s.mons.map fun (e : Nat × MonSt) => (e.1, e.2.cut old) }
  (s.setF TIME_STATUS_STEPPED 0 0 1).hubRecord 0x0E06 sevInfo 9 0 [old, now]

/-- An accepted edge (R419): below 1 ms slewed and the rate trimmed (its value is open: a free value), else stepped, the
edge then standing at its expected time. -/
def ppsAccept (s : State) (stamp : Nat) : State :=
  let expected := if s.flag TIME_CFG_SET_VALID 0 0 then s.getF TIME_SET_NEXT_NS 0 0
    else (stamp + 500000000) / 1000000000 * 1000000000
  let off : Int := (stamp : Int) - expected
  let stepped := decide (1000000 ≤ off.natAbs)
  let s := { s with clock := { s.clock with first := false, lastAt := if stepped then expected else stamp } }
  let s := (s.setF TIME_CFG_SET_VALID 0 0 0).setF TIME_PPS_LAST_NS 0 0 stamp
  let s := (s.setF TIME_STATUS_OFFSET 0 0 (sat32 off)).setF TIME_STATUS_HOLDOVER 0 0 0
  let s := s.setF TIME_STATUS_LOCKED 0 0 (if off.natAbs < 1000 then 1 else 0)
  let s := s.offer 4 0x0C 0 off stamp
  if off.natAbs < 1000000 then
    let x := s.draw
    { x.2 with clock := { x.2.clock with slew := -off * 65536 } }.setF TIME_STATUS_RATE 0 0 (x.1.toNat % 65536)
  else s.stepTime (s.time + expected - stamp)

/-- PPS_EDGE (R419, R420). -/
def ppsEdge (s : State) (stamp : Nat) : State :=
  if !s.flag TIME_CFG_PPS_EN 0 0 then s
  else if s.clock.first || decide (s.clock.lastAt + 900000000 ≤ stamp ∧ stamp ≤ s.clock.lastAt + 1100000000) then
    s.ppsAccept stamp
  else
    let sec := s.time / 1000000000
    let said := s.clock.spurious = some sec
    let s := { s with clock := { s.clock with
      spurious := some sec, rejected := s.clock.rejected + 1 } }.setF TIME_STATUS_SPURIOUS 0 0 1
    if said then s else s.hubRecord 0x0E07 sevInfo 9 0 [stamp]

/-- PPS_HOLDOVER (R420): the next edge is treated as a first edge; entering pulses the time source (R411). -/
def ppsHoldover (s : State) : State :=
  if s.flag TIME_STATUS_HOLDOVER 0 0 then s
  else
    let s := { s with clock := { s.clock with first := true } }
    (((s.setF TIME_STATUS_HOLDOVER 0 0 1).setF TIME_STATUS_LOCKED 0 0 0).hubRecord 0x0E05 sevDegraded 9 0 []).pulse 4 16

/-- SET_IMMEDIATE (R419): ignored while PPS_EN is 1. -/
def setImmediate (s : State) : State :=
  if s.flag TIME_CFG_PPS_EN 0 0 then s else s.stepTime (s.getF TIME_SET_NEXT_NS 0 0)

/-- SET_VALID (R419). -/
def setValid (s : State) : State := s.setF TIME_CFG_SET_VALID 0 0 1

/-- PPS_OUT_PULSE (R420): high for the first 100 ms of each second of device time. -/
def ppsOutPulse (s : State) : State :=
  { s with clock := { s.clock with
    ppsOut := s.flag TIME_CFG_PPS_OUT_EN 0 0 && decide (s.time % 1000000000 < 100000000) } }

/-! ### Monitors -/

/-- The snapshot of window `n` put into a monitor's registers (R423), with READY, SEQ and OVERRUN as in R83. -/
def monSnap (s : State) (die m n : Nat) (b : MonBank) : State :=
  let s := if s.flag MON_STATUS_READY die m then s.setF MON_STATUS_OVERRUN die m 1 else s
  let s := (s.wrapF MON_STATUS_SEQ die m).setF MON_STATUS_READY die m 1
  let s := (s.setF MON_STATUS_WINDOW die m n).setF MON_STATUS_STEPPED die m (if b.stepped then 1 else 0)
  let s := s.setF MON_RANGE_MAX die m (BitVec.ofInt 32 b.hi).toNat
  let s := s.setF MON_RANGE_MIN die m (BitVec.ofInt 32 b.lo).toNat
  let s := s.putR ⟨.MON_COUNT, die, m⟩ (BitVec.ofNat 64 (min b.count (2 ^ 32 - 1)))
  (List.range 32).foldl (fun s i => s.setF MON_BIN_COUNT die (32 * m + i) (Tab.getN 0 b.bins i)) s

/-- MONITOR_WINDOW_END (R423): the bank of two windows back becomes the snapshot; settings apply from here on. -/
def monitorWindowEnd (s : State) (die m : Nat) : State :=
  let x := s.mon die m
  let cur := s.time / winNs x.cfg
  let old := if cur % 2 = 0 then x.even else x.odd
  let n := old.window.getD (cur - 2)
  let y : MonSt := { x with cfg := s.getR ⟨.MON_CFG, die, m⟩, scale := s.getR ⟨.MON_SCALE, die, m⟩ }
  if MON_CFG_EN.get x.cfg = 1 ∧ 2 ≤ cur ∧ n < cur then
    let y := if cur % 2 = 0 then { y with even := {} } else { y with odd := {} }
    { s with mons := Tab.putN {} s.mons (die * 64 + m) { y with late := 0, snapped := some n } }.monSnap die m n old
  else { s with mons := Tab.putN {} s.mons (die * 64 + m) y }

/-! ### Debug port -/

/-- Debug mode changed, recorded (R426). -/
def setDebugMode (s : State) (on : Bool) : State :=
  if s.flag DBG_STATUS_DEBUG_MODE 0 0 = on then s
  else (s.setF DBG_STATUS_DEBUG_MODE 0 0 (if on then 1 else 0)).hubRecord 0x0E0E sevInfo 10 0 [if on then 1 else 0]

/-- The nonce renewed (R425). -/
def renewNonce (s : State) : State :=
  let n := s.hub.nonces + 1
  let s := { s with hub := { s.hub with nonces := n } }
  (s.putR ⟨.DBG_NONCE0, 0, 0⟩ ((Config.nonce n).setWidth 64)).putR ⟨.DBG_NONCE1, 0, 0⟩ ((Config.nonce n >>> 64).setWidth 64)

/-- Is a token good (R425)? -/
def tokenGood (s : State) (t : Token) : Bool :=
  t.formOk && t.signatureOk && s.boot.owner.any (·.debugKey) && t.identity == s.getR ⟨.PORT_MOD_ID, 0, 0⟩ &&
  t.nonce == s.nonce

/-- An unlock attempt, by DBG_UNLOCK or DEBUG_TOKEN (R425). -/
def unlock (s : State) (t : Token) : State :=
  let ok := s.tokenGood t
  let s := s.renewNonce
  if ok then
    let s := s.hubRecord 0x0E0C sevInfo 10 0 [t.scope.toNat]
    if s.flag DBG_STATUS_SERVICE 0 0 then s
    else
      let s := (s.setF DBG_STATUS_UNLOCKED 0 0 1).setF DBG_STATUS_SCOPE 0 0 t.scope.toNat
      let s := s.setF DBG_STATUS_REMAIN_S 0 0 t.lifetime.toNat
      { s with hub := { s.hub with unlockEnd := s.time + t.lifetime.toNat * 1000000000 } }.setDebugMode
        (t.scope.getLsbD 3)
  else s.hubRecord 0x0E0D sevInfo 10 0 []

/-- DEBUG_TOKEN (R416, R425). -/
def debugToken (s : State) (authorised : Bool) (t : Token) : State := if authorised then s.unlock t else s

/-- The unlock in force ends (R425); profile D unlocks without one (DEDUCED, assumption 19). -/
def endUnlock (s : State) : State :=
  if s.flag DBG_STATUS_UNLOCKED 0 0 && !s.flag DBG_STATUS_SERVICE 0 0 then
    (((s.setF DBG_STATUS_UNLOCKED 0 0 0).setF DBG_STATUS_SCOPE 0 0 0).setF DBG_STATUS_REMAIN_S 0 0 0).setDebugMode false
  else s

/-- A scope bit of the unlock in force. -/
def hasScope (s : State) (i : Nat) : Bool :=
  s.flag DBG_STATUS_UNLOCKED 0 0 && (s.getF DBG_STATUS_SCOPE 0 0).testBit i

/-- LOCK (R425, R429): unit 10 takes DBG_CTRL from DEBUG while unlocked, and from AGENT. -/
def lock (s : State) (r : Requester) : State :=
  if s.isAgent r || (decide (r = .debug) && s.flag DBG_STATUS_UNLOCKED 0 0) then s.endUnlock
  else s.refuseWrite (hubReg 10 0) 1

/-- A TAP instruction in the instruction register (R424). -/
def tap (s : State) (code : Nat) (r : Reply) : State := { s with hub := { s.hub with ir := code, reply := r } }

/-- DBG_STATUS read, with the seconds of lifetime left. -/
def dbgStatusWord (s : State) : Word :=
  let w := s.getR ⟨.DBG_STATUS, 0, 0⟩
  if s.flag DBG_STATUS_UNLOCKED 0 0 && !s.flag DBG_STATUS_SERVICE 0 0 then
    DBG_STATUS_REMAIN_S.set w ((s.hub.unlockEnd - s.time) / 1000000000)
  else w

def idcode (s : State) : State := s.tap 0x01 (.word 0x1D740A5B)
def dbgNonce (s : State) : State := s.tap 0x10 (.nonce s.nonce)
def dbgUnlock (s : State) (t : Token) : State := (s.tap 0x11 .none).unlock t
def dbgStatus (s : State) : State := s.tap 0x13 (.word s.dbgStatusWord)

/-- BYPASS: the data through one bit, which is 0 at capture (IEEE 1149.1). -/
def bypass (s : State) (bits : List Bool) : State := s.tap 0xFF (.bits ((false :: bits).take bits.length))

/-- DBG_TRST_N resets the TAP only (R424). -/
def dbgTrstN (s : State) : State := { s with hub := { s.hub with ir := 0x01 } }

/-- HALTED once no task runs on a halted engine (R427). -/
def checkHalted (s : State) (d : Nat) : State :=
  if s.flag DBG_GE_CTRL_HALT 0 d && !(s.engine d).stepping && (s.dispatchedOf d).isEmpty then
    s.setF DBG_GE_CTRL_HALTED 0 d 1
  else s

/-- The address of DBG_GE_CTRL[d]. -/
def dbgGeAddr (d : Nat) : Nat := hubReg 10 (0x100 + 8 * d)

/-- DBG_GE_CTRL takes writes from DEBUG while unlocked for graph-engine control only (R425, R429). -/
def dbgGe (s : State) (r : Requester) (d : Nat) (v : Word) (t : State) : State :=
  if r = .debug ∧ s.hasScope 2 then t else s.refuseWrite (dbgGeAddr d) v

/-- HALT (R427). -/
def halt (s : State) (d : Nat) (on : Bool) : State :=
  let s := s.setF DBG_GE_CTRL_HALT 0 d (if on then 1 else 0)
  if on then s.checkHalted d else s.setF DBG_GE_CTRL_HALTED 0 d 0

/-- STEP (R427): while halted, one task is dispatched, and the engine halts again after it completes. -/
def stepEngine (s : State) (d : Nat) : State :=
  if s.flag DBG_GE_CTRL_HALTED 0 d then
    let e := s.engine d
    (s.setEngine d { e with stepping := true }).setF DBG_GE_CTRL_HALTED 0 d 0
  else s

/-- BREAK_EN (R427). -/
def breakEn (s : State) (d : Nat) (on : Bool) (g task : Nat) : State :=
  ((s.setF DBG_GE_CTRL_BREAK_EN 0 d (if on then 1 else 0)).setF DBG_GE_CTRL_G 0 d g).setF DBG_GE_CTRL_TASK 0 d task

end State

def execHicClaim (c : Fin 16) (s : State) := commit s (s.hicClaim c)
def execHicComplete (_r : Requester) (c : Fin 16) (source : Nat) (s : State) := commit s (s.hicComplete c source)
def execAgentMaskLock (_r : Requester) (s : State) := commit s s.agentMaskLock
def execForgeWindow (cycles : List Nat) (overloaded paceLost : Bool) (s : State) :=
  commit s (s.forgeWindow cycles overloaded paceLost)
def execDmaRequest (p : Fin 2) (write : Bool) (a : Nat) (data : List Byte) (s : State) :=
  commit s (s.dmaRequest p write a data)
def execDriveFail (p : Fin 2) (s : State) := commit s (s.driveFail p)
def execCollectorUnreachable (s : State) := commit s s.collectorUnreachable
def execCollectorReconnect (s : State) := commit s s.collectorReconnect
def execTransit (authorised : Bool) (pct : Nat) (s : State) := commit s (s.transit authorised pct)
def execPermit (authorised : Bool) (entries : List (Nat × Word)) (s : State) := commit s (s.permit authorised entries)
def execServiceEnter (authorised : Bool) (s : State) := commit s (s.serviceEnter authorised)
def execServiceLeave (authorised : Bool) (s : State) := commit s (s.serviceLeave authorised)
def execDebugNonce (authorised : Bool) (s : State) := commit s (s.debugNonce authorised)
def execDebugToken (authorised : Bool) (tok : Token) (s : State) := commit s (s.debugToken authorised tok)
def execMctpControl (request : List Byte) (s : State) := commit s (s.mctpControl request)
def execPldmMonitoring (s : State) := commit s s.pldmMonitoring
def execSpdmRequest (k : SpdmKind) (s : State) := commit s (s.spdmRequest k)
def execPpsEdge (stamp : Nat) (s : State) := commit s (s.ppsEdge stamp)
def execPpsHoldover (s : State) := commit s s.ppsHoldover
def execSetImmediate (_r : Requester) (s : State) := commit s s.setImmediate
def execSetValid (_r : Requester) (s : State) := commit s s.setValid
def execMonitorWindowEnd (die : Fin 5) (m : Fin 64) (s : State) := commit s (s.monitorWindowEnd die m)
def execIdcode (s : State) := commit s s.idcode
def execDbgNonce (s : State) := commit s s.dbgNonce
def execDbgUnlock (tok : Token) (s : State) := commit s (s.dbgUnlock tok)
def execDbgStatus (s : State) := commit s s.dbgStatus
def execBypass (bits : List Bool) (s : State) := commit s (s.bypass bits)
def execLock (r : Requester) (s : State) := commit s (s.lock r)
def execUnlockExpiry (s : State) := commit s s.endUnlock
def execHalt (r : Requester) (d : Fin 4) (on : Bool) (s : State) :=
  commit s (s.dbgGe r d (BitVec.ofNat 64 (if on then 2 ^ 63 else 0)) (s.halt d on))
def execStep (r : Requester) (d : Fin 4) (s : State) := commit s (s.dbgGe r d (1#64 <<< 62) (s.stepEngine d))
def execBreakEn (r : Requester) (d : Fin 4) (on : Bool) (g : Fin 16) (task : BitVec 16) (s : State) :=
  commit s (s.dbgGe r d (BitVec.ofNat 64 ((if on then 2 ^ 61 else 0) + g * 2 ^ 48 + task.toNat))
    (s.breakEn d on g task.toNat))
def execPpsOutPulse (s : State) := commit s s.ppsOutPulse
def execPcieLinkChange (p : Fin 2) (up : Bool) (rate width : Nat) (s : State) :=
  commit s (s.pcieLinkChange p up rate width)
def execManagementLinkChange (up : Bool) (fec : Fin 3) (s : State) := commit s (s.managementLinkChange up fec)
def execDbgTrstN (s : State) := commit s s.dbgTrstN

end Sys2Proof.Machine
end

