-- ==== Sys2Proof/Machine/Place.lean ====
section
/-! DEFINITION. Where a task may run: core states (R137, R138), readiness (R120), eligibility and the order of dispatch
(R126, R127), and unplaceable tasks (R129). -/

namespace Sys2Proof.Machine

/-- Kinds whose writes are digested (R352). -/
def Kind.digested : Kind → Bool
  | .drain | .vector | .fused | .spill => true
  | _ => false

namespace State

/-- The test schedule of logical core `c`. -/
def schedOf (s : State) (d c : Nat) : Sched := Tab.getN {} (s.engine d).sched c

def setSched (s : State) (d c : Nat) (x : Sched) : State :=
  let e := s.engine d
  s.setEngine d { e with sched := Tab.putN {} e.sched c x }

/-- Ready: counter zero, its graph RUNNING, neither dispatched nor ended (R120). -/
def ready (s : State) (t : TaskId × Task) : Bool :=
  decide (s.slotState t.1.d t.1.g = 3) && decide (t.2.pred = 0) &&
  decide (t.2.status = .waiting ∨ t.2.status = .queued)

/-- A TEST task waits for the core or runs on it: the core is held for it as for a due test (DEDUCED from R136, assumption
41). -/
def testAsked (s : State) (d c : Nat) : Bool :=
  (s.tasksOf d).any fun t => decide (t.2.kind = .test) && t.2.elig.testBit c && (s.ready t || decide (t.2.status = .dispatched))

/-- A test holds the core: due on a busy core, running, failed, or asked for by a TEST task (R135, R136). -/
def testHeld (s : State) (d c : Nat) : Bool :=
  (s.schedOf d c).hold || (s.schedOf d c).running.isSome || (s.schedOf d c).failedHold || s.testAsked d c

/-- A Forge hold (R137). -/
def forgeHeld (s : State) (d c : Nat) : Bool := (s.getF GE_CORE_HOLD_HOLD d 0).testBit c

/-- Retired, or presenting width 0 in every mode (R8, R46). -/
def widthless (s : State) (d p : Nat) : Bool := s.coreGone d p || decide ((s.getR ⟨.CORE_ARRAY_WIDTH, d * 34 + p, 0⟩) = 0)

/-- GE_CORE_STATE of logical core `c`: the stronger of the states that apply (R137, R138). -/
def coreStateOf (s : State) (d c : Nat) : Nat :=
  match s.physOf d c with
  | none => 3
  | some p => if s.widthless d p then 3 else if s.testHeld d c then 2 else if s.forgeHeld d c then 1 else 0

/-- The presented width of a core in a MATMUL mode (R45, R117). -/
def widthOf (s : State) (d p mode : Nat) : Nat :=
  match mode with
  | 0 => s.getF CORE_ARRAY_WIDTH_FP8 (d * 34 + p) 0
  | 1 => s.getF CORE_ARRAY_WIDTH_W2 (d * 34 + p) 0
  | 2 => s.getF CORE_ARRAY_WIDTH_W1 (d * 34 + p) 0
  | _ => s.getF CORE_ARRAY_WIDTH_BF16 (d * 34 + p) 0

/-- First byte of extension record `j` of a die (R110). -/
def extAddr (s : State) (d j : Nat) : Nat := s.getF GE_GRAPH_BASE_BASE d 0 * 0x800000 + 0x400000 + j * 64

/-- A task descriptor template held in an extension record (R152). -/
def templateAt (s : State) (d j : Nat) : Task :=
  { idx := 0, w := (List.range 8).map fun i => s.readWord (s.extAddr d j + 8 * i) }

/-- The mode a task's width is judged in: a MATMUL's own, a FUSED chain's first MATMUL stage's (R48, R127). -/
def taskMode (s : State) (d : Nat) (t : Task) : Option Nat :=
  match t.kind with
  | .matmul => some t.mmMode
  | .fused =>
    (((List.range t.fuStages).map fun j => s.templateAt d (stTemplate (t.fuStage j))).find? fun x =>
      x.kind = .matmul).map fun x => x.mmMode
  | _ => none

/-- Is the core wide enough for the task (R48)? -/
def wideEnough (s : State) (d p : Nat) (t : Task) : Bool :=
  match s.taskMode d t with
  | some m => decide (t.declN ≤ s.widthOf d p m)
  | none => true

/-- Tile `k` of the ring between a MATMUL stage `j` and its DRAIN (R153): the template's units, moved on by whole tiles. It is
bound under an identifier of its own. -/
def ringTile (m : Task) (g j k : Nat) : Bound :=
  let b : Bound := { g := g, tile := 4096 * (j + 1) + k, base := m.mmBase, m := m.mmM, n := m.declN, pair := m.mmPair }
  { b with base := b.base + k * ((b.m * b.n * (if b.pair then 2 else 1) + 1023) / 1024) }

/-- The tile rings of a FUSED chain. -/
def ringsOf (s : State) (d g : Nat) (t : Task) : List Bound :=
  (List.range t.fuStages).flatMap fun j =>
    let x := t.fuStage j
    if stKind x = 1 then (List.range (stQDepth x)).map (ringTile (s.templateAt d (stTemplate x)) g j) else []

/-- The core a tile is bound to (R89). -/
def boundCore (s : State) (d g tile : Nat) : Option Nat :=
  (List.range 34).find? fun p => (s.coreAt d p).tiles.any fun b => b.g = g && b.tile = tile

/-- Does the tile rule let the task on core `p`: its own core once bound, else units free of bound tiles, those of a chain's rings
among them (R89, R127)? -/
def tileAllows (s : State) (d g p : Nat) (t : Task) : Bool :=
  match t.tileOf with
  | some b =>
    match s.boundCore d g b.tile with
    | some q => decide (p = q)
    | none => (s.coreAt d p).tiles.all fun x => !x.overlaps b
  | none =>
    t.kind ≠ .fused || (s.ringsOf d g t).all fun b => (s.coreAt d p).tiles.all fun x => !x.overlaps b

/-- Could core `c` take the task, holds apart (R127, R129)? -/
def placeable (s : State) (d c : Nat) (t : TaskId × Task) : Bool :=
  t.2.elig.testBit c &&
  match s.physOf d c with
  | some p => !s.widthless d p && s.wideEnough d p t.2 && s.tileAllows d t.1.g p t.2 && t.2.core.all (· = p)
  | none => false

/-- Eligible under R127. -/
def eligible (s : State) (d c : Nat) (t : TaskId × Task) : Bool := decide (s.coreStateOf d c = 0) && s.placeable d c t

/-- A slot that holds twin graphs (R354). -/
def twinSlot (s : State) (d g : Nat) : Bool := (s.getF GE_RED_CFG_TWIN_SLOTS d 0).testBit g

/-- The channels a task holds while it is dispatched: its own, or those of a FUSED chain's SEND and RECV stages (R157,
R290). -/
def channelsOf (s : State) (d : Nat) (t : Task) : List Nat :=
  if t.kind = .fused then
    (List.range t.fuStages).filterMap fun j =>
      let x := t.fuStage j
      if stKind x = 8 ∨ stKind x = 9 then some (s.templateAt d (stTemplate x)).srChan else none
  else t.channel.toList

/-- Held back though ready: an UPDATE until its epoch is sealed (R123), a digested twin while the pending table is
full (R355), a task one of whose channels is in use (R290), a PROGRAM while another of its die runs. -/
def heldBack (s : State) (t : TaskId × Task) : Bool :=
  (decide (t.2.kind = .copy) && t.2.cpUpdate && decide (s.getF GE_TOKEN_COUNT t.1.d 4032 < t.2.epoch)) ||
  (s.twinSlot t.1.d t.1.g && t.2.kind.digested && decide (1024 ≤ (s.engine t.1.d).twins.length)) ||
  ((s.channelsOf t.1.d t.2).any fun c => (s.chan t.1.d c).task.isSome) ||
  (decide (t.2.kind = .copy) && t.2.cpProgram &&
    (s.dispatchedOf t.1.d).any fun y => decide (y.2.kind = .copy) && y.2.cpProgram)

/-- Is `a` before `b` in the dispatch order: PRIORITY, CRIT, graph slot, task index (R127)? -/
def dispatchBefore (a b : TaskId × Task) : Bool :=
  let x := (a.2.priority, a.2.crit)
  let y := (b.2.priority, b.2.crit)
  decide (y.1 < x.1 ∨ (y.1 = x.1 ∧ (y.2 < x.2 ∨ (y.2 = x.2 ∧
    (a.1.g < b.1.g ∨ (a.1.g = b.1.g ∧ a.1.idx < b.1.idx))))))

/-- The first task of a list in the dispatch order. -/
def firstTask : List (TaskId × Task) → Option (TaskId × Task)
  | [] => none
  | x :: t => match firstTask t with
    | some y => if dispatchBefore y x then some y else some x
    | none => some x

/-- A ready core task with no core eligible, holds apart (R129); a TEST on a retired core ends under R136 instead. -/
def unplaceable (s : State) (d : Nat) (t : TaskId × Task) : Bool :=
  t.2.kind.isCore && decide (t.2.kind ≠ .test) && s.ready t && !(List.range 32).any fun c => s.placeable d c t

/-- An unplaceable task reported (R129). -/
def reportUnplaced (s : State) (d : Nat) (t : TaskId × Task) : State :=
  let s := s.setF GE_GRAPH_STATUS_UNPLACEABLE d t.1.g 1
  let s := if s.flag GE_UNPLACED_VALID d 0 then s
    else ((s.setF GE_UNPLACED_VALID d 0 1).setF GE_UNPLACED_G d 0 t.1.g).setF GE_UNPLACED_TASK d 0 t.1.idx
  s.dieRecord 0x0403 sevDegraded d 0 [t.1.g, t.1.idx] t.2.epoch (some (t.2.kindCode, t.1.g, t.1.idx))

/-- The check of R129 over tasks of a die, in slot and index order. -/
def checkPlace (s : State) (d : Nat) : State :=
  ((s.tasksOf d).filter fun t => s.unplaceable d t).foldl (fun s t => s.reportUnplaced d t) s

end State

end Sys2Proof.Machine
end

