-- ==== Sys2Proof/Machine/Array.lean ====
section
/-! DEFINITION. The matrix array's repair: presented widths, column bypass and retirement (R45 to R53, R472). -/

namespace Sys2Proof.Machine

/-- Set bits of a column mask (R45). -/
def popMask (m : BitVec 128) : Nat := (List.range 128).foldl (fun n i => if m.getLsbD i then n + 1 else n) 0

/-- CORE_ARRAY_WIDTH of a core with `e` enabled columns (R45, R52). -/
def widthWord (e : Nat) : Word := BitVec.ofNat 64 (8 * e * 2 ^ 32 + 4 * e * 2 ^ 16 + e / 2 * 2 ^ 8 + e)

namespace State

/-- A register of a core. -/
def ck (d p : Nat) : Nat := d * 34 + p

/-- The column mask written and not yet applied. -/
def maskRegs (s : State) (d p : Nat) : BitVec 128 :=
  ((s.getR ⟨.CORE_ARRAY_COLMASK_HI, ck d p, 0⟩).setWidth 128 <<< 64) |||
  (s.getR ⟨.CORE_ARRAY_COLMASK_LO, ck d p, 0⟩).setWidth 128

/-- A structural test runs on the physical core. -/
def structuralOn (s : State) (d p : Nat) : Bool :=
  match s.logicalOf d p with
  | some c => decide ((s.schedOf d c).running = some .structural)
  | none => false

/-- IDLE (R47): no task dispatched, no token in the segments or the foot, no load or test running. -/
def arrayIdle (s : State) (d p : Nat) : Bool :=
  (s.coreTask d p).isNone && (s.coreAt d p).foot.isEmpty && !s.flag CORE_ARRAY_STATUS_KA_BUSY (ck d p) 0 &&
  !s.structuralOn d p

/-- Retirement (R46): every width 0, RETIRED set, a FAILED record. -/
def retireCore (s : State) (d p : Nat) : State :=
  if s.flag CORE_ARRAY_STATUS_RETIRED (ck d p) 0 then s
  else
    let s := (s.setF CORE_ARRAY_STATUS_RETIRED (ck d p) 0 1).setF CORE_ARRAY_CTRL_RETIRE (ck d p) 0 1
    (s.putR ⟨.CORE_ARRAY_WIDTH, ck d p, 0⟩ 0).coreRecord 0x0202 sevFailed d p [p]

/-- A mask put in force on an idle array (R46, R47, R472). -/
def putMask (s : State) (d p : Nat) (m : BitVec 128) : State :=
  let n := popMask m
  let old := s.getF CORE_ARRAY_WIDTH_FP8 (ck d p) 0
  let c := s.coreAt d p
  let s := (s.setCoreAt d p { c with mask := m }).setF CORE_ARRAY_STATUS_BYPASS_COUNT (ck d p) 0 n
  if s.flag CORE_ARRAY_STATUS_RETIRED (ck d p) 0 || (s.logicalOf d p).isNone then
    s.putR ⟨.CORE_ARRAY_WIDTH, ck d p, 0⟩ 0
  else if 16 < n then s.retireCore d p
  else
    let s := s.putR ⟨.CORE_ARRAY_WIDTH, ck d p, 0⟩ (widthWord (128 - n))
    if 128 - n < old then s.coreRecord 0x0201 sevDegraded d p [p, 128 - n] else s

/-- APPLY (R47): refused with APPLY_ERR unless the array is idle. -/
def applyMask (s : State) (d p : Nat) : State :=
  if s.arrayIdle d p then (s.putMask d p (s.maskRegs d p)).checkPlace d
  else s.setF CORE_ARRAY_STATUS_APPLY_ERR (ck d p) 0 1

/-- RETIRE (R46, R49). -/
def arrayRetire (s : State) (d p : Nat) : State := (s.retireCore d p).checkPlace d

/-- KA_START (R52): on an idle core only. -/
def kaStart (s : State) (d p : Nat) : State :=
  if s.arrayIdle d p then s.setF CORE_ARRAY_STATUS_KA_BUSY (ck d p) 0 1 else s

/-- The six counters. -/
def arrayCounters : List RegName :=
  [.CORE_ARRAY_CYC_TOTAL, .CORE_ARRAY_CYC_BUSY, .CORE_ARRAY_CYC_BUBBLE, .CORE_ARRAY_CYC_LOADWAIT,
   .CORE_ARRAY_CYC_STARVE, .CORE_ARRAY_TILES]

/-- ARRAY_CNT_CLR (R52). -/
def arrayCntClr (s : State) (d p : Nat) : State :=
  arrayCounters.foldl (fun s r => s.putR ⟨r, ck d p, 0⟩ 0) s

/-- A write of CORE_ARRAY_CTRL that sets several bits: CNT_CLR, RETIRE, APPLY, KA_START, in this order (R472). -/
def arrayCtrl (s : State) (d p : Nat) (v : Word) : State :=
  let s := if v.bit 2 then s.arrayCntClr d p else s
  let s := if v.bit 1 then s.arrayRetire d p else s
  let s := if v.bit 0 then s.applyMask d p else s
  if v.bit 3 then s.kaStart d p else s

end State

def execApply (r : Requester) (d : Fin 4) (c : Fin 34) (s : State) := commit s (s.atReg r (coreReg d c 0x2008) (s.applyMask d c))
def execCoreArrayRetire (r : Requester) (d : Fin 4) (c : Fin 34) (s : State) :=
  commit s (s.atReg r (coreReg d c 0x2008) (s.arrayRetire d c))
def execKaStart (r : Requester) (d : Fin 4) (c : Fin 34) (s : State) :=
  commit s (s.atReg r (coreReg d c 0x2008) (s.kaStart d c))
def execArrayCntClr (r : Requester) (d : Fin 4) (c : Fin 34) (s : State) :=
  commit s (s.atReg r (coreReg d c 0x2008) (s.arrayCntClr d c))

end Sys2Proof.Machine
end

