-- ==== Sys2Proof/Machine/Boot.lean ====
section
/-! DEFINITION. Start-up, profiles and trust: the boot ROM (R432 to R437), the start-up phases (R445 to R447), the
configuration flash (R430, R431), counters (R436), profiles and the job boundary (R442 to R444), and the straps (R456,
R464). -/

namespace Sys2Proof.Machine

/-- No header copy valid: PREF 0, TRIAL 0 (R432). -/
def noHeader : SlotHdr := { valid := true }

/-- The header in force of two copies: the valid one with the higher sequence (R432). -/
def pickHeader (a b : SlotHdr) : SlotHdr :=
  if a.valid && (!b.valid || decide (b.seq ≤ a.seq)) then a else if b.valid then b else noHeader

/-- A header written over the copy with the lower sequence, with the higher sequence plus 1 (R432). -/
def putHeader (a b : SlotHdr) (pref : Nat) (trial : Bool) (tries : Nat) : SlotHdr × SlotHdr :=
  let h : SlotHdr := { valid := true, seq := (max (if a.valid then a.seq else 0) (if b.valid then b.seq else 0) + 1) % 2 ^ 32,
                       pref := pref, trial := trial, tries := tries }
  if !a.valid || (b.valid && decide (a.seq ≤ b.seq)) then (h, b) else (a, h)

namespace State

/-! ### Slot header and boot ROM -/

/-- The slot header in force: the valid copy with the higher sequence (R432). -/
def header (s : State) : SlotHdr := pickHeader s.boot.hdr0 s.boot.hdr1

/-- The slot header written (R432). -/
def writeHeader (s : State) (pref : Nat) (trial : Bool) (tries : Nat) : State :=
  let h := putHeader s.boot.hdr0 s.boot.hdr1 pref trial tries
  let s := { s with boot := { s.boot with hdr0 := h.1, hdr1 := h.2 } }
  ((s.setF BOOT_SLOT_PREF 0 0 pref).setF BOOT_SLOT_TRIAL 0 0 (if trial then 1 else 0)).setF BOOT_SLOT_TRIES 0 0 tries

/-- An image of kind 1 (boot firmware) or 2 (operating system) verified under R434, its SVN against counter 0 or 1. -/
def imageValid (s : State) (x : ImageCheck) (kind : Nat := 1) : Bool :=
  x.formOk && x.rsaOk && x.slhOk && decide (s.getF BOOT_CTR_VALUE 0 3 ≤ min x.rsaKey.val x.slhKey.val) &&
  decide (s.getF BOOT_CTR_VALUE 0 (kind - 1) ≤ x.svn.toNat)

/-- The records of a failed verification (R434): the algorithm that failed, or an SVN below its floor. -/
def imageRecords (s : State) (x : ImageCheck) (kind : Nat := 1) : State :=
  let s := if !x.rsaOk then s.hubRecord 0x0F03 sevDegraded 12 0 [kind, 0] else s
  let s := if !x.slhOk then s.hubRecord 0x0F03 sevDegraded 12 0 [kind, 1] else s
  if x.svn.toNat < s.getF BOOT_CTR_VALUE 0 (kind - 1) then s.hubRecord 0x0F04 sevDegraded 12 0 [kind, x.svn.toNat] else s

/-- Boot slot `n` running (R435). -/
def runSlot (s : State) (n : Nat) (x : ImageCheck) : State :=
  let s := { s with boot := { s.boot with runningKey := min x.rsaKey.val x.slhKey.val } }
  (s.setF BOOT_SLOT_ACTIVE 0 0 n).setF BOOT_SLOT_FW_SVN 0 0 x.svn.toNat

/-- A slot verified, its result shown. -/
def verifySlot (s : State) (n : Nat) (x : ImageCheck) : State :=
  let ok := s.imageValid x
  let s := if ok then s else s.imageRecords x
  s.setF (if n = 0 then BOOT_SLOT_A_VALID else BOOT_SLOT_B_VALID) 0 0 (if ok then 1 else 0)

/-- A fall back to the other slot, recorded (R435). -/
def fallback (s : State) : State := (s.setF BOOT_SLOT_FALLBACK 0 0 1).hubRecord 0x0F01 sevDegraded 12 0 []

/-- Step 1 and 2 of R435: a trial without tries left goes back to the other slot; else a try is taken. -/
def trialStep (s : State) : State :=
  let h := s.header
  if h.trial && decide (h.tries = 0) then (s.writeHeader (1 - h.pref) false 0).fallback
  else if h.trial then s.writeHeader h.pref true (h.tries - 1)
  else ((s.setF BOOT_SLOT_PREF 0 0 h.pref).setF BOOT_SLOT_TRIAL 0 0 0).setF BOOT_SLOT_TRIES 0 0 h.tries

/-- BOOT_ROM_START (R435, R442, R445): phase 2 of start-up begins, PROFILE_SEL is sampled, and a slot is chosen. -/
def bootRomStart (s : State) (pins : Fin 4) (a b : ImageCheck) : State :=
  if s.getF BOOT_STATUS_PHASE 0 0 ≠ 0 ∨ s.input.off ∨ !s.flag PWR_PINS_RESET_N 0 0 then s
  else
    let s := { s with boot := { s.boot with phase2At := s.time } }.setF BOOT_STATUS_PHASE 0 0 2
    let s := (s.setF PROF_STATUS_PINS 0 0 pins).setF PWR_PINS_PROFILE_SEL 0 0 pins
    let s := s.setF PROF_STATUS_SOURCE 0 0 (if s.boot.commanded.isSome then 1 else 0)
    let s := s.setF PROF_STATUS_ACTIVE 0 0 (s.boot.commanded.getD pins)
    let s := { s with boot := { s.boot with commanded := none, fwImages := some (a, b) } }
    let s := s.trialStep
    let p := s.header.pref
    let x := if p = 0 then a else b
    let y := if p = 0 then b else a
    let s := s.verifySlot p x
    if s.imageValid x then s.runSlot p x
    else
      let s := (s.verifySlot (1 - p) y).fallback
      if s.imageValid y then s.runSlot (1 - p) y
      else (s.setF BOOT_STATUS_RECOVERY 0 0 1).hubRecord 0x0F02 sevFailed 12 0 []

/-- The header of the operating-system images written (R435). -/
def writeOsHeader (s : State) (pref : Nat) (trial : Bool) (tries : Nat) : State :=
  let h := putHeader s.boot.osHdr0 s.boot.osHdr1 pref trial tries
  { s with boot := { s.boot with osHdr0 := h.1, osHdr1 := h.2 } }

/-- The record of a fall back to the other operating-system image (R435). -/
def osFallback (s : State) : State := s.hubRecord 0x0F01 sevDegraded 12 0 [2]

/-- The boot firmware chooses between OS_A and OS_B by the steps of R435; false where neither verifies. -/
def osBoot (s : State) (a b : ImageCheck) : State × Bool :=
  let h := pickHeader s.boot.osHdr0 s.boot.osHdr1
  let s := { s with boot := { s.boot with osImages := some (a, b) } }
  let s := if h.trial && decide (h.tries = 0) then (s.writeOsHeader (1 - h.pref) false 0).osFallback
    else if h.trial then s.writeOsHeader h.pref true (h.tries - 1) else s
  let p := (pickHeader s.boot.osHdr0 s.boot.osHdr1).pref
  let x := if p = 0 then a else b
  let y := if p = 0 then b else a
  let run := fun (s : State) (n : Nat) => { s with boot := { s.boot with osSlot := some n } }
  if s.imageValid x 2 then (run s p, true)
  else
    let s := (s.imageRecords x 2).osFallback
    if s.imageValid y 2 then (run s (1 - p), true) else (s.imageRecords y 2, false)

/-- TRIAL_WATCHDOG (R435): the package is reset; the cause code is the one shown before (assumption 20). -/
def trialWatchdog (s : State) : State :=
  if s.header.trial && !s.flag BOOT_STATUS_READY 0 0 && decide (s.boot.phase2At + 300000000000 ≤ s.time) then
    s.packageReset (s.getF BOOT_RST_STATUS_CAUSE 0 0)
  else s

/-! ### The configuration flash (R430, R431) -/

/-- The area of a flash byte that the agent may write, as (first byte, length) (R430). -/
def agentArea (a : Nat) : Option (Nat × Nat) :=
  [(0x0000000, 0x1000), (0x0001000, 0x1000), (0x0010000, 0x10000), (0x0020000, 0x10000), (0x0040000, 0x10000),
   (0x0050000, 0x10000), (0x0060000, 0x10000), (0x0070000, 0x10000), (0x1000000, 0x2000000),
   (0x3000000, 0x2000000)].find? fun x => decide (x.1 ≤ a ∧ a < x.1 + x.2)

/-- A flash byte as it reads: programmed, erased, or as delivered (both last are the flash's own: free values). -/
def flashByte (s : State) (a : Nat) : Byte :=
  match Tab.getN FlashByte.asDelivered s.boot.flash a with
  | .byte b => b
  | .erased => Config.erasedByte
  | .asDelivered => if Tab.getN false s.boot.erased (a / 65536) then Config.erasedByte else Config.flashByte a

/-- BOOT_FLASH_BUF's length: encoded as length − 1 (R449). -/
def flashLen (s : State) : Nat := s.getF BOOT_FLASH_BUF_LEN 0 0 + 1

/-- A refused flash operation (R431). -/
def flashRefused (s : State) (op a : Nat) : State :=
  (s.setF BOOT_FLASH_CMD_ERR 0 0 1).hubRecord 0x0F0B sevInfo 12 0 [op, a]

/-- A flash operation started (R431): accepted from AGENT alone (R403), ignored while BUSY; a program or erase that
names a factory-only or reserved area, or runs past the end of an agent area, is refused. -/
def flashStart (s : State) (r : Requester) (op a : Nat) : State :=
  if !s.isAgent r then s.record { event := 0x0E0F, sev := sevInfo, unit := unitOf 4 12,
                                  syn := Config.syndrome 0x0E0F [requesterCode r, hubReg 12 0x20] }
  else if s.flag BOOT_FLASH_CMD_BUSY 0 0 then s
  else
    let n := if op = 3 then 65536 else s.flashLen
    let ok := op = 1 || ((op ≠ 3 || a % 65536 = 0) && match agentArea a with
      | some x => decide (a + n ≤ x.1 + x.2)
      | none => false)
    if ok then
      { s with boot := { s.boot with flashOp := some ⟨op, a, n, s.getF BOOT_FLASH_BUF_ADDR 0 0⟩ } }.setF
        BOOT_FLASH_CMD_BUSY 0 0 1
    else s.flashRefused op a

/-- Header copies whose bytes an operation covers: their content after it is open (the header's byte layout is not
given), so its fields are free values (assumption 21). -/
def touchHeader (s : State) (a n : Nat) : State :=
  let fresh := fun (w : BitVec 64) => SlotHdr.mk (w.getLsbD 0) ((w.toNat / 2) % 2 ^ 32) (w.toNat / 2 ^ 33 % 2)
    (w.getLsbD 34) (w.toNat / 2 ^ 35 % 4)
  let s := if a < 0x1000 then
      let x := s.draw
      { x.2 with boot := { x.2.boot with hdr0 := fresh x.1 } } else s
  if a < 0x2000 ∧ 0x1000 < a + n then
    let x := s.draw
    { x.2 with boot := { x.2.boot with hdr1 := fresh x.1 } } else s

/-- The effect of a flash operation that succeeded. -/
def flashApply (s : State) (f : FlashOp) : State :=
  if f.op = 1 then s.storeAll f.buf ((List.range f.len).map fun i => s.flashByte (f.addr + i)) none
  else if f.op = 2 then
    let s := s.touchHeader f.addr f.len
    let data := s.readBytesAt f.buf f.len
    { s with boot := { s.boot with flash := (List.range f.len).foldl (fun t i =>
      Tab.putN FlashByte.asDelivered t (f.addr + i) (.byte (data.getD i 0))) s.boot.flash } }
  else
    let s := s.touchHeader f.addr f.len
    { s with boot := { s.boot with
        flash := (s.boot.flash.filter fun e => e.1 / 65536 ≠ f.addr / 65536),
        erased := Tab.putN false s.boot.erased (f.addr / 65536) true } }

/-- FLASH_OP_DONE (R431). -/
def flashOpDone (s : State) (ok : Bool) : State :=
  match s.boot.flashOp with
  | none => s
  | some f =>
    let s := { s with boot := { s.boot with flashOp := none } }.setF BOOT_FLASH_CMD_BUSY 0 0 0
    if ok then s.flashApply f
    else
      let s := s.setF BOOT_FLASH_CMD_ERR 0 0 1
      if f.op = 1 then s else s.hubRecord 0x0F0D sevDegraded 12 0 [f.op, f.addr]

/-- FIRMWARE_UPDATE_COMPONENT (R437): in recovery a valid component goes to slot A, with a trial of three tries, and
the package is reset (cause code as before, assumption 20). -/
def firmwareUpdate (s : State) (x : ImageCheck) (image : List Byte) : State :=
  if !s.flag BOOT_STATUS_RECOVERY 0 0 then s
  else if !s.imageValid x then s.imageRecords x
  else
    let s := { s with boot := { s.boot with flash := (List.range image.length).foldl (fun t i =>
      Tab.putN FlashByte.asDelivered t (0x1000000 + i) (.byte (image.getD i 0))) s.boot.flash } }
    let s := s.writeHeader 0 true 3
    s.packageReset (s.getF BOOT_RST_STATUS_CAUSE 0 0)

/-! ### Monotonic counters (R436) -/

/-- A counter raised, with its record. -/
def raiseCtr (s : State) (i v : Nat) : State := (s.setF BOOT_CTR_VALUE 0 i v).hubRecord 0x0F0C sevInfo 12 i [i, v]

/-- COUNTER_RAISE (R436, R449): AGENT raises to a larger value; for counter 3 not above a key index of the running boot
firmware. Any other write is refused. -/
def counterRaise (s : State) (r : Requester) (i : Nat) (v : Word) : State :=
  let n := v.toNat % 2 ^ 32
  if s.isAgent r && decide (s.getF BOOT_CTR_VALUE 0 i < n) && !(decide (i = 3) && decide (s.boot.runningKey < n)) then
    s.raiseCtr i n
  else s.hubRecord 0x0F0B sevInfo 12 i [i, n]

/-! ### Profiles (R442 to R444) -/

/-- The live fields of a profile applied (R443). -/
def applyLive (s : State) (p : Profile) : State :=
  let s := (s.setF PWR_CFG_P_LIM_W 0 0 p.pLim).setF PWR_CFG_DIE_CAP_W 0 0 p.dieCap
  let s := (s.setF PORT_MOD_CFG_PIN_EN 0 0 (if p.pinEn then 1 else 0)).setF PORT_MOD_PIN_ORIGIN 0 0 p.origin.toNat
  (List.range 4).foldl (fun s d =>
    (s.setF PWR_LV_CFG_RAMP d 0 p.ramp).setF GE_CTRL_TEST_EN d 0 (if p.testEn then 1 else 0)) s

/-- PROF_CMD (R444), with the signed profile of the letter where it verifies: AGENT only; into or out of D refused unless ALLOW_D is set. A later command replaces a pending
one. -/
def profCmd (s : State) (r : Requester) (l : Fin 4) (reset : Bool) (x : Option Profile) : State :=
  if !s.isAgent r then s.record { event := 0x0E0F, sev := sevInfo, unit := unitOf 4 12,
                                  syn := Config.syndrome 0x0E0F [requesterCode r, hubReg 12 0x18] }
  else if (decide (l = 3) || decide (s.getF PROF_STATUS_ACTIVE 0 0 = 3)) && !(s.boot.owner.any (·.allowD)) then
    s.hubRecord 0x0F0B sevInfo 12 0 [l]
  else
    let s := { s with boot := { s.boot with pendingProf := x.filter fun p => p.letter = l } }
    let s := (s.setF PROF_STATUS_PENDING 0 0 1).setF PROF_STATUS_PENDING_PROF 0 0 l
    s.setF PROF_STATUS_RESET_PENDING 0 0 (if reset then 1 else 0)

/-- PROFILE (R416): the agent writes PROF_CMD. -/
def profileCommand (s : State) (authorised : Bool) (l : Fin 4) (reset : Bool) (x : Option Profile) : State :=
  if authorised then s.profCmd (.forge 0) l reset x else s

/-- A job boundary (R444): a pending reset with JOB = 0 resets the package into the commanded profile; else the live
fields of a pending switch among A, B and C apply. -/
def jobBoundary (s : State) (jobId : Nat) : State :=
  if !s.flag PROF_STATUS_PENDING 0 0 then s
  else
    let l : Fin 4 := Fin.ofNat 4 (s.getF PROF_STATUS_PENDING_PROF 0 0)
    if s.flag PROF_STATUS_RESET_PENDING 0 0 then
      if jobId = 0 then
        { s with boot := { s.boot with commanded := some l } }.packageReset (s.getF BOOT_RST_STATUS_CAUSE 0 0)
      else s
    else if l = 3 ∨ s.getF PROF_STATUS_ACTIVE 0 0 = 3 then s
    else
      let p := s.boot.pendingProf.getD (builtinProfile l)
      let s := if s.boot.pendingProf.isSome then s.setF PROF_STATUS_DEFAULTS 0 0 0
        else (s.setF PROF_STATUS_DEFAULTS 0 0 1).hubRecord 0x0F05 sevDegraded 12 0 [l]
      let s := { s with boot := { s.boot with prof := { s.boot.prof with
        letter := l, pLim := p.pLim, dieCap := p.dieCap, ramp := p.ramp, testEn := p.testEn, pinEn := p.pinEn,
        origin := p.origin } } }.applyLive p
      let s := (s.setF PROF_STATUS_ACTIVE 0 0 l).setF PROF_STATUS_PENDING 0 0 0
      let s := s.setF PROF_STATUS_SOURCE 0 0 1
      (s.hubRecord 0x0F0A sevInfo 12 0 [l]).pulse 4 21

/-! ### Start-up phases (R445 to R447) -/

/-- A phase ended: its time kept, the next begun. -/
def phaseDone (s : State) (p : Nat) : State :=
  (s.setF BOOT_T_NS 0 p s.time).setF BOOT_STATUS_PHASE 0 0 (p + 1)

/-- The owner record of phase 3 (R441). -/
def takeOwner (s : State) (o : Option Owner) (copiesEmpty : Bool) : State :=
  match o with
  | some o =>
    if s.getF BOOT_CTR_VALUE 0 2 ≤ o.version.toNat then
      let s := { s with boot := { s.boot with owner := some o } }.setF PROF_STATUS_OWNER_VER 0 0 o.version.toNat
      if s.getF BOOT_CTR_VALUE 0 2 < o.version.toNat then s.raiseCtr 2 o.version.toNat else s
    else s.hubRecord 0x0F06 sevDegraded 12 0 []
  | none =>
    if s.getF BOOT_CTR_VALUE 0 2 = 0 then s.setF BOOT_STATUS_UNOWNED 0 0 (if copiesEmpty then 1 else 0)
    else s.hubRecord 0x0F06 sevDegraded 12 0 []

/-- The profile of phase 3 (R442, R443), its debug setting in force (R425, R426). -/
def takeProfile (s : State) (x : Option Profile) : State :=
  let l : Fin 4 := Fin.ofNat 4 (s.getF PROF_STATUS_ACTIVE 0 0)
  let ok := x.any fun p => p.letter = l
  let p := if ok then x.getD (builtinProfile l) else builtinProfile l
  let s := { s with boot := { s.boot with prof := p } }
  let s := if ok then s else (s.setF PROF_STATUS_DEFAULTS 0 0 1).hubRecord 0x0F05 sevDegraded 12 0 [l]
  let s := (s.applyLive p).setF HIC_FORGE_CFG_AGENT_MASK 0 0 p.agentMask
  if p.debugAll then
    (((s.setF DBG_STATUS_UNLOCKED 0 0 1).setF DBG_STATUS_SERVICE 0 0 1).setF DBG_STATUS_SCOPE 0 0 15).setDebugMode true
  else s

/-- The Forge region's table entry (R402): package-striped, unversioned, uncompressed, 672 page groups, CHOFF 0; LRATIO the
smallest that R186 admits (DEDUCED, assumption 54). -/
def forgeEntry : Word × Word := (BitVec.ofNat 64 (2 ^ 63 + 16 * 2 ^ 44 + 0x0BC10000000), 672)

/-- Repairs applied in phase 6 (R447): the repair map, factory masks, field bypasses and retirements. -/
def applyRepairs (s : State) (x : PhaseResult) : State :=
  let s := { s with repair := x.spared.foldl (fun t e =>
    Tab.put natLt repairDefault t e.1.val (e.2.map fun c => c.val)) s.repair }
  let mask := fun (s : State) (e : Fin 136 × BitVec 128) =>
    let k := e.1.val
    let m := (s.coreAt (k / 34) (k % 34)).mask ||| e.2
    let s := (s.putR ⟨.CORE_ARRAY_COLMASK_LO, k, 0⟩ (m.setWidth 64)).putR ⟨.CORE_ARRAY_COLMASK_HI, k, 0⟩
      ((m >>> 64).setWidth 64)
    s.putMask (k / 34) (k % 34) m
  let s := x.factoryMask.foldl mask s
  match x.fieldRepair with
  | some f => f.2.foldl (fun s k => s.retireCore (k.val / 34) (k.val % 34)) (f.1.foldl mask s)
  | none => (s.setF BOOT_STATUS_FIELD_REPAIR_BAD 0 0 1).hubRecord 0x0F07 sevDegraded 12 0 []

/-- Phase 6: repairs, RESERVE, and the first region table with entry 63 (R402, R443, R447). -/
def phase6 (s : State) (x : PhaseResult) : State :=
  let s := s.applyRepairs x
  let s := (List.range 12).foldl (fun s ms => s.setF CRU_VER_CFG_RESERVE ms 0 s.boot.prof.reserve) s
  let s := (s.putR ⟨.CRU_REGION_A, 0, 63⟩ forgeEntry.1).putR ⟨.CRU_REGION_B, 0, 63⟩ forgeEntry.2
  (List.range 12).foldl (fun s ms => s.setF CRU_STATUS_RT_VALID ms 0 1)
    { s with published := Tab.putN (0, 0) s.published 63 forgeEntry }

/-- Counter `i` raised to the lower SVN of a pair of images of kind `i` + 1, where both verify and it exceeds the counter
(R436). -/
def raiseFloor (s : State) (i : Nat) (pair : Option (ImageCheck × ImageCheck)) : State :=
  match pair with
  | some (a, b) =>
    let n := min a.svn.toNat b.svn.toNat
    if s.imageValid a (i + 1) && s.imageValid b (i + 1) && decide (s.getF BOOT_CTR_VALUE 0 i < n) then s.raiseCtr i n else s
  | none => s

/-- Phase 10 (R446): failing cores bypassed or retired, engines enabled, READY, the profile's start state, TRIAL
cleared in both headers, and the security version floors raised (R436). -/
def phase10 (s : State) (x : PhaseResult) : State :=
  let s := x.failing.foldl (fun s e =>
    let k := e.1.val
    if e.2 = 0 then s.retireCore (k / 34) (k % 34)
    else
      let m := (s.coreAt (k / 34) (k % 34)).mask ||| e.2
      let s := (s.putR ⟨.CORE_ARRAY_COLMASK_LO, k, 0⟩ (m.setWidth 64)).putR ⟨.CORE_ARRAY_COLMASK_HI, k, 0⟩
        ((m >>> 64).setWidth 64)
      s.putMask (k / 34) (k % 34) m) s
  let s := (List.range 4).foldl (fun s d => s.setF GE_CTRL_EN d 0 1) s
  let s := s.setF BOOT_STATUS_READY 0 0 1
  let s := s.setF PWR_STATUS_STATE 0 0 (if s.boot.prof.service then 5 else 2)
  let s := if s.header.trial then s.writeHeader s.header.pref false s.header.tries else s
  let h := pickHeader s.boot.osHdr0 s.boot.osHdr1
  let s := if h.trial then s.writeOsHeader h.pref false h.tries else s
  let s := (s.raiseFloor 0 s.boot.fwImages).raiseFloor 1 s.boot.osImages
  if s.flag PORT_MOD_COORD_VALID 0 0 then s
  else (s.setF BOOT_STATUS_LINKLESS 0 0 1).hubRecord 0x0F09 sevInfo 12 0 []

/-- A record for each loss of lock that a reset outlasted, once the Forge runs again (R224). -/
def lostRecords (s : State) : State :=
  if s.flag BOOT_CLK_STATUS_ROOT_LOST 0 0 && decide (s.getF BOOT_RST_STATUS_CAUSE 0 0 = 2) then
    s.hubRecord 0x0705 sevFailed 1 4 []
  else s

/-- STARTUP_PHASE_END (R445): the running phase ends where its end condition holds in the state. -/
def startupPhaseEnd (s : State) (x : PhaseResult) : State :=
  if s.flag BOOT_STATUS_STOPPED 0 0 || s.flag BOOT_STATUS_RECOVERY 0 0 || s.boot.held then s
  else match s.getF BOOT_STATUS_PHASE 0 0 with
    | 2 => s.phaseDone 2
    | 3 =>
      if !x.pufOk then
        ({ s with boot := { s.boot with held := true } }.putR ⟨.PORT_MOD_ID, 0, 0⟩ 0).hubRecord 0x0F0E sevFailed 12 0 []
      else
        let s := ((s.takeOwner x.owner x.copiesEmpty).takeProfile x.profile).phaseDone 3
        let s := { s with light := { s.light with baseline := x.light } }
        { s with input := { s.input with railPhase := 1 } }
    | 4 => if s.input.railPhase = 5 then s.phaseDone 4 else s
    | 5 => if s.flag BOOT_RST_STATUS_SEQ_DONE 0 0 then s.phaseDone 5 else s
    | 6 => (s.phase6 x).phaseDone 6
    | 7 => if s.flag LL_STATUS_READY 0 0 then s.phaseDone 7 else s
    | 8 => s.phaseDone 8
    | 9 =>
      let r := s.osBoot x.osA x.osB
      if r.2 then (r.1.agentMaskLock.lostRecords).phaseDone 9 else r.1
    | 10 => (s.phase10 x).phaseDone 10
    | _ => s

/-- STARTUP_PHASE_TIMEOUT (R446): phases 2 to 7 and 9 stop with the hub alone running. -/
def startupPhaseTimeout (s : State) : State :=
  let p := s.getF BOOT_STATUS_PHASE 0 0
  if s.flag BOOT_STATUS_STOPPED 0 0 || !(decide (2 ≤ p ∧ p ≤ 7) || decide (p = 9)) then s
  else
    let s := (s.setF BOOT_STATUS_STOPPED 0 0 1).hubRecord 0x0F08 sevFailed 12 p [p]
    ((List.range 18).filter fun i => i ≠ 4 && !s.inReset i).foldl (fun s i => s.domainHold i) s

/-! ### Straps and plate (R454, R456, R464) -/

/-- RESET_N_RELEASE (R454): start-up's phase 2 may begin. -/
def resetNRelease (s : State) : State := s.setF PWR_PINS_RESET_N 0 0 1

/-- An accepted FEED_ID (R456). -/
def acceptFeed (s : State) (v : BitVec 8) : State :=
  let old := s.getF PWR_PINS_FEED_ID 0 0
  let first := !s.boot.feedSeen
  let s := { s with boot := { s.boot with feedSeen := true } }
  if !first ∧ old = v.toNat then s
  else
    let s := (s.setF PWR_PINS_FEED_ID 0 0 v.toNat).setF PWR_PINS_FEED_PREV 0 0 (if first then v.toNat else old)
    let s := s.setF PWR_PINS_FEED_UNWIRED 0 0 (if v = 0xFF then 1 else 0)
    let s := if first then s
      else (s.setF PWR_PINS_FEED_CHG 0 0 1).hubRecord 0x1001 sevInfo 13 0 [old, v.toNat]
    if v = 0xFF then s.hubRecord 0x1002 sevDegraded 13 0 [] else s

/-- FEED_ID_SAMPLE (R456): accepted after three consecutive equal readings. -/
def feedIdSample (s : State) (v : BitVec 8) : State :=
  let l := (v :: s.boot.feedReads).take 3
  let s := { s with boot := { s.boot with feedReads := l } }
  if l = [v, v, v] then s.acceptFeed v else s

/-- LEAK_DETECT (R464). -/
def leakDetect (s : State) (zone : Nat) (inlet outlet : BitVec 16) : State :=
  let s := (s.coolant inlet outlet).setF THM_PLATE_LEAK 0 0 1
  let s := (s.setF THM_PLATE_LEAK_NOW 0 0 1).setF THM_PLATE_ZONE 0 0 zone
  s.hubRecord 0x1003 sevFailed 13 0 [zone, inlet.toNat, outlet.toNat]

end State

def execBootRomStart (pins : Fin 4) (a b : ImageCheck) (s : State) := commit s (s.bootRomStart pins a b)
def execTrialWatchdog (s : State) := commit s s.trialWatchdog
def execFirmwareUpdateComponent (x : ImageCheck) (image : List Byte) (s : State) := commit s (s.firmwareUpdate x image)
def execFlashRead (r : Requester) (a : BitVec 27) (s : State) := commit s (s.flashStart r 1 a.toNat)
def execFlashProgram (r : Requester) (a : BitVec 27) (s : State) := commit s (s.flashStart r 2 a.toNat)
def execFlashErase (r : Requester) (a : BitVec 27) (s : State) := commit s (s.flashStart r 3 a.toNat)
def execFlashOpDone (ok : Bool) (s : State) := commit s (s.flashOpDone ok)
def execCounterRaise (r : Requester) (i : Fin 4) (v : BitVec 64) (s : State) := commit s (s.counterRaise r i v)
def execProfile (authorised : Bool) (prof : Fin 4) (reset : Bool) (x : Option Profile) (s : State) :=
  commit s (s.profileCommand authorised prof reset x)
def execProfileSwitch (r : Requester) (prof : Fin 4) (x : Option Profile) (s : State) :=
  commit s (s.profCmd r prof false x)
def execProfileSwitchReset (r : Requester) (prof : Fin 4) (s : State) := commit s (s.profCmd r prof true none)
def execStartupPhaseEnd (x : PhaseResult) (s : State) := commit s (s.startupPhaseEnd x)
def execStartupPhaseTimeout (s : State) := commit s s.startupPhaseTimeout
def execLeakDetect (zone : Fin 4) (inlet outlet : BitVec 16) (s : State) := commit s (s.leakDetect zone inlet outlet)
def execResetNRelease (s : State) := commit s s.resetNRelease

end Sys2Proof.Machine
end

