-- ==== Sys2Proof/Machine/Braze.lean ====
section
/-! DEFINITION. Braze links, clocks and resets: flits, replay, training, retirement and failed edges (R214 to R221,
R228), lock losses (R224), and the reset sequencer (R226, R227, R229). -/

namespace Sys2Proof.Machine

namespace State

def brz (d e : Nat) : Nat := d * 8 + e

/-- The bundle state of one direction. -/
def bundle (s : State) (k b : Nat) : BundleSt := Tab.getN {} (s.link k).bundles b

def setBundle (s : State) (k b : Nat) (x : BundleSt) : State :=
  let l := s.link k
  s.setLink k { l with bundles := Tab.putN {} l.bundles b x }

/-- The link that a sender's end feeds: from die `d`, or from the far end towards it. -/
def sentLink (d e : Nat) (fromFar : Bool) : Nat :=
  if fromFar then linkKey d e false
  else match edgeEnds d e with
    | [_, x] => linkKey x.1 x.2 false
    | _ => linkKey d e true

/-- An edge fails: more than two bundles retired, or the hub edge's one (R221). The record is written at the moment of
failure; writes that wait at an unreachable stack are dropped. -/
def edgeFail (s : State) (d e : Nat) : State :=
  let s := (edgeEnds d e).foldl (fun s x => s.setF BRZ_STATUS_STATE (brz x.1 x.2) 0 3) s
  if e < 3 then
    s.record { event := 0x0702, sev := sevDegraded, unit := unitOf d (40 + e), sub := e,
               syn := Config.syndrome 0x0702 [d, e] }
  else
    let ms := 3 * d + (e - 3)
    let dropped := (s.stack ms).waiting.map (·.addr)
    let st := s.stack ms
    let s := s.setStack ms { st with waiting := [] }
    s.record { event := 0x0703, sev := sevFailed, unit := unitOf d (40 + e), sub := e, alert := true,
               syn := Config.syndrome 0x0703 ([d, e] ++ dropped.head?.toList ++ dropped.getLast?.toList) }

/-- Is bundle `b` of an edge retired? -/
def bundleRetired (s : State) (d e b : Nat) : Bool := (s.getF BRZ_STATUS_RETIRED (brz d e) 0).testBit b

/-- A bundle retired in each direction (R219): its flits not yet acknowledged go out again on the others. -/
def retireBundle (s : State) (d e b : Nat) : State :=
  if s.bundleRetired d e b || bundlesOf e ≤ b then s
  else
    let s := (edgeEnds d e).foldl (fun s x =>
      let r := s.getF BRZ_STATUS_RETIRED (brz x.1 x.2) 0
      let a := s.getF BRZ_STATUS_ACTIVE (brz x.1 x.2) 0
      (s.setF BRZ_STATUS_RETIRED (brz x.1 x.2) 0 (r ||| 2 ^ b)).setF BRZ_STATUS_ACTIVE (brz x.1 x.2) 0
        (a - (a &&& 2 ^ b))) s
    let s := [sentLink d e false, sentLink d e true].foldl (fun s k =>
      let l := s.link k
      s.setLink k { l with again := l.again ++ (s.bundle k b).replay,
                           bundles := Tab.putN {} l.bundles b {} }) s
    let s := s.record { event := 0x0701, sev := sevDegraded, unit := unitOf d (40 + e), sub := b,
                        syn := Config.syndrome 0x0701 [d, e, b] }
    let n := ((List.range 8).filter fun i => s.bundleRetired d e i).length
    if e = 0 ∨ 2 < n then s.edgeFail d e else s

/-- The edge is up once no bundle is left untrained (R218, R228). -/
def edgeUp (s : State) (d e : Nat) : State :=
  if (List.range (bundlesOf e)).all (fun b => s.bundleRetired d e b || (s.getF BRZ_STATUS_ACTIVE (brz d e) 0).testBit b)
      && s.getF BRZ_STATUS_STATE (brz d e) 0 = 1 then
    (edgeEnds d e).foldl (fun s x => s.setF BRZ_STATUS_STATE (brz x.1 x.2) 0 2) s
  else s

/-- Flits received ahead enter the NoC once the ones before them have (R216). -/
def deliverEarly : Nat → LinkSt → LinkSt
  | 0, l => l
  | n + 1, l =>
    match l.early.find? fun f => f.eseq = l.expect with
    | some f => deliverEarly n { l with
        expect := l.expect + 1, delivered := l.delivered ++ [f.payload], early := l.early.erase f }
    | none => l

/-- A good flit enters the NoC in edge-sequence order (R216). -/
def deliver (l : LinkSt) (f : Flit) : LinkSt :=
  deliverEarly (l.early.length + 1)
    { l with early := l.early ++ [f], again := l.again.filter fun x => x.eseq ≠ f.eseq }

/-- A flit arrives whole and in bundle order: acknowledged, and delivered (R216, R217). -/
def flitGood (s : State) (k b : Nat) (f : Flit) : State :=
  let x := s.bundle k b
  let s := s.setBundle k b { x with
    expect := f.bseq + 1, asked := false, fails := 0, replay := x.replay.filter fun y => y.bseq ≠ f.bseq }
  s.setLink k (deliver (s.link k) f)

/-- A flit fails its CRC (R217, R219): discarded, counted in the window of device time it is detected in, a resend asked
for, and its bundle retired when a threshold is passed. -/
def flitBad (s : State) (d e k b : Nat) (f : Flit) : State :=
  let x := s.bundle k b
  let fails := if f.bseq = x.expect then x.fails + 1 else x.fails
  let s := s.setBundle k b { x with asked := true, fails := fails }
  let l := s.link k
  let w := s.time / 1000000
  let errs := if l.window = w then l.errors else []
  let n := Tab.getN 0 errs b + 1
  let s := s.setLink k { l with window := w, errors := Tab.putN 0 errs b n }
  let s := s.addF BRZ_CRC_ERR_COUNT (brz d e) b 1
  if s.getF BRZ_CFG_RETIRE_THR (brz d e) 0 < n ∨ max 1 (s.getF BRZ_CFG_PERSIST (brz d e) 0) ≤ fails then
    s.retireBundle d e b
  else s

/-- Can bundle `b` of the edge carry a flit? -/
def bundleActive (s : State) (d e b : Nat) : Bool :=
  s.getF BRZ_STATUS_STATE (brz d e) 0 = 2 && (s.getF BRZ_STATUS_ACTIVE (brz d e) 0).testBit b

/-- FLIT_RECEIVE (R216, R217, R219). The sender keeps a copy until the flit is acknowledged. -/
def flitReceive (s : State) (d e : Nat) (far : Bool) (b : Nat) (good : Bool) (f : Flit) : State :=
  if !s.bundleActive d e b || (far && (brazePeer d e).1 = 1) then s
  else
    let k := linkKey d e far
    let x := s.bundle k b
    let s := if x.replay.any (fun y => y.bseq = f.bseq) then s
      else s.setBundle k b { x with replay := (x.replay ++ [f]).drop (x.replay.length + 1 - 64) }
    if !good then s.flitBad d e k b f
    else if f.bseq = (s.bundle k b).expect then s.flitGood k b f
    else s

/-- RESEND_REQUEST (R217): every flit of the replay buffer from the named one on goes out again. -/
def resendRequest (s : State) (d e : Nat) (far : Bool) (b : Nat) (bseq : BitVec 8) : State :=
  let n := ((s.bundle (sentLink d e far) b).replay.dropWhile fun f => f.bseq ≠ bseq).length
  if s.bundleActive d e b then s.addF BRZ_REPLAY_COUNT (brz d e) 0 n else s

/-- BUNDLE_TRAINING_END (R218). -/
def bundleTrainingEnd (s : State) (d e b : Nat) (passed : Bool) : State :=
  if s.getF BRZ_STATUS_STATE (brz d e) 0 ≠ 1 ∨ s.bundleRetired d e b ∨ bundlesOf e ≤ b then s
  else if passed then
    ((edgeEnds d e).foldl (fun s x =>
      let a := s.getF BRZ_STATUS_ACTIVE (brz x.1 x.2) 0
      let t := s.getF BRZ_STATUS_TRAIN_FAIL (brz x.1 x.2) 0
      (s.setF BRZ_STATUS_ACTIVE (brz x.1 x.2) 0 (a ||| 2 ^ b)).setF BRZ_STATUS_TRAIN_FAIL (brz x.1 x.2) 0
        (t - (t &&& 2 ^ b))) s).edgeUp d e
  else
    (((edgeEnds d e).foldl (fun s x =>
      s.setF BRZ_STATUS_TRAIN_FAIL (brz x.1 x.2) 0 (s.getF BRZ_STATUS_TRAIN_FAIL (brz x.1 x.2) 0 ||| 2 ^ b)) s)
      |>.retireBundle d e b).edgeUp d e

/-- BUNDLE_RETIRE (R219, R228): the bits written 1; bits 7:1 are ignored on the hub edge. -/
def bundleRetire (s : State) (d e : Nat) (mask : Nat) : State :=
  let m := if e = 0 then mask % 2 else mask
  let s := s.setF BRZ_CFG_RETIRE (brz d e) 0 (s.getF BRZ_CFG_RETIRE (brz d e) 0 ||| m)
  (List.range (bundlesOf e)).foldl (fun s b => if m.testBit b then s.retireBundle d e b else s) s

/-- BRZ_CNT_CLR (R228). -/
def brzCntClr (s : State) (d e : Nat) : State :=
  (List.range 8).foldl (fun s b => s.setF BRZ_CRC_ERR_COUNT (brz d e) b 0) (s.setF BRZ_REPLAY_COUNT (brz d e) 0 0)

/-! ### Clocks (R224) -/

/-- LOCAL_PLL_LOSS (R224): the hub resets the die's domain and brings it up again. -/
def localPllLoss (s : State) (i : Nat) : State :=
  if i = 4 ∨ !(s.getF BOOT_CLK_STATUS_LOCK 0 0).testBit i then s
  else
    let lock := s.getF BOOT_CLK_STATUS_LOCK 0 0
    let s := s.setF BOOT_CLK_STATUS_LOCK 0 0 (lock - (lock &&& 2 ^ i))
    let s := s.setF BOOT_CLK_STATUS_LOST 0 0 (s.getF BOOT_CLK_STATUS_LOST 0 0 ||| 2 ^ i)
    let s := (s.domainHold i).sequence (2 ^ i)
    s.hubRecord 0x0704 sevFailed 1 i [i]

/-- ROOT_PLL_LOSS (R224): the package is reset; the record follows once the Forge runs again (STARTUP_PHASE_END). -/
def rootPllLoss (s : State) : State := ((if s.input.orderly then s else s.countFailure).packageReset 2).setF BOOT_CLK_STATUS_ROOT_LOST 0 0 1

/-! ### The reset sequencer (R226, R227) -/

/-- A sequencer phase is running. -/
def sequencing (s : State) : Bool :=
  decide (1 ≤ s.getF BOOT_RST_STATUS_PHASE 0 0 ∧ s.getF BOOT_RST_STATUS_PHASE 0 0 ≤ 5) &&
  !s.flag BOOT_RST_STATUS_STOPPED 0 0

/-- SEQ_GO (R226, R229): accepted from the boot ROM only. -/
def seqGo (s : State) (r : Requester) : State :=
  if r ≠ .bootRom then s.refuseWrite 0xF0401000008 (1#64 <<< 63)
  else if s.sequencing then s
  else { s with boot := { s.boot with seqMask := 2 ^ 18 - 1 } }.setF BOOT_RST_STATUS_PHASE 0 0 1

/-- The domains of a phase of R226: 3 hub and compute dies, 4 stacks, 5 light layer. -/
def phaseDomains (p : Nat) : List Nat :=
  if p = 3 then [0, 1, 2, 3, 4] else if p = 4 then (List.range 12).map (· + 6) else if p = 5 then [5] else []

/-- The phases after `p` that concern a domain being brought up; 6 when none is left. -/
def nextPhase (s : State) (p : Nat) : Nat :=
  ([3, 4, 5].find? fun q => p < q && (phaseDomains q).any fun i => s.boot.seqMask.testBit i).getD 6

/-- A phase begins: its domains are released; after the last, SEQ_DONE is set. -/
def seqEnter (s : State) (p : Nat) : State :=
  let s := s.setF BOOT_RST_STATUS_PHASE 0 0 p
  if p = 6 then { s with boot := { s.boot with seqMask := 0 } }.setF BOOT_RST_STATUS_SEQ_DONE 0 0 1
  else (phaseDomains p).foldl (fun s i => if s.boot.seqMask.testBit i then s.domainRelease i else s) s

/-- Bundles still untrained when their phase ends are retired (R226). -/
def retireUntrained (s : State) (p : Nat) : State :=
  let edges := ((phaseDomains p).filter fun i => s.boot.seqMask.testBit i).flatMap edgesOf
  edges.foldl (fun s x =>
    if s.getF BRZ_STATUS_STATE (brz x.1 x.2) 0 = 1 && (if p = 3 then decide (x.2 < 3) else true) then
      ((List.range (bundlesOf x.2)).foldl (fun s b =>
        if (s.getF BRZ_STATUS_ACTIVE (brz x.1 x.2) 0).testBit b then s else s.bundleTrainingEnd x.1 x.2 b false) s)
    else s) s

/-- SEQ_PHASE_END (R226). Device time starts at 0 when the root PLL locks (R418); the light layer starts when phase 5
ends (R258). -/
def seqPhaseEnd (s : State) : State :=
  if !s.sequencing then s
  else match s.getF BOOT_RST_STATUS_PHASE 0 0 with
    | 1 =>
      let s := { s with time := 0, frac := 0 }.setF BOOT_CLK_STATUS_ROOT_LOCK 0 0 1
      (s.setF BOOT_CLK_STATUS_LOCK 0 0 (s.getF BOOT_CLK_STATUS_LOCK 0 0 ||| 16)).setF BOOT_RST_STATUS_PHASE 0 0 2
    | 2 =>
      let s := s.setF BOOT_CLK_STATUS_LOCK 0 0 (s.getF BOOT_CLK_STATUS_LOCK 0 0 ||| s.boot.seqMask)
      s.seqEnter (s.nextPhase 2)
    | 5 =>
      let warm := fun (s : State) (i : Nat) =>
        if s.flag LC_STATUS_PRESENT 0 i then s.setF LC_STATUS_STATE 0 i 1 else s
      ([0, 1, 2].foldl warm (s.setF LL_STATUS_START_PHASE 0 0 1)).seqEnter 6
    | p => (s.retireUntrained p).seqEnter (s.nextPhase p)

/-- SEQ_PHASE_TIMEOUT (R226): a PLL does not lock within its phase. -/
def seqPhaseTimeout (s : State) : State :=
  let p := s.getF BOOT_RST_STATUS_PHASE 0 0
  if s.sequencing ∧ p ≤ 2 then
    (s.setF BOOT_RST_STATUS_STOPPED 0 0 1).hubRecord 0x0706 sevFailed 1 p [p]
  else s

/-- A reduce-on-write context is valid in some stack (R227). -/
def anyRowContext (s : State) : Bool :=
  (List.range 12).any fun ms => (List.range 256).any fun c => s.flag CRU_ROW_CFG_VALID ms c

/-- May the Forge reset a domain now (R227)? -/
def domainRstAllowed (s : State) : Bool :=
  s.getF PWR_STATUS_STATE 0 0 = 5 ||
  (s.getF PWR_STATUS_STATE 0 0 = 2 && !s.anyRunning && !s.anyRowContext)

/-- DOMAIN_RST (R227). -/
def domainRst (s : State) (mask : Nat) : State :=
  if mask = 0 then s
  else if !s.domainRstAllowed then
    (s.setF BOOT_RST_STATUS_REFUSED 0 0 1).hubRecord 0x0707 sevInfo 1 0 [mask]
  else if mask.testBit 4 then s.packageReset 3
  else ((List.range 18).foldl (fun s i => if mask.testBit i then s.domainHold i else s) s).sequence mask

/-- RESET_N_ASSERT (R226, R452). -/
def resetNAssert (s : State) : State := (s.packageReset 1).setF PWR_PINS_RESET_N 0 0 0

end State

def execFlitReceive (d : Fin 4) (e : Fin 6) (far : Bool) (b : Fin 8) (good : Bool) (f : Flit) (s : State) :=
  commit s (s.flitReceive d e far b good f)
def execResendRequest (d : Fin 4) (e : Fin 6) (far : Bool) (b : Fin 8) (bseq : BitVec 8) (s : State) :=
  commit s (s.resendRequest d e far b bseq)
def execBundleRetire (r : Requester) (d : Fin 4) (e : Fin 6) (mask : BitVec 8) (s : State) :=
  commit s (s.atReg r (brzReg d e 0) (s.bundleRetire d e mask.toNat))
def execBrzCntClr (r : Requester) (d : Fin 4) (e : Fin 6) (s : State) :=
  commit s (s.atReg r (brzReg d e 0x18) (s.brzCntClr d e))
def execSeqGo (r : Requester) (s : State) := commit s (s.seqGo r)
def execDomainRst (_r : Requester) (mask : BitVec 18) (s : State) := commit s (s.domainRst mask.toNat)
def execBundleTrainingEnd (d : Fin 4) (e : Fin 6) (b : Fin 8) (passed : Bool) (s : State) :=
  commit s (s.bundleTrainingEnd d e b passed)
def execLocalPllLoss (die : Fin 18) (s : State) := commit s (s.localPllLoss die)
def execRootPllLoss (s : State) := commit s s.rootPllLoss
def execSeqPhaseEnd (s : State) := commit s s.seqPhaseEnd
def execSeqPhaseTimeout (s : State) := commit s s.seqPhaseTimeout
def execResetNAssert (s : State) := commit s s.resetNAssert

end Sys2Proof.Machine
end

