-- ==== Sys2Proof/Machine/Verdict.lean ====
section
/-! DEFINITION. Step verdicts (R318, R325), and the anomaly triggers that hold them (R365, R366). -/

namespace Sys2Proof.Machine

/-- The module's own verdict for a step: FAIL over HOLD over GOOD (R318). -/
def StepVerdict.own (v : StepVerdict) : Nat :=
  if v.failed then 2 else if v.forgeHold || v.trigHold || v.dualHold then 1 else 0

/-- Verdicts combine as the worst; the reserved code counts as FAIL (R318). -/
def worse (a b : Nat) : Nat := max (min a 2) (min b 2)

/-- A step entered in ascending epoch, in place of what was kept for it. -/
def putStep (v : StepVerdict) : List StepVerdict → List StepVerdict
  | [] => [v]
  | x :: t => if x.epoch = v.epoch then v :: t else if v.epoch < x.epoch then v :: x :: t else x :: putStep v t

namespace State

/-- A step is SEALED once token 4032 has passed it (R123, R320). -/
def isSealed (s : State) (e : Nat) : Bool := decide (e < s.getF GE_TOKEN_COUNT 0 4032)

/-- What the module keeps for a step. -/
def stepOf (s : State) (e : Nat) : StepVerdict := (s.sealer.steps.find? fun v => v.epoch = e).getD { epoch := e }

/-- COL_SEAL_STATE shows the lowest unsealed step (R325). -/
def showSeal (s : State) : State :=
  match s.sealer.steps.head? with
  | some v =>
    (((s.setF COL_SEAL_STATE_EPOCH 0 0 v.epoch).setF COL_SEAL_STATE_OWN 0 0 v.own).setF COL_SEAL_STATE_COMBINED 0 0
      (worse v.own v.combined)).setF COL_SEAL_STATE_ROUND 0 0 v.round
  | none => (s.setF COL_SEAL_STATE_OWN 0 0 0).setF COL_SEAL_STATE_COMBINED 0 0 0

/-- A step's verdict replaced; a SEALED step keeps none (R318). -/
def setStep (s : State) (v : StepVerdict) : State :=
  if s.isSealed v.epoch then s
  else ({ s with sealer := { s.sealer with steps := putStep v s.sealer.steps } }).showSeal

/-- Does step `e` have a dual check (R357)? -/
def dualStep (s : State) (e : Nat) : Bool :=
  match s.getF HIC_RED_CFG_MODE 0 0 with
  | 1 => decide (s.getF HIC_RED_CFG_TS_FROM 0 0 ≤ e) &&
      decide ((e - s.getF HIC_RED_CFG_TS_FROM 0 0) % max 1 (s.getF HIC_RED_CFG_TS_N 0 0) = 0)
  | 2 => true
  | _ => false

/-- A step opened by the first dispatch of one of its tasks, held where it has a dual check (R358). -/
def openStep (s : State) (e : Nat) : State :=
  if s.isSealed e || (s.sealer.steps.any fun v => v.epoch = e) then s
  else s.setStep { epoch := e, dualHold := s.dualStep e }

/-! ### Triggers (R365, R366) -/

/-- The hour budget of triggers (R366). -/
def countTrigger (s : State) : State :=
  let h := s.time / 3600000000000
  let t := s.trig
  let n := if t.hour = h then t.inHour + 1 else 1
  let said := decide (t.hour = h) && t.budgetSaid
  let above := decide (s.getF HIC_TRIG_CFG_MAX_PER_H 0 0 < n)
  let s := { s with trig := { t with hour := h, inHour := n, budgetSaid := said || above } }
  if above && !said then s.hubRecord 0x0C0A sevDegraded 5 0 [n] else s

/-- A trigger's bit and record (R365). -/
def latchTrigger (s : State) (f : Field) (details : List Nat) (epoch : Nat := 0) : State :=
  ((s.setF f 0 0 1).hubRecord 0x0C08 sevInfo 5 f.lo details false epoch).countTrigger

/-- The steps a hardware trigger can hold: unsealed, GOOD not yet sent (R366). -/
def holdable (s : State) : List StepVerdict := s.sealer.steps.filter fun v => !v.sentGood

/-- The hold of a hardware trigger (R366). -/
def holdSteps (s : State) : State :=
  match s.holdable.getLast? with
  | some n =>
    (s.holdable.foldl (fun s v => s.setStep { v with trigHold := true }) s).setF HIC_TRIG_STATUS_EPOCH 0 0 n.epoch
  | none =>
    match s.sealer.steps.getLast? with
    | some n => s.record { event := 0x0C09, sev := sevInfo, unit := unitOf 4 5, epoch := n.epoch,
                           syn := Config.syndrome 0x0C09 [n.epoch] }
    | none => s

/-- A hardware trigger fires: bit, record, hold. -/
def fireTrigger (s : State) (f : Field) (details : List Nat) : State := (s.latchTrigger f details).holdSteps

/-- A resolved assay mismatch counted in its one-second window (R365). -/
def assayResolved (s : State) : State :=
  let w := s.time / 1000000000
  let n := if s.trig.assayWin = w then s.trig.assayCount + 1 else 1
  let s := { s with trig := { s.trig with assayWin := w, assayCount := n } }
  if n = s.getF HIC_TRIG_CFG_ASSAY_BURST 0 0 then s.fireTrigger HIC_TRIG_STATUS_ASSAY [n] else s

/-- A corrected error in a core's accumulator memory counted in its window (R365). -/
def coreEccBurst (s : State) (d p : Nat) : State :=
  let w := s.time / 1000000000
  let counts := if s.trig.coreWin = w then s.trig.coreCount else []
  let n := Tab.getN 0 counts (d * 34 + p) + 1
  let s := { s with trig := { s.trig with coreWin := w, coreCount := Tab.putN 0 counts (d * 34 + p) n } }
  if n = s.getF HIC_TRIG_CFG_ECC_BURST 0 0 then s.fireTrigger HIC_TRIG_STATUS_ECC [d, p] else s

/-- A corrected error in a stack counted in its window (R365). -/
def stackEccBurst (s : State) (ms : Nat) : State :=
  let w := s.time / 1000000000
  let st := s.stack ms
  let n := if st.burst.1 = w then st.burst.2 + 1 else 1
  let s := s.setStack ms { st with burst := (w, n) }
  if n = s.getF HIC_TRIG_CFG_ECC_BURST 0 0 then s.fireTrigger HIC_TRIG_STATUS_ECC [6 + ms] else s

end State

end Sys2Proof.Machine
end

