-- ==== Sys2Proof/Machine/Range.lean ====
section
/-! DEFINITION. Range statistics (R80 to R84, R86). -/

namespace Sys2Proof.Machine

/-- What a list of counts adds to a slot (R81): the class counts, and the exponents seen. -/
structure SlotDelta where
  total : Nat := 0
  ovf : Nat := 0
  van : Nat := 0
  sub : Nat := 0
  nonfinite : Nat := 0
  top : Option Int := none
  low : Option Int := none
  deriving DecidableEq, Repr

/-- One count entered (R81). -/
def SlotDelta.add (x : SlotDelta) (c : Count) : SlotDelta :=
  let x := { x with total := x.total + 1 }
  let x := match c.cls with
    | .nonfinite => { x with nonfinite := x.nonfinite + 1 }
    | .ovf => { x with ovf := x.ovf + 1 }
    | .van => { x with van := x.van + 1 }
    | .sub => { x with sub := x.sub + 1 }
    | .normal => x
  match c.exp with
  | none => x
  | some e => { x with
      top := some (match x.top with | some t => max t e | none => e)
      low := some (match x.low with | some t => min t e | none => e) }

/-- The counts of a conversion point. -/
def countDelta (cs : List Count) : SlotDelta := cs.foldl SlotDelta.add {}

/-- The counts of foot stage F1: OVF and VAN events only (R73, R81). -/
def footDelta (cs : List RangeClass) : SlotDelta :=
  { ovf := cs.count .ovf, van := cs.count .van }

/-- Two halves of a counter word raised, each holding at all ones (R84). -/
def addHalves (w : Word) (hi lo : Nat) : Word :=
  BitVec.ofNat 64 (min (w.bits 63 32 + hi) (2 ^ 32 - 1) * 2 ^ 32 + min (w.bits 31 0 + lo) (2 ^ 32 - 1))

/-- The exponent word: MAX_EXP in bits 31:16, MIN_EXP in bits 15:0, signed (R86). -/
def expWord (w : Word) (x : SlotDelta) : Word :=
  let hi := (BitVec.ofNat 16 (w.bits 31 16)).toInt
  let lo := (BitVec.ofNat 16 (w.bits 15 0)).toInt
  let hi := match x.top with | some t => max hi t | none => hi
  let lo := match x.low with | some t => min lo t | none => lo
  BitVec.ofNat 64 ((BitVec.ofInt 16 hi).toNat * 65536 + (BitVec.ofInt 16 lo).toNat)

/-- The live bank of a parity, and the header register of it. -/
def liveBank (par : Nat) : RegName := if par = 0 then .GE_RSTAT_SLOT_LIVE0 else .GE_RSTAT_SLOT_LIVE1
def bankTag (par : Nat) : Field := if par = 0 then GE_RSTAT_BANK0_TAG else GE_RSTAT_BANK1_TAG
def bankMixed (par : Nat) : Field := if par = 0 then GE_RSTAT_BANK0_MIXED else GE_RSTAT_BANK1_MIXED
def bankNonempty (par : Nat) : Field := if par = 0 then GE_RSTAT_BANK0_NONEMPTY else GE_RSTAT_BANK1_NONEMPTY

namespace State

/-- A word of a slot changed. -/
def slotWord (s : State) (r : RegName) (d i : Nat) (f : Word → Word) : State :=
  s.putR ⟨r, d, i⟩ (f (s.getR ⟨r, d, i⟩))

/-- Counts entered into slot `slot` of die `d` for epoch `e` (R82, R83): discarded while EN is 0. -/
def enterCounts (s : State) (d slot e : Nat) (x : SlotDelta) : State :=
  if !s.flag GE_RSTAT_CTRL_EN d 0 || x == {} then s
  else
    let p := e % 2
    let s := if !s.flag (bankNonempty p) d 0 then (s.setF (bankNonempty p) d 0 1).setF (bankTag p) d 0 e
      else if s.getF (bankTag p) d 0 ≠ e then s.setF (bankMixed p) d 0 1 else s
    let r := liveBank p
    let s := s.slotWord r d (4 * slot) fun w => BitVec.ofNat 64 (min (w.toNat + x.total) (2 ^ 64 - 1))
    let s := s.slotWord r d (4 * slot + 1) fun w => addHalves w x.ovf x.van
    let s := s.slotWord r d (4 * slot + 2) fun w => addHalves w x.sub x.nonfinite
    s.slotWord r d (4 * slot + 3) fun w => expWord w x

/-- The registers of a bank of die `d` cleared. -/
def clearBank (s : State) (d : Nat) (r : RegName) : State :=
  { s with regs := s.regs.filter fun e => !(e.1.name == r && e.1.inst == d) }

/-- A live bank's header cleared. -/
def clearHeader (s : State) (d p : Nat) : State :=
  s.putR ⟨if p = 0 then .GE_RSTAT_BANK0 else .GE_RSTAT_BANK1, d, 0⟩ 0

/-- A snapshot (R83): the live bank of parity `p` becomes the snapshot bank under epoch `e`. -/
def snapBank (s : State) (d p e : Nat) (forced : Bool) : State :=
  let live := s.regs.filter fun x => x.1.name == liveBank p && x.1.inst == d
  let mixed := s.flag (bankMixed p) d 0 || (s.flag (bankNonempty p) d 0 && decide (s.getF (bankTag p) d 0 ≠ e))
  let s := ((s.clearBank d .GE_RSTAT_SLOT_SNAP).clearBank d (liveBank p)).clearHeader d p
  let s := live.foldl (fun s x => s.putR ⟨.GE_RSTAT_SLOT_SNAP, d, x.1.idx⟩ x.2) s
  let s := if s.flag GE_RSTAT_SNAP_READY d 0 then s.setF GE_RSTAT_SNAP_OVERRUN d 0 1 else s
  let s := (s.setF GE_RSTAT_SNAP_EPOCH d 0 e).wrapF GE_RSTAT_SNAP_SEQ d 0
  let s := (s.setF GE_RSTAT_SNAP_MIXED d 0 (if mixed then 1 else 0)).setF GE_RSTAT_SNAP_FORCED d 0 (if forced then 1 else 0)
  s.setF GE_RSTAT_SNAP_READY d 0 1

/-- SNAP_NOW (R83). -/
def snapNow (s : State) (d : Nat) : State :=
  let n0 := s.flag (bankNonempty 0) d 0
  let n1 := s.flag (bankNonempty 1) d 0
  let t0 := s.getF (bankTag 0) d 0
  let t1 := s.getF (bankTag 1) d 0
  if n0 && (!n1 || decide (t0 < t1)) then s.snapBank d 0 t0 true
  else if n1 then s.snapBank d 1 t1 true
  else s

/-- CLR_ALL (R86): both live banks, the snapshot bank and all flags. -/
def clrAll (s : State) (d : Nat) : State :=
  let s := ((s.clearBank d .GE_RSTAT_SLOT_SNAP).clearBank d .GE_RSTAT_SLOT_LIVE0).clearBank d .GE_RSTAT_SLOT_LIVE1
  let s := (s.clearHeader d 0).clearHeader d 1
  let s := (s.setF GE_RSTAT_SNAP_MIXED d 0 0).setF GE_RSTAT_SNAP_OVERRUN d 0 0
  (s.setF GE_RSTAT_SNAP_FORCED d 0 0).setF GE_RSTAT_SNAP_READY d 0 0

/-- A write of GE_RSTAT_CTRL's action bits: CLR_ALL cancels SNAP_NOW (R83). -/
def rstatCtrl (s : State) (d : Nat) (v : Word) : State :=
  if v.bit 2 then s.clrAll d else if v.bit 1 then s.snapNow d else s

/-- A task the engine has taken and not ended. -/
def taskLive (s : State) (t : TaskId × Task) : Bool :=
  decide (s.slotState t.1.d t.1.g = 3) && decide (t.2.status ≠ .completed ∧ t.2.status ≠ .cancelled)

/-- Is the step boundary of `e` due on die `d`: no incomplete task of `e`, a task of a later epoch dispatched, and not
taken before (R83)? -/
def boundaryDue (s : State) (d e : Nat) : Bool :=
  decide ((s.engine d).boundary ≤ e) && decide (e + 1 < (s.engine d).top) &&
  !(s.tasksOf d).any fun t => s.taskLive t && decide (t.2.epoch = e)

/-- STEP_BOUNDARY (R83). -/
def stepBoundary (s : State) (d e : Nat) : State :=
  if s.boundaryDue d e then
    let x := s.engine d
    (s.setEngine d { x with boundary := e + 1 }).snapBank d (e % 2) e false
  else s

end State

def execStepBoundary (d : Fin 4) (epoch : BitVec 32) (s : State) := commit s (s.stepBoundary d epoch.toNat)
def execSnapNow (r : Requester) (d : Fin 4) (s : State) := commit s (s.atReg r (dieReg d 0x400000) (s.snapNow d))
def execClrAll (r : Requester) (d : Fin 4) (s : State) := commit s (s.atReg r (dieReg d 0x400000) (s.clrAll d))

end Sys2Proof.Machine
end

