-- ==== Sys2Proof/Machine/Stack.lean ====
section
/-! DEFINITION. Crucible stacks, the storage side: ECC (R180), page versioning (R204 to R208), compression (R189 to R192),
and the one write path of stack memory, pools and scratchpads (R187, R192). -/

namespace Sys2Proof.Machine

/-- Frames of a stack (R179). -/
def framesPerStack : Nat := 32768

/-- The DRAM byte number of granule place (channel, row-granule, 32-byte granule) of a stack. -/
def granPlace (ms ch rowg gran : Nat) : Place := ⟨ms, ch, rowg, 32 * gran⟩

namespace State

/-! ### ECC (R180) -/

/-- CRU_ECC_LAST latches a location once (R213). -/
def latchEcc (s : State) (ms ch rowg gran : Nat) (uncorr : Bool) : State :=
  if s.flag CRU_ECC_LAST_VALID ms 0 then s
  else
    let s := (s.setF CRU_ECC_LAST_VALID ms 0 1).setF CRU_ECC_LAST_UNCORR ms 0 (if uncorr then 1 else 0)
    ((s.setF CRU_ECC_LAST_CHANNEL ms 0 ch).setF CRU_ECC_LAST_ROWG ms 0 rowg).setF CRU_ECC_LAST_GRAN ms 0 gran

/-- A corrected error: counted, latched, the first of its channel in a 1 ms window recorded (R180), bursts watched
(R365). -/
def eccCorrected (s : State) (ms ch rowg gran : Nat) : State :=
  let s := (s.addF CRU_ECC_CORR ms 0 1).latchEcc ms ch rowg gran false
  let w := s.time / 1000000 + 1
  let st := s.stack ms
  let s := if Tab.getN 0 st.corrWin ch = w then s
    else (s.setStack ms { st with corrWin := Tab.putN 0 st.corrWin ch w }).stackRecord 0x0601 sevInfo ms 0 ch [ch, rowg, gran]
  s.stackEccBurst ms

/-- An uncorrectable error: counted, latched, recorded (R180). -/
def eccUncorrectable (s : State) (ms ch rowg gran : Nat) : State :=
  ((s.addF CRU_ECC_UNCORR ms 0 1).latchEcc ms ch rowg gran true).stackRecord 0x0602 sevSuspect ms 0 ch [ch, rowg, gran]

/-- What a read of the granule at a place finds, acted on (R180). -/
def eccRead (s : State) (p : Place) (e : Ecc) : State :=
  match e with
  | .clean => s
  | .corrected => s.eccCorrected p.stack p.channel p.rowg (p.off / 32)
  | .uncorrectable => (s.eccUncorrectable p.stack p.channel p.rowg (p.off / 32)).setGranBad p true

/-! ### Frames and versions (R204 to R207) -/

/-- Free frames of the version reserve (R204). -/
def freeFrames (s : State) (ms : Nat) : Nat :=
  let st := s.stack ms
  (s.getF CRU_VER_CFG_RESERVE ms 0 - st.taken) + st.freed.length

/-- A free frame taken: a returned one first, else the next of the reserve (DESIGN CHOICE, assumption 22). -/
def takeFrame (s : State) (ms : Nat) : Option (Nat × State) :=
  let st := s.stack ms
  match st.freed with
  | f :: t => some (f, s.setStack ms { st with freed := t })
  | [] =>
    if st.taken < s.getF CRU_VER_CFG_RESERVE ms 0 then
      some (framesPerStack - s.getF CRU_VER_CFG_RESERVE ms 0 + st.taken, s.setStack ms { st with taken := st.taken + 1 })
    else none

/-- A frame returned; the count of R208 starts again. -/
def giveFrame (s : State) (ms f : Nat) : State :=
  let st := s.stack ms
  s.setStack ms { st with freed := st.freed ++ [f], waitStage := 0 }

/-- The entry, stack and page of a stack-memory address. -/
def pageAt (s : State) (a : Nat) : Option (Nat × Nat × Nat) :=
  (s.findRegion a).map fun e =>
    let p := (s.region e).place (a - (s.region e).base)
    (e, p.stack, p.rowg / 16)

/-- Does a buffer line belong to page `p` of a stack's versioned regions? -/
def lineInPage (s : State) (ms p line : Nat) : Bool :=
  match s.pageAt (line * 64) with
  | some x => (s.region x.1).ver && decide (x.2.1 = ms) && decide (x.2.2 = p)
  | none => false

/-- The buffered lines of a page written to its current frame (R187). -/
def flushPage (s : State) (ms p : Nat) : State :=
  ((s.stack ms).wcb.filter fun l => s.lineInPage ms p l.line).foldl (fun s l => s.writeBack ms l) s

/-- Does the DRAM byte number lie in frame `f` of the stack? -/
def inFrame (ms f a : Nat) : Bool := decide (a / 2 ^ 36 = ms) && decide (a % 2 ^ 31 / 65536 = f)

/-- A frame's bytes and poison copied to another (R205). -/
def copyFrame (s : State) (ms f g : Nat) : State :=
  let move := fun (a : Nat) => a - f * 65536 + g * 65536
  let bytes := s.dram.filter fun e => inFrame ms f e.1
  let bad := s.granPoison.filter fun e => inFrame ms f (e.1 * 32)
  { s with
    dram := bytes.foldl (fun t e => Tab.putN memDefault t (move e.1) e.2)
      (s.dram.filter fun e => !inFrame ms g e.1)
    granPoison := bad.foldl (fun t e => Tab.putN false t (move (e.1 * 32) / 32) e.2)
      (s.granPoison.filter fun e => !inFrame ms g (e.1 * 32)) }

/-- A first-touch copy of the page is running. -/
def copying (s : State) (ms p : Nat) : Bool := (s.stack ms).copies.any fun c => c.page = p

/-- A versioned write whose page needs a first-touch copy (R205). -/
def needsCopy (v : PageVer) (e : Nat) : Bool := decide (v.vep < e) || v.pin.isSome

/-- A first-touch copy started: at most 8 run, both retained slots must not be full, a frame must be free (R205). -/
def startCopy (s : State) (ms p e : Nat) : State :=
  if 8 ≤ (s.stack ms).copies.length ∨ 2 ≤ (s.pageVer ms p).retained.length then s
  else match s.takeFrame ms with
    | some (f, s) =>
      let st := s.stack ms
      s.setStack ms { st with copies := st.copies ++ [⟨p, e, f⟩] }
    | none => s

/-- The page and epoch of a versioned write; a requester that is no task writes under the page's VEP (DESIGN CHOICE,
assumption 23). -/
def writeEpoch (v : PageVer) (w : WriteReq) : Nat := w.epoch.getD v.vep

/-- The page number of a write's address. -/
def writePage (s : State) (w : WriteReq) : Nat := match s.pageAt w.addr with | some x => x.2.2 | none => 0

/-- One versioned write tried (R205): performed, or left waiting behind a copy, a slot or a frame, or behind an earlier
write to its page. -/
def verTry (ms : Nat) (s : State) (w : WriteReq) : State :=
  let st := s.stack ms
  let p := s.writePage w
  let v := s.pageVer ms p
  let wait := s.setStack ms { st with waiting := st.waiting ++ [w] }
  if (st.waiting.any fun x => s.writePage x = p) || s.copying ms p then wait
  else if needsCopy v (writeEpoch v w) then wait.startCopy ms p (writeEpoch v w)
  else
    let s := if writeEpoch v w < v.vep then
        s.record { event := 0x0606, sev := sevInfo, unit := unitOf (6 + ms) 3, sub := 0, epoch := writeEpoch v w,
                   syn := Config.syndrome 0x0606 [ms, p, writeEpoch v w, v.vep] }
      else s
    s.wcbEnter ms w.addr w.data w.epoch w.poison

/-- A waiting write lacks only a frame (R208). -/
def lacksFrame (s : State) (ms : Nat) : Bool :=
  decide (s.freeFrames ms = 0) && (s.stack ms).waiting.any fun w =>
    let p := s.writePage w
    !s.copying ms p && decide ((s.pageVer ms p).retained.length < 2) &&
      needsCopy (s.pageVer ms p) (writeEpoch (s.pageVer ms p) w)

/-- CRU_VER_STATUS.WAITING follows the waiting writes; the wait of an ingot is added to ING_RD.WAIT_US (R340). -/
def showWait (s : State) (ms : Nat) : State :=
  let st := s.stack ms
  if s.lacksFrame ms then
    match st.waitSince with
    | some _ => s
    | none => (s.setStack ms { st with waitSince := some s.time, waitStage := 0 }).setF CRU_VER_STATUS_WAITING ms 0 1
  else match st.waitSince with
    | some t0 =>
      let s := s.setStack ms { st with waitSince := none, waitStage := 0 }
      let s := if s.ingot.active then s.addF ING_RD_WAIT_US 0 ms ((s.time - t0) / 1000) else s
      s.setF CRU_VER_STATUS_WAITING ms 0 0
    | none => s

/-- The waiting writes of a stack tried again in arrival order. -/
def pump (s : State) (ms : Nat) : State :=
  let st := s.stack ms
  (st.waiting.foldl (verTry ms) (s.setStack ms { st with waiting := [] })).showWait ms

/-- A write of an ingot's epoch or an earlier one to a pinned page (R336). -/
def noteLate (s : State) (ms : Nat) (w : WriteReq) : State :=
  let v := s.pageVer ms (s.writePage w)
  let late := ((v.pin :: v.retained.map (·.pin)).filterMap id).any fun i => decide (writeEpoch v w ≤ i)
  if late && w.epoch.isSome then
    (s.addF ING_RD_LATE 0 ms 1).record {
      event := 0x0B02, sev := sevInfo, unit := unitOf 4 4, sub := ms, epoch := writeEpoch v w,
      syn := Config.syndrome 0x0B02 [ms, s.writePage w, writeEpoch v w] }
  else s

/-- A write to a versioned page (R205); between a retract and RETRACT_DONE, one of a retracted epoch is discarded
(R207). -/
def verWrite (s : State) (ms : Nat) (w : WriteReq) : State :=
  if (s.stack ms).retract.any fun r => w.epoch.any fun e => decide (r ≤ e) then s
  else ((s.noteLate ms w).verTry ms w).showWait ms

/-! ### Compression (R189 to R192) -/

/-- Exponent width and plane bits of a lossless element format (R189). -/
def planes (elem : Nat) : Nat × Nat :=
  match elem with
  | 0 => (4, 4) | 1 => (5, 3) | 2 => (5, 11) | 3 => (8, 8) | _ => (8, 24)

/-- The exponent field of an element's encoding. -/
def expField (elem code : Nat) : Nat :=
  let x := planes elem
  let frac := x.2 - 1
  code / 2 ^ frac % 2 ^ x.1

/-- The packed bits of a group of 64 elements (R189). -/
def groupBits (elem : Nat) (fields : List Nat) : Nat :=
  let x := planes elem
  let base := (fields.filter (· ≠ 0)).foldl (fun (m : Option Nat) v => some (match m with | some k => min k v | none => v)) none
  let top := fields.foldl (fun m v => max m (if v = 0 then 0 else v - base.getD 0 + 1)) 0
  let w := if top = 0 then 0 else Nat.log2 top + 1
  12 + 64 * ((if x.1 ≤ w then x.1 else w) + x.2)

/-- Elements of a list of bytes, `n` bytes each. -/
def elements (n : Nat) : Nat → List Byte → List Nat
  | 0, _ => []
  | fuel + 1, bs => if bs = [] then [] else ofLe (bs.take n) :: elements n fuel (bs.drop n)

/-- Consecutive groups of a list. -/
def groupsOf {α : Type} (n : Nat) : Nat → List α → List (List α)
  | 0, _ => []
  | fuel + 1, l => if l.isEmpty then [] else l.take n :: groupsOf n fuel (l.drop n)

/-- The 64-byte sectors a granule's coding takes; 64 where it is stored as is (R189). -/
def granSectors (elem : Nat) (bs : List Byte) : Nat :=
  let n := elemBits elem / 8
  let fields := (elements n 4096 bs).map (expField elem)
  let bits := ((groupsOf 64 64 fields).map (groupBits elem)).foldl (· + ·) 0
  min 64 ((bits + 511) / 512)

/-- Sectors of a channel's share of a lossless region, after the map (R190). -/
def poolSectors (r : Region) : Nat := (r.size * 65536 - (r.size * r.lratio * 4 + 63) / 64 * 64) / 64

/-- The first run of `n` free sectors below `limit`, given the runs in use (first fit: DESIGN CHOICE, assumption 24). -/
def firstFit (used : List (Nat × Nat)) (n limit : Nat) : Option Nat :=
  let starts := 0 :: used.map fun u => u.1 + u.2
  (starts.filter fun f => decide (f + n ≤ limit) && used.all fun u => decide (f + n ≤ u.1) || decide (u.1 + u.2 ≤ f)).foldl
    (fun (m : Option Nat) f => some (match m with | some k => min k f | none => f)) none

/-- The sector runs of the granules of one channel of a region, `g` apart. -/
def usedRuns (s : State) (e g : Nat) : List (Nat × Nat) :=
  let r := s.region e
  let p := r.place (g * 4096 - r.base)
  ((s.stack p.stack).comp.filter fun x =>
      decide (x.1 ≠ g) && decide (s.findRegion (x.1 * 4096) = some e) &&
      decide ((r.place (x.1 * 4096 - r.base)).channel = p.channel) && decide (0 < x.2.sectors)).map fun x =>
    (x.2.first, x.2.sectors)

/-- The map entry of granule `g` replaced. -/
def putComp (s : State) (ms g : Nat) (x : CompEntry) : State :=
  let st := s.stack ms
  s.setStack ms { st with comp := Tab.putN {} st.comp g x }

/-- A byte of a granule that LOST has left without a stored value: a free value. -/
def lostByte (s : State) (i : Nat) : Byte := (Config.freeValue (s.fresh + i)).setWidth 8

/-- A write into a lossless granule (R190): decompress, merge, recompress; the old sectors are freed first. A part of a
lost granule that the write does not cover holds free values. -/
def losslessWrite (s : State) (e a : Nat) (data : List Byte) : State :=
  let r := s.region e
  let g := a / 4096
  let ms := (r.place (a - r.base)).stack
  let old := s.compEntry e a
  let base := g * 4096
  let cur := fun i => if old.lost then s.lostByte i else Tab.getN memDefault s.packed (base + i)
  let bs := (List.range 4096).map fun i =>
    if a ≤ base + i ∧ base + i < a + data.length then data.getD (base + i - a) 0 else cur i
  let s := if old.lost then { s with fresh := s.fresh + 4096 } else s
  let n := granSectors r.elem bs
  match firstFit (s.usedRuns e g) n (poolSectors r) with
  | some f =>
    let s := { s with packed := (List.range 4096).foldl (fun t i =>
      Tab.putN memDefault t (base + i) (bs.getD i 0)) s.packed }
    s.putComp ms g { raw := n = 64, lost := false, sectors := n, first := f }
  | none =>
    let s := s.putComp ms g { lost := true }
    let s := { s with packed := s.packed.filter fun x => !decide (x.1 / 4096 = g) }
    ((s.addF CRU_STATUS_COMP_LOST ms 0 1).stackRecord 0x0603 sevSuspect ms 0 (r.place (a - r.base)).channel
      [base]).pulse (6 + ms) 2

/-- Granules of a lossless region that a write covers whole take its poison (R180). -/
def markPacked (s : State) (w : WriteReq) : State :=
  let off := w.addr % 64
  ([0, 1].filter fun g => decide (off ≤ 32 * g ∧ 32 * g + 32 ≤ off + w.data.length)).foldl (fun s g =>
    { s with linePoison := Tab.putN false s.linePoison (packedMark (w.addr - off + 32 * g)) (w.poison.contains g) }) s

/-- A reduced region's refusal of a write (R191). -/
def reducedDrop (s : State) (ms a : Nat) : State := s.stackRecord 0x0604 sevSuspect ms 0 0 [a]

/-- One byte stored straight to DRAM. -/
def pokeDram (s : State) (e a : Nat) (b : Byte) : State := (s.setDram (s.locate e a) b).setGranBad (s.locate e a) false

/-- A write into a reduced region (R191): a whole line of 32 BF16 or FP16 elements becomes one MXFP8 block; conversions
count in the named slot of the owning die and draw noise from CRU_SEED (R192). -/
def reducedWrite (s : State) (e : Nat) (w : WriteReq) : State :=
  let r := s.region e
  let ms := (r.place (w.addr - r.base)).stack
  match w.conv, (w.conv.bind fun c => if c.fmt = 2 ∨ c.fmt = 3 then elemFmt c.fmt else none) with
  | some c, some f =>
    if w.data.length ≠ 64 ∨ w.addr % 64 ≠ 0 then s.reducedDrop ms w.addr
    else
      let xs := (elements 2 32 w.data).map f.decode
      let out := if r.comp = 2 then e4m3 else e5m2
      let seed := s.getR ⟨.CRU_SEED, ms, 0⟩
      let b := mxBlock out (if r.rnd = 1 then .stochastic else .nearest)
        (fun i => noise seed (w.epoch.getD 0) w.tensor (c.index0 + i)) xs
      let i0 := (w.addr - r.base) / 2
      let s := (List.range 32).foldl (fun s i =>
        s.pokeDram e (r.base + i0 + i) (BitVec.ofNat 8 (b.2.1.getD i 0))) s
      let s := s.pokeDram e (r.base + r.length / 2 + i0 / 32) (BitVec.ofNat 8 b.1)
      s.enterCounts (ms / 3) c.slot (w.epoch.getD 0) (countDelta b.2.2)
  | _, _ => s.reducedDrop ms w.addr

/-! ### The write path (R187) -/

/-- An INFO record for an access to an unmapped address (R19). -/
def unmapped (s : State) (w : WriteReq) : State :=
  match w.owner with
  | some t => s.accessRecord 0x0102 (.task t) w.addr
  | none => s

/-- A write request within one 64-byte line: dropped at an unmapped address or behind a failed edge; else into a pool or
scratchpad, or to its stack through the path of its region. -/
def write (s : State) (w : WriteReq) : State :=
  if !s.mapped w.addr then s.unmapped w
  else if !isStackAddr w.addr then
    let s := s.storeLocal w.addr w.data
    if w.poison.isEmpty then s else { s with linePoison := Tab.putN false s.linePoison (w.addr / 64) true }
  else match s.findRegion w.addr with
    | none => s
    | some e =>
      let r := s.region e
      let ms := (r.place (w.addr - r.base)).stack
      if s.unreachable ms then s
      else if r.comp = 1 then (s.losslessWrite e w.addr w.data).markPacked w
      else if r.comp = 2 ∨ r.comp = 3 then s.reducedWrite e w
      else if r.ver then s.verWrite ms w
      else s.wcbEnter ms w.addr w.data w.epoch w.poison

/-- Consecutive bytes of one writer, line by line, without a conversion. -/
def writePlain (s : State) (a : Nat) (data : List Byte) (epoch : Option Nat) (tensor : Nat) (owner : Option TaskId) : State :=
  (linesOf a data).foldl (fun s l =>
    s.write { addr := l.1, data := l.2, epoch := epoch, tensor := tensor, conv := none, owner := owner }) s

/-- A write waits for a page of some stack on behalf of a task. -/
def writeWaits (s : State) (t : TaskId) : Bool :=
  (List.range 12).any fun ms => (s.stack ms).waiting.any fun w => w.owner = some t

/-! ### Freeing, restoring, forcing (R206 to R208) -/

/-- Every page with an entry in a stack's version table. -/
def verPages (s : State) (ms : Nat) : List (Nat × PageVer) :=
  (s.stack ms).ver.filterMap fun x => x.2.map fun v => (x.1, v)

/-- Retained frames of a page that `drop` selects are freed. -/
def dropRetained (s : State) (ms p : Nat) (drop : Retained → Bool) : State :=
  let v := s.pageVer ms p
  (v.retained.filter drop).foldl (fun s r => s.giveFrame ms r.frame)
    (s.setPageVer ms p { v with retained := v.retained.filter fun r => !drop r })

/-- COMMIT of step `c`: unpinned frames tagged below `c` are freed (R206). -/
def freeCommitted (s : State) (ms c : Nat) : State :=
  ((s.verPages ms).foldl (fun s x => s.dropRetained ms x.1 fun r => r.pin.isNone && decide (r.tag + 1 ≤ c)) s).pump ms

/-- A pinned frame of a page unpinned, and freed if its successor step is COMMITTED (R206). -/
def unpin (s : State) (ms p frame : Nat) : State :=
  let v := s.pageVer ms p
  let done := fun (r : Retained) => decide (r.frame = frame) && decide (r.tag + 2 ≤ s.getF GE_TOKEN_COUNT (ms / 3) 4033)
  if v.cur = frame then s.setPageVer ms p { v with pin := none }
  else
    let v := { v with retained := v.retained.map fun r => if r.frame = frame then { r with pin := none } else r }
    ((s.setPageVer ms p v).dropRetained ms p done).pump ms

/-- The retained frame with the largest tag below `e`. -/
def restorePoint (v : PageVer) (e : Nat) : Option Retained :=
  v.retained.foldl (fun (b : Option Retained) r =>
    if r.tag < e then match b with
      | some x => if x.tag < r.tag then some r else b
      | none => some r
    else b) none

/-- One page restored to its state before step `e` (R207). -/
def restorePage (ms e : Nat) (s : State) (x : Nat × PageVer) : State :=
  let v := x.2
  if v.vep < e then s
  else match restorePoint v e with
    | none => s
    | some r =>
      let keep := v.retained.filter fun y => decide (y.tag < e) && decide (y.frame ≠ r.frame)
      let s := (s.giveFrame ms v.cur).setPageVer ms x.1 { cur := r.frame, vep := r.tag, retained := keep, pin := r.pin }
      (v.retained.filter fun y => decide (e ≤ y.tag)).foldl (fun s y => s.giveFrame ms y.frame) s

/-- Bytes of retracted epochs leave the buffer (R207). -/
def dropBytes (s : State) (ms e : Nat) : State :=
  let st := s.stack ms
  let old := fun (x : Nat × Option (Byte × Option Nat)) => !(x.2.any fun b => b.2.any fun k => decide (e ≤ k))
  let cut := fun (l : WcbLine) =>
    match s.pageAt (l.line * 64) with
    | some y =>
      if (s.region y.1).ver then
        let bs := l.bytes.filter old
        { l with bytes := bs, poison := l.poison.filter fun g => coversGran bs g }
      else l
    | none => l
  s.setStack ms { st with wcb := (st.wcb.map cut).filter fun l => !l.bytes.isEmpty }

/-- The retract of step `e` in a stack (R207): writes of `e` or later gone, pages restored, held writes of earlier epochs
performed; one that a forced commit has made impossible is reported (R208). -/
def stackRetract (s : State) (ms e : Nat) : State :=
  let s := if s.flag CRU_VER_STATUS_FORCED ms 0 && decide (e ≤ s.getF CRU_VER_STATUS_FORCED_EPOCH ms 0) then
      s.record { event := 0x0609, sev := sevFailed, unit := unitOf (6 + ms) 3, epoch := e,
                 syn := Config.syndrome 0x0609 [ms, e] }
    else s
  let st := s.stack ms
  let gone := st.copies.filter fun c => decide (e ≤ c.epoch)
  let s := s.setStack ms { st with
    retract := some e
    waiting := st.waiting.filter fun w => !(w.epoch.any fun k => decide (e ≤ k))
    copies := st.copies.filter fun c => !decide (e ≤ c.epoch) }
  let s := gone.foldl (fun s c => s.giveFrame ms c.frame) s
  let s := s.dropBytes ms e
  ((s.verPages ms).foldl (restorePage ms e) s).pump ms

/-- FIRST_TOUCH_COPY_DONE (R205, R180): the copy that has run longest ends; `corr` and `bad` are the granules of the page
it found corrected and uncorrectable. -/
def firstTouchDone (s : State) (ms : Nat) (corr bad : List Nat) : State :=
  match (s.stack ms).copies with
  | [] => s
  | c :: rest =>
    let v := s.pageVer ms c.page
    let at_ := fun (f g : Nat) => granPlace ms (g / 2048 % 32) (16 * f + g % 2048 / 128) (g % 128)
    let s := s.flushPage ms c.page
    let s := corr.foldl (fun s g => s.eccRead (at_ v.cur g) .corrected) s
    let s := bad.foldl (fun s g =>
      s.eccUncorrectable ms (g / 2048 % 32) (16 * v.cur + g % 2048 / 128) (g % 128)) s
    let s := s.copyFrame ms v.cur c.frame
    let s := bad.foldl (fun s g => s.setGranBad (at_ c.frame g) true) s
    let st := s.stack ms
    let s := s.setStack ms { st with copies := rest }
    let s := s.setPageVer ms c.page {
      cur := c.frame, vep := max v.vep c.epoch, pin := none,
      retained := v.retained ++ [⟨v.cur, v.vep, v.pin⟩] }
    s.pump ms

/-- Every ingot pin of a stack dropped; frames only a pin held are freed (R208). -/
def dropPins (s : State) (ms : Nat) : State :=
  let t := s.getF GE_TOKEN_COUNT (ms / 3) 4033
  ((s.verPages ms).foldl (fun s x =>
    let v := s.pageVer ms x.1
    let v := { v with pin := none, retained := v.retained.map fun r => { r with pin := none } }
    (s.setPageVer ms x.1 v).dropRetained ms x.1 fun r => decide (r.tag + 2 ≤ t)) s).pump ms

/-- FORCED_COMMIT (R208, stage 2): the retained frames with the oldest tag freed. -/
def forcedCommit (s : State) (ms : Nat) : State :=
  let tags := (s.verPages ms).flatMap fun x => x.2.retained.map (·.tag)
  match tags with
  | [] => s
  | t :: r =>
    if !s.flag CRU_VER_STATUS_WAITING ms 0 || decide ((s.stack ms).waitStage ≠ 1) then s
    else
      let t := r.foldl min t
      let s := (s.setF CRU_VER_STATUS_FORCED_EPOCH ms 0 (t + 1)).setF CRU_VER_STATUS_FORCED ms 0 1
      let s := s.record { event := 0x0608, sev := sevDegraded, unit := unitOf (6 + ms) 3, epoch := t + 1,
                          syn := Config.syndrome 0x0608 [ms, t + 1] }
      ((s.verPages ms).foldl (fun s x => s.dropRetained ms x.1 fun y => decide (y.tag = t)) s).pump ms

end State

end Sys2Proof.Machine
end

