-- ==== Sys2Proof/Machine/Fabric.lean ====
section
/-! DEFINITION. The sending side of the fabric: frame fields (R261 to R263), routes and datelines (R271, R272), credit and
transmission (R266, R268), and the loss of a link as far as the port goes (R267). -/

namespace Sys2Proof

/-! ### Frame fields (R261) -/

namespace Frame

def dst (f : Frame) : Nat := f.w0.bits 63 40
def dstDie (f : Frame) : Nat := f.w0.bits 39 37
def vl (f : Frame) : Nat := f.w0.bits 36 34
def dl (f : Frame) : Bool := f.w0.bit 32
def src (f : Frame) : Nat := f.w0.bits 31 8
def srcDie (f : Frame) : Nat := f.w0.bits 7 5
def epoch (f : Frame) : Nat := f.w1.bits 63 32
def job (f : Frame) : Nat := f.w1.bits 31 16
def kind (f : Frame) : Nat := f.w1.bits 15 8
def flags (f : Frame) : Nat := f.w1.bits 7 0
def seq (f : Frame) : Nat := f.w2.bits 63 44
def ack (f : Frame) : Nat := f.w2.bits 43 24
def credVl (f : Frame) : Nat := f.w2.bits 23 21
def cred (f : Frame) : Nat := f.w2.bits 20 13
def length (f : Frame) : Nat := f.w2.bits 12 0

/-- Credit units of a frame: ⌈(LENGTH + 40)/256⌉ (R268). -/
def units (f : Frame) : Nat := (f.length + 40 + 255) / 256

/-- Bytes on the stream: header, padded payload, trailer (R261). -/
def wire (f : Frame) : Nat := 40 + (f.length + 7) / 8 * 8

end Frame

namespace Machine

/-- The lane a kind travels on (R263): 8 for CTRL and NAK, which have none; none for an unlisted kind. -/
def kindLane : Nat → Option Nat
  | 0x00 => some 8 | 0x01 => some 8 | 0x02 => some 3 | 0x03 => some 3 | 0x04 => some 3
  | 0x10 => some 0 | 0x11 => some 0 | 0x12 => some 0
  | 0x20 => some 1 | 0x21 => some 1 | 0x22 => some 1 | 0x23 => some 1 | 0x24 => some 1
  | 0x30 => some 4 | 0x31 => some 4 | _ => none

/-- Does the receiving port drop the frame by its header (R263)? -/
def illFormed (f : Frame) : Bool :=
  (match kindLane f.kind with
    | none => true
    | some v => v != 8 && v != f.vl) ||
  f.w0.bit 33 || f.w0.bits 4 0 != 0 || decide (5 ≤ f.dstDie) || decide (4096 < f.length)

/-- The credit class of a lane on its own hop (R261, R268). -/
def laneClass (vl : Nat) : Nat := vl

/-- The credit class of a forwarded frame: VL2 in the class DL names (R271). -/
def transitClass (dl : Bool) : Nat := if dl then 5 else 2

/-- Credit granted at link up, in units of 256 bytes (R268). -/
def fullCredit : Tab Nat Nat := [(0, 4096), (1, 1024), (2, 512), (3, 256), (4, 1792), (5, 512)]

/-- One coordinate of a packed X, Y, Z. -/
def axisOf (c a : Nat) : Nat := c / 2 ^ (16 - 8 * a) % 256

/-- A hop's port index: XM 0, XP 1, YM 2, YP 3, ZM 4, ZP 5 (R18). -/
def hopPort (axis : Nat) (plus : Bool) : Nat := 2 * axis + (if plus then 1 else 0)

/-- A frame to be sent: word 2 holds LENGTH alone until a port transmits it. -/
def mkFrame (dst dstDie vl src srcDie epoch job kind flags : Nat) (tag : Word) (payload : List Byte) : Frame where
  w0 := BitVec.ofNat 64 (dst * 2 ^ 40 + dstDie * 2 ^ 37 + vl * 2 ^ 34 + src * 2 ^ 8 + srcDie * 2 ^ 5)
  w1 := BitVec.ofNat 64 (epoch * 2 ^ 32 + job * 2 ^ 16 + kind * 2 ^ 8 + flags)
  w2 := BitVec.ofNat 64 payload.length
  w3 := tag
  payload := payload
  crc := .good

namespace State

/-! ### Where the module stands -/

/-- This module's published X, Y, Z, packed. -/
def here (s : State) : Nat := (s.getR ⟨.PORT_MOD_COORD, 0, 0⟩).bits 23 0

def placed (s : State) : Bool := s.flag PORT_MOD_COORD_VALID 0 0

/-- Is an axis closed, and its length (R281)? -/
def axisClosed (s : State) (a : Nat) : Bool :=
  s.flag (if a = 0 then PORT_MOD_COORD_CLOSED_X else if a = 1 then PORT_MOD_COORD_CLOSED_Y else PORT_MOD_COORD_CLOSED_Z) 0 0

def axisLen (s : State) (a : Nat) : Nat :=
  s.getF (if a = 0 then PORT_MOD_COORD_LX_M1 else if a = 1 then PORT_MOD_COORD_LY_M1 else PORT_MOD_COORD_LZ_M1) 0 0 + 1

/-- Do coordinates lie within the published extents (R276)? -/
def inExtents (s : State) (c : Nat) : Bool := [0, 1, 2].all fun a => decide (axisOf c a < s.axisLen a)

/-- The port of the first hop towards `c` (R271). -/
def routeFrom (s : State) (from_ c : Nat) : Option Nat :=
  if !s.inExtents c then none
  else match [0, 1, 2].find? fun a => axisOf from_ a ≠ axisOf c a with
    | none => none
    | some a =>
      let x := axisOf from_ a
      let y := axisOf c a
      let l := s.axisLen a
      if s.axisClosed a then some (hopPort a (decide ((y + l - x) % l ≤ (x + l - y) % l)))
      else some (hopPort a (decide (x < y)))

/-- The port this module's frames to `c` leave by. -/
def route (s : State) (c : Nat) : Option Nat := s.routeFrom s.here c

/-- DL of a hop out of port `p` (R272): it crosses the dateline, or the frame came with DL = 1 along the same axis. -/
def hopDl (s : State) (p : Nat) (came : Option Nat) (dl : Bool) : Bool :=
  let a := p / 2
  let x := axisOf s.here a
  let cross := s.axisClosed a && (if p % 2 = 1 then decide (x + 1 = s.axisLen a) else decide (x = 0))
  cross || (dl && came.any fun q => decide (q / 2 = a))

/-- State 3 carries every lane; states 2 and 4 carry VL3 only (R278, R282). -/
def linkUp (s : State) (p : Nat) : Bool := s.getF PORT_IL_STATUS_STATE p 0 = 3

/-- May the port transmit a frame of lane `vl` now? -/
def carries (s : State) (p vl : Nat) : Bool :=
  let st := s.getF PORT_IL_STATUS_STATE p 0
  if vl = 3 then decide (2 ≤ st ∧ st ≤ 4) else decide (st = 3) && s.placed

/-! ### Transmission (R262, R266, R268) -/

/-- The credit class to return on the next frame: the lowest owed one. -/
def owedClass (x : PortSt) : Nat × Nat :=
  match x.owed with
  | [] => (7, 0)
  | e :: _ => (e.1, min e.2 255)

/-- Word 2 of a transmitted frame: SEQ, ACK, one class of returned credit, LENGTH (R261). Credit rides on the next frame
sent (DESIGN CHOICE, assumption 25). -/
def word2 (x : PortSt) (len : Nat) : Word :=
  let c := owedClass x
  BitVec.ofNat 64 (x.seq * 2 ^ 44 + (x.expect + 2 ^ 20 - 1) % 2 ^ 20 * 2 ^ 24 + c.1 * 2 ^ 21 + c.2 * 2 ^ 13 + len)

/-- Bytes in a port's replay buffer (R266). -/
def replayBytes (x : PortSt) : Nat := x.replay.foldl (fun n f => n + f.wire) 0

/-- Receive space freed: credit owed to the neighbour (R268). -/
def owe (s : State) (p cls n : Nat) : State :=
  let x := s.port p
  s.setPort p { x with owed := Tab.putN 0 x.owed cls (Tab.getN 0 x.owed cls + n) }

/-- A frame transmitted: numbered, kept for replay, its credit spent and its bytes counted. -/
def transmit (s : State) (p : Nat) (t : TxItem) : State :=
  let x := s.port p
  let c := owedClass x
  let f := { t.frame with w2 := word2 x t.frame.length }
  let owed := if c.1 = 7 then x.owed else Tab.putN 0 x.owed c.1 (Tab.getN 0 x.owed c.1 - c.2)
  let s := s.setPort p { x with
    seq := (x.seq + 1) % 2 ^ 20
    replay := x.replay ++ [f]
    sentAt := Tab.putN 0 x.sentAt x.seq s.time
    owed := owed
    credit := Tab.putN 0 x.credit t.cls (Tab.getN 0 x.credit t.cls - f.units) }
  let s := s.setF PORT_IL_STATUS_TX_UNACK p 0 (s.port p).replay.length
  let v := if t.cls = 5 then 2 else t.cls
  let s := s.addF PORT_IL_TX_BYTES_COUNT p v f.wire
  match t.back with
  | some b => s.owe b.1 b.2 f.units
  | none => s

/-- May the item go now: the port is in no credit hold (R242), the link carries its lane, credit is held, the replay buffer has room (R266, R268)? -/
def maySend (s : State) (p : Nat) (t : TxItem) : Bool :=
  let x := s.port p
  !s.flag PORT_STATUS_HOLD p 0 && s.carries p t.frame.vl && decide (t.frame.units ≤ Tab.getN 0 x.credit t.cls) &&
  decide (replayBytes x + t.frame.wire ≤ 1048576)

/-- The waiting frames of a port tried in order; a class that cannot send holds its later frames (R268, R273). -/
def pumpItems (p : Nat) : List TxItem → List Nat → State → State × List TxItem
  | [], _, s => (s, [])
  | t :: l, held, s =>
    if !held.contains t.cls && s.maySend p t then pumpItems p l held (s.transmit p t)
    else
      let r := pumpItems p l (t.cls :: held) s
      (r.1, t :: r.2)

/-- A port sends what it may. -/
def pumpPort (s : State) (p : Nat) : State :=
  let r := pumpItems p (s.port p).txq [] s
  r.1.setPort p { r.1.port p with txq := r.2 }

/-- A frame put in a port's queue for a class. -/
def enqueue (s : State) (p : Nat) (t : TxItem) : State :=
  let x := s.port p
  (s.setPort p { x with txq := x.txq ++ [t] }).pumpPort p

/-- A frame that a port cannot take counted as dropped (R263, R276). -/
def dropFrame (s : State) (p : Nat) : State := s.addF PORT_IL_DROP_COUNT p 0 1

/-- A refused frame: counted, and recorded at most once per port per second (R275, R276). -/
def refuseFrame (s : State) (p : Nat) (details : List Nat) : State :=
  let s := s.dropFrame p
  let x := s.port p
  let sec := s.time / 1000000000
  if x.dropSec = some sec then s
  else (s.setPort p { x with dropSec := some sec }).portRecord 0x0902 sevInfo p details

/-- DL written into a frame. -/
def withDl (f : Frame) (dl : Bool) : Frame :=
  { f with w0 := (f.w0 &&& ~~~(1#64 <<< 32)) ||| (if dl then 1#64 <<< 32 else 0) }

/-- Identity, job and frame fields of a frame this module originates. -/
def frameTo (s : State) (dst dstDie vl srcDie epoch kind flags : Nat) (tag : Word) (payload : List Byte) : Frame :=
  mkFrame dst dstDie vl s.here srcDie epoch (s.getF PORT_MOD_JOB_JOB 0 0) kind flags tag payload

/-- A frame of this module sent on its route (R271); before coordinates are published it waits (R278). A destination
outside the extents, or this module itself, has no route: the frame goes nowhere. -/
def send (s : State) (f : Frame) : State :=
  if !s.placed then { s with disc := { s.disc with waiting := s.disc.waiting ++ [f] } }
  else match s.route f.dst with
    | none => s
    | some p =>
      if s.getF PORT_IL_STATUS_STATE p 0 = 4 then s.refuseFrame p [f.kind, f.dst]
      else
        let dl := s.hopDl p none false
        s.enqueue p { cls := laneClass f.vl, frame := withDl f dl }

/-- A VL3 frame sent to the neighbour of port `p` (R277). -/
def sendNeighbour (s : State) (p kind : Nat) (tag : Word) (payload : List Byte) : State :=
  s.enqueue p { cls := 3, frame := mkFrame 0 4 3 0 4 0 0 kind 0 tag payload }

/-- Is there a route to `c`: this module is placed, and the port of the first hop is up (R122, R341)? -/
def reachable (s : State) (c : Nat) : Bool := s.placed && ((s.route c).any fun p => s.linkUp p)

/-- A link's pulse: lost (0) or up (1) (R411). -/
def linkPulse (s : State) (p k : Nat) : State := s.pulse (p / 2) ((if p % 2 = 0 then 16 else 24) + k)

/-- The channel a fabric frame of a collective engine names, by die: sender's die and FLAGS or TAG (R306, R310). -/
def frameChan (f : Frame) : Option (Nat × Nat) :=
  if f.kind = 0x10 ∨ f.kind = 0x11 ∨ f.kind = 0x12 then some (f.srcDie, f.flags / 16)
  else if f.kind = 0x21 ∨ f.kind = 0x22 then some (f.srcDie, f.w3.bits 47 44)
  else none

/-- The channels of this module with frames in a list. -/
def chansOf (s : State) (l : List Frame) : List (Nat × Nat) :=
  ((l.filter fun f => f.src = s.here).filterMap frameChan).eraseDups

/-- A port's link goes down (R267): its replay buffer and queue are discarded and counted, its credit and neighbour gone.
The answer holds the channels that had frames on it. -/
def downLink (s : State) (p : Nat) : State × List (Nat × Nat) :=
  let x := s.port p
  let frames := x.replay ++ x.txq.map (·.frame)
  let s := x.txq.foldl (fun s t => match t.back with | some b => s.owe b.1 b.2 t.frame.units | none => s) s
  let s := (s.addF PORT_IL_DROP_COUNT p 0 frames.length).addF PORT_IL_LINKDOWN_COUNT p 0 1
  let s := s.portRecord 0x0901 sevDegraded p [p, s.getF PORT_IL_NEIGH_ID p 0]
  let s := s.setPort p { known := x.known, dropSec := x.dropSec, badSig := x.badSig }
  let s := s.setF PORT_IL_STATUS_STATE p 0 (if s.flag PORT_IL_CFG_EN p 0 then 0 else 5)
  let s := (s.setF PORT_IL_STATUS_TX_UNACK p 0 0).setF PORT_IL_STATUS_NPORT p 0 0
  let s := (s.putR ⟨.PORT_IL_NEIGH, p, 0⟩ 0).putR ⟨.PORT_IL_NEIGH_INFO, p, 0⟩ 0
  (s.linkPulse p 0, s.chansOf frames)

end State

end Machine

end Sys2Proof
end

