-- ==== Sys2Proof/Machine/Cancel.lean ====
section
/-! DEFINITION. Cancellation (R130, R131) as each unit takes it: the array (R43), the accumulators (R107), the fetch engine
(R148), channels (R311), leave (R387); and the end of a graph (R111). -/

namespace Sys2Proof.Machine

/-- Not yet completed or cancelled. -/
def Task.live (x : Task) : Bool := x.status ≠ .completed && x.status ≠ .cancelled

namespace State

/-! ### What a task that ends leaves behind -/

/-- The run-ahead and staging of a task on a core given up (R148): reads already issued are discarded when they return. -/
def dropFetch (s : State) (d p : Nat) (t : TaskId) : State :=
  let c := s.coreAt d p
  let out := c.entries.any fun e => e.task = t
  let resv := if out then c.resv.map fun r => if r.task = t then { r with todo := [] } else r
    else c.resv.filter fun r => r.task ≠ t
  s.setCoreAt d p { c with
    runAhead := c.runAhead.filter fun x => x ≠ t
    entries := c.entries.map fun e => if e.task = t then { e with discard := true } else e
    resv := resv }

/-- A shadow load of a task stops and SHADOW_VALID clears; its hand-overs will be discarded (R43). -/
def dropArray (s : State) (d p : Nat) (t : TaskId) : State :=
  let c := s.coreAt d p
  let mine := decide (c.shadow.owner = some t)
  let s := s.setCoreAt d p { c with
    shadow := if mine then {} else c.shadow
    foot := c.foot.map fun h => if h.task = t then { h with discard := true } else h }
  if mine then s.setF CORE_ARRAY_STATUS_SHADOW_VALID (d * 34 + p) 0 0 else s

/-- A tile released: at once, or once its in-flight counter reaches zero (R107). -/
def releaseTile (s : State) (d p g tile : Nat) : State :=
  let c := s.coreAt d p
  let hit := fun (b : Bound) => b.g = g && b.tile = tile
  let mark := fun (b : Bound) => if hit b then { b with releasing := true } else b
  s.setCoreAt d p { c with tiles := (c.tiles.filter fun b => !(hit b && b.inflight = 0)).map mark }

/-- The tile rings of a graph's chain on a core released (R153). -/
def releaseRings (s : State) (d p g : Nat) : State :=
  ((s.coreAt d p).tiles.filter fun b => b.g = g && decide (4096 ≤ b.tile)).foldl (fun s b => s.releaseTile d p g b.tile) s

/-- Every tile a graph has bound on a die released (R89). -/
def releaseGraph (s : State) (d g : Nat) : State :=
  (List.range 34).foldl (fun s p =>
    ((s.coreAt d p).tiles.filter fun b => b.g = g).foldl (fun s b => s.releaseTile d p g b.tile) s) s

/-- A task's leave given up when it is cancelled (R387): a waiting request is withdrawn, a grant not yet in effect and the
tokens in use are released. -/
def dropLeave (s : State) (t : TaskId) (x : Task) : State :=
  let e := s.engine t.d
  let issued := (e.issued.filter fun g => g.task = t).foldl (fun n g => n + g.tokens) 0
  let s := s.setEngine t.d { e with
    waitq := e.waitq.filter fun r => r.task ≠ t
    issued := e.issued.filter fun g => g.task ≠ t
    backfilled := e.backfilled && (leaveHead e.waitq).all fun r => r.task ≠ t }
  let s := s.releaseTokens t.d issued
  if x.status = .dispatched ∧ x.started then
    match x.core with
    | some p =>
      let c := s.coreAt t.d p
      let n := min c.held (s.tokensOf t.d x.leave)
      (s.setCoreAt t.d p { c with held := c.held - n }).releaseTokens t.d n
    | none => if s.flag THM_STATUS_QUENCHED t.d 0 then s else s.releaseTokens t.d (s.tokensOf t.d x.leave)
  else s

/-! ### Channels -/

/-- The Crucible contexts of a task invalidated (R311). -/
def dropContexts (s : State) (t : TaskId) : State :=
  (List.range 12).foldl (fun s ms =>
    let mine := (s.stack ms).rows.filter fun e => e.2.owner = some t
    let s := mine.foldl (fun s e => s.setF CRU_ROW_CFG_VALID ms e.1 0) s
    let st := s.stack ms
    s.setStack ms { st with rows := st.rows.filter fun e => e.2.owner ≠ some t }) s

/-- A channel's registers when it is free (R290, R324). -/
def freeChannel (s : State) (d c : Nat) : State :=
  let s := s.setChan d c { early := (s.chan d c).early }
  let bit := 2 ^ c
  let s := s.setF COL_STATUS_BUSY d 0 (s.getF COL_STATUS_BUSY d 0 - (s.getF COL_STATUS_BUSY d 0 &&& bit))
  let s := s.setF COL_STATUS_WAITING d 0 (s.getF COL_STATUS_WAITING d 0 - (s.getF COL_STATUS_WAITING d 0 &&& bit))
  (s.setF COL_CHAN_STATE d c 0).setF COL_CHAN_STAGE d c 0

/-- The channel of a cancelled task abandoned (R311): nothing more is sent, its contexts are invalid, and the channel is
free, its issued reads having returned (reads return at once: DESIGN CHOICE, assumption 26). -/
def abandon (s : State) (t : TaskId) (c : Nat) : State :=
  if (s.chan t.d c).task = some t then ((s.dropContexts t).freeChannel t.d c).setChan t.d c {} else s

/-! ### Cancelling -/

/-- A kind that stops only at a yield point or on completion once it has started (R130). -/
def runsOn (x : Task) : Bool :=
  x.status = .dispatched && x.started && (x.kind = .fused || x.kind = .vector || x.kind = .test)

/-- What each unit does with a live task that is cancelled. -/
def stopTask (s : State) (t : TaskId) (x : Task) : State :=
  let s := s.dropLeave t x
  let s := match x.core with
    | some p =>
      let s := (s.dropFetch t.d p t).dropArray t.d p t
      let c := s.coreAt t.d p
      let s := s.setCoreAt t.d p { c with
        port := c.port.filter fun u => u ≠ t
        portGo := c.portGo && !(decide (c.port.head? = some t))
        chain := if c.chain.any (fun (y : Chain) => y.task = t) then none else c.chain }
      (match x.tileOf with
        | some b => s.releaseTile t.d p t.g b.tile
        | none => if x.kind = Kind.fused then s.releaseRings t.d p t.g else s)
    | none => s
  let s := match x.channel with
    | some c => s.abandon t c
    | none => s
  let s := (List.range 12).foldl (fun s ms =>
    let st := s.stack ms
    let s := if st.upd.any (fun (u : UpdRun) => u.task = t) then
        (s.setStack ms { st with upd := none }).setF CRU_UPD_STATUS_BUSY ms 0 0 else s
    let st := s.stack ms
    s.setStack ms { st with waiting := st.waiting.filter fun w => w.owner ≠ some t }) s
  s.setTask t { x with status := .cancelled, started := false, fin := false }

/-- Tasks cancelled with everything that depends on them (R130). -/
def cancelFrom : Nat → List TaskId → State → State
  | 0, _, s => s
  | _ + 1, [], s => s
  | n + 1, t :: l, s =>
    match s.task? t with
    | none => cancelFrom n l s
    | some x =>
      if !x.live then cancelFrom n l s
      else if runsOn x then cancelFrom n l (s.setTask t { x with stopAtYield := true })
      else cancelFrom n (l ++ x.succ.map fun i => ⟨t.d, t.g, i⟩) (s.stopTask t x)

/-- Bound on the work of a cancel on a die: every task and every successor entry. -/
def cancelFuel (s : State) (d : Nat) : Nat :=
  2 * (s.tasksOf d).length + (s.tasksOf d).foldl (fun n t => n + t.2.succ.length) 1

/-- REMAINING of a slot (R138). -/
def remaining (s : State) (d g : Nat) : Nat := ((s.graph d g).tasks.filter fun x => x.live).length

/-- The graph of a slot looked at after its tasks changed: REMAINING shown, and the graph ended once every task has
completed or been cancelled (R111). -/
def endGraph (s : State) (d g : Nat) : State :=
  if s.slotState d g ≠ 3 then s
  else
    let n := s.remaining d g
    let s := s.setF GE_GRAPH_STATUS_REMAINING d g n
    if n ≠ 0 then s
    else
      let dead := (s.graph d g).tasks.any fun x => x.status = .cancelled
      (s.setF GE_GRAPH_STATUS_STATE d g (if dead then 6 else 4)).releaseGraph d g

/-- The graphs of an entry and of its primary have both ended (R355). -/
def twinOver (s : State) (d : Nat) (x : TwinEntry) : Bool :=
  let live := fun k => let st := s.slotState k x.g; decide (1 ≤ st ∧ st ≤ 3)
  !live d && !live (s.getF GE_RED_CFG_TWIN_OF d 0)

/-- Pending entries of a die whose graphs have both ended are dropped (R355). -/
def dropTwins (s : State) (d : Nat) : State :=
  let e := s.engine d
  let out := e.twins.filter (s.twinOver d)
  out.foldl (fun s x =>
      (s.addF AS_DUAL_CNT_UNMATCHED d 0 1).dieRecord 0x0C02 sevInfo d 0 [x.g, x.idx, x.digest] x.epoch
        (some (x.kind, x.g, x.idx)))
    (s.setEngine d { e with twins := e.twins.filter fun x => !s.twinOver d x })

/-- Every slot of a die looked at, then the pending entries of every die. -/
def endGraphs (s : State) (d : Nat) : State :=
  [0, 1, 2, 3].foldl (fun s k => s.dropTwins k) ((List.range 16).foldl (fun s g => s.endGraph d g) s)

/-- The live tasks of a die's RUNNING graphs that a condition names. -/
def liveTasks (s : State) (d : Nat) (sel : Task → Bool) : List TaskId :=
  ((s.tasksOf d).filter fun t => decide (s.slotState d t.1.g = 3) && t.2.live && sel t.2).map (·.1)

/-- Every task a condition names cancelled on a die. -/
def cancelWhere (s : State) (d : Nat) (sel : Task → Bool) : State :=
  let l := s.liveTasks d sel
  ((cancelFrom (s.cancelFuel d + l.length) l s).endGraphs d).checkHalted d

/-- A task cancelled with its successors (R296, R130). -/
def cancelTask (s : State) (t : TaskId) : State :=
  ((cancelFrom (s.cancelFuel t.d) [t] s).endGraphs t.d).checkHalted t.d

/-- A bit of GE_REGION_BUSY. -/
def regionBusy (s : State) (d r : Nat) : Bool := (s.getR ⟨.GE_REGION_BUSY, d, r / 64⟩).getLsbD (r % 64)

def setRegionBusy (s : State) (d r : Nat) (v : Bool) : State :=
  let k : RegKey := ⟨.GE_REGION_BUSY, d, r / 64⟩
  let w := s.getR k
  s.putR k (if v then w ||| (1#64 <<< (r % 64)) else w &&& ~~~(1#64 <<< (r % 64)))

/-- CANCEL (R130). -/
def cancelRegion (s : State) (d r : Nat) : State :=
  (s.setRegionBusy d r true).cancelWhere d fun x => decide (x.region = r)

/-- REGION_CANCEL_DONE (R130): the bit clears when no task of the region remains live. -/
def regionCancelDone (s : State) (d r : Nat) : State :=
  if s.regionBusy d r && (s.liveTasks d fun x => decide (x.region = r)).isEmpty then s.setRegionBusy d r false else s

/-- The cancellation of a retract (R131): every live task of epoch `e` or later, on every die, without a region bit. -/
def cancelEpoch (s : State) (e : Nat) : State :=
  [0, 1, 2, 3].foldl (fun s d => s.cancelWhere d fun x => decide (e ≤ x.epoch)) s

end State

/-- A write of GE_CANCEL with CANCEL = 1. -/
def execCancel (r : Requester) (d : Fin 4) (region : Fin 256) (s : State) :=
  commit s (s.atReg r (dieReg d 0x18) (s.cancelRegion d region))
def execRegionCancelDone (d : Fin 4) (region : Fin 256) (s : State) := commit s (s.regionCancelDone d region)

end Sys2Proof.Machine
end

