-- ==== Sys2Proof/Machine/Ingots.lean ====
section
/-! DEFINITION. Ingots: the image (R328, R329), taking one (R335 to R341), the receive slots (R331, R338), cadence advice
(R342 to R345), the step log (R346, R347), restore (R349) and gossip (R332, R334). -/

namespace Sys2Proof.Machine

/-- A page is 2 MiB (R179). -/
def pageBytes : Nat := 0x200000

/-- Where page 0 of an image of `p` pages lies (R328). -/
def imageBase (p : Nat) : Nat := pageBytes * ((4096 + 16 * p + pageBytes - 1) / pageBytes)

/-- The 16 manifest bytes of a page (R328). -/
def manifestEntry (x : IngPage) : List Byte :=
  toLe 1 x.stack ++ toLe 1 x.entry ++ toLe 2 x.page ++ toLe 4 0 ++ toLe 8 x.digest

/-- A step-log or gossip field read back from little-endian bytes. -/
def leAt (l : List Byte) (off n : Nat) : Nat := ofLe ((l.drop off).take n)

/-- The bytes of a gossip record (R332). -/
def gossipBytes (id : Nat) (g : Gossip) : List Byte :=
  toLe 8 id ++ toLe 1 (axisOf g.coord 0) ++ toLe 1 (axisOf g.coord 1) ++ toLe 1 (axisOf g.coord 2) ++ toLe 1 g.feed ++
  toLe 4 g.seq ++ toLe 4 g.up ++ toLe 2 g.fails ++ toLe 1 (if g.coFed then 1 else 0) ++ toLe 9 0

/-- A gossip record read from its 32 bytes. -/
def gossipOf (l : List Byte) (hour : Nat) : Nat × Gossip :=
  (leAt l 0 8, { coord := leAt l 8 1 * 65536 + leAt l 9 1 * 256 + leAt l 10 1, feed := leAt l 11 1, seq := leAt l 12 4,
                 up := leAt l 16 4, fails := leAt l 20 2, coFed := leAt l 22 1 % 2 = 1, hour := hour })

/-- The mean of a list of integers; 0 of none. -/
def meanOf (l : List Int) : Int := if l.isEmpty then 0 else l.foldl (· + ·) 0 / l.length

namespace State

/-- The ingot engine's part replaced. -/
def setIngot (s : State) (i : IngotSt) : State := { s with ingot := i }

/-- Device time's hour window (R332, R342). -/
def hourNow (s : State) : Nat := s.time / 3600000000000

/-- The job seed as the digests of the hub and of a stack take it (R312, R329). -/
def jobSeed (s : State) : Word := s.getR ⟨.GE_NOISE_SEED, 0, 0⟩
def stackKey (s : State) (ms e : Nat) : Nat := digKey (s.getR ⟨.CRU_SEED, ms, 0⟩) e

/-! ### Gossip and partners (R332 to R334) -/

def gossipGet (s : State) (id : Nat) : Option Gossip := Tab.getN none s.ingot.gossip id

/-- The record held for a module at a coordinate, and its identity. -/
def gossipAt (s : State) (c : Nat) : Option Gossip :=
  (s.ingot.gossip.findSome? fun e => e.2.filter fun g => g.coord = c)

/-- Seconds up, and failure events, of the last 168 hour windows. -/
def lastWeek (s : State) (t : Tab Nat Nat) : Nat :=
  (t.filter fun e => decide (s.hourNow < e.1 + 168)).foldl (fun n e => n + e.2) 0

/-- The ports that carry VL3 to a verified neighbour. -/
def gossipPorts (s : State) : List Nat :=
  (List.range 6).filter fun p => s.getF PORT_IL_STATUS_STATE p 0 = 3 || s.getF PORT_IL_STATUS_STATE p 0 = 4

/-- Gossip records sent to neighbours, at most 128 in a frame. -/
def sendGossip (s : State) (ports : List Nat) (l : List (Nat × Gossip)) : State :=
  ports.foldl (fun s p =>
    (groupsOf 128 (l.length + 1) l).foldl (fun s g => s.sendNeighbour p 0x04 0 (g.flatMap fun x => gossipBytes x.1 x.2)) s) s

/-- This module's own record with the next sequence, entered and flooded (R332). -/
def floodOwn (s : State) : State :=
  let i := s.ingot
  let id := s.getF PORT_MOD_ID_ID 0 0
  let g : Gossip := { coord := s.here, feed := s.getF PWR_PINS_FEED_ID 0 0, seq := (i.seq + 1) % 2 ^ 32,
                      up := s.lastWeek i.upHours, fails := s.lastWeek i.failHours, coFed := s.flag ING_PARTNER_CO_FED 0 0,
                      hour := s.hourNow }
  (s.setIngot { i with seq := g.seq, gossip := Tab.putN none i.gossip id (some g) }).sendGossip s.gossipPorts [(id, g)]

/-- The own record flooded again if its content has changed since it was last sent (R332). -/
def freshenOwn (s : State) : State :=
  match s.gossipGet (s.getF PORT_MOD_ID_ID 0 0) with
  | some g =>
    if g.coord = s.here ∧ g.feed = s.getF PWR_PINS_FEED_ID 0 0 ∧ g.fails = s.lastWeek s.ingot.failHours ∧
        g.coFed = s.flag ING_PARTNER_CO_FED 0 0 then s
    else s.floodOwn
  | none => s

/-- Is the module co-fed as things stand (R334)? -/
def coFedNow (s : State) : Bool :=
  !s.flag ING_PARTNER_OUT_VALID 0 0 || s.getF ING_MEMBERS_COUNT_M1 0 0 = 0 ||
  match s.gossipAt (s.getF ING_PARTNER_OUT 0 0) with
  | some g => decide (g.feed = s.getF PWR_PINS_FEED_ID 0 0)
  | none => true

/-- CO_FED looked at: the state is entered with its record and alert, and left by a rewrite of ING_PARTNER (R334). -/
def lookFed (s : State) (rewritten : Bool) : State :=
  let g := s.gossipAt (s.getF ING_PARTNER_OUT 0 0)
  let s := (s.setF ING_PARTNER_FEED_KNOWN 0 0 (if g.isSome then 1 else 0)).setF ING_PARTNER_OUT_FEED 0 0
    (match g with | some g => g.feed | none => 0)
  let was := s.flag ING_PARTNER_CO_FED 0 0
  let is := s.coFedNow
  if is && !was then
    let s := (s.setF ING_PARTNER_CO_FED 0 0 1).setF ING_STATUS_CO_FED 0 0 1
    (s.hubRecord 0x0B01 sevDegraded 4 0 [s.getF ING_PARTNER_OUT 0 0] true).floodOwn
  else if was && !is && rewritten then
    ((s.setF ING_PARTNER_CO_FED 0 0 0).setF ING_STATUS_CO_FED 0 0 0).floodOwn
  else s.freshenOwn

/-- A received record stored if it is newer (R332). -/
def storeGossip (s : State) (x : Nat × Gossip) : State × Bool :=
  let newer := match s.gossipGet x.1 with
    | some g => decide (g.seq < x.2.seq)
    | none => decide (s.ingot.gossip.length < 16384)
  if newer && decide (x.1 ≠ s.getF PORT_MOD_ID_ID 0 0) then
    ({ s with ingot := { s.ingot with gossip := Tab.putN none s.ingot.gossip x.1 (some x.2) } }, true)
  else (s, false)

/-- A GOSSIP frame's records: the newer ones stored and forwarded to the other neighbours (R332). -/
def takeGossip (s : State) (p : Nat) (payload : List Byte) : State :=
  let l := (groupsOf 32 129 payload).filter fun g => decide (g.length = 32)
  let r := l.foldl (fun (a : State × List (Nat × Gossip)) g =>
    let x := gossipOf g s.hourNow
    let y := a.1.storeGossip x
    if y.2 then (y.1, a.2 ++ [x]) else (y.1, a.2)) (s, [])
  let s := if r.2.isEmpty then r.1 else r.1.sendGossip (r.1.gossipPorts.filter (· ≠ p)) r.2
  s.lookFed false

/-- GOSSIP_HOUR (R332, R342): the seconds up of the window that ends are kept, and the own record is flooded. -/
def gossipHour (s : State) : State :=
  let i := s.ingot
  let up := min 3600 ((s.time - i.upMark) / 1000000000)
  let w := s.hourNow - 1
  (s.setIngot { i with upHours := Tab.putN 0 i.upHours w (min 3600 (Tab.getN 0 i.upHours w + up)), upMark := s.time }).floodOwn

/-- GOSSIP_EXPIRY (R332): records not refreshed for three hour windows go. -/
def gossipExpiry (s : State) : State :=
  let own := s.getF PORT_MOD_ID_ID 0 0
  let keep := fun (e : Nat × Option Gossip) =>
    decide (e.1 = own) || e.2.any fun g => decide (s.hourNow < g.hour + 3)
  (s.setIngot { s.ingot with gossip := s.ingot.gossip.filter keep }).lookFed false

/-! ### Pins and pages -/

/-- Is entry `e` a unique region (R326, R327)? -/
def uniqueEntry (s : State) (e : Nat) : Bool :=
  (s.region e).valid && (s.region e).ver && !(s.getR ⟨.ING_EXCLUDE, 0, 0⟩).getLsbD e

/-- The physical pages of region `e` in a stack (R184, R185). -/
def regionPages (s : State) (e ms : Nat) : List Nat :=
  let r := s.region e
  if r.il = 1 && decide (ms / 3 ≠ r.die) then [] else (List.range r.size).map fun i => r.choff + i

/-- The frame that holds a page's state after step `e` (R336). -/
def frameAfter (v : PageVer) (e : Nat) : Nat :=
  if v.vep ≤ e then v.cur else match restorePoint v (e + 1) with
    | some r => r.frame
    | none => v.cur

/-- The unique pages of a stack in ascending physical page, each with the frame after `e`. -/
def stackPages (s : State) (e ms : Nat) : List IngPage :=
  let l := ((List.range 64).filter s.uniqueEntry).flatMap fun r => (s.regionPages r ms).map fun p => (p, r)
  (((List.range framesPerStack).filter fun p => l.any fun x => x.1 = p)).filterMap fun p =>
    (l.find? fun x => x.1 = p).map fun x =>
      { stack := ms, entry := x.2, page := p, frame := frameAfter (s.pageVer ms p) e }

/-- A frame of a page pinned for the ingot of `e` (R336). -/
def pinFrame (e : Nat) (s : State) (x : IngPage) : State :=
  let v := s.pageVer x.stack x.page
  if v.cur = x.frame then s.setPageVer x.stack x.page { v with pin := some e }
  else s.setPageVer x.stack x.page { v with
    retained := v.retained.map fun r => if r.frame = x.frame then { r with pin := some e } else r }

/-- Pages of a stack that the ingot still pins. -/
def pinsIn (s : State) (ms : Nat) : Nat :=
  ((s.verPages ms).filter fun x => x.2.pin.isSome || x.2.retained.any fun r => r.pin.isSome).length

/-- ING_RD.PINNED shown. -/
def showPins (s : State) : State := (List.range 12).foldl (fun s ms => s.setF ING_RD_PINNED 0 ms (s.pinsIn ms)) s

/-- The bytes of a frame in image order: row-granules of channel 0, then of channel 1, and so on (R328). -/
def frameChunk (s : State) (ms frame chunk : Nat) : List Byte :=
  (List.range 4096).map fun o => s.dramByte ⟨ms, chunk / 16, 16 * frame + chunk % 16, o⟩

def frameBytes (s : State) (ms frame : Nat) : List Byte := (List.range 512).flatMap fun c => s.frameChunk ms frame c

/-- The pages of the ingot changed. -/
def mapPages (s : State) (f : IngPage → IngPage) : State :=
  { s with ingot := { s.ingot with pages := s.ingot.pages.map f } }

/-- Does a tier-1 copy go to a partner? -/
def tier1 (s : State) : Bool := s.flag ING_PARTNER_OUT_VALID 0 0

/-- A page is done: acknowledged by the partner, and handed back from the ring (R338). -/
def pageDone (s : State) (x : IngPage) : Bool := (x.ok1 || !s.tier1) && (x.ok2 || !s.ingot.tier2) && x.read

/-- A page unpinned once it is done. -/
def settlePage (s : State) (x : IngPage) : State :=
  if s.pageDone x then (s.unpin x.stack x.page x.frame).showPins else s

/-! ### The end of an ingot -/

/-- A frame pinned by the ingot unpinned for every page it still holds, and the ingot void (R341). -/
def voidIngot (s : State) (cause : Nat) : State :=
  if !s.ingot.active then s
  else
    let s := s.ingot.pages.foldl (fun s x => s.unpin x.stack x.page x.frame) s
    let s := s.setIngot { s.ingot with active := false, pages := [], costNow := 0 }
    let s := ((s.setF ING_STATUS_VOID 0 0 1).setF ING_STATUS_VOID_CAUSE 0 0 cause).setF ING_STATUS_STATE 0 0 0
    let s := if cause = 3 then s.hubRecord 0x0B04 sevDegraded 4 0 [s.ingot.serial, cause] false s.ingot.epoch else s
    s.showPins

/-- B of R343: the mean duration of the last eight steps without an ingot. -/
def meanStep (s : State) : Int :=
  meanOf (((s.ingot.steps.filter fun x => !x.2).take 8).map fun x => (x.1 : Int))

/-- The advice of R343 and R344, written once an ingot is complete. -/
def writeAdvice (s : State) : State :=
  let i := s.ingot
  let b := s.meanStep
  let c := max i.costNow ((s.getF ING_POLICY_C_MIN_MS 0 0 : Int) * 1000000)
  let lag := if b ≤ 0 then 1 else max 1 (((s.time - i.startedAt : Nat) : Int) + b - 1) / b
  let i := { i with cost := (c :: i.cost).take 4, lags := (max 1 lag.toNat :: i.lags).take 4, costNow := 0 }
  let up := i.gossip.foldl (fun n e => n + (e.2.map (·.up)).getD 0) 0
  let fails := i.gossip.foldl (fun n e => n + (e.2.map (·.fails)).getD 0) 0
  let prior := s.getF ING_POLICY_M_PRIOR_KH 0 0 * 1000 * 3600
  let mMod := if fails = 0 then max up prior * 1000000000 else up * 1000000000 / fails
  let mS := mMod / (s.getF ING_MEMBERS_COUNT_M1 0 0 + 1)
  let cm := (meanOf i.cost).toNat
  let l := i.lags.foldl max 1
  let k := if b ≤ 0 then 1 else (isqrt (8 * cm * mS) 80 0 / b.toNat + 1) / 2
  let lost := s.getF ING_POLICY_LOST_MAX 0 0
  let k := if lost = 0 then max 1 k else max 1 (min k (lost - l))
  let s := s.setIngot i
  let s := (s.setF ING_ADVICE_K 0 0 (min k 65535)).setF ING_ADVICE_L 0 0 (min l 255)
  (s.setF ING_ADVICE_C_MS 0 0 (min (cm / 1000000) (2 ^ 20 - 1))).setF ING_ADVICE_MS_MIN 0 0
    (min (mS / 60000000000) (2 ^ 20 - 1))

/-- Has every destination of the ingot its copy? -/
def copied (s : State) : Bool := s.ingot.complete1 && (!s.ingot.tier2 || s.ingot.pages.all (·.ok2)) && s.ingot.pages.all (·.read)

/-- The ingot in progress looked at: awaiting its step's COMMIT, or complete (R339). -/
def lookIngot (s : State) : State :=
  let i := s.ingot
  if !i.active || !s.copied then s
  else if s.getF GE_TOKEN_COUNT 0 4033 < i.epoch + 1 then s.setF ING_STATUS_STATE 0 0 2
  else
    let s := (s.setF ING_STATUS_LAST_EPOCH 0 0 i.epoch).setF ING_STATUS_STATE 0 0 0
    let s := s.writeAdvice
    (s.setIngot { s.ingot with active := false, pages := [], lostSaid := false,
                               held := Tab.putN none s.ingot.held i.slot (some i.epoch) }).pulse 4 3

/-! ### Sending -/

/-- TAG of an INGOT or INGOT_ACK frame (R337). -/
def ingTag (type slot chunk index serial : Nat) : Word :=
  BitVec.ofNat 64 (type * 2 ^ 61 + slot * 2 ^ 60 + chunk * 2 ^ 51 + index * 2 ^ 32 + serial)

/-- An INGOT (0x30) or INGOT_ACK (0x31) frame to another module's hub (the destination die is not given: DESIGN CHOICE,
assumption 27). -/
def sendIngot (s : State) (dst srcDie epoch kind : Nat) (tag : Word) (payload : List Byte) : State :=
  s.send (s.frameTo dst 4 4 srcDie epoch kind 0 tag payload)

/-- A page as 512 PAGE frames and its PAGE_END (R337). -/
def sendPage (s : State) (dst epoch slot index serial srcDie digest : Nat) (chunk : Nat → List Byte) : State :=
  let s := (List.range 512).foldl (fun s c =>
    s.sendIngot dst srcDie epoch 0x30 (ingTag 0 slot c index serial) (chunk c)) s
  s.sendIngot dst srcDie epoch 0x30 (ingTag 1 slot 0 index serial) (toLe 8 digest)

/-- The manifest bytes of the ingot in progress. -/
def manifestBytes (s : State) : List Byte := s.ingot.pages.flatMap manifestEntry

/-- The region-table digest of R329 over the table in force. -/
def tableDigest (s : State) (e : Nat) : Nat :=
  digBytes (digKey s.jobSeed e) 0 ((List.range 64).flatMap fun r =>
    let x := Tab.getN (0, 0) s.published r
    toLe 8 x.1.toNat ++ toLe 8 x.2.toNat)

/-- Bytes of the member list (R294, R346). -/
def memberBytes (s : State) : List Byte :=
  s.readBytesAt (s.getF ING_MEMBERS_ADDR 0 0 * 256) (8 * (s.getF ING_MEMBERS_COUNT_M1 0 0 + 1))

/-- The 4 KiB header of the ingot in progress (R328). -/
def headerBytes (s : State) : List Byte :=
  let i := s.ingot
  let m := s.manifestBytes
  let t3 := s.getF ING_CADENCE_T3_EVERY 0 0
  let flags := (if s.flag ING_PARTNER_CO_FED 0 0 then 1 else 0) + (if s.tier1 then 2 else 0) + (if i.tier2 then 4 else 0) +
    (if t3 ≠ 0 ∧ i.serial % t3 = 0 then 8 else 0)
  let body := [0x5A#8, 0x54#8, 0x49#8, 0x47#8] ++ toLe 2 1 ++ toLe 2 4096 ++ toLe 8 (s.getF PORT_MOD_ID_ID 0 0) ++
    toLe 4 i.epoch ++ toLe 4 i.serial ++ toLe 2 (s.getF PORT_MOD_JOB_JOB 0 0) ++ toLe 2 (s.getF ING_MEMBERS_SELF 0 0) ++
    toLe 4 i.pages.length ++ toLe 8 (digBytes (digKey s.jobSeed i.epoch) 0 m) ++ toLe 8 (s.tableDigest i.epoch) ++
    toLe 8 flags ++ toLe 48 (Config.memberHash s.memberBytes).toNat ++ toLe 3988 0
  body ++ toLe 4 (crc32c body)

/-- Header, manifest pieces and CLOSE sent once every page has been acknowledged (R337). -/
def sendManifest (s : State) (dst epoch slot serial : Nat) (header manifest : List Byte) : State :=
  let s := s.sendIngot dst 4 epoch 0x30 (ingTag 2 slot 0 0 serial) header
  let pieces := groupsOf 4096 (manifest.length + 1) manifest
  let s := (List.range pieces.length).foldl (fun s k =>
    s.sendIngot dst 4 epoch 0x30 (ingTag 2 slot 0 (k + 1) serial) (pieces.getD k [])) s
  s.sendIngot dst 4 epoch 0x30 (ingTag 3 slot 0 0 serial) []

/-- The manifest goes out when the last page is acknowledged. -/
def maybeManifest (s : State) : State :=
  let i := s.ingot
  if i.active && !i.sentAll && s.tier1 && i.pages.all (fun x => x.ok1 && x.read) then
    let h := s.headerBytes
    let m := s.manifestBytes
    (s.setIngot { i with sentAll := true }).sendManifest (s.getF ING_PARTNER_OUT 0 0) i.epoch i.slot i.serial h m
  else s

/-! ### Taking an ingot (R335 to R337) -/

/-- Is the step boundary after `e` due on the module (R335)? -/
def moduleBoundaryDue (s : State) (e : Nat) : Bool :=
  [0, 1, 2, 3].all (fun d => decide (e + 1 < (s.engine d).top) &&
    !(s.tasksOf d).any fun t => s.taskLive t && decide (t.2.epoch ≤ e)) &&
  !(s.ingot.boundary.any fun b => decide (e ≤ b))

/-- Is an ingot scheduled after step `e` (R335)? -/
def scheduled (s : State) (e : Nat) : Bool :=
  let n := s.getF ING_CADENCE_INTERVAL 0 0
  let f := s.getF ING_CADENCE_FROM_EPOCH 0 0
  s.flag ING_CTRL_EN 0 0 && decide (n ≠ 0 ∧ f ≤ e ∧ (e - f) % n = 0)

/-- The slot at the partner (R331): not the one that holds the image of COMMON. -/
def pickSlot (s : State) : Nat := if Tab.getN none s.ingot.held 0 = some (s.getF ING_POLICY_COMMON 0 0) then 1 else 0

/-- Does the ingot of serial `n` go to tier 2 (R330, R334), which stops once both drives have failed (R413)? -/
def toTier2 (s : State) (n : Nat) : Bool :=
  let t := s.getF ING_CADENCE_T2_EVERY 0 0
  !s.tier2Stopped && (s.flag ING_PARTNER_CO_FED 0 0 || decide (t ≠ 0 ∧ n % t = 0))

/-- The ingot of step `e` begun: frames pinned, registers shown (R336). -/
def startIngot (s : State) (e n : Nat) : State :=
  let pages := (List.range 12).flatMap (s.stackPages e)
  let s := pages.foldl (pinFrame e) s
  let t2 := s.toTier2 n
  let s := s.setIngot { s.ingot with
    active := true, epoch := e, serial := n, tier2 := t2, slot := s.pickSlot, pages := pages, sentAll := false
    complete1 := !s.tier1, startedAt := s.time, costNow := 0 }
  let s := (s.setF ING_STATUS_SERIAL 0 0 n).setF ING_STATUS_STATE 0 0 1
  let s := ((s.setF ING_PROGRESS_PAGES 0 0 pages.length).setF ING_PROGRESS_T1_DONE 0 0 0).setF ING_PROGRESS_T2_DONE 0 0 0
  let s := (List.range 12).foldl (fun s ms => s.setF ING_RD_WAIT_US 0 ms 0) s
  (s.showPins.maybeManifest).lookIngot

/-- INGOT_BOUNDARY (R335, R341). -/
def ingotBoundary (s : State) (e : Nat) : State :=
  if !s.moduleBoundaryDue e then s
  else
    let s := s.setIngot { s.ingot with boundary := some e }
    if !s.scheduled e then s
    else
      let n := s.ingot.next
      let s := s.setIngot { s.ingot with next := n + 1 }
      if s.ingot.active then (s.setF ING_STATUS_SKIPPED 0 0 1).hubRecord 0x0B05 sevInfo 4 0 [n, e] false e
      else s.startIngot e n

/-- The base of ring slot `k` (R351). -/
def ringSlot (s : State) (k : Nat) : Nat := s.getF ING_T2_BASE 0 0 * 0x200000 + k * 0x210000

/-- A free ring slot, while the ring is in use (R351). -/
def freeSlot (s : State) : Option Nat :=
  if !s.flag ING_T2_VALID 0 0 then none
  else (List.range (s.getF ING_T2_SLOTS_M1 0 0 + 1)).find? fun k =>
    !(s.getF ING_T2_FORGE 0 0).testBit k && !(s.ingot.pages.any fun x => x.slot = some k)

/-- A descriptor at a ring slot's start: manifest entry, serial, epoch, piece index (the layout is a DESIGN CHOICE,
assumption 28). -/
def slotDescriptor (entry : List Byte) (serial epoch piece : Nat) : List Byte :=
  entry ++ toLe 4 serial ++ toLe 4 epoch ++ toLe 4 piece ++ toLe 36 0

/-- A page put in ring slot `k` for the Forge (R337). -/
def fillSlot (s : State) (k : Nat) (x : IngPage) (bs : List Byte) : State :=
  let s := s.storeAll (s.ringSlot k) (slotDescriptor (manifestEntry x) s.ingot.serial s.ingot.epoch (2 ^ 32 - 1)) none
  let s := s.storeAll (s.ringSlot k + 0x10000) bs none
  s.setF ING_T2_FORGE 0 0 (s.getF ING_T2_FORGE 0 0 ||| 2 ^ k)

/-- The next page of a stack for its copy reader, with its manifest index. -/
def nextPage (s : State) (ms : Nat) : Option (Nat × IngPage) :=
  ((List.range s.ingot.pages.length).zip s.ingot.pages).find? fun x => x.2.stack = ms && !x.2.read

/-- INGOT_PAGE_READ (R337): copying pauses while the partner has no route (R341), and waits for a ring slot. -/
def ingotPageRead (s : State) (ms : Nat) : State :=
  if !s.ingot.active || (s.tier1 && !s.reachable (s.getF ING_PARTNER_OUT 0 0)) then s
  else match s.nextPage ms with
    | none => s
    | some (i, x) =>
      let ring := s.ingot.tier2 && !x.ok2 && x.slot.isNone
      match (if ring then s.freeSlot else some 0) with
      | none => s
      | some k =>
        let s := s.flushPage ms x.page
        let bs := s.frameBytes ms x.frame
        let y := { x with read := true, digest := digBytes (s.stackKey ms s.ingot.epoch) 0 bs,
                          slot := if ring then some k else x.slot }
        let s := s.setIngot { s.ingot with pages := s.ingot.pages.set i y }
        let s := if ring then s.fillSlot k y bs else s
        let s := if s.tier1 then
            s.sendPage (s.getF ING_PARTNER_OUT 0 0) s.ingot.epoch s.ingot.slot i s.ingot.serial (ms / 3) y.digest
              fun c => (bs.drop (4096 * c)).take 4096
          else s
        ((s.settlePage y).maybeManifest).lookIngot

/-- Pages sent and not acknowledged are sent again when the route returns (R341). -/
def resendPages (s : State) : State := s.mapPages fun x => if x.ok1 then x else { x with read := false }

/-- INGOT_ROUTE_TIMEOUT (R341). -/
def ingotRouteTimeout (s : State) : State :=
  if s.ingot.active && s.tier1 && !s.ingot.complete1 && !s.reachable (s.getF ING_PARTNER_OUT 0 0) then s.voidIngot 3 else s

/-- Does an acknowledgement belong to the ingot in progress? -/
def ackOurs (s : State) (f : Frame) : Bool :=
  s.ingot.active && s.tier1 && decide (f.src = s.getF ING_PARTNER_OUT 0 0) && decide (f.w3.bits 31 0 = s.ingot.serial)

/-- PAGE_OK (R338). -/
def takePageOk (s : State) (f : Frame) : State :=
  let i := f.w3.bits 50 32
  match s.ingot.pages[i]? with
  | some x =>
    if s.ackOurs f && x.read && !x.ok1 then
      let y := { x with ok1 := true }
      let s := s.setIngot { s.ingot with pages := s.ingot.pages.set i y }
      let s := s.setF ING_PROGRESS_T1_DONE 0 0 (s.getF ING_PROGRESS_T1_DONE 0 0 + 1)
      ((s.settlePage y).maybeManifest).lookIngot
    else s
  | none => s

/-- PAGE_BAD (R338): the page goes again; the third report voids the ingot. -/
def takePageBad (s : State) (f : Frame) : State :=
  let i := f.w3.bits 50 32
  match s.ingot.pages[i]? with
  | some x =>
    if s.ackOurs f && x.read && !x.ok1 then
      let y := { x with bad := x.bad + 1 }
      let s := s.setIngot { s.ingot with pages := s.ingot.pages.set i y }
      if 3 ≤ y.bad then (s.hubRecord 0x0B03 sevSuspect 4 x.stack [s.here, x.stack, x.page] false s.ingot.epoch).voidIngot 4
      else s.sendPage (s.getF ING_PARTNER_OUT 0 0) s.ingot.epoch s.ingot.slot i s.ingot.serial (x.stack / 3) x.digest
        fun c => s.frameChunk x.stack x.frame c
    else s
  | none => s

/-- COMPLETE (R339). -/
def takeComplete (s : State) (f : Frame) : State :=
  if s.ackOurs f && s.ingot.sentAll then (s.setIngot { s.ingot with complete1 := true }).lookIngot else s

/-! ### Receive slots (R331, R338) -/

def rxImage (s : State) (k : Nat) : Image := Tab.getN {} s.ingot.rx k
def setRx (s : State) (k : Nat) (x : Image) : State := s.setIngot { s.ingot with rx := Tab.putN {} s.ingot.rx k x }

def rxBase (s : State) (k : Nat) : Nat := s.getF ING_RX_BASE 0 k * 0x200000

/-- A receive slot emptied. -/
def emptySlot (s : State) (k : Nat) : State := (s.setRx k {}).setF ING_RX_STATE 0 k 0

/-- The last byte of the image that a frame would write, counted from the slot's base. -/
def frameEnd (x : Image) (f : Frame) : Nat :=
  match f.w3.bits 63 61 with
  | 0 => imageBase x.count + f.w3.bits 50 32 * pageBytes + (f.w3.bits 59 51 + 1) * 4096
  | 2 => if f.w3.bits 50 32 = 0 then 4096 else 4096 * (f.w3.bits 50 32 + 1)
  | _ => 0

/-- May an INGOT frame enter its slot (R331)? -/
def rxAllows (s : State) (f : Frame) : Bool :=
  let k := f.w3.bits 60 60
  let x := s.rxImage k
  s.flag ING_PARTNER_IN_VALID 0 0 && decide (f.src = s.getF ING_PARTNER_IN 0 0) && s.flag ING_RX_VALID 0 k &&
  !(x.complete && decide (x.epoch = s.getF ING_POLICY_COMMON 0 0)) &&
  decide (frameEnd x f ≤ s.getF ING_RX_SIZE 0 k * 0x1000000)

/-- An answer to the sender of an INGOT frame. -/
def answerIngot (s : State) (f : Frame) (type index : Nat) : State :=
  s.sendIngot f.src 4 f.epoch 0x31 (ingTag type (f.w3.bits 60 60) 0 index (f.w3.bits 31 0)) []

/-- The image of a slot as a frame finds it: a frame of another serial starts a new one. -/
def rxFor (s : State) (f : Frame) : State :=
  let k := f.w3.bits 60 60
  let x := s.rxImage k
  let n := f.w3.bits 31 0
  if s.getF ING_RX_STATE 0 k ≠ 0 ∧ x.serial = n ∧ x.epoch = f.epoch then s
  else (s.setRx k { serial := n, epoch := f.epoch }).setF ING_RX_STATE 0 k 1

/-- Is the manifest whole, and its digest right (R338)? -/
def manifestGood (s : State) (x : Image) : Bool :=
  let n := (16 * x.count + 4095) / 4096
  let m := (List.range n).flatMap fun i => ((Tab.getN none x.manifest (i + 1)).getD [])
  (List.range n).all (fun i => (Tab.getN none x.manifest (i + 1)).isSome) &&
  match x.header with
  | some h => decide (digBytes (digKey s.jobSeed x.epoch) 0 (m.take (16 * x.count)) = leAt h 32 8 % 2 ^ 61)
  | none => false

/-- A piece of an image's header or manifest kept. -/
def takePiece (x : Image) (i : Nat) (payload : List Byte) : Image :=
  if i = 0 then { x with header := some payload, count := leAt payload 28 4 }
  else { x with manifest := Tab.putN none x.manifest i (some payload) }

/-- A complete image waits for, or has, this module's own COMMIT of its step (R331). -/
def rxState (s : State) (k : Nat) : State :=
  let x := s.rxImage k
  if !x.checked then s
  else if x.epoch + 1 ≤ s.getF GE_TOKEN_COUNT 0 4033 then (s.setRx k { x with complete := true }).setF ING_RX_STATE 0 k 3
  else s.setF ING_RX_STATE 0 k 2

/-- A PAGE chunk into a receive slot (R338). -/
def rxPage (s : State) (f : Frame) : State :=
  if !s.rxAllows f then s.answerIngot f 3 (f.w3.bits 50 32)
  else
    let s := s.rxFor f
    let k := f.w3.bits 60 60
    let x := s.rxImage k
    let i := f.w3.bits 50 32
    let c := f.w3.bits 59 51
    let s := s.writePlain (s.rxBase k + imageBase x.count + i * pageBytes + c * 4096) f.payload none 0 none
    let d := (Tab.getN 0 x.sums i + digBytes (digKey s.jobSeed f.epoch) (c * 4096) f.payload) % digP
    s.setRx k { x with sums := Tab.putN 0 x.sums i d }

/-- PAGE_END at a receive slot (R338): PAGE_OK or PAGE_BAD, the running digest put back. -/
def rxPageEnd (s : State) (f : Frame) : State :=
  if !s.rxAllows f then s.answerIngot f 3 (f.w3.bits 50 32)
  else
    let s := s.rxFor f
    let k := f.w3.bits 60 60
    let x := s.rxImage k
    let i := f.w3.bits 50 32
    let ok := decide (Tab.getN 0 x.sums i = ofLe f.payload % 2 ^ 61)
    let x := { x with sums := Tab.putN 0 x.sums i 0, good := Tab.putN false x.good i ok }
    (s.setRx k x).answerIngot f (if ok then 0 else 1) i

/-- A MANIFEST frame at a receive slot (R338). -/
def rxManifest (s : State) (f : Frame) : State :=
  if !s.rxAllows f then s.answerIngot f 3 (f.w3.bits 50 32)
  else
    let s := s.rxFor f
    let k := f.w3.bits 60 60
    let i := f.w3.bits 50 32
    let x := takePiece (s.rxImage k) i f.payload
    let s := s.writePlain (s.rxBase k + (if i = 0 then 0 else 4096 * i)) f.payload none 0 none
    if !x.checked && s.manifestGood x then
      ((s.setRx k { x with checked := true }).rxState k).answerIngot f 2 0
    else s.setRx k x

/-- ABORT (R341): the slot is emptied. -/
def takeAbort (s : State) (f : Frame) : State :=
  let k := f.w3.bits 60 60
  if s.flag ING_PARTNER_IN_VALID 0 0 && decide (f.src = s.getF ING_PARTNER_IN 0 0) &&
      decide ((s.rxImage k).serial = f.w3.bits 31 0) then s.emptySlot k
  else s

/-- RESTORE_REQ (R349): the slot's image goes to the requester as MANIFEST, PAGE and PAGE_END frames, unless the member
index differs from its header's. Serving takes one step (DESIGN CHOICE, assumption 29). -/
def takeRestoreReq (s : State) (f : Frame) : State :=
  let k := f.w3.bits 60 60
  let x := s.rxImage k
  let want := ofLe (f.payload.take 8) % 2 ^ 14
  match x.header with
  | some h =>
    if s.getF ING_RX_STATE 0 k = 3 && decide (leAt h 26 2 = want) then
      let base := s.rxBase k
      let man := (List.range ((16 * x.count + 4095) / 4096)).flatMap fun i => (Tab.getN none x.manifest (i + 1)).getD []
      let s := s.sendIngot f.src 4 x.epoch 0x30 (ingTag 2 k 0 0 x.serial) h
      let pieces := groupsOf 4096 (man.length + 1) man
      let s := (List.range pieces.length).foldl (fun s i =>
        s.sendIngot f.src 4 x.epoch 0x30 (ingTag 2 k 0 (i + 1) x.serial) (pieces.getD i [])) s
      (List.range x.count).foldl (fun s i =>
        let at0 := base + imageBase x.count + i * pageBytes
        s.sendPage f.src x.epoch k i x.serial 4 (leAt man (16 * i + 8) 8) fun c => s.readBytesAt (at0 + 4096 * c) 4096) s
    else s.answerIngot f 3 0
  | none => s.answerIngot f 3 0

/-! ### Step boundaries of the seal: COMMIT and retract -/

/-- The 256-byte step-log record of a committed step (R346). The step number, and whether the step was replayed, are the
runtime's: free values; no cursor has been supplied (flag bit 4). -/
def logRecord (s : State) (e : Nat) : List Byte × State :=
  let x := s.draw
  let y := x.2.draw
  let forced := (List.range 12).any fun ms =>
    s.flag CRU_VER_STATUS_FORCED ms 0 && s.getF CRU_VER_STATUS_FORCED_EPOCH ms 0 = e
  let flags := (if s.scheduled e then 1 else 0) + (if s.flag ING_PARTNER_CO_FED 0 0 then 2 else 0) + (if forced then 4 else 0) +
    (if y.1.getLsbD 0 then 8 else 0) + 16
  let taken := s.ingot.boundary.any fun b => decide (e ≤ b)
  let serial :=
    if !s.scheduled e then 2 ^ 32 - 1
    else if s.ingot.active ∧ s.ingot.epoch = e then s.ingot.serial
    else if taken ∨ s.ingot.active then 2 ^ 32 - 1
    else s.ingot.next
  let body := [0x5A#8, 0x53#8, 0x4C#8, 0x47#8] ++ toLe 2 3 ++ toLe 2 256 ++ toLe 8 x.1.toNat ++ toLe 4 e ++
    toLe 2 (s.getF PORT_MOD_JOB_JOB 0 0) ++ toLe 2 flags ++ toLe 2 (s.getF ING_MEMBERS_SELF 0 0) ++ toLe 2 0 ++
    toLe 4 serial ++ toLe 64 0 ++ toLe 8 s.jobSeed.toNat ++ toLe 48 (Config.memberHash s.memberBytes).toNat ++
    toLe 8 s.time ++ toLe 8 0 ++ toLe 4 (s.getF ING_STATUS_LAST_EPOCH 0 0) ++ toLe 4 (s.getF ING_POLICY_COMMON 0 0) ++
    toLe 76 0
  (body ++ toLe 4 (crc32c body), y.2)

/-- The step log at COMMIT: appended while a drive is there to take it (R413), and sent to the partner (R347). -/
def logStep (s : State) (e : Nat) : State :=
  let x := s.logRecord e
  let s := if s.tier2Stopped then x.2 else x.2.setIngot { x.2.ingot with ownLog := x.2.ingot.ownLog ++ [x.1] }
  if s.tier1 then s.sendIngot (s.getF ING_PARTNER_OUT 0 0) 4 e 0x30 (ingTag 3 0 0 (2 ^ 19 - 1) 0) x.1 else s

/-- A step's duration kept, and charged to the ingot in progress (R343). -/
def timeStep (s : State) : State :=
  let i := s.ingot
  match i.commitAt with
  | none => s.setIngot { i with commitAt := some s.time }
  | some t =>
    let d := s.time - t
    let cost := if i.active then i.costNow + ((d : Int) - s.meanStep) else i.costNow
    s.setIngot { i with commitAt := some s.time, steps := ((d, i.active) :: i.steps).take 64, costNow := cost }

/-- The steps-lost bound (R345). -/
def lookLost (s : State) (e : Nat) : State :=
  let lost := s.getF ING_POLICY_LOST_MAX 0 0
  if lost ≠ 0 ∧ lost < e - s.getF ING_STATUS_LAST_EPOCH 0 0 ∧ !s.ingot.lostSaid then
    ((s.setIngot { s.ingot with lostSaid := true }).setF ING_STATUS_LOST_ALERT 0 0 1).hubRecord 0x0B06 sevDegraded 4 0 [e] true e
  else s

/-- What a COMMIT of step `e` does in the ingot engine. -/
def ingotCommit (s : State) (e : Nat) : State :=
  ((((s.timeStep.logStep e).rxState 0).rxState 1).lookIngot).lookLost e

/-- What a retract of step `e` does in the ingot engine (R331, R341). -/
def ingotRetract (s : State) (e : Nat) : State :=
  let i := s.ingot
  let s := if i.active && decide (e ≤ i.epoch) then
      let s := s.voidIngot 1
      if s.tier1 then s.sendIngot (s.getF ING_PARTNER_OUT 0 0) 4 i.epoch 0x31 (ingTag 4 i.slot 0 0 i.serial) [] else s
    else s
  [0, 1].foldl (fun s k =>
    let x := s.rxImage k
    if s.getF ING_RX_STATE 0 k ≠ 0 ∧ !x.complete ∧ e ≤ x.epoch then s.emptySlot k else s) s

/-- A restore ends without every page: what it restored stays marked for the next source (R349). -/
def endRestore (s : State) : State :=
  (s.setIngot { s.ingot with restore := { epoch := s.ingot.restore.epoch } }).setF ING_STATUS_STATE 0 0 0

/-- REFUSED (R341, R349): the ingot in progress is void, or the restore ends. -/
def takeRefused (s : State) (f : Frame) : State :=
  if s.getF ING_STATUS_STATE 0 0 = 3 && decide (f.src = s.getF ING_RESTORE_PEER 0 0) then
    s.endRestore
  else if s.ackOurs f then s.voidIngot 3
  else s

/-! ### Restore (R349) -/

/-- Manifest entry `i` of the image being restored: stack, region entry, page, digest. -/
def restoreEntry (s : State) (i : Nat) : Nat × Nat × Nat × Nat :=
  let m := (Tab.getN none s.ingot.restore.manifest (i / 256 + 1)).getD []
  let o := 16 * (i % 256)
  (leAt m o 1, leAt m (o + 1) 1, leAt m (o + 2) 2, leAt m (o + 8) 8 % 2 ^ 61)

/-- A page stored in its physical page, bypassing versioning (R349): into its current frame. -/
def restoreStore (s : State) (ms page : Nat) (bs : Nat → Byte) : State :=
  let f := (s.pageVer ms page).cur
  (List.range pageBytes).foldl (fun s o =>
    let c := o / 4096
    let p : Place := ⟨ms, c / 16, 16 * f + c % 16, o % 4096⟩
    (s.setDram p (bs o)).setGranBad p false) s

/-- A page's restored version entry: its frame is CUR with VEP = s*, every other frame and pin freed. -/
def restoreVer (e : Nat) (s : State) (i : Nat) : State :=
  let x := s.restoreEntry i
  let v := s.pageVer x.1 x.2.2.1
  v.retained.foldl (fun s r => s.giveFrame x.1 r.frame) (s.setPageVer x.1 x.2.2.1 { cur := v.cur, vep := e })

/-- Tokens 4032 and 4033 of every die set (R320, R349). -/
def setSealTokens (s : State) (t v : Nat) : State := [0, 1, 2, 3].foldl (fun s d => s.setF GE_TOKEN_COUNT d t v) s

/-- The restore looked at after a page (R349, step 4): done when every page is good, over when every page is answered. -/
def lookRestore (s : State) : State :=
  let x := s.ingot.restore
  let e := s.getF ING_RESTORE_EPOCH 0 0
  let n := x.count
  if (List.range n).all fun i => Tab.getN false s.ingot.restored i then
    let s := (List.range n).foldl (restoreVer e) s
    let s := (s.setSealTokens 4032 (e + 1)).setSealTokens 4033 (e + 1)
    let s := { s with sealer := { s.sealer with steps := s.sealer.steps.filter fun v => decide (e < v.epoch) } }.showSeal
    ((s.setIngot { s.ingot with restore := {}, restored := [] }).setF ING_STATUS_STATE 0 0 4).pulse 4 8
  else if (List.range n).all fun i => Tab.getN false s.ingot.restored i || Tab.getN false x.bad i then
    s.endRestore.pulse 4 8
  else s

/-- A page of the restore at its end: checked against its manifest digest, written if good (R349). -/
def restorePageEnd (s : State) (i : Nat) : State :=
  let x := s.ingot.restore
  let m := s.restoreEntry i
  if !x.checked || decide (x.count ≤ i) then s
  else
    let ok := decide (Tab.getN 0 x.sums i = m.2.2.2)
    let bs := fun o => Tab.getN (0 : Byte) x.buf (i * pageBytes + o)
    let s := if ok && !Tab.getN false s.ingot.restored i then s.restoreStore m.1 m.2.2.1 bs else s
    let x := { x with
      sums := Tab.putN 0 x.sums i 0
      buf := x.buf.filter fun e => !decide (e.1 / pageBytes = i)
      bad := if ok then x.bad else Tab.putN false x.bad i true }
    let s := s.setIngot { s.ingot with
      restore := x, restored := if ok then Tab.putN false s.ingot.restored i true else s.ingot.restored }
    let s := s.setF ING_PROGRESS_T1_DONE 0 0 ((List.range x.count).filter fun j => Tab.getN false s.ingot.restored j).length
    let s := s.setF ING_PROGRESS_T2_DONE 0 0 ((List.range x.count).filter fun j => Tab.getN false x.bad j).length
    s.lookRestore

/-- A chunk of a page of the restore. -/
def restoreChunk (s : State) (i c : Nat) (bs : List Byte) : State :=
  let x := s.ingot.restore
  if !x.checked then s
  else
    let ms := (s.restoreEntry i).1
    let d := (Tab.getN 0 x.sums i + digBytes (s.stackKey ms (s.getF ING_RESTORE_EPOCH 0 0)) (c * 4096) bs) % digP
    let buf := (List.range bs.length).foldl (fun t o => Tab.putN 0 t (i * pageBytes + c * 4096 + o) (bs.getD o 0)) x.buf
    s.setIngot { s.ingot with restore := { x with sums := Tab.putN 0 x.sums i d, buf := buf } }

/-- A header or manifest piece of the restore: with the manifest whole, its digest and the region-table digest are
checked; a failure ends the restore (R349). -/
def restorePiece (s : State) (i : Nat) (payload : List Byte) : State :=
  let x := takePiece s.ingot.restore i payload
  let n := (16 * x.count + 4095) / 4096
  let whole := x.header.isSome && (List.range n).all fun k => (Tab.getN none x.manifest (k + 1)).isSome
  let s := s.setIngot { s.ingot with restore := x }
  if !whole || x.checked then s
  else if s.manifestGood x && decide (leAt (x.header.getD []) 40 8 % 2 ^ 61 = s.tableDigest x.epoch) then
    let s := s.setIngot { s.ingot with restore := { x with checked := true } }
    (s.setF ING_PROGRESS_PAGES 0 0 x.count).lookRestore
  else s.endRestore.pulse 4 8

/-- RESTORE (R349). -/
def restore (s : State) : State :=
  if s.anyRunning then s.refuseWrite (hubReg 4 0) 4
  else
    let e := s.getF ING_RESTORE_EPOCH 0 0
    let src := s.getF ING_RESTORE_SRC 0 0
    let again := decide (s.ingot.restore.epoch = e)
    let s := s.setIngot { s.ingot with
      restore := { epoch := e }, restored := if again then s.ingot.restored else [] }
    let s := (s.setF ING_STATUS_STATE 0 0 3).setF ING_PROGRESS_T1_DONE 0 0 0
    let s := s.setF ING_PROGRESS_T2_DONE 0 0 0
    if src = 0 then
      s.countFailure.sendIngot (s.getF ING_RESTORE_PEER 0 0) 4 e 0x31 (ingTag 5 (s.getF ING_RESTORE_SLOT 0 0) 0 0 0)
        (toLe 8 (s.getF ING_MEMBERS_SELF 0 0))
    else s.setF ING_T2_FORGE 0 0 (2 ^ (s.getF ING_T2_SLOTS_M1 0 0 + 1) - 1)

/-- The frame of a restore: it comes from PEER while one runs from the partner's slot. -/
def isRestore (s : State) (f : Frame) : Bool :=
  s.getF ING_STATUS_STATE 0 0 = 3 && s.getF ING_RESTORE_SRC 0 0 = 0 && decide (f.src = s.getF ING_RESTORE_PEER 0 0)

/-- A ring slot handed to the engine during a restore: header, manifest piece or page, by its descriptor. -/
def consumeSlot (s : State) (k : Nat) : State :=
  let d := s.readBytesAt (s.ringSlot k) 64
  let piece := leAt d 24 4
  let a := s.ringSlot k + 0x10000
  if piece = 2 ^ 32 - 1 then
    match (List.range s.ingot.restore.count).find? fun i =>
      (s.restoreEntry i).1 = leAt d 0 1 && (s.restoreEntry i).2.2.1 = leAt d 2 2 with
    | some i =>
      ((List.range 512).foldl (fun s c => s.restoreChunk i c (s.readBytesAt (a + 4096 * c) 4096)) s).restorePageEnd i
    | none => s
  else s.restorePiece piece (s.readBytesAt a 4096)

/-- One ring slot handed back (R337, R349). -/
def handSlot (s : State) (k : Nat) : State :=
  let forge := s.getF ING_T2_FORGE 0 0
  if !forge.testBit k then s
  else if s.getF ING_STATUS_STATE 0 0 = 3 then s.consumeSlot k
  else
    let s := s.setF ING_T2_FORGE 0 0 (forge - (forge &&& 2 ^ k))
    match s.ingot.pages.find? fun x => x.slot = some k with
    | some x =>
      let y := { x with slot := none, ok2 := true }
      let s := s.mapPages fun z => if z.slot = some k then { z with slot := none, ok2 := true } else z
      let s := s.setF ING_PROGRESS_T2_DONE 0 0 (s.getF ING_PROGRESS_T2_DONE 0 0 + 1)
      (s.settlePage y).lookIngot
    | none => s

/-- HAND (R337). -/
def hand (s : State) (mask : Nat) : State :=
  (List.range 8).foldl (fun s k => if mask.testBit k then s.handSlot k else s) s

/-- ING_CNT_CLR (R351). -/
def ingCntClr (s : State) : State :=
  (List.range 12).foldl (fun s ms => (s.setF ING_RD_LATE 0 ms 0).setF ING_RD_WAIT_US 0 ms 0) s

end State

def execGossipHour (s : State) := commit s s.gossipHour
def execGossipExpiry (s : State) := commit s s.gossipExpiry
def execIngotBoundary (e : BitVec 32) (s : State) := commit s (s.ingotBoundary e.toNat)
def execIngotPageRead (ms : Fin 12) (s : State) := commit s (s.ingotPageRead ms)
def execIngotRouteTimeout (s : State) := commit s s.ingotRouteTimeout
def execHand (_r : Requester) (mask : BitVec 8) (s : State) := commit s (s.hand mask.toNat)
def execIngotAbort (_r : Requester) (s : State) := commit s (s.voidIngot 5)
def execRestore (_r : Requester) (s : State) := commit s s.restore
def execIngCntClr (_r : Requester) (s : State) := commit s s.ingCntClr

end Sys2Proof.Machine
end

