-- ==== Sys2Proof/Machine/Crucible.lean ====
section
/-! DEFINITION. Crucible stacks, the commands: reads and writes (R180, R187, R188), scrubbing and refresh (R181, R182), the
region table (R184 to R186), pins and forced commits (R208), temperature and margining (R211, R212), and reduce-on-write
contexts (R193 to R196). -/

namespace Sys2Proof.Machine

/-! ### FP64 partials (R196) -/

/-- FP64 addition, nearest-even. -/
def f64Add (a b : Nat) : Nat := fp64.round ((fp64.decode a).add (fp64.decode b))

/-- The sum of the squares of values, in order (R196). -/
def f64Squares (xs : List Val) : Nat := xs.foldl (fun a x => f64Add a (fp64.round (x.mul x))) 0

namespace State

/-! ### Reads and writes of a stack (R180, R187, R188) -/

/-- STACK_READ: the 64-byte line that holds `a`, with what the ECC of its two granules finds. A read behind a failed edge
is poisoned (R221); one of an unmapped address reads zeros (R19). -/
def stackRead (s : State) (r : Requester) (a : Nat) (e0 e1 : Ecc) : State :=
  let a := a / 64 * 64
  match s.findRegion a with
  | none =>
    let s := s.accessRecord 0x0102 r a
    { s with readBytes := List.replicate 64 0, readPoison := List.replicate 64 false }
  | some e =>
    let p := s.locate e a
    if s.unreachable p.stack || !s.mapped a then
      { s with readBytes := List.replicate 64 0, readPoison := List.replicate 64 true }
    else
      let s := (s.eccRead p e0).eccRead { p with off := p.off + 32 } e1
      let bad := fun (i : Nat) => s.readBad (a + i) || decide ((if i < 32 then e0 else e1) = .uncorrectable)
      { s with readBytes := s.readBytesAt a 64, readPoison := (List.range 64).map bad }

/-- STACK_WRITE: a write request, cut at line boundaries. -/
def stackWrite (s : State) (w : WriteReq) : State :=
  (linesOf w.addr w.data).foldl (fun s l => s.write { w with addr := l.1, data := l.2 }) s

/-- The oldest line of a buffer written to DRAM (R188). -/
def oldestBack (s : State) (ms : Nat) : State :=
  match (s.stack ms).wcb with
  | l :: _ => s.writeBack ms l
  | [] => s

/-- SCRUB (R181): a granule read while SCRUB_EN is 1. -/
def scrub (s : State) (ms ch rowg gran : Nat) (e : Ecc) : State :=
  if s.flag CRU_CTRL_SCRUB_EN ms 0 then s.eccRead (granPlace ms ch rowg gran) e else s

/-- REFRESH (R182): a bank refreshed. -/
def refresh (s : State) (ms : Nat) : State :=
  let st := s.stack ms
  s.setStack ms { st with refreshed := st.refreshed + 1 }

/-- CNT_CLR (R213). -/
def cruCntClr (s : State) (ms : Nat) : State :=
  ((s.setF CRU_ECC_CORR ms 0 0).setF CRU_ECC_UNCORR ms 0 0).setF CRU_STATUS_COMP_LOST ms 0 0

/-! ### The region table (R184 to R186) -/

/-- An entry of the table being written in MS0. -/
def draftEntry (s : State) (e : Nat) : Word × Word := (s.getR ⟨.CRU_REGION_A, 0, e⟩, s.getR ⟨.CRU_REGION_B, 0, e⟩)

/-- The stacks whose channels an entry uses. -/
def entryStacks (r : Region) : List Nat := if r.il = 1 then [3 * r.die, 3 * r.die + 1, 3 * r.die + 2] else List.range 12

/-- Do two entries use one row-granule of one channel (R186 code 2)? -/
def sharesRows (r o : Region) : Bool :=
  (entryStacks r).any (fun x => (entryStacks o).contains x) &&
  decide (r.choff < o.choff + o.size ∧ o.choff < r.choff + r.size)

/-- The code that entry `e` of a draft breaks, 0 for none: what an entry breaks by itself before what it breaks with an
earlier one (order DEDUCED, assumption 31). -/
def entryCode (s : State) (table : List Region) (e : Nat) (r : Region) : Nat :=
  if !r.valid then 0
  else if 1 < r.il ∨ 3 < r.comp ∨ 4 < r.elem ∨ r.lratio < 16 ∨ 32 < r.lratio then 5
  else if r.comp ≠ 0 ∧ (r.ver ∨ r.il = 0) then 4
  else if framesPerStack < r.choff + r.size then 7
  else if (entryStacks r).any fun ms => decide (framesPerStack - s.getF CRU_VER_CFG_RESERVE ms 0 < r.choff + r.size) then 3
  else
    let before := (table.take e).filter (·.valid)
    if before.any fun o => decide (r.base < o.base + o.length ∧ o.base < r.base + r.length) then 1
    else if before.any (sharesRows r) then 2
    else 0

/-- RT_PUBLISH (R186). A refusal is a refused register write (DEDUCED from R372, assumption 31). -/
def rtPublish (s : State) (v : Word) : State :=
  if s.flag CRU_STATUS_RT_PENDING 0 0 then s.refuseWrite (stackReg 0 0 0) v
  else
    let table := (List.range 64).map fun e => Region.of (s.draftEntry e).1 (s.draftEntry e).2
    let bad := if s.anyRunning then some (0, 6)
      else ((List.range 64).map fun e => (e, s.entryCode table e (table.getD e (Region.of 0 0)))).find? fun x => x.2 ≠ 0
    match bad with
    | some x => ((s.setF CRU_STATUS_RT_ERR 0 0 x.2).setF CRU_STATUS_RT_ENTRY 0 0 x.1).refuseWrite (stackReg 0 0 0) v
    | none =>
      let draft := (List.range 64).foldl (fun t e => Tab.putN (0, 0) t e (s.draftEntry e)) []
      { (s.setF CRU_STATUS_RT_ERR 0 0 0).setF CRU_STATUS_RT_PENDING 0 0 1 with publishing := some draft }

/-- RT_PUBLISH_DONE: the copy has reached every NoC and stack. -/
def rtPublishDone (s : State) : State :=
  match s.publishing with
  | some t =>
    let s := { s with published := t, publishing := none }
    (List.range 12).foldl (fun s ms => s.setF CRU_STATUS_RT_VALID ms 0 1) (s.setF CRU_STATUS_RT_PENDING 0 0 0)
  | none => s

/-! ### Pins and forced commits (R208) -/

/-- PINS_ABANDONED: stage 1 of R208, while a write waits and stage 1 has not been taken. -/
def pinsAbandoned (s : State) (ms : Nat) : State :=
  if s.flag CRU_VER_STATUS_WAITING ms 0 && decide ((s.stack ms).waitStage = 0) then
    let s := s.setStack ms { s.stack ms with waitStage := 1 }
    let s := (s.setF CRU_VER_STATUS_ABANDONED ms 0 1).stackRecord 0x0607 sevDegraded ms 3 0 [ms]
      (if s.ingot.active then s.ingot.epoch else 0)
    (s.dropPins ms).voidIngot 2
  else s

/-! ### Temperature and margining (R211, R212) -/

/-- The thermal state a stack takes: it rises at 85, 95 and 105 °C and falls below 82, 92 and 100 °C (R211). -/
def thermState (old : Nat) (t : Int) : Nat :=
  if 1680 ≤ t then 3
  else if old = 3 ∧ 1600 ≤ t then 3
  else if 1520 ≤ t then 2
  else if 2 ≤ old ∧ 1472 ≤ t then 2
  else if 1360 ≤ t then 1
  else if 1 ≤ old ∧ 1312 ≤ t then 1
  else 0

/-- STACK_THERMAL_CHANGE (R211): the temperature taken, the state changed, the owning die's budget cut to what it has
granted at 95 °C (R391), a quench requested of it at 105 °C. -/
def stackThermal (s : State) (ms : Nat) (temp : BitVec 16) : State :=
  let old := s.getF CRU_THERM_STATE ms 0
  let new := thermState old temp.toInt
  let s := (s.setF CRU_THERM_TEMP ms 0 temp.toNat).setF CRU_THERM_STATE ms 0 new
  let s := s.offer (ms / 3) 0x08 ms temp.toInt s.time
  if new = old then s
  else
    let s := s.pulse (6 + ms) 1
    let s := if old < 2 ∧ 2 ≤ new then
        (s.setF PWR_LV_STATUS_BUDGET (ms / 3) 0 (s.granted (ms / 3))).stackRecord 0x060A sevDegraded ms 0 0 [temp.toNat]
      else s
    if old < 3 ∧ new = 3 then
      (s.stackRecord 0x060B sevFailed ms 0 0 [temp.toNat]).quenchDie (ms / 3) .stack (s.hottest (ms / 3))
    else s

/-- May a margining run start (R212)? -/
def mayMargin (s : State) : Bool :=
  decide (s.boot.prof.margining = 1) || decide (s.getF PWR_STATUS_STATE 0 0 = 5)

/-- Is the run of a Braze bundle refused: its edge already has two retired bundles (R220)? -/
def marginEdgeWorn (s : State) (ms : Nat) (v : Word) : Bool :=
  v.bit 62 && decide (2 ≤ ((List.range 8).filter fun b => s.bundleRetired (ms / 3) (3 + ms % 3) b).length)

/-- A bundle of a stack's edge, up, is taken for margining, or given back (R212, R220; assumption 58): it carries no
traffic and is not retired. -/
def marginBundle (s : State) (ms b : Nat) (on : Bool) : State :=
  let d := ms / 3
  let e := 3 + ms % 3
  let up := decide (s.getF BRZ_STATUS_STATE (brz d e) 0 = 2) && !s.bundleRetired d e b
  let m := s.getF BRZ_STATUS_MARGIN (brz d e) 0
  let a := s.getF BRZ_STATUS_ACTIVE (brz d e) 0
  if 8 ≤ b then s
  else if on then
    if up then (s.setF BRZ_STATUS_MARGIN (brz d e) 0 (m ||| 2 ^ b)).setF BRZ_STATUS_ACTIVE (brz d e) 0 (a - (a &&& 2 ^ b))
    else s
  else if m.testBit b then
    let s := s.setF BRZ_STATUS_MARGIN (brz d e) 0 (m - 2 ^ b)
    if up then s.setF BRZ_STATUS_ACTIVE (brz d e) 0 (a ||| 2 ^ b) else s
  else s

/-- GO (R212): a run starts, or the write is ignored with a record. A run in progress goes on (DESIGN CHOICE,
assumption 32). -/
def marginGo (s : State) (ms : Nat) (v : Word) : State :=
  if !s.mayMargin || s.marginEdgeWorn ms v then s.stackRecord 0x060C sevInfo ms 4 0 [v.toNat]
  else if (s.stack ms).margining.isSome then s.refuseWrite (stackReg ms 4 0) v
  else
    let s := s.putR ⟨.CRU_MARGIN_CTRL, ms, 0⟩ (v &&& 0x40FFFFFFFFFFFFFF#64)
    let s := (s.setStack ms { s.stack ms with margining := some (v.bits 62 48) }).setF CRU_MARGIN_RESULT_DONE ms 0 0
    if v.bit 62 then s.marginBundle ms (v.bits 55 48) true else s

/-- MARGIN_DONE (R212). -/
def marginDone (s : State) (ms errors : Nat) : State :=
  match (s.stack ms).margining with
  | some m =>
    let s := s.setStack ms { s.stack ms with margining := none }
    let s := if m.testBit 14 then s.marginBundle ms (m % 256) false else s
    (s.setF CRU_MARGIN_RESULT_ERRORS ms 0 errors).setF CRU_MARGIN_RESULT_DONE ms 0 1
  | none => s

/-! ### Reduce-on-write (R193 to R196) -/

/-- Granules of a region below index `g` that lie on a stack (R185). -/
def granBelow (r : Region) (ms g : Nat) : Nat :=
  let n := if r.il = 1 then 96 else 384
  let j := 32 * (if r.il = 1 then ms - 3 * r.die else ms)
  g / n * 32 + min (g % n - j) 32

/-- Granule number `i` of a region's share on a stack. -/
def granNth (r : Region) (ms i : Nat) : Nat :=
  let n := if r.il = 1 then 96 else 384
  i / 32 * n + 32 * (if r.il = 1 then ms - 3 * r.die else ms) + i % 32

/-- Where chunk `q` of a context begins: the granules of its range on its stack in address order (R193). -/
def rowChunkAddr (s : State) (ms dst q : Nat) : Nat :=
  match s.findRegion dst with
  | none => dst
  | some e =>
    let r := s.region e
    let g := granNth r ms (granBelow r ms ((dst - r.base) / 4096) + q)
    max dst (r.base + g * 4096)

/-- The context's part that no register holds. -/
def rowOf (s : State) (ms c : Nat) : RowCtx := Tab.getN {} (s.stack ms).rows c

def setRow (s : State) (ms c : Nat) (x : RowCtx) : State :=
  let st := s.stack ms
  s.setStack ms { st with rows := Tab.putN {} st.rows c x }

/-- The area of a context (R213). -/
def rowArea (s : State) (ms c : Nat) : Nat :=
  (s.getF CRU_ROW_PARK_PARK ms c - 64 - 32 * s.getF CRU_ROW_DST_LEN_G ms c) / 64 * 64

/-- A word of the area written, where the area lies in memory. -/
def areaWord (s : State) (ms c off v : Nat) : State :=
  if (s.rowOf ms c).inMem then s.storeAll (s.rowArea ms c + off) (toLe 8 v) none else s

/-- Does a region accept a context (R193)? -/
def rowAllowed (s : State) (dst : Nat) : Bool := (s.findRegion dst).any fun e => (s.region e).comp = 0

/-- A context created (R193, R213): its registers written, nothing applied. -/
def rowCreate (s : State) (ms c : Nat) (x : RowSetup) (ctx : RowCtx) : State :=
  if !s.rowAllowed x.dst || s.flag CRU_ROW_CFG_VALID ms c then s
  else
    let s := (s.setF CRU_ROW_DST_DST ms c x.dst).setF CRU_ROW_DST_LEN_G ms c x.lenG
    let s := (s.setF CRU_ROW_PARK_PARK ms c x.park).setF CRU_ROW_PARK_PARK_SLOTS ms c x.parkSlots
    let s := s.putR ⟨.CRU_ROW_STATE, ms, c⟩ 0
    let s := (s.setF CRU_ROW_CFG_FMT ms c x.fmt).setF CRU_ROW_CFG_INIT ms c (if x.overwrite then 1 else 0)
    let s := (s.setF CRU_ROW_CFG_RND ms c (if x.stochastic then 1 else 0)).setF CRU_ROW_CFG_DIG ms c (if x.dig then 1 else 0)
    let s := (s.setF CRU_ROW_CFG_STAT ms c (if x.stat then 1 else 0)).setF CRU_ROW_CFG_SLOT ms c x.slot
    let s := (s.setF CRU_ROW_CFG_NCONTRIB ms c x.ncontrib).setF CRU_ROW_CFG_TENSOR ms c x.tensor
    (s.setF CRU_ROW_CFG_VALID ms c 1).setRow ms c ctx

/-- A byte as the stack's own engine sees it: a write that waits behind a copy comes before memory (R205, R187). -/
def engineByte (s : State) (a : Nat) : Byte :=
  match s.pageAt a with
  | none => s.readByte a
  | some p =>
    match (s.stack p.2.1).waiting.reverse.find? fun w => decide (w.addr ≤ a ∧ a < w.addr + w.data.length) with
    | some w => w.data.getD (a - w.addr) 0
    | none => s.readByte a

/-- The format of a context or collective: FP32, BF16, FP16 (R213). -/
def rowFmt (code : Nat) : FloatFmt := if code = 1 then bf16 else if code = 2 then fp16 else fp32

/-- Element bytes of such a format. -/
def rowWidth (code : Nat) : Nat := if code = 0 then 4 else 2

/-- Is a byte poisoned as the engine sees it: its granule is, and no waiting write has replaced it whole? -/
def engineBad (s : State) (a : Nat) : Bool :=
  let g := a - a % 32
  let held := fun (w : WriteReq) => decide (w.addr ≤ g ∧ g + 32 ≤ w.addr + w.data.length)
  match (s.pageAt a).bind fun p => (s.stack p.2.1).waiting.reverse.find? held with
  | some w => w.poison.contains (g % 64 / 32)
  | none => s.readBad a

/-- An element in memory as a Crucible engine takes it: a poisoned one is the canonical NaN (R180). -/
def engineElem (s : State) (f : FloatFmt) (n a : Nat) : Nat :=
  if s.engineBad a then f.nanCode else ofLe ((List.range n).map fun i => s.engineByte (a + i))

/-- One element's new value (R194): FP32 addition uncounted, or the exact sum rounded to the format and counted. -/
def rowAdd (code : Nat) (mode : Rounding) (noise a b : Nat) : Nat × List Count :=
  if code = 0 then ((fadd (BitVec.ofNat 32 a) (BitVec.ofNat 32 b)).toNat, [])
  else
    let f := rowFmt code
    let v := (f.decode a).add (f.decode b)
    let r := f.convert mode noise v
    (r.1, [countOf v r.2])

/-- What one element takes from an addition that failed its residue check (R360): the value written, counted as any. -/
def rowFaulty (code : Nat) (mode : Rounding) (noise : Nat) (v : F32) : Nat × List Count :=
  if code = 0 then (v.toNat, [])
  else
    let r := (rowFmt code).convert mode noise (f32Val v)
    (r.1, [countOf (f32Val v) r.2])

/-- Epoch of a context's task; 0 for one with no task. -/
def rowEpoch (s : State) (x : RowCtx) : Nat := ((x.owner.bind s.task?).map (·.epoch)).getD 0

/-- Does a chunk overwrite, with no addition (R194)? -/
def rowOverwrites (s : State) (ms c k : Nat) : Bool := k = 0 && s.flag CRU_ROW_CFG_INIT ms c

/-- The new codes of a chunk and their counts (R194). `faults` are the elements whose addition fails its residue check,
each with the value it gave. -/
def rowValues (s : State) (ms c q k : Nat) (codes : List Nat) (faults : List (Nat × F32) := []) : List (Nat × List Count) :=
  let code := s.getF CRU_ROW_CFG_FMT ms c
  let n := rowWidth code
  let a := s.rowChunkAddr ms (s.getF CRU_ROW_DST_DST ms c) q
  let x := s.rowOf ms c
  let mode := if s.flag CRU_ROW_CFG_RND ms c then Rounding.stochastic else .nearest
  let e := s.rowEpoch x
  let t := s.getF CRU_ROW_CFG_TENSOR ms c + k
  codes.mapIdx fun i v =>
    if s.rowOverwrites ms c k then (v, [])
    else
      let z := noise (s.getR ⟨.CRU_SEED, ms, 0⟩) e t ((a - x.origin) / n + i)
      match faults.lookup i with
      | some y => rowFaulty code mode z y
      | none => rowAdd code mode z (s.engineElem (rowFmt code) n (a + n * i)) v

/-- A completed context (R196): the header from the chunk partials in ascending q. -/
def rowComplete (s : State) (ms c : Nat) : State :=
  let n := s.getF CRU_ROW_DST_LEN_G ms c
  let x := s.rowOf ms c
  let stat := s.flag CRU_ROW_CFG_STAT ms c
  let total := fun (t : Tab Nat Nat) => if stat then (List.range n).foldl (fun a q => f64Add a (Tab.getN 0 t q)) 0 else 0
  let s := s.setRow ms c { x with loc := total x.leafSum, sum := total x.doneSum }
  let x := s.rowOf ms c
  let s := ((s.areaWord ms c 8 x.loc).areaWord ms c 16 x.sum)
  let s := if s.flag CRU_ROW_CFG_DIG ms c then s.areaWord ms c 0 x.digest else s
  s.setF CRU_ROW_STATE_COMPLETE ms c 1

/-- A contribution applied (R194, R196): the sums written, the partials and the digest of a chunk with its last one. -/
def rowApply (s : State) (ms c q k : Nat) (leaf : Bool) (data : List Byte) (faults : List (Nat × F32) := []) : State :=
  let code := s.getF CRU_ROW_CFG_FMT ms c
  let n := rowWidth code
  let x := s.rowOf ms c
  let stat := s.flag CRU_ROW_CFG_STAT ms c
  let e := s.rowEpoch x
  let a := s.rowChunkAddr ms (s.getF CRU_ROW_DST_DST ms c) q
  let codes := elements n (data.length + 1) data
  let vs := s.rowValues ms c q k codes faults
  let bytes := vs.flatMap fun v => toLe n v.1
  let s := s.enterCounts (ms / 3) (s.getF CRU_ROW_CFG_SLOT ms c) e (countDelta (vs.flatMap (·.2)))
  let s := s.writePlain a bytes (some e) (s.getF CRU_ROW_CFG_TENSOR ms c) x.owner
  let last := decide (k + 1 = s.getF CRU_ROW_CFG_NCONTRIB ms c)
  let f := rowFmt code
  let leafSum := if leaf && stat then
      Tab.putN 0 x.leafSum q (f64Add (Tab.getN 0 x.leafSum q) (f64Squares (codes.map f.decode)))
    else x.leafSum
  let doneSum := if last && stat then Tab.putN 0 x.doneSum q (f64Squares (vs.map fun v => f.decode v.1)) else x.doneSum
  let dig := if last then (x.digest + digBytes (s.stackKey ms e) (a - x.origin) bytes) % digP else x.digest
  let s := s.setRow ms c { x with
    next := Tab.putN 0 x.next q (k + 1), leafSum := leafSum, doneSum := doneSum, digest := dig }
  let s := (s.areaWord ms c (64 + 32 * q) (k + 1)).areaWord ms c (64 + 32 * q + 8) (Tab.getN 0 leafSum q)
  let s := s.areaWord ms c (64 + 32 * q + 16) (Tab.getN 0 doneSum q)
  if last then
    let s := s.addF CRU_ROW_STATE_DONE ms c 1
    if s.getF CRU_ROW_STATE_DONE ms c = s.getF CRU_ROW_DST_LEN_G ms c then s.rowComplete ms c else s
  else s

/-- Parked contributions of a chunk applied as their turn comes, their slots freed (R195). -/
def rowDrain : Nat → State → Nat → Nat → Nat → State
  | 0, s, _, _, _ => s
  | n + 1, s, ms, c, q =>
    let x := s.rowOf ms c
    match x.parked.find? fun y => y.q = q && y.k = Tab.getN 0 x.next q with
    | some y =>
      let s := s.setRow ms c { x with parked := x.parked.erase y }
      let s := s.setF CRU_ROW_STATE_PARKED ms c (s.rowOf ms c).parked.length
      rowDrain n (s.rowApply ms c q y.k y.leaf y.data) ms c q
    | none => s

/-- The lowest free park slot. -/
def freePark (x : RowCtx) (n : Nat) : Option Nat := (List.range n).find? fun i => !x.parked.any fun y => y.slot = i

/-- A contribution chunk arrives (R195): applied in its turn, parked, or refused where no slot is free; none reaches a stack
behind a failed edge (R221). -/
def rowArrive (s : State) (ms c q k : Nat) (leaf : Bool) (data : List Byte) (faults : List (Nat × F32) := []) : State :=
  let x := s.rowOf ms c
  if s.unreachable ms || !s.flag CRU_ROW_CFG_VALID ms c || decide (s.getF CRU_ROW_DST_LEN_G ms c ≤ q) ||
      decide (s.getF CRU_ROW_CFG_NCONTRIB ms c ≤ k) || decide (k < Tab.getN 0 x.next q) then s
  else if k = Tab.getN 0 x.next q then
    rowDrain (x.parked.length + 1) (s.rowApply ms c q k leaf data faults) ms c q
  else if x.parked.any fun y => y.q = q && y.k = k then s
  else match freePark x (s.getF CRU_ROW_PARK_PARK_SLOTS ms c) with
    | none => s
    | some i =>
      let s := s.setRow ms c { x with parked := x.parked ++ [⟨q, k, i, data.length, leaf, data⟩] }
      let s := s.setF CRU_ROW_STATE_PARKED ms c (x.parked.length + 1)
      if x.inMem then s.storeAll (s.getF CRU_ROW_PARK_PARK ms c + 4096 * i) data none else s

/-- A context given up: its registers read invalid (R311). -/
def rowFree (s : State) (ms c : Nat) : State := (s.setF CRU_ROW_CFG_VALID ms c 0).setRow ms c {}

end State

/-! ### The commands -/

def execStackRead (r : Requester) (a : Nat) (e0 e1 : Ecc) (s : State) := commit s (s.stackRead r a e0 e1)
def execStackWrite (w : WriteReq) (s : State) := commit s (s.stackWrite w)
def execWcbLineWriteback (ms : Fin 12) (s : State) := commit s (s.oldestBack ms)
def execFlush (r : Requester) (ms : Fin 12) (s : State) := commit s (s.atReg r (stackReg ms 0 0x30) (s.flushStack ms))
def execFirstTouchCopyDone (ms : Fin 12) (corr bad : List Nat) (s : State) := commit s (s.firstTouchDone ms corr bad)
def execPinsAbandoned (ms : Fin 12) (s : State) := commit s (s.pinsAbandoned ms)
def execForcedCommit (ms : Fin 12) (s : State) := commit s (s.forcedCommit ms)
def execScrub (ms : Fin 12) (channel : Fin 32) (rowg : Fin 524288) (gran : Fin 128) (e : Ecc) (s : State) :=
  commit s (s.scrub ms channel rowg gran e)
def execRefresh (ms : Fin 12) (_channel : Fin 32) (_bank : Fin 64) (s : State) := commit s (s.refresh ms)
def execRtPublish (r : Requester) (s : State) :=
  commit s (s.atReg r (stackReg 0 0 0) (s.rtPublish (s.getR ⟨.CRU_CTRL, 0, 0⟩ ||| 1#64)))
def execRtPublishDone (s : State) := commit s s.rtPublishDone
def execCruCntClr (r : Requester) (ms : Fin 12) (s : State) := commit s (s.atReg r (stackReg ms 0 0) (s.cruCntClr ms))

/-- A context the collective engine creates with a given park area; its digest and element indices count from the range's
start (DESIGN CHOICE, assumption 33). -/
def execRowContextCreate (ms : Fin 12) (c : Fin 256) (x : RowSetup) (s : State) :=
  commit s (s.rowCreate ms c x { owner := some x.owner, origin := x.dst, inMem := true })
def execStackThermalChange (ms : Fin 12) (temp : BitVec 16) (s : State) := commit s (s.stackThermal ms temp)
def execGo (r : Requester) (ms : Fin 12) (v : Word) (s : State) := commit s (s.atReg r (stackReg ms 4 0) (s.marginGo ms v))
def execMarginDone (ms : Fin 12) (errors : BitVec 48) (s : State) := commit s (s.marginDone ms errors.toNat)

end Sys2Proof.Machine
end

