-- ==== Sys2Proof/Machine/Seal.lean ====
section
/-! DEFINITION. Seal and retract (R318 to R323): a step's verdict, the rounds over the job axes, sealing and committing,
retracting, and the checks the Forge writes (R325, R358, R362). -/

namespace Sys2Proof.Machine

/-- The TAG of a SEAL_RETRACT frame (R319). -/
def sealTag (type verdict axis round reason die xyz : Nat) : Word :=
  BitVec.ofNat 64 (type * 2 ^ 62 + verdict * 2 ^ 60 + axis * 2 ^ 58 + round % 16 * 2 ^ 54 + reason * 2 ^ 50 +
    die * 2 ^ 24 + xyz)

namespace State

/-! ### The ring neighbours (R319, R325) -/

/-- COL_SEAL_NBR of an axis and side, if there is one. -/
def sealNbr (s : State) (axis dir : Nat) : Option Nat :=
  let w := s.getR ⟨.COL_SEAL_NBR, 0, 2 * axis + dir⟩
  if w.bit 63 then some (w.bits 23 0) else none

/-- The axes the job extends over. -/
def jobAxes (s : State) : List Nat := [0, 1, 2].filter fun a => (s.sealNbr a 0).isSome || (s.sealNbr a 1).isSome

/-- The axes a round gathers: in round 0 those the carrier does not cover (R319, R321). -/
def roundAxes (s : State) (round : Nat) : List Nat :=
  s.jobAxes.filter fun a => decide (0 < round) || !(s.getF COL_SEAL_CFG_CARRIED 0 0).testBit a

/-- A SEAL_RETRACT frame to a module's hub. -/
def sealFrame (s : State) (dst src epoch flags : Nat) (tag : Word) : Frame :=
  mkFrame dst 4 1 src 4 epoch (s.getF PORT_MOD_JOB_JOB 0 0) 0x24 flags tag []

/-! ### Retract (R322) -/

/-- The modules a carrier's member list names, this one apart. -/
def carrierMembers (s : State) (t : TaskId) : List Nat :=
  match s.task? t with
  | some x =>
    let n := x.coG 0 * x.coG 1 * x.coG 2
    (((List.range n).filter fun i => decide (i ≠ x.coSelf)).map fun i => (s.readWord (x.coMembers + 8 * i)).bits 23 0)
  | none => []

/-- Where a RETRACT is sent: every neighbour and every member of every carrier in flight (R322). -/
def retractTargets (s : State) : List Nat :=
  let nbrs := [0, 1, 2].flatMap fun a => [0, 1].filterMap fun dir => s.sealNbr a dir
  let flying := s.sealer.steps.filter fun v => !v.carrierDone
  (nbrs ++ (flying.filterMap (·.carrier)).flatMap s.carrierMembers).eraseDups

/-- A retract not yet covered by one received before, of a step that is not SEALED (R322, R323). -/
def retractNew (s : State) (e : Nat) : Bool := !s.isSealed e && !s.sealer.lastRetract.any fun r => decide (r ≤ e)

/-- A retract begun (R322): forwarded, latched, tasks cancelled, versions restored, the ingot of a retracted step
void, channels abandoned with their tasks. RETRACT_DONE is cleared until it has finished (DEDUCED, assumption 34). -/
def retractStep (s : State) (e reason die xyz : Nat) : State :=
  if !s.retractNew e then s
  else
    let tag := sealTag 1 0 0 0 reason die xyz
    let s := s.retractTargets.foldl (fun s c => s.send (s.sealFrame c s.here e 0 tag)) s
    let s := (s.setF COL_RETRACT_EPOCH 0 0 e).setF COL_RETRACT_REASON 0 0 reason
    let s := (s.setF COL_RETRACT_SUSPECT_DIE 0 0 die).setF COL_RETRACT_SUSPECT 0 0 xyz
    let s := (s.setF COL_RETRACT_VALID 0 0 1).setF COL_SEAL_STATE_RETRACTING 0 0 1
    let s := s.setF COL_SEAL_STATE_RETRACT_DONE 0 0 0
    let s := { s with sealer := {
      steps := s.sealer.steps.filter fun v => v.epoch < e, retracting := some e, lastRetract := some e } }
    let s := s.cancelEpoch e
    let s := (List.range 12).foldl (fun s ms => s.stackRetract ms e) s
    let s := (List.range 4).foldl (fun s d =>
      let x := s.engine d
      s.setEngine d { x with
        top := min x.top e, boundary := min x.boundary e
        unmatched := x.unmatched.filter fun r => r.1 < e
        twins := x.twins.filter fun r => r.epoch < e }) s
    (s.ingotRetract e).showSeal

/-- RETRACT_DONE (R322): no task of the retracted steps is live on any die. -/
def retractDone (s : State) : State :=
  match s.sealer.retracting with
  | none => s
  | some e =>
    if [0, 1, 2, 3].any fun d => !(s.liveTasks d fun x => decide (e ≤ x.epoch)).isEmpty then s
    else
      let s := { s with sealer := { s.sealer with retracting := none } }
      let s := (List.range 12).foldl (fun s ms => s.setStack ms { s.stack ms with retract := none }) s
      (s.setF COL_SEAL_STATE_RETRACTING 0 0 0).setF COL_SEAL_STATE_RETRACT_DONE 0 0 1

/-- Work of a retracted epoch has started again: a later retract of it is a new one. -/
def retractOver (s : State) (e : Nat) : State :=
  if s.sealer.retracting.isNone && s.sealer.lastRetract.any fun r => decide (r ≤ e) then
    { s with sealer := { s.sealer with lastRetract := none } }
  else s

/-- The module's verdict for a step becomes FAIL (R322), or, after GOOD or the seal, is only recorded (R323). With no
suspect named, the suspect fields hold a free value (assumption 35). -/
def failStep (s : State) (e reason : Nat) (suspect : Option (Nat × Nat)) : State :=
  let v := s.stepOf e
  if s.isSealed e || v.sentGood then
    s.record { event := 0x0A05, sev := sevSuspect, unit := unitOf 4 3, epoch := e, syn := Config.syndrome 0x0A05 [e, reason] }
  else
    let s := s.setStep { v with failed := true }
    match suspect with
    | some x => s.retractStep e reason x.1 x.2
    | none =>
      let w := s.draw
      w.2.retractStep e reason (w.1.toNat / 2 ^ 24 % 8) (w.1.toNat % 2 ^ 24)

/-- The channel of a stack-memory address. -/
def addrChannel (s : State) (a : Nat) : Nat :=
  match s.findRegion a with
  | some e => ((s.region e).place (a - (s.region e).base)).channel
  | none => 0

/-- A failed residue check (R360): its record, naming the channel and the context or COPY, and FAIL for the epoch of the
work, with this module and the stack's owning die as suspect. -/
def residueFail (s : State) (ms unit channel : Nat) (work : List Nat) (e : Nat) (task : Option (Nat × Nat × Nat)) : State :=
  (s.stackRecord 0x060D sevSuspect ms unit channel (channel :: work) e task).failStep e 2 (some (ms / 3, s.here))

/-- A contribution chunk with the additions of it that fail their residue checks (R360): element, and the value written.
They count where the chunk is applied on its arrival and adds (assumption 57). -/
def rowArriveFaulty (s : State) (ms c q k : Nat) (leaf : Bool) (data : List Byte) (faults : List (Nat × F32)) : State :=
  let x := s.rowOf ms c
  let adds := !s.unreachable ms && s.flag CRU_ROW_CFG_VALID ms c && decide (q < s.getF CRU_ROW_DST_LEN_G ms c) &&
    decide (k < s.getF CRU_ROW_CFG_NCONTRIB ms c) && decide (k = Tab.getN 0 x.next q) && !s.rowOverwrites ms c k
  let n := rowWidth (s.getF CRU_ROW_CFG_FMT ms c)
  let a := s.rowChunkAddr ms (s.getF CRU_ROW_DST_DST ms c) q
  let hit := if adds then (List.range (data.length / n)).filter fun i => (faults.lookup i).isSome else []
  let task := x.owner.bind fun t => (s.task? t).map fun y => (y.kindCode, t.g, t.idx)
  hit.foldl (fun r i => r.residueFail ms 1 (s.addrChannel (a + n * i)) [c] (s.rowEpoch x) task)
    (s.rowArrive ms c q k leaf data faults)

/-! ### Rounds over the job axes (R319, R321) -/

/-- The verdict held for a step's round: its own and every one received. -/
def heldVerdict (v : StepVerdict) : Nat := worse v.own v.combined

/-- What has been sent is noted: GOOD closes the step to a retract from here (R323), HOLD asks for a round later. -/
def noteSent (v : StepVerdict) (x : Nat) : StepVerdict :=
  if x = 0 then { v with sentGood := true } else if x = 1 then { v with sentHold := true } else v

/-- This module's verdict sent both ways along an axis. FLAGS bit 0 is the direction of travel, bit 1 marks the end of an
open axis (DESIGN CHOICE, assumption 30). -/
def sendAxis (s : State) (v : StepVerdict) (axis x : Nat) : State :=
  [0, 1].foldl (fun s dir =>
    match s.sealNbr axis dir with
    | some c =>
      let last := (s.sealNbr axis (1 - dir)).isNone
      s.send (s.sealFrame c s.here v.epoch (dir + if last then 2 else 0) (sealTag 0 x axis v.round 0 0 0))
    | none => s) s

/-- The axis of a frame, its round, its verdict and its direction. -/
def frameAxis (f : Frame) : Nat := f.w3.bits 59 58
def frameRound (f : Frame) : Nat := f.w3.bits 57 54
def frameVerdict (f : Frame) : Nat := min 2 (f.w3.bits 61 60)
def frameDir (f : Frame) : Nat := f.flags % 2

/-- Every member of the axis has answered: a verdict has come round, or every side's end has been heard from. -/
def axisDone (s : State) (v : StepVerdict) (axis : Nat) (again : Bool) : Bool :=
  again || [0, 1].all fun dir => (s.sealNbr axis (1 - dir)).isNone || v.ends.contains dir

/-- A verdict taken on the axis being gathered: a new one is forwarded in its direction. The answer says whether one has
come round. -/
def takeVerdict (s : State) (v : StepVerdict) (f : Frame) : State × StepVerdict × Bool :=
  if f.src = s.here ∨ v.got.any fun g => g.1 = f.src then (s, v, true)
  else
    let s := match s.sealNbr (frameAxis f) (frameDir f) with
      | some c => s.send (s.sealFrame c f.src v.epoch f.flags f.w3)
      | none => s
    let ends := if f.flags / 2 % 2 = 1 then frameDir f :: v.ends else v.ends
    (s, { v with got := v.got ++ [(f.src, frameVerdict f)], ends := ends }, false)

/-- A round carried on from the axis it stands at: an axis begun sends this module's verdict and takes the frames that
came early; a finished one adds its verdicts; after the last the job-wide verdict stands. -/
def runRound : Nat → State → StepVerdict → List Nat → State
  | 0, s, v, _ => s.setStep v
  | _ + 1, s, v, [] => s.setStep { v with axis := none, jobWide := some (heldVerdict v), early := [] }
  | n + 1, s, v, a :: rest =>
    let begun := v.axis = some a
    let x := heldVerdict v
    let s := if begun then s else s.sendAxis v a x
    let v := if begun then v else { (noteSent v x) with axis := some a, got := [], ends := [] }
    let mine := v.early.filter fun f => frameAxis f = a
    let later := v.early.filter fun f => frameAxis f ≠ a
    let r := mine.foldl (fun (r : State × StepVerdict × Bool) f =>
      let y := r.1.takeVerdict r.2.1 f
      (y.1, y.2.1, r.2.2 || y.2.2)) (s, { v with early := later }, false)
    if r.1.axisDone r.2.1 a r.2.2 then
      let w := r.2.1.got.foldl (fun w g => worse w g.2) r.2.1.combined
      runRound n r.1 { r.2.1 with combined := w } rest
    else r.1.setStep r.2.1

/-- The axes still to gather in a step's round. -/
def axesLeft (s : State) (v : StepVerdict) : List Nat :=
  match v.axis with
  | some a => (s.roundAxes v.round).filter fun b => a ≤ b
  | none => s.roundAxes v.round

/-- A round begun or joined (R321). -/
def beginRound (s : State) (v : StepVerdict) (round : Nat) : State :=
  let v := { v with round := round % 16, combined := 0, axis := none, got := [], ends := [], jobWide := none,
                    early := v.early.filter fun f => frameRound f = round % 16 }
  if s.roundAxes round = [] then s.setStep { v with jobWide := some v.own } else runRound 4 s v (s.roundAxes round)

/-- The carrier has completed: its combined verdict is extended over the axes it does not cover (R319). -/
def carrierEnd (s : State) (v : StepVerdict) : State :=
  if v.round ≠ 0 ∨ v.axis.isSome ∨ v.jobWide.isSome then s.setStep v else runRound 4 s v (s.roundAxes 0)

/-- A SEAL frame (R319, R321). -/
def takeSeal (s : State) (f : Frame) : State :=
  if s.isSealed f.epoch then s
  else
    let v := s.stepOf f.epoch
    let ahead := (frameRound f + 16 - v.round) % 16
    let v1 := { v with early := v.early ++ [f] }
    if ahead = 0 then
      if v.axis.isSome then
        if v.axis.any (fun a => decide (frameAxis f < a)) then s else runRound 4 s v1 (s.axesLeft v)
      else if v.jobWide.isSome then s
      else s.setStep v1
    else if ahead < 8 then s.beginRound v1 (frameRound f)
    else s

/-! ### Sealing and committing (R320) -/

/-- SEAL_VERDICT: the lowest unsealed step whose job-wide verdict and own verdict are GOOD is SEALED. -/
def sealVerdict (s : State) : State :=
  match s.sealer.steps with
  | v :: rest =>
    if v.jobWide = some 0 ∧ v.own = 0 then
      (({ s with sealer := { s.sealer with steps := rest } }.setSealTokens 4032 (v.epoch + 1)).pulse 4 1).showSeal
    else s
  | [] => s

/-- COMMIT: the sealed step is COMMITTED, and the frames its commit frees are freed (R206). -/
def commitStep (s : State) : State :=
  let e := s.getF GE_TOKEN_COUNT 0 4032
  if s.getF GE_TOKEN_COUNT 0 4033 < e then
    let s := s.setSealTokens 4033 e
    ((List.range 12).foldl (fun s ms => s.freeCommitted ms (e - 1)) s).ingotCommit (e - 1)
  else s

/-- SEAL_TIMEOUT (R321). -/
def sealTimeout (s : State) (e : Nat) : State :=
  if (s.stepOf e).carrierDone && !s.isSealed e then s.failStep e 4 none else s

/-! ### Checks (R318, R358, R362) -/

/-- A hold of a step has resolved: a new round where HOLD had been sent (R321). -/
def holdResolved (s : State) (v : StepVerdict) : State :=
  if v.own = 0 ∧ v.sentHold then s.beginRound { v with sentHold := false } (v.round + 1) else s.setStep v

/-- Work that a GOOD must wait for (R362): a compare of the step pending, or a twin task of it live. -/
def twinsOpen (s : State) (e : Nat) : Bool :=
  [0, 1, 2, 3].any fun d =>
    (s.engine d).twins.any (fun x => x.epoch = e) ||
    (s.tasksOf d).any fun t => s.twinSlot d t.1.g && s.taskLive t && decide (t.2.epoch = e)

/-- The word of COL_CHECK that a check command writes. -/
def checkWord (e verdict round : Nat) : Word := BitVec.ofNat 64 (e * 2 ^ 32 + verdict * 2 ^ 30 + round * 2 ^ 29)

/-- COL_CHECK GOOD (R318): the Forge's and a trigger's hold closed, or the write ignored with a record (R362). -/
def checkGood (s : State) (e : Nat) : State :=
  if s.twinsOpen e then s.refuseWrite (hubReg 3 0x10) (checkWord e 0 0)
  else if s.isSealed e then s
  else s.holdResolved { s.stepOf e with forgeHold := false, trigHold := false }

/-- COL_CHECK HOLD (R318): a step not SEALED is held. `why` names the runtime trigger it stands for, whose bit and record
follow (R365). -/
def checkHold (s : State) (e : Nat) (why : Nat) : State :=
  let s := if s.isSealed e then s else s.setStep { s.stepOf e with forgeHold := true }
  match why with
  | 1 => s.latchTrigger HIC_TRIG_STATUS_RSTAT [e] e
  | 2 => s.latchTrigger HIC_TRIG_STATUS_NORM [e] e
  | _ => s

/-- COL_CHECK FAIL (R318, R322). -/
def checkFail (s : State) (e die xyz : Nat) : State := s.failStep e 2 (some (die, xyz))

/-- COL_CHECK GOOD with ROUND (R321): the check closed, and a round begun for a step with no carrier. -/
def sealRoundStart (s : State) (e : Nat) : State :=
  if s.twinsOpen e then s.refuseWrite (hubReg 3 0x10) (checkWord e 0 1)
  else if s.isSealed e then s
  else
    let v := { s.stepOf e with forgeHold := false, trigHold := false }
    if v.carrier.isNone then s.beginRound { v with carrierDone := true } (v.round + 1) else s.holdResolved v

/-- DUAL_HOLD_RELEASE (R358): the step boundary has passed, no primary task of the step is live, and every primary record
has been matched. -/
def dualHoldRelease (s : State) (e : Nat) : State :=
  let v := s.stepOf e
  let clear := [0, 1, 2, 3].all fun d =>
    !((s.engine d).unmatched.any fun r => r.1 = e) &&
    !((s.tasksOf d).any fun t => !s.twinSlot d t.1.g && s.taskLive t && decide (t.2.epoch = e))
  if v.dualHold && clear && s.ingot.boundary.any (fun b => decide (e ≤ b)) then s.holdResolved { v with dualHold := false }
  else s

end State

/-! ### The commands -/

def execRowChunkArrive (ms : Fin 12) (c : Fin 256) (q k : Nat) (leaf : Bool) (data : List Byte)
    (faults : List (Nat × BitVec 32)) (s : State) :=
  commit s (s.rowArriveFaulty ms c q k leaf data faults)
def execRetractDone (s : State) := commit s s.retractDone
def execSealVerdict (s : State) := commit s s.sealVerdict
def execCommit (s : State) := commit s s.commitStep
def execSealTimeout (e : BitVec 32) (s : State) := commit s (s.sealTimeout e.toNat)
def execCheckGood (_r : Requester) (e : BitVec 32) (s : State) := commit s (s.checkGood e.toNat)
def execCheckHold (_r : Requester) (e : BitVec 32) (why : Fin 3) (s : State) := commit s (s.checkHold e.toNat why.val)
def execCheckFail (_r : Requester) (e : BitVec 32) (die : BitVec 3) (xyz : BitVec 24) (s : State) :=
  commit s (s.checkFail e.toNat die.toNat xyz.toNat)
def execSealRoundStart (_r : Requester) (e : BitVec 32) (s : State) := commit s (s.sealRoundStart e.toNat)
def execDualHoldRelease (e : BitVec 32) (s : State) := commit s (s.dualHoldRelease e.toNat)

end Sys2Proof.Machine
end

