-- ==== Sys2Proof/Machine/Collective.lean ====
section
/-! DEFINITION. Collective engines (R290 to R314): the ring schedule as lists of chunks, streams and credit, digests, the
package stage, the fold of norm statistics, completion and failure. -/

namespace Sys2Proof.Machine

/-! ### The member grid (R294) and its extents (R295, R301) -/

/-- The grid of a collective: ring lengths, extents in bytes by member, and this member's index. -/
structure Geo where
  g : List Nat
  ext : List (Nat × Nat)
  self : Nat
  deriving DecidableEq, Repr

namespace Geo

def len (x : Geo) (a : Nat) : Nat := x.g.getD a 1
def count (x : Geo) : Nat := x.len 0 * x.len 1 * x.len 2
def stride (x : Geo) (a : Nat) : Nat := if a = 0 then 1 else if a = 1 then x.len 0 else x.len 0 * x.len 1

/-- Position of member `m` on axis `a`. -/
def pos (x : Geo) (m a : Nat) : Nat := m / x.stride a % x.len a

/-- The member at position `p` of the ring of axis `a` through `m`. -/
def at_ (x : Geo) (m a p : Nat) : Nat := m - x.pos m a * x.stride a + p * x.stride a

/-- The axes with more than one member. -/
def axes (x : Geo) : List Nat := [0, 1, 2].filter fun a => decide (1 < x.len a)

/-- An extent entered in ascending offset. -/
def enterRange (e : Nat × Nat × Nat) : List (Nat × Nat × Nat) → List (Nat × Nat × Nat)
  | [] => [e]
  | y :: t => if e.2.1 < y.2.1 then e :: y :: t else y :: enterRange e t

/-- U_p of R301 in ascending offset: the extents (member, offset, count) of the members at position `p` of axis `a` that
share `m`'s positions on the axes before. -/
def ranges (x : Geo) (m a p : Nat) : List (Nat × Nat × Nat) :=
  let mine := (List.range x.count).filter fun k =>
    decide (x.pos k a = p) && (List.range a).all fun b => decide (x.pos k b = x.pos m b)
  (mine.map fun k => (k, x.ext.getD k (0, 0))).foldl (fun l e => if e.2.2 = 0 then l else enterRange e l) []

end Geo

/-- A byte range cut at multiples of 4 KiB of the index space (R306). `fuel` bounds the number of chunks. -/
def cutRange : Nat → Nat → Nat → List (Nat × Nat)
  | 0, _, _ => []
  | fuel + 1, off, n =>
    if n = 0 then []
    else
      let k := min n (4096 - off % 4096)
      (off, k) :: cutRange fuel (off + k) (n - k)

def cutAll (off n : Nat) : List (Nat × Nat) := cutRange (n / 4096 + 2) off n

/-- The chunks of one half of a range (R298): the first ⌈g/2⌉ of its g granules, or the rest; each with the part of its
extent that lies in that half. -/
def halfOf (up : Bool) (r : List (Nat × Nat × Nat)) : List Chunk :=
  let all := r.flatMap fun e => (cutAll e.2.1 e.2.2).map fun c => (e.1, c)
  let n := (all.length + 1) / 2
  let mine := if up then all.drop n else all.take n
  mine.map fun c =>
    let part := mine.filter fun y => y.1 = c.1
    { phase := 0, owner := c.1, up := up, off := c.2.1, len := c.2.2,
      part := ((part.head?.map fun y => y.2.1).getD c.2.1),
      plen := part.foldl (fun n y => n + y.2.2) 0 }

namespace Geo

/-- What member `m` sends in the reducing stage of axis `a`, in schedule order, with the peer (R298): its chain steps h = 0
to G − 2 in the plus direction, then in the minus direction. -/
def reduceSends (x : Geo) (m a : Nat) : List (Nat × Chunk) :=
  let l := x.len a
  let p := x.pos m a
  let dir : Bool → List (Nat × Chunk) := fun up => (List.range (l - 1)).flatMap fun h =>
    let d := if up then (p + 1 + h) % l else (p + l - 1 - h % l) % l
    let peer := x.at_ m a (if up then (p + l - 1) % l else (p + 1) % l)
    (halfOf up (x.ranges m a d)).map fun c => (peer, { c with phase := a + 1, h := h })
  dir false ++ dir true

/-- What member `m` sends in a gathering stage of axis `a` (R302): its own half, then those it forwards, plus and then
minus; only the extents `sel` names, and after each owner's part the total of its stored digest where asked (R313). -/
def gatherSends (x : Geo) (m a base : Nat) (sel : Nat → Bool) (totals : Bool) : List (Nat × Chunk) :=
  let l := x.len a
  let p := x.pos m a
  let dir : Bool → List (Nat × Chunk) := fun up => (List.range (l - 1)).flatMap fun t =>
    let d := if up then (p + t) % l else (p + l - t % l) % l
    let peer := x.at_ m a (if up then (p + l - 1) % l else (p + 1) % l)
    let r := (x.ranges m a d).filter fun e => sel e.1
    ((halfOf up r).map fun c => (peer, { c with phase := base + a })) ++
      (if totals then r.map fun e => (peer, { phase := base + a, owner := e.1, up := up, off := 0, len := 0 }) else [])
  dir false ++ dir true

/-- The axis a phase runs on. -/
def phaseAxis (p : Nat) : Nat := (p - 1) % 4

end Geo

/-- The schedule of an operation for member `m` (R291, R297, R302, R314), each chunk with its peer. -/
def planOf (x : Task) (g : Geo) (m : Nat) : List (Nat × Chunk) :=
  let reduce := g.axes.flatMap fun a => g.reduceSends m a
  let back := g.axes.reverse
  let gather := fun (sel : Nat → Bool) => back.flatMap fun a => g.gatherSends m a 5 sel x.coDigSrc
  let pairGeo : Geo := { g with ext := (List.range g.count).map fun k => (16 * k, 16) }
  let pairs := if x.coStat then back.flatMap fun a => pairGeo.gatherSends m a 9 (fun _ => true) false else []
  match x.coOp with
  | 1 => reduce ++ gather (fun _ => true) ++ pairs
  | 2 => reduce ++ pairs
  | 3 => gather (fun _ => true)
  | 4 => gather (fun k => decide (k = x.coRoot))
  | _ => []

/-- Is it a reducing operation (R291)? -/
def Task.coReduces (x : Task) : Bool := x.coOp = 1 || x.coOp = 2

namespace State

/-- The die that owns an address's storage: the owning die of a stack, or the die of a pool or scratchpad (R14, R15). -/
def addrDie (s : State) (a : Nat) : Nat :=
  if isPoolAddr a then (a - 0x10000000000) / 0x8000000
  else if isScratchAddr a then (scratchCore a).1
  else match s.findRegion a with
    | some e => ((s.region e).place (a - (s.region e).base)).stack / 3
    | none => 0

/-- The stack of a stack-memory address. -/
def addrStack (s : State) (a : Nat) : Nat :=
  match s.findRegion a with
  | some e => ((s.region e).place (a - (s.region e).base)).stack
  | none => 0

/-- A member's coordinates (R294). -/
def memberAt (s : State) (x : Task) (k : Nat) : Nat := (s.readWord (x.coMembers + 8 * k)).bits 23 0

/-- An extents table (R295), in bytes. -/
def extentsAt (s : State) (x : Task) (a n : Nat) : List (Nat × Nat) :=
  (List.range n).map fun k =>
    ((s.readWord (a + 16 * k)).bits 39 0 * x.coWidth, (s.readWord (a + 16 * k + 8)).bits 39 0 * x.coWidth)

/-- The grid of a collective. -/
def geoOf (s : State) (x : Task) : Geo :=
  let g := [x.coG 0, x.coG 1, x.coG 2]
  { g := g, ext := s.extentsAt x x.coExtents (x.coG 0 * x.coG 1 * x.coG 2), self := x.coSelf }

/-- The dies that take part (R292). -/
def diesOf (x : Task) : List Nat := [0, 1, 2, 3].filter fun d => x.coDies.testBit d

/-- The die that folds and writes the result record (R305). -/
def foldDie (x : Task) : Nat := (diesOf x).getLast?.getD 3

/-- The dies of this module that have begun the same collective, with their tasks. -/
def groupOf (s : State) (x : Task) : List (Nat × TaskId × Task) :=
  (diesOf x).filterMap fun d =>
    let c := s.chan d x.coChan
    match c.task, c.begun with
    | some t, true =>
      (match s.task? t with
        | some y => if y.kind = .collective ∧ y.epoch = x.epoch ∧ y.coOp = x.coOp then some (d, t, y) else none
        | none => none)
    | _, _ => none

/-- Every participating die has begun. -/
def allBegun (s : State) (x : Task) : Bool := (s.groupOf x).length = (diesOf x).length

/-- Initial credit (R307, R324): 0 taken as 1. -/
def creditOf (s : State) (d : Nat) : Nat := max 1 (s.getF COL_CFG_CREDIT_CHUNKS d 0)

/-- The digest key of a task (R312). -/
def taskKey (s : State) (x : Task) : Nat := digKey s.jobSeed x.epoch

/-- Is a chunk of a phase done on some die of the module? -/
def isDone (s : State) (x : Task) (phase off : Nat) : Bool :=
  (diesOf x).any fun d => (s.chan d x.coChan).done.contains (phase, off)

def markDone (s : State) (d c phase off : Nat) : State :=
  let y := s.chan d c
  s.setChan d c { y with done := y.done ++ [(phase, off)] }

/-! ### Failure (R296, R309, R311) -/

/-- A COLLECTIVE, SEND or RECV task fails with a code. -/
def failTask (s : State) (t : TaskId) (code : Nat) : State :=
  match s.task? t with
  | none => s
  | some x =>
    let s := if s.flag COL_FAIL_VALID t.d 0 then s
      else
        let s := (s.setF COL_FAIL_VALID t.d 0 1).setF COL_FAIL_CODE t.d 0 code
        ((s.setF COL_FAIL_CHAN t.d 0 (x.channel.getD 0)).setF COL_FAIL_G t.d 0 t.g).setF COL_FAIL_TASK t.d 0 t.idx
    let s := s.dieRecord 0x0A01 sevDegraded t.d 0 [code, x.channel.getD 0] x.epoch (some (x.kindCode, t.g, t.idx))
    (s.cancelTask t).failStep x.epoch 3 none

/-! ### The checks at dispatch (R296) -/

/-- Do the extents of a list not overlap? -/
def disjointExts : List (Nat × Nat) → Bool
  | [] => true
  | e :: t => (t.all fun y => decide (e.2 = 0 ∨ y.2 = 0 ∨ e.1 + e.2 ≤ y.1 ∨ y.1 + y.2 ≤ e.1)) && disjointExts t

/-- The condition of R295 for the operation. -/
def extentsOk (s : State) (x : Task) (g : Geo) : Bool :=
  let sum := g.ext.foldl (fun n e => n + e.2) 0
  if x.coReduces then
    disjointExts g.ext && decide (x.coDst % 4096 = 0) &&
    g.ext.all fun e => decide (e.1 % 4096 = 0) && (decide (e.2 = 0) || decide (e.1 + e.2 ≤ sum))
  else if x.coOp = 5 then true
  else
    disjointExts g.ext && decide (x.coDst % 64 = 0 ∧ x.coSrc % 64 = 0) && (g.ext.all fun e => decide (e.1 % 64 = 0)) &&
    (x.coOp ≠ 6 ||
      (let f := s.extentsAt x x.coAux g.count
       disjointExts f && (f.all fun e => decide (e.1 % 64 = 0)) &&
       f.all fun e => decide (e.2 = (g.ext.foldl (fun n o => n + (min (e.1 + e.2) (o.1 + o.2) - max e.1 o.1)) 0))))

/-- Bytes of W from its start. -/
def spanOf (s : State) (x : Task) (g : Geo) : Nat :=
  if x.coOp = 6 then ((s.extentsAt x x.coAux g.count).getD g.self (0, 0)).2
  else if x.coOp = 5 then (g.ext.getD g.self (0, 0)).2
  else g.ext.foldl (fun n e => if e.2 = 0 then n else max n (e.1 + e.2)) 0

/-- The ring neighbours of this member by axis. -/
def ringPeers (g : Geo) (a : Nat) : List Nat :=
  let l := g.len a
  let p := g.pos g.self a
  [g.at_ g.self a ((p + 1) % l), g.at_ g.self a ((p + l - 1) % l)].eraseDups

/-- The home die of the port that a frame from `from_` to `c` leaves by (R305). -/
def homeDie (s : State) (from_ c : Nat) : Nat := (s.routeFrom from_ c).getD 0 / 2

/-- Every die that W touches or that drives a port of an axis stage takes part (R296 code 3). -/
def diesOk (s : State) (x : Task) (g : Geo) : Bool :=
  ((cutAll 0 (s.spanOf x g)).all fun c => x.coDies.testBit (s.addrDie (x.coDst + c.1))) &&
  g.axes.all fun a => x.coOp = 5 || x.coOp = 6 ||
    (ringPeers g a).all fun k => x.coDies.testBit (s.homeDie s.here (s.memberAt x k))

/-! ### Streams (R305, R306) -/

/-- The die of a destination stack by this member's own layout; norm pairs go to the folding die (R305). -/
def chunkDie (s : State) (x : Task) (c : Chunk) : Nat :=
  if 9 ≤ c.phase then foldDie x else s.addrDie (x.coDst + c.off)

/-- The chunks of a plan that travel one stream: to peer `k` along axis `a`, for die `d`; a total goes to every die. -/
def streamChunks (s : State) (x : Task) (plan : List (Nat × Chunk)) (k a d : Nat) : List Chunk :=
  ((plan.filter fun e => decide (e.1 = k ∧ Geo.phaseAxis e.2.phase = a) &&
    (decide (e.2.len = 0) || decide (s.chunkDie x e.2 = d))).map (·.2)).map fun c => { c with addr := x.coDst + c.off }

/-- The streams die `d` sends in a ring operation. -/
def ringTx (s : State) (x : Task) (g : Geo) (d : Nat) : List TxStream :=
  let plan := planOf x g g.self
  g.axes.flatMap fun a => (ringPeers g a).flatMap fun k =>
    let c := s.memberAt x k
    if s.homeDie s.here c = d then
      (diesOf x).map fun e => { stage := a + 1, dst := c, dstDie := e, chunks := s.streamChunks x plan k a e }
    else []

/-- The streams die `d` receives in a ring operation. -/
def ringRx (s : State) (x : Task) (g : Geo) (d : Nat) : List RxStream :=
  g.axes.flatMap fun a => (ringPeers g a).map fun k =>
    { stage := a + 1, src := s.memberAt x k, srcDie := s.homeDie (s.memberAt x k) s.here, member := k,
      chunks := s.streamChunks x (planOf x g k) g.self a d }

/-! ### Resharding and ALL_TO_ALL (R303, R304) -/

/-- The bytes member `k` sends member `j` in a PERMUTE: the overlap of its old extent with the other's new one, as offset and
length in the index space. -/
def overlapOf (e f : Nat × Nat) : Nat × Nat := (max e.1 f.1, min (e.1 + e.2) (f.1 + f.2) - max e.1 f.1)

/-- Chunks of a segment that is delivered directly, numbered within it. -/
def directChunks (owner base n : Nat) (addr : Nat → Nat) : List Chunk :=
  (cutAll 0 n).map fun c => { phase := 12, owner := owner, off := base + c.1, len := c.2, addr := addr c.1 }

/-- The streams die `d` sends in a PERMUTE: one to each member, from the die of the segment's first byte, with the bytes read
at once (R304: reads never wait; DESIGN CHOICE, assumption 36). -/
def permuteTx (s : State) (x : Task) (g : Geo) (d : Nat) : List TxStream :=
  let f := s.extentsAt x x.coAux g.count
  let e := g.ext.getD g.self (0, 0)
  (List.range g.count).filterMap fun j =>
    let o := overlapOf e (f.getD j (0, 0))
    let a := x.coSrc + (o.1 - e.1)
    let dd := s.addrDie (x.coDst + (o.1 - (f.getD j (0, 0)).1))
    if j = g.self ∨ o.2 = 0 ∨ s.addrDie a ≠ d then none
    else some { stage := 1, dst := s.memberAt x j, dstDie := dd,
                chunks := (directChunks g.self o.1 o.2 (fun i => a + i)).map fun c =>
                  { c with data := some (s.readBytesAt c.addr c.len) } }

/-- The streams die `d` receives in a PERMUTE, by the same reckoning with this member's own addresses. -/
def permuteRx (s : State) (x : Task) (g : Geo) (d : Nat) : List RxStream :=
  let f := (s.extentsAt x x.coAux g.count).getD g.self (0, 0)
  (List.range g.count).filterMap fun k =>
    let e := g.ext.getD k (0, 0)
    let o := overlapOf e f
    let a := x.coDst + (o.1 - f.1)
    if k = g.self ∨ o.2 = 0 ∨ s.addrDie a ≠ d then none
    else some { stage := 1, src := s.memberAt x k, srcDie := s.addrDie (x.coSrc + (o.1 - e.1)), member := k,
                chunks := directChunks k o.1 o.2 (fun i => a + i) }

/-- A member's own elements of a PERMUTE or an ALL_TO_ALL copied locally by the die of the destination's first byte. -/
def copyOwn (s : State) (x : Task) (t : TaskId) (d src dst n : Nat) : State :=
  if n ≠ 0 ∧ s.addrDie dst = d then s.writePlain dst (s.readBytesAt src n) (some x.epoch) x.tensor (some t) else s

/-- The count of elements, in bytes, this member sends member `j` (R303). -/
def outCount (s : State) (x : Task) (j : Nat) : Nat := (s.readWord (x.coAux + 8 * j)).bits 39 0 * x.coWidth

/-- Where the data for member `j` begins in SRC. -/
def outBase (s : State) (x : Task) (j : Nat) : Nat :=
  x.coSrc + (List.range j).foldl (fun n k => n + s.outCount x k) 0

/-- The die that sends a segment of an ALL_TO_ALL: that of its first source byte, the folding die for an empty one or one
that takes no part (DESIGN CHOICE, assumption 36). -/
def allToAllDie (s : State) (x : Task) (j : Nat) : Nat :=
  let d := s.addrDie (s.outBase x j)
  if s.outCount x j = 0 ∨ !x.coDies.testBit d then foldDie x else d

/-- The streams die `d` sends in an ALL_TO_ALL. -/
def allToAllTx (s : State) (x : Task) (g : Geo) (d : Nat) : List TxStream :=
  (List.range g.count).filterMap fun j =>
    if j = g.self ∨ s.allToAllDie x j ≠ d then none
    else some { stage := 1, dst := s.memberAt x j, dstDie := d,
                chunks := directChunks g.self 0 (s.outCount x j) (fun i => s.outBase x j + i) }

/-- The bytes of each stream of an operation that delivers directly: a stream takes 2^20 chunks of 4 KiB (R295). -/
def directBytes (s : State) (x : Task) (g : Geo) : List Nat :=
  ((List.range g.count).filter (· ≠ g.self)).map fun j =>
    if x.coOp = 5 then s.outCount x j
    else if x.coOp = 6 then
      (overlapOf (g.ext.getD g.self (0, 0)) ((s.extentsAt x x.coAux g.count).getD j (0, 0))).2
    else 0

/-- The code a check at dispatch finds (R296), the lowest of several. -/
def collCheck (s : State) (x : Task) (g : Geo) : Option Nat :=
  if !s.placed || decide (s.memberAt x x.coSelf ≠ s.here) then some 1
  else if !s.extentsOk x g then some 2
  else if !s.diesOk x g then some 3
  else if [0, 1, 2].any fun a =>
      (ringPeers g a).any fun k => decide (2 ^ 20 < ((planOf x g g.self).filter fun e =>
        decide (e.1 = k ∧ Geo.phaseAxis e.2.phase = a)).length) then some 4
  else if (s.directBytes x g).any fun n => decide (2 ^ 32 < n) then some 4
  else none

/-- A count frame (R303): LENGTH 0, the count in TAG bits 39:0. -/
def sendCount (s : State) (x : Task) (d j : Nat) : State :=
  let n := (s.readWord (x.coAux + 8 * j)).bits 39 0
  s.send (s.frameTo (s.memberAt x j) d 0 d x.epoch 0x10 (16 * x.coChan) (BitVec.ofNat 64 n) [])

/-- The count of a member in bytes, where it has come to any die. -/
def inCount (s : State) (x : Task) (k : Nat) : Option Nat :=
  if k = x.coSelf then some (s.outCount x k)
  else ((diesOf x).findSome? fun d => Tab.getN none (s.chan d x.coChan).counts k).map fun n => n * x.coWidth

/-- Where data from member `k` goes, once the counts before it are known (R303). -/
def inBase (s : State) (x : Task) (k : Nat) : Option Nat :=
  (List.range k).foldl (fun a j => a.bind fun n => (s.inCount x j).map fun c => n + c) (some x.coDst)

/-! ### Sending (R306, R307, R319) -/

/-- Is the task the carrier of the step before its epoch, or one of its dies' parts (R319)? -/
def carries? (s : State) (x : Task) : Bool :=
  x.coSeal && decide (0 < x.epoch) &&
  (s.stepOf (x.epoch - 1)).carrier.any fun t => (s.task? t).any fun y => decide (y.channel = some x.coChan ∧ y.epoch = x.epoch)

/-- The verdict a COLL frame of the carrier carries: this module's own with every one received in it (R319). -/
def frameVerdictOf (s : State) (x : Task) : Nat :=
  if s.carries? x then
    (diesOf x).foldl (fun w d => worse w (s.chan d x.coChan).verdict) (s.stepOf (x.epoch - 1)).own
  else 0

/-- A COLL frame sent: its digest, LAST and RESENT in TAG, channel, stage and verdict in FLAGS. -/
def sendColl (s : State) (x : Task) (d : Nat) (y : TxStream) (last resent : Bool) (digest : Nat) (payload : List Byte) : State :=
  let v := s.frameVerdictOf x
  let s := if s.carries? x then s.setStep (noteSent (s.stepOf (x.epoch - 1)) v) else s
  let tag := BitVec.ofNat 64 ((if last then 2 ^ 63 else 0) + (if resent then 2 ^ 62 else 0) + digest)
  let s := (s.setF COL_CHAN_STAGE d x.coChan y.stage)
  s.send (s.frameTo y.dst y.dstDie 0 d x.epoch 0x10 (16 * x.coChan + 4 * y.stage + v) tag payload)

/-- A COLL_CREDIT frame: a grant, or a request to resend from a chunk (R306, R307). -/
def sendCredit (s : State) (d c epoch stage dst dstDie : Nat) (resend : Option Nat) (n : Nat) : State :=
  let tag := match resend with
    | some i => BitVec.ofNat 64 (2 ^ 63 + i % 2 ^ 20 * 2 ^ 43)
    | none => BitVec.ofNat 64 (n * 2 ^ 27)
  s.send (s.frameTo dst dstDie 0 d epoch 0x11 (16 * c + 4 * stage) tag [])

/-- The stack contexts of a collective: the one that serves a phase, chain step, half and part on a stack. -/
def findRow (s : State) (ms : Nat) (t : TaskId) (phase h : Nat) (up : Bool) (part : Nat) : Option Nat :=
  ((s.stack ms).rows.find? fun e =>
    decide (e.2.owner = some t ∧ e.2.phase = phase ∧ e.2.h = h ∧ e.2.up = up) &&
    decide (s.getF CRU_ROW_DST_DST ms e.1 = part)).map (·.1)

/-- The digest of a chunk's bytes (R312). -/
def chunkDigest (s : State) (x : Task) (off : Nat) (bs : List Byte) : Nat := digBytes (s.taskKey x) off bs

/-- A completed context with nothing left to forward is given up; its partials stay with the channel. A forwarded range whose
digest differs from the one the Crucible formed is a fault of its own stack (R313). -/
def retireRow (s : State) (x : Task) (d ms c : Nat) : State :=
  let y := s.rowOf ms c
  let n := s.getF CRU_ROW_DST_LEN_G ms c
  let forwards := s.getF CRU_ROW_STATE_COMPLETE ms c = 1 && decide (y.sentQ = n)
  if forwards && decide (y.sentDig ≠ y.digest) then
    let s := s.stackRecord 0x0A03 sevSuspect ms 0 0 [x.coSelf, ms] x.epoch
      (y.owner.map fun t => (x.kindCode, t.g, t.idx))
    (s.rowFree ms c).failStep x.epoch 1 (some (d, s.here))
  else if forwards then s.rowFree ms c
  else s

/-- A forwarded chunk's digest entered at its context (R313). -/
def noteForward (s : State) (x : Task) (ch : Chunk) (dig : Nat) : State :=
  let a := x.coDst + ch.off
  let ms := s.addrStack a
  match (s.groupOf x).find? fun g => g.1 = ms / 3 with
  | none => s
  | some g =>
    match s.findRow ms g.2.1 ch.phase ch.h ch.up (x.coDst + ch.part) with
    | none => s
    | some c =>
      let y := s.rowOf ms c
      (s.setRow ms c { y with sentQ := y.sentQ + 1, sentDig := (y.sentDig + dig) % digP }).retireRow x g.1 ms c

/-- The norm pair of a member, where known. -/
def pairOf (s : State) (x : Task) (k : Nat) : Option (Nat × Nat) := Tab.getN none (s.chan (foldDie x) x.coChan).pairs k

/-- The stored-digest total of an owner's shard, where known (R313). -/
def totalOf (s : State) (x : Task) (k : Nat) : Option Nat :=
  (diesOf x).findSome? fun d => Tab.getN none (s.chan d x.coChan).totals k

/-- Does this member hold an element range of W for gathering: its own source placed or reduced, or gathered before? -/
def heldChunk (s : State) (x : Task) (g : Geo) (c : Chunk) : Bool :=
  s.isDone x 4 c.off || [5, 6, 7].any (fun p => s.isDone x p c.off) ||
  (x.coReduces && decide (c.owner = g.self) &&
    (match g.axes.getLast? with
      | some a => s.isDone x (a + 1) c.off
      | none => true))

/-- May the chunk be sent now? -/
def chunkReady (s : State) (x : Task) (g : Geo) (c : Chunk) : Bool :=
  if c.phase = 12 then true
  else if 9 ≤ c.phase then (s.pairOf x c.owner).isSome
  else if 5 ≤ c.phase then (if c.len = 0 then (s.totalOf x c.owner).isSome else s.heldChunk x g c)
  else s.isDone x c.phase c.off

/-- The payload of a chunk. -/
def chunkBytes (s : State) (x : Task) (c : Chunk) : List Byte :=
  if 9 ≤ c.phase ∧ c.phase < 12 then
    let p := (s.pairOf x c.owner).getD (0, 0)
    toLe 8 p.1 ++ toLe 8 p.2
  else match c.data with
    | some bs => bs
    | none => (List.range c.len).map fun i => s.engineByte (c.addr + i)

/-- One stream sends what its credit and its chunks allow; an empty one sends a LAST frame without data (R319). -/
def pumpTx : Nat → State → Task → Geo → Nat → TxStream → State × TxStream
  | 0, s, _, _, _, y => (s, y)
  | n + 1, s, x, g, d, y =>
    if y.ended || decide (y.grant = 0) then (s, y)
    else match y.chunks[y.next]? with
      | none =>
        if y.chunks = [] then (s.sendColl x d y true false 0 [], { y with ended := true }) else (s, { y with ended := true })
      | some c =>
        if !s.chunkReady x g c || (decide (0 < c.len) && decide (y.grant ≤ y.sent)) then (s, y)
        else
          let last := c.len = 0 || decide (y.next + 1 = y.chunks.length)
          let bs := if c.len = 0 then [] else s.chunkBytes x c
          let dig := if c.len = 0 then (s.totalOf x c.owner).getD 0 else s.chunkDigest x c.off bs
          let resent := decide (y.resend = y.next + 1)
          let s := s.sendColl x d y last resent dig bs
          let s := if 1 ≤ c.phase ∧ c.phase ≤ 3 ∧ !resent then s.noteForward x c dig else s
          pumpTx n s x g d { y with
            next := y.next + 1
            sent := y.sent + (if c.len = 0 then 0 else 1)
            resend := if resent then 0 else y.resend
            ended := decide (y.next + 1 = y.chunks.length) }

/-- The streams of a channel pumped in order. -/
def pumpAll (s : State) (x : Task) (g : Geo) (d : Nat) : State :=
  let k := (s.chan d x.coChan).tx.length
  (List.range k).foldl (fun s i =>
    match (s.chan d x.coChan).tx[i]? with
    | some y =>
      let r := pumpTx (y.chunks.length + 1) s x g d y
      let ch := r.1.chan d x.coChan
      r.1.setChan d x.coChan { ch with tx := ch.tx.set i r.2 }
    | none => s) s

/-- COL_STATUS.WAITING follows the streams that lack credit (R324); the end of a SEND's wait is offered to the monitors
(R158, R422). -/
def showWaiting (s : State) (d c : Nat) : State :=
  let ch := s.chan d c
  let w := ch.tx.any fun y => !y.ended && decide (y.grant ≤ y.sent)
  let m := s.getF COL_STATUS_WAITING d 0
  let s := s.setF COL_STATUS_WAITING d 0 (if w then m ||| 2 ^ c else m - (m &&& 2 ^ c))
  match ch.since with
  | none => if w then s.setChan d c { ch with since := some s.time } else s
  | some t0 =>
    if w then s
    else
      let s := s.setChan d c { ch with since := none }
      let send := (ch.task.bind s.task?).any fun x => x.kind = .send || x.kind = .fused
      if send then s.offer d 0x04 c ((s.time - t0 : Nat) : Int) t0 else s

/-- Chunks of a received stream written: what its credit follows (R307). -/
def writtenOf (s : State) (x : Task) (d : Nat) (y : RxStream) : Nat :=
  ((y.chunks.take y.next).filter fun c => decide (0 < c.len) &&
    (s.chan d x.coChan).done.contains (c.phase, if c.phase = 12 then c.owner * 2 ^ 44 + c.off else c.off)).length

/-- Credit granted at the start of a stream and returned as chunks are written (R307). -/
def giveCredit (s : State) (x : Task) (d : Nat) : State :=
  let k := (s.chan d x.coChan).rx.length
  (List.range k).foldl (fun s i =>
    let ch := s.chan d x.coChan
    match ch.rx[i]? with
    | some y =>
      let n := s.creditOf d + s.writtenOf x d y
      if n ≤ y.given ∨ (x.kind = .collective ∧ x.coOp = 5 ∧ (s.inBase x y.member).isNone) then s
      else (s.setChan d x.coChan { ch with rx := ch.rx.set i { y with given := n } }).sendCredit d x.coChan x.epoch y.stage
        y.src y.srcDie none (n - y.given)
    | none => s) s

/-! ### Contexts of a stage (R299, R300) -/

/-- Is the previous stage done with a chunk (R297)? -/
def prevDone (s : State) (x : Task) (g : Geo) (phase off : Nat) : Bool :=
  match (g.axes.filter fun a => a + 1 < phase).getLast? with
  | some a => s.isDone x (a + 1) off
  | none => !x.coPkg || s.isDone x 0 off

/-- The context that serves a chunk on its stack, created at the lowest free index where there is none yet. Its park area and
its context area are the engine's own: no address is given for them (DESIGN CHOICE, assumption 37). -/
def rowFor (s : State) (x : Task) (t : TaskId) (d : Nat) (c : Chunk) (h n : Nat) (tensor : Nat) : Option (Nat × State) :=
  let ms := s.addrStack (x.coDst + c.off)
  match s.findRow ms t c.phase h c.up (x.coDst + c.part) with
  | some i => some (i, s)
  | none =>
    match (List.range 256).find? fun i => !s.flag CRU_ROW_CFG_VALID ms i with
    | none => none
    | some i =>
      let w := s.draw
      let mine := (cutAll c.part c.plen).filter fun y => s.addrStack (x.coDst + y.1) = ms
      let slots := s.creditOf d * (if c.phase = 0 then n else 1)
      let setup : RowSetup := {
        dst := x.coDst + c.part, lenG := mine.length, fmt := x.coFmt, overwrite := true, stochastic := x.coRnd, dig := true,
        stat := x.coStat, slot := x.coSlot, ncontrib := n, tensor := tensor % 2 ^ 32, parkSlots := min slots 65535,
        park := w.1.toNat % 2 ^ 32 * 4096, owner := t }
      let s := w.2.rowCreate ms i setup { owner := some t, origin := x.coDst, phase := c.phase, h := h, up := c.up }
      if s.flag CRU_ROW_CFG_VALID ms i then some (i, s) else none

/-- The number of a chunk within its context (R193). -/
def chunkIndex (s : State) (x : Task) (c : Chunk) : Nat :=
  let a := x.coDst + c.off
  let ms := s.addrStack a
  match s.findRegion a with
  | some e =>
    let r := s.region e
    granBelow r ms ((a - r.base) / 4096) - granBelow r ms ((x.coDst + c.part - r.base) / 4096)
  | none => 0

/-- After a contribution: a chunk with all of them is done, and a completed context leaves its partials (R314). -/
def afterRow (s : State) (x : Task) (g : Geo) (d ms i : Nat) (c : Chunk) (h : Nat) : State :=
  let y := s.rowOf ms i
  let n := s.getF CRU_ROW_CFG_NCONTRIB ms i
  if Tab.getN 0 y.next (s.chunkIndex x c) ≠ n ∨ (s.chan d x.coChan).done.contains (c.phase, c.off) then s
  else
    let s := s.markDone d x.coChan c.phase c.off
    if s.getF CRU_ROW_STATE_COMPLETE ms i = 0 then s
    else
      let lastPhase := match g.axes.getLast? with | some a => a + 1 | none => 0
      let final := decide (c.phase = lastPhase) && (decide (c.phase = 0) || decide (h + 1 = g.len (c.phase - 1)))
      let ch := s.chan d x.coChan
      let s := s.setChan d x.coChan { ch with parts := ch.parts ++ [⟨c.phase, h, c.up, c.part, ms, y.loc, y.sum, final⟩] }
      if final || decide (c.phase = 0) || decide (h + 1 = g.len (c.phase - 1)) then s.rowFree ms i
      else s

/-- TENSOR of the context at a chain step (R299). -/
def stageTensor (x : Task) (phase h : Nat) : Nat := x.tensor + 2 * (256 * phase + h)

/-- A member's own chunk taken as contribution 0 (R299). -/
def applyOwn (s : State) (x : Task) (t : TaskId) (g : Geo) (d : Nat) (c : Chunk) (h : Nat) : State :=
  match s.rowFor x t d c h (if h = 0 then 1 else 2) (stageTensor x c.phase h) with
  | none => s
  | some r =>
    let ms := s.addrStack (x.coDst + c.off)
    let own := (List.range c.len).map fun i => r.2.engineByte (x.coDst + c.off + i)
    let q := r.2.chunkIndex x c
    (r.2.rowArrive ms r.1 q 0 (decide (x.coStatStage = c.phase)) own).afterRow x g d ms r.1 c h

/-- An incoming partial taken as contribution 1 (R299), behind the member's own chunk. -/
def applyPartial (s : State) (x : Task) (t : TaskId) (g : Geo) (d : Nat) (c : Chunk) (h : Nat) (bs : List Byte) : State :=
  match s.rowFor x t d c h 2 (stageTensor x c.phase h) with
  | none => s
  | some r =>
    let ms := s.addrStack (x.coDst + c.off)
    (r.2.rowArrive ms r.1 (r.2.chunkIndex x c) 1 false bs).afterRow x g d ms r.1 c h

/-- Has contribution 0 of a chunk been applied? -/
def ownApplied (s : State) (x : Task) (t : TaskId) (c : Chunk) (h : Nat) : Bool :=
  let ms := s.addrStack (x.coDst + c.off)
  match s.findRow ms t c.phase h c.up (x.coDst + c.part) with
  | some i => decide (0 < Tab.getN 0 (s.rowOf ms i).next (s.chunkIndex x c))
  | none => false

/-- The reducing work of a die: chains that begin here, and partials that wait for this member's own chunk. -/
def reduceWork (s : State) (x : Task) (t : TaskId) (g : Geo) (d : Nat) : State :=
  let starts := ((planOf x g g.self).map (·.2)).filter fun c =>
    decide (c.phase ≤ 3 ∧ c.h = 0) && decide (s.chunkDie x c = d) && !s.isDone x c.phase c.off && s.prevDone x g c.phase c.off
  let s := starts.foldl (fun s c => s.applyOwn x t g d c 0) s
  let waits := ((s.chan d x.coChan).rx.flatMap fun y => y.chunks.take y.next).filter fun c =>
    decide (1 ≤ c.phase ∧ c.phase ≤ 3) && !s.isDone x c.phase c.off && s.prevDone x g c.phase c.off &&
    !s.ownApplied x t c (c.h + 1)
  waits.foldl (fun s c => s.applyOwn x t g d c (c.h + 1)) s

/-- The package stage (R300), once every participating die has begun: each chunk of W takes every die's contribution in
rank order. -/
def packageStage (s : State) (x : Task) (g : Geo) : State :=
  if !x.coPkg || !s.allBegun x || (s.groupOf x).any (fun y => (s.chan y.1 x.coChan).done.any fun p => p.1 = 0) then s
  else
    let grp := s.groupOf x
    let n := s.spanOf x g
    (cutAll 0 n).foldl (fun s p =>
      let c : Chunk := { phase := 0, off := p.1, len := p.2, part := 0, plen := n }
      let ms := s.addrStack (x.coDst + p.1)
      match grp.find? fun y => y.1 = ms / 3 with
      | none => s
      | some y =>
        match s.rowFor x y.2.1 y.1 c 0 grp.length x.tensor with
        | none => s
        | some r =>
          let q := r.2.chunkIndex x c
          let s := (grp.zipIdx).foldl (fun s z =>
            let bs := (List.range p.2).map fun i => s.engineByte (z.1.2.2.coSrc + p.1 + i)
            s.rowArrive ms r.1 q z.2 (decide (x.coStatStage = 0)) bs) r.2
          s.afterRow x g y.1 ms r.1 c 0) s

/-! ### The fold (R308, R314) -/

/-- Every reducing chunk this module has to form is done. -/
def reduceOver (s : State) (x : Task) (g : Geo) : Bool :=
  s.allBegun x &&
  ((planOf x g g.self).all fun e => decide (4 ≤ e.2.phase) || s.isDone x e.2.phase e.2.off) &&
  ((s.groupOf x).all fun y => (s.chan y.1 x.coChan).rx.all fun r =>
    r.chunks.all fun c => decide (c.phase = 0 ∨ 4 ≤ c.phase) || s.isDone x c.phase c.off) &&
  (!x.coPkg || (cutAll 0 (s.spanOf x g)).all fun p => s.isDone x 0 p.1)

/-- Partials in ascending context and stack order, a context's order being its phase, chain step, half and range (DESIGN
CHOICE, assumption 37). -/
def partKey (p : Partial) : Nat := (((p.phase * 16384 + p.h) * 2 + if p.up then 1 else 0) * 2 ^ 40 + p.part) * 12 + p.stack

def enterPart (p : Partial) : List Partial → List Partial
  | [] => [p]
  | y :: t => if partKey p < partKey y then p :: y :: t else y :: enterPart p t

/-- The module's own norm pair: local over every context, sum over the final ones (R314). -/
def ownPair (s : State) (x : Task) : Nat × Nat :=
  let ps := ((s.groupOf x).flatMap fun y => (s.chan y.1 x.coChan).parts).foldl (fun l p => enterPart p l) []
  (ps.foldl (fun a p => f64Add a p.loc) 0, (ps.filter (·.final)).foldl (fun a p => f64Add a p.sum) 0)

/-- The pair folded once every context is complete. -/
def foldPair (s : State) (x : Task) (g : Geo) : State :=
  let d := foldDie x
  let ch := s.chan d x.coChan
  if x.coStat && x.coReduces && (Tab.getN none ch.pairs g.self).isNone && s.reduceOver x g then
    s.setChan d x.coChan { ch with pairs := Tab.putN none ch.pairs g.self (some (s.ownPair x)) }
  else s

/-- A stream of an ALL_TO_ALL whose place in DST has become known (R303). -/
def placeIncoming (s : State) (x : Task) (y : RxStream) : RxStream :=
  if y.chunks ≠ [] then y
  else match s.inBase x y.member, s.inCount x y.member with
    | some b, some n => { y with chunks := directChunks y.member 0 n (fun i => b + i) }
    | _, _ => y

/-- A collective's work on a module carried as far as it goes: package stage, chains, fold, streams, credit. -/
def advanceOnce (s : State) (x : Task) (g : Geo) : State :=
  let s := s.packageStage x g
  (s.groupOf x).foldl (fun s y =>
    let s := (s.reduceWork x y.2.1 g y.1).foldPair x g
    let s := if x.coOp = 5 then
        let ch := s.chan y.1 x.coChan
        s.setChan y.1 x.coChan { ch with rx := ch.rx.map (s.placeIncoming x) }
      else s
    ((s.pumpAll x g y.1).giveCredit x y.1).showWaiting y.1 x.coChan) s

/-- As many rounds as a chunk can pass stages within a module. -/
def advance (s : State) (x : Task) : State :=
  let g := s.geoOf x
  (List.range 12).foldl (fun s _ => s.advanceOnce x g) s

/-! ### Beginning (R296, R302, R319) -/

/-- A free channel taken by a dispatched task (R290, R324). -/
def takeChannel (s : State) (t : TaskId) (c : Nat) : State :=
  let s := s.setChan t.d c { s.chan t.d c with task := some t }
  let s := s.setF COL_STATUS_BUSY t.d 0 (s.getF COL_STATUS_BUSY t.d 0 ||| 2 ^ c)
  ((s.setF COL_CHAN_STATE t.d c 1).setF COL_CHAN_G t.d c t.g).setF COL_CHAN_TASK t.d c t.idx

/-- The first sealing COLLECTIVE of an epoch becomes the carrier of the step before (R319). -/
def takeCarrier (s : State) (t : TaskId) (x : Task) : State :=
  let v := s.stepOf (x.epoch - 1)
  if x.coSeal && decide (0 < x.epoch) && v.carrier.isNone && !s.isSealed v.epoch then s.setStep { v with carrier := some t } else s

/-- This member's own shard placed in W, on the die that owns it (R291). -/
def placeOwn (s : State) (x : Task) (t : TaskId) (g : Geo) (d : Nat) : State :=
  let mine := x.coOp = 3 || (x.coOp = 4 && decide (g.self = x.coRoot))
  if !mine then s
  else
    let e := g.ext.getD g.self (0, 0)
    ((cutAll e.1 e.2).filter fun c => s.addrDie (x.coDst + c.1) = d).foldl (fun s c =>
      let s := if x.coSrc = x.coDst then s
        else s.writePlain (x.coDst + c.1) (s.readBytesAt (x.coSrc + c.1) c.2) (some x.epoch) x.tensor (some t)
      s.markDone d x.coChan 4 c.1) s

/-- The owner's stored digest: its twelve stack partials at DIGESTS, summed (R313). -/
def storedTotal (s : State) (x : Task) : Nat :=
  (List.range 12).foldl (fun n i => (n + (s.readWord (x.coDigests + 8 * i)).toNat) % digP) 0

/-! ### Arriving frames (R303, R307, R313) -/

/-- A frame of a channel with no task to take it: counted (R311). -/
def discardFrame (s : State) (d c : Nat) : State := s.addF COL_CHAN_DISCARDED d c 1

/-- The task of a channel that has begun; of a FUSED task, the body of the stage it works for (R157). -/
def chanTask (s : State) (d c : Nat) : Option (TaskId × Task) :=
  let ch := s.chan d c
  if ch.begun then ch.task.bind fun t => (s.task? t).map fun x => (t, ch.body.getD x) else none

/-- The work of a channel done: its task's, or its stage's item. -/
def chanDone (s : State) (t : TaskId) (c : Nat) : State :=
  let ch := s.chan t.d c
  if ch.body.isSome then s.setChan t.d c { ch with through := true }
  else match s.task? t with
    | some z => if z.status = .dispatched then s.setTask t { z with fin := true } else s
    | none => s

/-- AS_LAST latches a mismatch (R313). -/
def latchAssay (s : State) (d c src srcDie : Nat) : State :=
  if s.flag AS_LAST_VALID d 0 then s
  else
    let s := (s.setF AS_LAST_VALID d 0 1).setF AS_LAST_RESOLVED d 0 0
    ((s.setF AS_LAST_CHAN d 0 c).setF AS_LAST_SRC_DIE d 0 srcDie).setF AS_LAST_SRC d 0 src

/-- The check of a chunk's digest (R313): the state after it, whether the chunk is taken, and whether a resend is awaited. -/
def checkChunk (s : State) (d c epoch : Nat) (f : Frame) (stage i : Nat) (bad : Bool) (dig : Nat) : State × Bool × Bool :=
  let s := s.addF AS_CHECKS_COUNT d 0 1
  if dig = f.w3.bits 60 0 then
    if bad then
      let s := (s.dieRecord 0x0A02 sevInfo d 0 [c, f.src, f.srcDie] epoch).assayResolved
      let s := if s.flag AS_LAST_VALID d 0 then s.setF AS_LAST_RESOLVED d 0 1 else s
      let ch := s.chan d c
      (s.setChan d c { ch with resent := ch.resent + 1 }, true, false)
    else (s, true, false)
  else
    let s := (s.addF AS_MISMATCH_COUNT d 0 1).latchAssay d c f.src f.srcDie
    if bad then
      let s := s.dieRecord 0x0A03 sevSuspect d 0 [c, f.src, f.srcDie] epoch
      ((s.failStep epoch 1 (some (f.srcDie, f.src))).fireTrigger HIC_TRIG_STATUS_ASSAY [c], false, true)
    else (s.sendCredit d c epoch stage f.src f.srcDie (some i) 0, false, true)

/-- A stream of a channel's receive side replaced. -/
def setRxStream (s : State) (d c i : Nat) (y : RxStream) : State :=
  let ch := s.chan d c
  s.setChan d c { ch with rx := ch.rx.set i y, progress := true }

/-- A chunk taken into its context or buffer. -/
def enterChunk (s : State) (x : Task) (t : TaskId) (g : Geo) (d : Nat) (c : Chunk) (f : Frame) : State :=
  let ch := s.chan d x.coChan
  if c.phase ≤ 3 then
    let s := if s.prevDone x g c.phase c.off && !s.ownApplied x t c (c.h + 1) then s.applyOwn x t g d c (c.h + 1) else s
    s.applyPartial x t g d c (c.h + 1) f.payload
  else if 9 ≤ c.phase ∧ c.phase < 12 then
    let p := (ofLe (f.payload.take 8), ofLe ((f.payload.drop 8).take 8))
    (s.setChan d x.coChan { ch with pairs := Tab.putN none ch.pairs c.owner (some p) }).markDone d x.coChan c.phase c.off
  else
    let s := s.writePlain c.addr f.payload (some x.epoch) x.tensor (some t)
    let ch := s.chan d x.coChan
    let s := s.setChan d x.coChan { ch with
      sums := Tab.putN 0 ch.sums c.owner ((Tab.getN 0 ch.sums c.owner + f.w3.bits 60 0) % digP) }
    s.markDone d x.coChan c.phase (if c.phase = 12 then c.owner * 2 ^ 44 + c.off else c.off)

/-- A COLL frame of a stream (R306, R313). -/
def takeChunk (s : State) (x : Task) (t : TaskId) (d i : Nat) (y : RxStream) (f : Frame) : State :=
  let c := x.coChan
  let g := s.geoOf x
  let last := f.w3.bit 63
  match y.chunks[y.next]? with
  | none => if y.chunks = [] && last then s.setRxStream d c i { y with ended := true } else s.discardFrame d c
  | some k =>
    if y.bad && !f.w3.bit 62 then s
    else if k.len = 0 then
      let s := s.setRxStream d c i { y with next := y.next + 1, ended := decide (y.next + 1 = y.chunks.length) }
      let ch := s.chan d c
      s.setChan d c { ch with totals := Tab.putN none ch.totals k.owner (some (f.w3.bits 60 0)) }
    else
      let r := s.checkChunk d c x.epoch f y.stage y.next y.bad (s.chunkDigest x k.off f.payload)
      if (r.1.chan d c).task ≠ some t then r.1
      else if r.2.1 then
        let s := r.1.setRxStream d c i { y with
          next := y.next + 1, bad := false, ended := decide (y.next + 1 = y.chunks.length) }
        s.enterChunk x t g d k f
      else r.1.setRxStream d c i { y with bad := r.2.2 }

/-- The member a module's coordinates belong to. -/
def memberOf (s : State) (x : Task) (c : Nat) : Option Nat :=
  (List.range (x.coG 0 * x.coG 1 * x.coG 2)).find? fun k => decide (s.memberAt x k = c)

/-- A count frame (R303): kept, and its stream opened; a total beyond the extent fails the task with code 5. -/
def takeCount (s : State) (x : Task) (t : TaskId) (d : Nat) (f : Frame) : State :=
  match s.memberOf x f.src with
  | none => s.discardFrame d x.coChan
  | some k =>
    let ch := s.chan d x.coChan
    let g := s.geoOf x
    let s := s.setChan d x.coChan { ch with
      counts := Tab.putN none ch.counts k (some (f.w3.bits 39 0)), progress := true
      rx := ch.rx ++ [{ stage := 1, src := f.src, srcDie := f.srcDie, member := k, chunks := [] }] }
    let all := (List.range g.count).map (s.inCount x)
    if all.all (·.isSome) && decide ((g.ext.getD g.self (0, 0)).2 < all.foldl (fun n c => n + c.getD 0) 0) then s.failTask t 5
    else
      match s.inBase x x.coSelf, all.all (·.isSome) with
      | some b, true => s.copyOwn x t (s.addrDie b) (s.outBase x x.coSelf) b (s.outCount x x.coSelf)
      | _, _ => s

/-- A die begins a COLLECTIVE of operation `op` dispatched to its engine. -/
def collBegin (s : State) (t : TaskId) (op : Nat → Bool) : State :=
  match s.task? t with
  | none => s
  | some x =>
    if !(decide (x.kind = .collective) && op x.coOp && x.started && decide (x.status = .dispatched) && !x.fin &&
        decide ((s.chan t.d x.coChan).task = some t) && !(s.chan t.d x.coChan).begun) then s
    else
      let g := s.geoOf x
      match s.collCheck x g with
      | some code => s.failTask t code
      | none =>
        let d := t.d
        let s := s.takeCarrier t x
        let ch := s.chan d x.coChan
        let tx := if x.coOp = 5 then s.allToAllTx x g d else if x.coOp = 6 then s.permuteTx x g d else s.ringTx x g d
        let rx := if x.coOp = 5 then ch.rx else if x.coOp = 6 then s.permuteRx x g d else s.ringRx x g d
        let totals := if x.coDigSrc && !x.coReduces then Tab.putN none ch.totals g.self (some (s.storedTotal x)) else ch.totals
        let s := s.setChan d x.coChan { ch with begun := true, tx := tx, rx := rx, totals := totals }
        let s := s.placeOwn x t g d
        let s := if x.coOp = 6 then
            let f := (s.extentsAt x x.coAux g.count).getD g.self (0, 0)
            let e := g.ext.getD g.self (0, 0)
            let o := overlapOf e f
            s.copyOwn x t d (x.coSrc + (o.1 - e.1)) (x.coDst + (o.1 - f.1)) o.2
          else s
        let s := if x.coOp = 5 then
            ((List.range g.count).filter fun j => decide (j ≠ g.self) && decide (s.allToAllDie x j = d)).foldl
              (fun s j => s.sendCount x d j) s
          else s
        let s := if x.coOp = 5 then
            let s := s.setChan d x.coChan { s.chan d x.coChan with early := [] }
            let s := if g.count = 1 ∧ d = foldDie x then
                let b := s.outBase x 0
                s.copyOwn x t (s.addrDie x.coDst) b x.coDst (s.outCount x 0)
              else s
            ch.early.foldl (fun s f =>
              if (s.chan d x.coChan).task = some t then s.takeCount x t d f else s) s
          else s
        if (s.chan d x.coChan).task = some t then s.advance x else s

/-- A COLL frame delivered to die `d`; a count that comes before its task has begun is kept (DESIGN CHOICE, assumption 39). -/
def takeColl (s : State) (d : Nat) (f : Frame) : State :=
  let c := f.flags / 16
  let stage := f.flags / 4 % 4
  let keep := s.setChan d c { s.chan d c with early := (s.chan d c).early ++ [f] }
  match s.chanTask d c with
  | none => if stage = 0 then keep else s.discardFrame d c
  | some tx =>
    let t := tx.1
    let x := tx.2
    if stage = 0 ∧ (x.coOp ≠ 5 ∨ (s.memberOf x f.src).any fun k => (s.inCount x k).isSome) then keep
    else if x.kind ≠ .collective then s.discardFrame d c
    else
      let s := if s.carries? x then
          let ch := s.chan d c
          s.setChan d c { ch with verdict := worse ch.verdict (f.flags % 4) }
        else s
      let s := if stage = 0 then s.takeCount x t d f
        else
          let ch := s.chan d c
          match ch.rx.findIdx? fun y => decide (y.stage = stage ∧ y.src = f.src ∧ y.srcDie = f.srcDie) with
          | some i => (match ch.rx[i]? with
            | some y => s.takeChunk x t d i y f
            | none => s)
          | none => s.discardFrame d c
      if (s.chan d c).task = some t then s.advance x else s

/-! ### STREAM transfers (R309) -/

/-- The chunks of a STREAM transfer. -/
def streamOf (x : Task) : List Chunk :=
  (cutAll 0 x.srLength).map fun c => { phase := 12, off := c.1, len := c.2, addr := x.srLocal + c.1 }

/-- A transfer task, dispatched and not begun. -/
def srReady (s : State) (t : TaskId) (k : Kind) (mode : Nat) : Option Task :=
  match s.task? t with
  | some x =>
    if x.kind = k ∧ x.srMode = mode ∧ x.started ∧ x.status = .dispatched ∧ !x.fin ∧
        (s.chan t.d x.srChan).task = some t ∧ !(s.chan t.d x.srChan).begun then some x else none
  | none => none

/-- The peer module of a transfer. -/
def srPeer (x : Task) : Nat := x.srX * 65536 + x.srY * 256 + x.srZ

/-- A STREAM SEND waits for its RECV's credit. -/
def beginSend (s : State) (t : TaskId) (x : Task) : State :=
  let ch := s.chan t.d x.srChan
  let s := s.setChan t.d x.srChan { ch with
    begun := true, tx := [{ stage := 0, dst := srPeer x, dstDie := x.srDie, chunks := streamOf x }] }
  s.showWaiting t.d x.srChan

/-- A STREAM RECV grants its first credit. -/
def beginRecv (s : State) (t : TaskId) (x : Task) : State :=
  let ch := s.chan t.d x.srChan
  let n := s.creditOf t.d
  let s := s.setChan t.d x.srChan { ch with
    begun := true, rx := [{ stage := 0, src := srPeer x, srcDie := x.srDie, chunks := streamOf x, given := n }] }
  s.sendCredit t.d x.srChan x.epoch 0 (srPeer x) x.srDie none n

def sendStream (s : State) (t : TaskId) : State :=
  match s.srReady t .send 0 with
  | some x => s.beginSend t x
  | none => s

def recvStream (s : State) (t : TaskId) : State :=
  match s.srReady t .recv 0 with
  | some x => s.beginRecv t x
  | none => s

/-- A SENDDATA frame sent. -/
def sendData (s : State) (x : Task) (d : Nat) (tag : Nat) (bs : List Byte) : State :=
  s.send (s.frameTo (srPeer x) x.srDie 0 d x.epoch 0x12 (16 * x.srChan) (BitVec.ofNat 64 tag) bs)

/-- A SEND's stream: the frame of its length first, then chunks against credit; a stored digest ends it (R293, R313). -/
def pumpSend : Nat → State → Task → Nat → TxStream → State × TxStream
  | 0, s, _, _, y => (s, y)
  | n + 1, s, x, d, y =>
    if y.ended || decide (y.grant = 0) then (s, y)
    else if !y.opened then pumpSend n (s.sendData x d x.srLength []) x d { y with opened := true }
    else match y.chunks[y.next]? with
      | none =>
        if x.srDigSrc then (s.sendData x d (2 ^ 63 + (x.xword 0).bits 60 0) [], { y with ended := true })
        else (s, { y with ended := true })
      | some c =>
        if y.grant ≤ y.sent then (s, y)
        else
          let bs := (List.range c.len).map fun i => s.engineByte (c.addr + i)
          let last := decide (y.next + 1 = y.chunks.length) && !x.srDigSrc
          let resent := decide (y.resend = y.next + 1)
          let tag := (if last then 2 ^ 63 else 0) + (if resent then 2 ^ 62 else 0) + s.chunkDigest x c.off bs
          pumpSend n (s.sendData x d tag bs) x d { y with
            next := y.next + 1, sent := y.sent + 1, resend := if resent then 0 else y.resend }

/-- The SEND of a channel pumped; it completes when its last byte is acknowledged (R309). -/
def pumpSendTask (s : State) (t : TaskId) (x : Task) : State :=
  let d := t.d
  match (s.chan d x.srChan).tx with
  | [y] =>
    let r := pumpSend (y.chunks.length + 3) s x d y
    let ch := r.1.chan d x.srChan
    let s := (r.1.setChan d x.srChan { ch with tx := [r.2] }).showWaiting d x.srChan
    if r.2.ended && decide (s.creditOf d + r.2.chunks.length ≤ r.2.grant) then s.chanDone t x.srChan else s
  | _ => s

/-- A RECV with everything written completes, its stored digest compared (R309, R313). -/
def endRecv (s : State) (t : TaskId) (x : Task) : State :=
  let ch := s.chan t.d x.srChan
  match ch.rx with
  | [y] =>
    if !(decide (y.next = y.chunks.length) && y.ended) then s
    else
      let s := match Tab.getN none ch.totals 0 with
        | some n =>
          if n = Tab.getN 0 ch.sums 0 then s
          else (s.dieRecord 0x0A04 sevSuspect t.d 0 [x.srChan, y.src, y.srcDie] x.epoch
            (some (x.kindCode, t.g, t.idx))).failStep x.epoch 5
            (some (y.srcDie, y.src))
        | none => s
      s.chanDone t x.srChan
  | _ => s

/-- A SENDDATA frame delivered to die `d` (R306, R309). -/
def takeSendData (s : State) (d : Nat) (f : Frame) : State :=
  let c := f.flags / 16
  match s.chanTask d c with
  | none => s.discardFrame d c
  | some tx =>
    let t := tx.1
    let x := tx.2
    match (s.chan d c).rx, decide (x.kind = .recv) with
    | [y], true =>
      let ch := s.chan d c
      if y.src ≠ f.src ∨ y.srcDie ≠ f.srcDie then s.discardFrame d c
      else if ch.length.isNone then
        let n := f.w3.bits 39 0
        let s := s.setChan d c { ch with length := some n, progress := true }
        if n = x.srLength then s
        else (s.sendCredit d c x.epoch 0 f.src f.srcDie none 0).failTask t 6
      else match y.chunks[y.next]? with
        | none =>
          if f.length = 0 then
            (s.setChan d c { ch with
              totals := Tab.putN none ch.totals 0 (some (f.w3.bits 60 0)), rx := [{ y with ended := true }] }).endRecv t x
          else s.discardFrame d c
        | some k =>
          if y.bad && !f.w3.bit 62 then s
          else
            let dig := s.chunkDigest x k.off f.payload
            let r := s.checkChunk d c x.epoch f 0 y.next y.bad dig
            if (r.1.chan d c).task ≠ some t then r.1
            else if r.2.1 then
              let s := r.1.writePlain k.addr f.payload (some x.epoch) x.tensor (some t)
              let ch := s.chan d c
              let y := { y with next := y.next + 1, bad := false, ended := f.w3.bit 63, given := y.given + 1 }
              let s := s.setChan d c { ch with
                rx := [y], progress := true, sums := Tab.putN 0 ch.sums 0 ((Tab.getN 0 ch.sums 0 + dig) % digP) }
              (s.sendCredit d c x.epoch 0 y.src y.srcDie none 1).endRecv t x
            else
              let ch := r.1.chan d c
              r.1.setChan d c { ch with rx := [{ y with bad := r.2.2 }], progress := true }
    | _, _ => s.discardFrame d c

/-! ### COLL_CREDIT (R307) -/

/-- A stream told to resend from chunk `i`: the credit of the discarded chunks is open again. -/
def rewindTx (y : TxStream) (i : Nat) : TxStream :=
  let back := ((y.chunks.drop i).take (y.next - i)).filter fun c => decide (0 < c.len)
  if i < y.next then { y with next := i, sent := y.sent - back.length, resend := i + 1, ended := false } else y

/-- A COLL_CREDIT frame delivered to die `d`. -/
def takeCredit (s : State) (d : Nat) (f : Frame) : State :=
  let c := f.flags / 16
  match s.chanTask d c with
  | none => s.discardFrame d c
  | some tx =>
    let t := tx.1
    let x := tx.2
    let ch := s.chan d c
    match ch.tx.findIdx? fun y => decide (y.stage = f.flags / 4 % 4 ∧ y.dst = f.src ∧ y.dstDie = f.srcDie) with
    | none => s.discardFrame d c
    | some i =>
      let n := f.w3.bits 42 27
      if x.kind = .send ∧ !f.w3.bit 63 ∧ n = 0 then s.failTask t 6
      else
        let upd := fun (y : TxStream) => if f.w3.bit 63 then rewindTx y (f.w3.bits 62 43) else { y with grant := y.grant + n }
        let s := s.setChan d c { ch with tx := ch.tx.modify i upd, progress := true }
        if x.kind = .send then s.pumpSendTask t x else s.advance x

/-! ### Completion (R308) -/

/-- Every chunk sent has been written by its receiver, everything to be received has come, every context is complete, and
the pairs are gathered. -/
def collDone (s : State) (x : Task) : Bool :=
  let g := s.geoOf x
  s.allBegun x &&
  ((s.groupOf x).all fun y =>
    let ch := s.chan y.1 x.coChan
    (ch.tx.all fun z => z.ended &&
      decide (((z.chunks.filter fun c => decide (0 < c.len)).length = 0) ∨
        s.creditOf y.1 + (z.chunks.filter fun c => decide (0 < c.len)).length ≤ z.grant)) &&
    ch.rx.all fun z => z.ended) &&
  (!x.coReduces || s.reduceOver x g) &&
  (!(x.coStat && x.coReduces) || (List.range g.count).all fun k => (s.pairOf x k).isSome) &&
  (x.coOp ≠ 5 || (List.range g.count).all fun k => (s.inCount x k).isSome)

/-- The bytes of the result record (R308, R314). -/
def resultBytes (s : State) (x : Task) : List Byte :=
  let g := s.geoOf x
  let pairs := (List.range g.count).map fun k => (s.pairOf x k).getD (0, 0)
  let stat := x.coStat && x.coReduces
  let loc := pairs.foldl (fun a p => f64Add a p.1) 0
  let sLocal := if stat then fp64.round ((fp64.decode loc).div (Val.ofInt g.count)) else 0
  let sSum := if stat then pairs.foldl (fun a p => f64Add a p.2) 0 else 0
  let e := g.ext.getD g.self (0, 0)
  let dig := s.chunkDigest x e.1 (s.readBytesAt (x.coDst + e.1) e.2)
  let resent := (s.groupOf x).foldl (fun n y => n + (s.chan y.1 x.coChan).resent) 0
  toLe 8 x.epoch ++ toLe 8 sLocal ++ toLe 8 sSum ++ toLe 8 dig ++ toLe 8 resent ++ toLe 24 0

/-- The stored digests of the shards received compared with their owners' totals (R313). -/
def checkTotals (s : State) (x : Task) : State :=
  let g := s.geoOf x
  ((List.range g.count).filter fun k => decide (k ≠ g.self)).foldl (fun s k =>
    match s.totalOf x k with
    | none => s
    | some n =>
      let sum := (diesOf x).foldl (fun a d => (a + Tab.getN 0 (s.chan d x.coChan).sums k) % digP) 0
      if sum = n then s
      else
        let w := s.draw
        (w.2.dieRecord 0x0A04 sevSuspect (foldDie x) 0 [x.coChan, k] x.epoch).failStep x.epoch 5
          (some (w.1.toNat % 8, s.memberAt x k))) s

/-- COLLECTIVE_COMPLETE: the fold is written, the engines of all participating dies complete, and a carrier's verdict goes on
to the uncarried axes (R308, R319). -/
def collComplete (s : State) (t : TaskId) : State :=
  match s.task? t with
  | none => s
  | some x =>
    if !(decide (x.kind = .collective ∧ x.status = .dispatched) && !x.fin && decide ((s.chan t.d x.coChan).task = some t) &&
        s.collDone x) then s
    else
      let grp := s.groupOf x
      let s := if x.coResult = 0 then s
        else s.writePlain x.coResult (s.resultBytes x) (some x.epoch) x.tensor none
      let carried := s.carries? x
      let w := grp.foldl (fun w y => worse w (s.chan y.1 x.coChan).verdict) 0
      let s := grp.foldl (fun s y => s.setTask y.2.1 { y.2.2 with fin := true }) s
      let s := if carried then
          let v := s.stepOf (x.epoch - 1)
          s.carrierEnd { v with combined := worse v.combined w, carrierDone := true }
        else s
      s.checkTotals x

/-- STALL (R311). -/
def stall (s : State) (t : TaskId) : State :=
  match s.task? t with
  | some x =>
    (match x.channel with
      | some c =>
        if x.status = .dispatched ∧ !x.fin ∧ (s.chan t.d c).task = some t ∧ (s.chan t.d c).progress then s.failTask t 7 else s
      | none => s)
  | none => s

/-! ### REMOTE transfers (R310) -/

/-- The pieces of a remote transfer: remote address and length. -/
def piecesOf (x : Task) : List (Nat × Nat) := (cutAll 0 x.srLength).map fun c => (x.srRemote + c.1, c.2)

/-- A REMOTE SEND: every piece goes out as an RWRITE. -/
def beginRemoteSend (s : State) (t : TaskId) (x : Task) : State :=
  let s := s.setChan t.d x.srChan { s.chan t.d x.srChan with begun := true, todo := piecesOf x }
  (piecesOf x).foldl (fun s c =>
    let bs := s.readBytesAt (x.srLocal + (c.1 - x.srRemote)) c.2
    s.send (s.frameTo (srPeer x) x.srDie 1 t.d x.epoch 0x21 0 (BitVec.ofNat 64 (x.srChan * 2 ^ 44 + c.1)) bs)) s

/-- A REMOTE RECV: every piece is asked for with an RREAD. -/
def beginRemoteRecv (s : State) (t : TaskId) (x : Task) : State :=
  let s := s.setChan t.d x.srChan { s.chan t.d x.srChan with begun := true, todo := piecesOf x }
  (piecesOf x).foldl (fun s c =>
    s.send (s.frameTo (srPeer x) x.srDie 1 t.d x.epoch 0x22 0
      (BitVec.ofNat 64 (c.2 * 2 ^ 48 + x.srChan * 2 ^ 44 + c.1)) [])) s

def sendRemote (s : State) (t : TaskId) : State :=
  match s.srReady t .send 1 with
  | some x => s.beginRemoteSend t x
  | none => s

def recvRemote (s : State) (t : TaskId) : State :=
  match s.srReady t .recv 1 with
  | some x => s.beginRemoteRecv t x
  | none => s

/-- The answer to a remote request goes back to the die that sent it, with the request's TAG (DESIGN CHOICE, assumption 38). -/
def answerRemote (s : State) (d : Nat) (f : Frame) (bs : List Byte) : State :=
  s.send (s.frameTo f.src f.srcDie 1 d f.epoch 0x23 0 f.w3 bs)

/-- An RWRITE performed with its epoch and answered. -/
def takeRwrite (s : State) (d : Nat) (f : Frame) : State :=
  (s.writePlain (f.w3.bits 43 0) f.payload (some f.epoch) 0 none).answerRemote d f []

/-- An RREAD answered with the data. -/
def takeRread (s : State) (d : Nat) (f : Frame) : State :=
  s.answerRemote d f (s.readBytesAt (f.w3.bits 43 0) (min 4096 (f.w3.bits 60 48)))

/-- An RRESP: a write acknowledged, or read data written; the task completes with its last piece. -/
def takeRresp (s : State) (d : Nat) (f : Frame) : State :=
  let c := f.w3.bits 47 44
  match s.chanTask d c with
  | none => s.discardFrame d c
  | some tx =>
    let t := tx.1
    let x := tx.2
    let ch := s.chan d c
    match ch.todo.find? fun p => p.1 = f.w3.bits 43 0 with
    | none => s.discardFrame d c
    | some p =>
      let s := s.setChan d c { ch with todo := ch.todo.erase p, progress := true }
      let s := if x.kind = .recv then
          s.writePlain (x.srLocal + (p.1 - x.srRemote)) f.payload (some x.epoch) x.tensor (some t)
        else s
      if (s.chan d c).todo = [] then s.chanDone t c else s

/-- COL_CTRL.CNT_CLR (R324). -/
def colCntClr (s : State) (d : Nat) : State :=
  let s := (s.setF AS_CHECKS_COUNT d 0 0).setF AS_MISMATCH_COUNT d 0 0
  (List.range 16).foldl (fun s c => s.setF COL_CHAN_DISCARDED d c 0) s

end State

/-! ### The commands -/

def execAllReduce (t : TaskId) (s : State) := commit s (s.collBegin t fun o => decide (o = 1))
def execReduceScatter (t : TaskId) (s : State) := commit s (s.collBegin t fun o => decide (o = 2))
def execAllGather (t : TaskId) (s : State) := commit s (s.collBegin t fun o => decide (o = 3))
def execBroadcast (t : TaskId) (s : State) := commit s (s.collBegin t fun o => decide (o = 4))
def execAllToAll (t : TaskId) (s : State) := commit s (s.collBegin t fun o => decide (o = 5))
def execPermute (t : TaskId) (s : State) := commit s (s.collBegin t fun o => decide (o = 6))
def execCollectiveComplete (t : TaskId) (s : State) := commit s (s.collComplete t)
def execStall (t : TaskId) (s : State) := commit s (s.stall t)
def execSendStream (t : TaskId) (s : State) := commit s (s.sendStream t)
def execSendRemote (t : TaskId) (s : State) := commit s (s.sendRemote t)
def execRecvStream (t : TaskId) (s : State) := commit s (s.recvStream t)
def execRecvRemote (t : TaskId) (s : State) := commit s (s.recvRemote t)
def execColCntClr (r : Requester) (d : Fin 4) (s : State) := commit s (s.atReg r (dieReg d 0x800010) (s.colCntClr d))

end Sys2Proof.Machine
end

