-- ==== Sys2Proof/Machine/Validate.lean ====
section
/-! DEFINITION. Validation (R113, R114, R119, R124, R125, R155, R199): the descriptors of a graph as read from the graph
region, the checks of one descriptor with their codes, the checks that involve several tasks, and the first error in the
order of R125. -/

namespace Sys2Proof.Machine

/-! ### Reading a graph -/

/-- Extension records the body of a task names (R114, R151, R198). -/
def Task.extRecords (t : Task) : Nat :=
  if !t.extFlag then 0
  else match t.kind with
    | .fused => if 5 < t.fuStages then 2 else 1
    | .copy => if t.cpProgram then 3 else 1
    | _ => 1

/-- Extension records of further successors (R115). -/
def Task.succRecords (t : Task) : Nat := (t.succCount - 3 + 31) / 32

namespace State

/-- First byte of descriptor `i` (R110). -/
def descAddr (s : State) (d i : Nat) : Nat := s.getF GE_GRAPH_BASE_BASE d 0 * 0x800000 + i * 64

/-- The operand extension words of a task. -/
def extOf (s : State) (d : Nat) (t : Task) : List Word :=
  (List.range (8 * t.extRecords)).map fun i => s.readWord (s.extAddr d t.opndExt + 8 * i)

/-- Successor `k` of a task (R115). -/
def succAt (s : State) (d : Nat) (t : Task) (k : Nat) : Nat :=
  if k = 0 then (t.word 2).bits 63 48
  else if k = 1 then (t.word 2).bits 47 32
  else if k = 2 then (t.word 2).bits 31 16
  else ofLe (s.readBytesAt (s.extAddr d (t.succExt + (k - 3) / 32) + 2 * ((k - 3) % 32)) 2)

/-- Descriptor `i` as validation reads it, with everything it names (R114). -/
def readTask (s : State) (d i : Nat) : Task :=
  let t : Task := { idx := i, w := (List.range 8).map fun j => s.readWord (s.descAddr d i + 8 * j) }
  { t with ext := s.extOf d t, succ := (List.range t.succCount).map (s.succAt d t), pred := t.predCount }

/-- The tasks of a graph in slot order (R111). -/
def readGraph (s : State) (d g : Nat) : List Task :=
  let x := s.graph d g
  (List.range x.count).map fun k => s.readTask d ((x.start + k) % 65536)

/-- The task a stage of a FUSED chain runs (R152): its template read as a descriptor (DEDUCED, assumption 40), under the
stage's kind, and for a DRAIN the record of TEMPLATE + 1. -/
def stageTask (s : State) (d : Nat) (t : Task) (j : Nat) : Task :=
  let x := t.fuStage j
  let m := s.templateAt d (stTemplate x)
  let ext := stKind x = 3 || m.extFlag
  let w0 := BitVec.ofNat 64 (stKind x * 2 ^ 60 + if ext then 2 ^ 42 else 0)
  let m := { m with idx := t.idx, w := [w0, t.word 1, m.word 2, m.word 3, m.word 4, m.word 5, m.word 6, m.word 7] }
  let rec0 := if stKind x = 3 then stTemplate x + 1 else m.opndExt
  { m with ext := if ext then (List.range 8).map fun i => s.readWord (s.extAddr d rec0 + 8 * i) else [] }

end State

/-! ### Checks of one descriptor -/

/-- The lowest code whose condition holds. -/
def lowestCode (l : List (Nat × Bool)) : Option Nat :=
  l.foldl (fun m x => if x.2 then some (match m with | some c => min c x.1 | none => x.1) else m) none

/-- The full presented width of a mode (R29). -/
def fullWidth (mode : Nat) : Nat :=
  match mode with
  | 0 => 128 | 1 => 512 | 2 => 1024 | _ => 64

/-- An FP8 format, plain or MX (R471). -/
def isFp8 (f : Nat) : Bool := f = 0 || f = 1 || f = 5 || f = 6

/-- The stationary formats of a mode (R471). -/
def wFmtOk (mode f : Nat) : Bool :=
  match mode with
  | 0 => isFp8 f
  | 1 => f = 9
  | 2 => f = 8
  | 3 => f = 3
  | 4 => f = 2
  | _ => false

/-- The streamed formats of a mode, code modes apart (R471). -/
def xFmtOk (mode f : Nat) : Bool :=
  match mode with
  | 0 => isFp8 f
  | 3 => f = 3
  | 4 => f = 2
  | _ => true

/-- A codebook entry, four bits signed, outside −4 to +4 (R67). -/
def codeBad (book i : Nat) : Bool :=
  let v := (BitVec.ofNat 4 (book >>> (4 * i))).toInt
  decide (v < -4 ∨ 4 < v)

/-- An α outside 0 to 1 (R101). -/
def alphaBad (a : Nat) : Bool := !(decide (a ≤ 0x3F80) || decide (a = 0x8000))

namespace Task

/-- The format codes a body names (R125). -/
def fmtCodes (t : Task) : List Nat :=
  match t.kind with
  | .matmul => [t.mmWFmt, t.mmXFmt]
  | .drain =>
    [t.drFmt] ++ (if t.drDeriv then [t.drSavedFmt] else []) ++ (if t.drSec ≠ 0 then [t.drSecFmt] else [])
  | .vector => t.veOperands.map voFmt
  | .copy => if t.cpProgram then (List.range t.cpStreams).map fun k => (t.cpStream k).fmt else []
  | _ => []

/-- The rounding codes a body names (R74). -/
def rndCodes (t : Task) : List Nat :=
  match t.kind with
  | .drain => [t.drRnd] ++ (if t.drSec ≠ 0 then [t.drSecRnd] else [])
  | .copy => if t.cpProgram then (List.range t.cpStreams).map fun k => (t.cpStream k).rnd else []
  | _ => []

/-- Reserved bits of the body of a MATMUL (R117, R169), and its own ranges. -/
def mmBody (t : Task) : Bool :=
  (t.word 4).bits 47 44 ≠ 0 || (t.word 5).bits 49 44 ≠ 0 || (t.word 6).bits 15 0 ≠ 0 ||
  (t.xword 0).bits 63 44 ≠ 0 || (t.xword 1).bits 63 44 ≠ 0 || (t.xword 2).bits 62 44 ≠ 0 ||
  t.mmMask % 8 ≠ 0 || ((isMx t.mmWFmt || isMx t.mmXFmt) && !t.extFlag)

/-- R469. -/
def drBody (t : Task) : Bool :=
  (t.word 4).bits 0 0 ≠ 0 || (t.word 5).bits 47 44 ≠ 0 || (t.word 6).bits 63 44 ≠ 0 || (t.word 7).bits 62 44 ≠ 0 ||
  (t.xword 2).bits 63 49 ≠ 0 || (t.xword 3).bits 63 44 ≠ 0 || (t.xword 4).bits 63 44 ≠ 0 ||
  (t.xword 5).bits 63 62 ≠ 0 || (t.xword 5).bits 48 48 ≠ 0 || (t.xword 6).bits 31 0 ≠ 0 ||
  (t.xword 7).bits 63 44 ≠ 0 || t.drN = 0 || 1024 < t.drN ||
  (isMx t.drFmt && t.drOutScale = 0) || (t.drSec ≠ 0 && isMx t.drSecFmt && t.drSecScale = 0) ||
  (t.drDeriv && (t.drSaved = 0 || t.drSec ≠ 0 || 6 < t.drSavedFmt)) ||
  (7 < t.drFmt) || (t.drSec ≠ 0 && 7 < t.drSecFmt)

/-- R470. -/
def spBody (t : Task) : Bool :=
  (t.kind = .resume && (t.word 4).bit 63) || (t.word 4).bits 62 43 ≠ 0 || (t.word 4).bits 0 0 ≠ 0 ||
  (t.word 5).bits 63 44 ≠ 0 || (t.word 6).toNat ≠ 0 || (t.word 7).toNat ≠ 0 || t.drN = 0 || 1024 < t.drN

/-- R150. -/
def veBody (t : Task) : Bool :=
  (t.word 4).bits 63 44 ≠ 0 || 8 < t.veNExt || t.veProgLen = 0 || (0 < t.veNExt && !t.extFlag) ||
  t.veOperands.any fun w => w.bits 63 58 ≠ 0

/-- R198, R199, its regions apart. -/
def cpBody (t : Task) : Bool :=
  (t.word 4).bits 48 44 ≠ 0 || (t.word 5).bits 63 44 ≠ 0 || (t.word 6).bits 63 40 ≠ 0 || (t.word 7).toNat ≠ 0 ||
  if t.cpProgram then
    !t.extFlag || t.cpSrc ≠ 0 || t.cpStreams = 0 || 8 < t.cpStreams || t.cpStreams ≤ t.cpDigStream ||
    !([0x01, 0x02, 0x03, 0x04, 0x10, 0x11, 0x12, 0x13].contains t.cpProg) ||
    (List.range t.cpStreams).any fun k => 4 < (t.cpStream k).fmt
  else t.cpProg ≠ 0 || t.cpStreams ≠ 0 || t.cpLength % 64 ≠ 0

/-- R291, R292. -/
def coBody (t : Task) : Bool :=
  let n := t.coG 0 * t.coG 1 * t.coG 2
  let reduces := t.coOp = 1 || t.coOp = 2
  t.coOp = 0 || 6 < t.coOp || !t.extFlag || (t.word 4).bits 4 0 ≠ 0 || (t.word 5).bits 53 44 ≠ 0 ||
  (t.word 6).bits 49 44 ≠ 0 || (t.word 7).bits 63 44 ≠ 0 ||
  ((List.range 4).any fun i => (t.xword i).bits 63 44 ≠ 0) ||
  ((List.range 4).any fun i => (t.xword (4 + i)).toNat ≠ 0) ||
  16384 < n || n ≤ t.coSelf || n ≤ t.coRoot || (reduces && t.coFmt = 3) || (!reduces && t.coPkg) ||
  (t.coSeal && (t.coOp = 4 || t.coOp = 6)) || (reduces && !t.coPkg && t.coDst ≠ t.coSrc)

/-- R293. -/
def srBody (t : Task) : Bool :=
  (t.word 4).bits 56 48 ≠ 0 || (t.word 4).bits 17 0 ≠ 0 || 1 < t.srMode || t.srVl ≠ t.srMode || 3 < t.srDie ||
  (t.srDigSrc && (t.kind = .recv || !t.extFlag)) || (t.word 5).bits 63 44 ≠ 0 || (t.word 6).bits 63 44 ≠ 0 ||
  (t.word 7).bits 63 40 ≠ 0 || t.srLength = 0 || t.srLength % 64 ≠ 0

/-- Body bits above the fields of a kind laid out in R118. -/
def smallBody (t : Task) : Bool :=
  match t.kind with
  | .signal => t.body >>> 56 ≠ 0 || 3 < t.sgDie
  | .wait => t.body >>> 45 ≠ 0
  | .fence => t.body >>> 12 ≠ 0
  | .regwrite => t.body >>> 216 ≠ 0
  | .test => t.body >>> 1 ≠ 0
  | _ => false

/-- A reserved field of the body set, or a field out of its range (code BODY). -/
def bodyBad (t : Task) : Bool :=
  match t.kind with
  | .matmul => t.mmBody
  | .drain => t.drBody
  | .spill | .resume => t.spBody
  | .vector => t.veBody
  | .copy => t.cpBody
  | .collective => t.coBody
  | .send | .recv => t.srBody
  | _ => t.smallBody

/-- An operand address misaligned for its kind (R117, R150, R198, R470). -/
def misaligned (t : Task) : Bool :=
  match t.kind with
  | .matmul => t.mmWAddr % 64 ≠ 0 || t.mmXAddr % 64 ≠ 0
  | .vector => t.veProgOff % 8 ≠ 0 || t.veOperands.any fun w => voAddr w % 64 ≠ 0
  | .spill | .resume => t.spBuf % 64 ≠ 0
  | .copy => if t.cpProgram then t.cpDst % 8 ≠ 0 else t.cpSrc % 64 ≠ 0 || t.cpDst % 64 ≠ 0
  | _ => false

/-- The checks of a body, for a task and for a stage template alike (R125, R155). -/
def bodyChecks (t : Task) (debug : Bool) : List (Nat × Bool) :=
  let mm := t.kind = .matmul
  let dr := t.kind = .drain
  [(0x02, t.fmtCodes.any fun f => 9 < f),
   (0x03, t.rndCodes.any fun r => r = 3),
   (0x04, !debug && t.rndCodes.any fun r => r = 2),
   (0x05, mm && (List.range 4).any (codeBad t.mmCodebook)),
   (0x06, mm && (t.mmMode = 1 || t.mmMode = 2) && !isFp8 t.mmXFmt),
   (0x07, dr && (t.drFunc = 7 || (t.drDeriv && (t.drFunc = 0 || ((t.drFunc = 5 || t.drFunc = 6) && !t.drSavedZ))))),
   (0x08, dr && t.drFunc = 2 && alphaBad t.drAlpha),
   (0x09, dr && t.drDeriv && t.drBias ≠ 0),
   (0x0A, dr && (isMx t.drFmt || (t.drSec ≠ 0 && isMx t.drSecFmt)) && t.drCol0 % 32 ≠ 0),
   (0x0B, dr && (t.drFmt = 7 || (t.drSec ≠ 0 && t.drSecFmt = 7))),
   (0x0D, mm && (t.declN = 0 || fullWidth t.mmMode < t.declN)),
   (0x0E, mm && (4 < t.mmMode || !wFmtOk t.mmMode t.mmWFmt || !xFmtOk t.mmMode t.mmXFmt)),
   (0x0F, t.misaligned),
   (0x16, match t.tileOf with | some b => 128 < b.base + b.units | none => false),
   (0x1D, t.bodyBad)]

end Task

namespace State

/-- R199: a PROGRAM COPY whose streams the published table does not admit. -/
def copyBad (s : State) (t : Task) : Bool :=
  t.kind = .copy && t.cpProgram &&
  let streams := (List.range t.cpStreams).map t.cpStream
  let width := fun (x : PStream) => if x.fmt = 4 then 4 else if x.fmt = 2 ∨ x.fmt = 3 then 2 else 1
  let home := fun (x : PStream) => (s.findRegion x.addr).map s.region
  let key := fun (x : PStream) => (home x).map fun r =>
    (r.il, if r.il = 1 then r.die else 0, (x.addr - r.base) % (if r.il = 1 then 0x60000 else 0x180000), width x)
  streams.any (fun x =>
    s.findRegion x.addr = none || s.findRegion (x.addr + max 1 t.cpLength * width x - 1) ≠ s.findRegion x.addr ||
    (home x).any fun r => r.comp ≠ 0) ||
  streams.any fun x => streams.any fun y => key x ≠ key y

/-- R155: a FUSED chain whose stages break its rules, their templates apart. -/
def chainBad (s : State) (d : Nat) (t : Task) : Bool :=
  let n := t.fuStages
  let kind := fun j => stKind (t.fuStage j)
  let last := fun j => j + 1 = n
  let pooled := (List.range n).filter fun j => !last j && kind j ≠ 1
  let lo := fun j => stQOff (t.fuStage j)
  let size := fun j => stQDepth (t.fuStage j) * stQEntry (t.fuStage j) * 64
  let ring := fun j => match (s.stageTask d t j).tileOf with
    | some b => (b.base, stQDepth (t.fuStage j) * b.units)
    | none => (0, 0)
  let rings := (List.range n).filter fun j => kind j = 1
  (t.word 4).bits 63 32 ≠ 0 || (t.word 7).toNat ≠ 0 || !t.extFlag || t.fuItems = 0 || n < 2 || 8 < n ||
  (List.range n).any (fun j =>
    let x := t.fuStage j
    !([1, 2, 3, 8, 9].contains (kind j)) ||
    (kind j = 3 && (j = 0 || kind (j - 1) ≠ 1)) || (kind j = 1 && (last j || kind (j + 1) ≠ 3)) ||
    decide (stQDepth x = 0) != decide (last j) ||
    x.2.bits 31 16 ≠ 0 || x.1.bits 63 59 ≠ 0 || x.1.bits 31 24 ≠ 0) ||
  pooled.any (fun j => 0x8000000 < lo j + size j || pooled.any fun k => j < k && lo j < lo k + size k && lo k < lo j + size j) ||
  rings.any (fun j => 128 < (ring j).1 + (ring j).2) || 128 < rings.foldl (fun a j => a + (ring j).2) 0

/-- A queue of a chain misaligned (R152). -/
def queueMisaligned (t : Task) : Bool :=
  (List.range t.fuStages).any fun j => j + 1 < t.fuStages && stKind (t.fuStage j) ≠ 1 && stQOff (t.fuStage j) % 64 ≠ 0

/-- An address a REGWRITE may not name (code REGWRITE). -/
def regwriteBad (d : Nat) (t : Task) : Bool :=
  t.kind = .regwrite && [0, 1].any fun i =>
    t.rwAddr i ≠ 0 && (!isRegAddr (t.rwAddr i) || (decide (dieReg d 0 ≤ t.rwAddr i) && decide (t.rwAddr i < dieReg d 0x400000)))

/-- A kind a twin graph may hold (R354). -/
def twinKind (k : Kind) : Bool := k.isCore || k = .signal || k = .wait || k = .fence

/-- The code of the first check that a descriptor breaks (R125). -/
def singleError (s : State) (d g : Nat) (t : Task) : Option Nat :=
  let debug := s.flag DBG_STATUS_DEBUG_MODE 0 0
  let core := t.kind.isCore
  let x := s.graph d g
  let inRange := fun i => (i + 65536 - x.start) % 65536 < x.count
  let pop := (List.range 32).countP t.elig.testBit
  let stages := if t.kind = .fused && t.fuStages ≤ 8 then
      (List.range t.fuStages).flatMap fun j => (s.stageTask d t j).bodyChecks debug
    else []
  lowestCode (
    [(0x01, decide (t.kind = .reserved)),
     (0x0C, (core && t.elig = 0) || (!core && t.elig ≠ 0) || (t.kind = .test && pop ≠ 1)),
     (0x0D, t.kind ≠ .matmul && t.kind ≠ .fused && t.declN ≠ 0),
     (0x0F, t.kind = .fused && queueMisaligned t),
     (0x10, (t.kind = .signal && 4032 ≤ t.sgToken) || (t.kind = .wait && 4034 ≤ t.waToken)),
     (0x11, regwriteBad d t),
     (0x12, (3 < t.succCount && 65536 < t.succExt + t.succRecords) ||
            (t.extFlag && 65536 < t.opndExt + t.extRecords) ||
            (t.kind = .fused && (List.range (min 8 t.fuStages)).any fun j =>
              stKind (t.fuStage j) = 3 && stTemplate (t.fuStage j) = 65535)),
     (0x13, t.succ.any fun i => !inRange i),
     (0x1C, s.regionBusy d t.region),
     (0x1D, (t.word 0).bits 52 52 ≠ 0 || (t.word 0).bits 41 40 ≠ 0 || (t.word 2).bits 15 11 ≠ 0 ||
            s.copyBad t || (t.kind = .fused && s.chainBad d t) || (s.twinSlot d g && !twinKind t.kind))] ++
    t.bodyChecks debug ++ stages)

end State

/-! ### Checks that involve several tasks -/

/-- The predecessors of a task within a list, once per successor entry (R119). -/
def predsOf (ts : List Task) (i : Nat) : List Nat :=
  ts.flatMap fun t => (t.succ.filter fun k => k = i).map fun _ => t.idx

/-- The tasks that become ready in turn: those whose predecessors have all become ready. -/
def settle (ts : List Task) : Nat → List Nat → List Nat
  | 0, done => done
  | n + 1, done =>
    settle ts n (ts.filterMap fun t => if (predsOf ts t.idx).all done.contains then some t.idx else none)

/-- The tasks that could never become ready: on a cycle, or reached from one (R125). -/
def neverReady (ts : List Task) : List Task :=
  let done := settle ts ts.length []
  ts.filter fun t => !done.contains t.idx

/-- The tasks that lead to `i` through successor edges. -/
def ancestors (ts : List Task) : Nat → List Nat → List Nat
  | 0, seen => seen
  | n + 1, seen =>
    ancestors ts n (ts.filterMap fun t =>
      if seen.contains t.idx || t.succ.any (fun k => seen.contains k) then some t.idx else none)

/-- Does `a` lead to `b` through successor edges? -/
def leadsTo (ts : List Task) (a b : Nat) : Bool :=
  (ancestors ts ts.length (predsOf ts b)).contains a

/-- The tasks naming a tile as a path of direct edges (R124): at each point one task has no predecessor left. -/
def chainPath : Nat → List Task → Option (List Task)
  | 0, ts => if ts = [] then some [] else none
  | n + 1, ts =>
    match ts.filter fun t => (predsOf ts t.idx).isEmpty with
    | [x] => (chainPath n (ts.filter fun t => t.idx ≠ x.idx)).map fun p => x :: p
    | _ => if ts = [] then some [] else none

/-- The tile a task names. -/
def Task.tileId (t : Task) : Option Nat := t.tileOf.map (·.tile)

/-- Tile identifiers in the order they are first named. -/
def tileIds (ts : List Task) : List Nat :=
  ts.foldl (fun l t => match t.tileId with | some i => if l.contains i then l else l ++ [i] | none => l) []

/-- The SPILLs a RESUME may take its pairs from: same buffer, leading to it (R98). -/
def spillsFor (ts : List Task) (r : Task) : List Task :=
  ts.filter fun t => t.kind = .spill && t.spBuf = r.spBuf && leadsTo ts t.idx r.idx

/-- The source of a RESUME (R98): of its SPILLs, ordered one against the other, the one every other precedes. -/
def resumeSource (ts : List Task) (r : Task) : Option Task :=
  let c := spillsFor ts r
  if c.all fun x => c.all fun y => x.idx = y.idx || leadsTo ts x.idx y.idx || leadsTo ts y.idx x.idx then
    c.find? fun x => c.all fun y => x.idx = y.idx || leadsTo ts y.idx x.idx
  else none

/-- The errors of a tile: (first task in slot order, code) (R88, R124, R125). -/
def tileErrors (ts : List Task) (tile : Nat) : List (Nat × Nat) :=
  let l := ts.filter fun t => t.tileId = some tile
  match l with
  | [] => []
  | first :: _ =>
    let shape := fun (t : Task) => t.tileOf.map fun b => (b.base, b.m, b.n, b.pair)
    let conflict := if l.any fun t => shape t ≠ shape first then [(first.idx, 0x17)] else []
    match chainPath l.length l with
    | none => conflict ++ [(first.idx, 0x19)]
    | some p =>
      let head : Bool := match p with
        | x :: _ => x.kind = .drain || x.kind = .spill || (x.kind = .matmul && x.mmAdd)
        | [] => false
      let common : Nat := l.foldl (fun (m : Nat) (t : Task) => m &&& t.elig) (2 ^ 32 - 1)
      conflict ++ (if head then [(first.idx, 0x18)] else []) ++ (if common = 0 then [(first.idx, 0x1A)] else [])

/-- The error of a RESUME (R98), against the first of the tasks it involves. -/
def resumeErrors (ts : List Task) (r : Task) : List (Nat × Nat) :=
  let firstOf := fun (l : List Task) =>
    ((ts.find? fun t => t.idx = r.idx || l.any fun x => x.idx = t.idx).map (·.idx)).getD r.idx
  match resumeSource ts r with
  | none => [(firstOf (spillsFor ts r), 0x1B)]
  | some x => if x.drM = r.drM ∧ x.drN = r.drN then [] else [(firstOf [x], 0x1B)]

/-- The errors that involve several tasks. -/
def crossErrors (ts : List Task) : List (Nat × Nat) :=
  (ts.filterMap fun t => if (predsOf ts t.idx).length = t.predCount then none else some (t.idx, 0x14)) ++
  ((neverReady ts).head?.map fun t => (t.idx, 0x15)).toList ++
  (tileIds ts).flatMap (tileErrors ts) ++
  (ts.filter fun t => t.kind = .resume).flatMap (resumeErrors ts)

/-- The error reported of those found: the first in slot order, and the lowest code of its task (R125). -/
def firstError (ts : List Task) (errs : List (Nat × Nat)) : Option (Nat × Nat) :=
  (ts.find? fun t => errs.any fun e => e.1 = t.idx).bind fun t =>
    (lowestCode ((errs.filter fun e => e.1 = t.idx).map fun e => (e.2, true))).map fun c => (t.idx, c)

namespace State

/-- Two slot ranges modulo 65,536 that share a slot (R112). -/
def rangesMeet (a n b m : Nat) : Bool :=
  n ≠ 0 && m ≠ 0 && (decide ((b + 65536 - a) % 65536 < n) || decide ((a + 65536 - b) % 65536 < m))

/-- Does a slot range meet that of a graph that is not IDLE (R112)? -/
def rangeClash (s : State) (d start count : Nat) : Bool :=
  (List.range 16).any fun k =>
    s.slotState d k ≠ 0 && rangesMeet start count (s.graph d k).start (s.graph d k).count

/-- The first error of a graph, as (task, code), in the order of R125. -/
def graphError (s : State) (d g : Nat) : Option (Nat × Nat) :=
  let x := s.graph d g
  if x.count = 0 ∨ 65536 < x.count then some (x.start, 0x1E)
  else if x.clash then some (x.start, 0x1F)
  else
    let ts := s.readGraph d g
    match ts.findSome? fun t => (s.singleError d g t).map fun c => (t.idx, c) with
    | some e => some e
    | none => firstError ts (crossErrors ts)

end State

end Sys2Proof.Machine
end

