-- ==== Sys2Proof/Machine/Digest.lean ====
section
/-! DEFINITION. Task digests (R352), the digest log (R353), and the comparison of twin tasks (R354 to R356). -/

namespace Sys2Proof.Machine

namespace State

/-- Digests are computed: MODE is SAMPLED or DUAL (R352). -/
def digestOn (s : State) : Bool := s.getF HIC_RED_CFG_MODE 0 0 ≠ 0

/-- The key of task digests of an epoch (R312, R352). -/
def taskDigKey (s : State) (epoch : Nat) : Nat := digKey s.jobSeed epoch

/-- The digest of bytes a task writes at byte offset `off` of its operand with ordinal `o`: word positions are
`off` / 4 + 2^40 × o (R352); bytes within a word enter at their place in it. -/
def digestAt (s : State) (epoch o off : Nat) (bs : List Byte) : Nat :=
  digBytes (s.taskDigKey epoch) (off + 4 * 2 ^ 40 * o) (List.replicate (off % 4) 0 ++ bs)

/-- A task's write entered into its digest. -/
def addDigest (s : State) (t : TaskId) (o off : Nat) (bs : List Byte) : State :=
  match s.task? t with
  | some x =>
    if s.digestOn && x.kind.digested then
      s.setTask t { x with digest := (x.digest + s.digestAt x.epoch o off bs) % digP }
    else s
  | none => s

/-- The address of a task's log record on die `d` (R353). -/
def logAddr (s : State) (d epoch g idx : Nat) : Nat :=
  s.getF AS_DLOG_BASE_BASE d 0 * 0x4000000 + (epoch % 2 * 16 + g) * 0x200000 + idx * 0x20

/-- The record of a primary task written to the log (R353). -/
def writeLog (s : State) (t : TaskId) (x : Task) (core : Nat) : State :=
  let w0 := 2 ^ 63 + x.digest
  let w1 := x.epoch * 2 ^ 32 + x.tensor
  let w2 := t.idx * 2 ^ 48 + t.g * 2 ^ 44 + t.d * 2 ^ 42 + core * 2 ^ 37
  let bs := toLe 8 w0 ++ toLe 8 w1 ++ toLe 8 w2 ++ toLe 8 s.time
  let s := s.writePlain (s.logAddr t.d x.epoch t.g t.idx) bs none 0 none
  let e := s.engine t.d
  let key := (x.epoch, t.g, t.idx)
  s.setEngine t.d { e with unmatched := (e.unmatched.filter fun k => k ≠ key) ++ [key] }

/-- The die a twin entry of die `d` has its primary on (R354). -/
def primaryOf (s : State) (d : Nat) : Nat := s.getF GE_RED_CFG_TWIN_OF d 0

/-- The primary record of a twin entry: its digest, and the core it names, where the record is VALID with equal EPOCH and
TENSOR (R355). -/
def primaryRecord (s : State) (d : Nat) (x : TwinEntry) : Option (Nat × Nat) :=
  let p := s.primaryOf d
  let a := s.logAddr p x.epoch x.g x.idx
  let w0 := s.readWord a
  let w1 := s.readWord (a + 8)
  if s.flag GE_RED_CFG_TWIN_VALID d 0 && s.flag AS_DLOG_BASE_VALID p 0 && w0.bit 63 && w1.bits 63 32 = x.epoch &&
      w1.bits 31 0 = x.tensor then some (w0.bits 60 0, (s.readWord (a + 16)).bits 41 37)
  else none

/-- A mismatch (R356): the record is the twin core's, its syndrome the two digests and the primary's die and core. -/
def digestMismatch (s : State) (d : Nat) (x : TwinEntry) (dig core : Nat) : State :=
  let p := s.primaryOf d
  let s := if s.flag AS_DUAL_LAST_VALID d 0 then s
    else
      let s := (((s.setF AS_DUAL_LAST_VALID d 0 1).setF AS_DUAL_LAST_G d 0 x.g).setF AS_DUAL_LAST_TASK d 0 x.idx).setF
        AS_DUAL_LAST_EPOCH d 0 x.epoch
      let s := (s.setF AS_DUAL_DIG_P_DIE d 0 p).setF AS_DUAL_DIG_P_DIGEST d 0 dig
      (s.setF AS_DUAL_DIG_T_DIE d 0 d).setF AS_DUAL_DIG_T_DIGEST d 0 x.digest
  let s := s.addF AS_DUAL_CNT_MISMATCH d 0 1
  let details := [x.digest, dig, p, core]
  let task := some (x.kind, x.g, x.idx)
  let s := match s.physOf d x.core with
    | some q => s.coreRecord 0x0C01 sevSuspect d q details x.epoch task
    | none => s.dieRecord 0x0C01 sevSuspect d 0 details x.epoch task
  s.failStep x.epoch 2 (some (p, s.here))

/-- A twin entry compared with its primary record (R355): matched, mismatched, or left pending. -/
def compareTwin (s : State) (d : Nat) (x : TwinEntry) : State :=
  match s.primaryRecord d x with
  | some (dig, core) =>
    if dig = x.digest then
      let s := s.addF AS_DUAL_CNT_CHECKS d 0 1
      let p := s.primaryOf d
      let e := s.engine p
      s.setEngine p { e with unmatched := e.unmatched.filter fun k => k ≠ (x.epoch, x.g, x.idx) }
    else s.digestMismatch d x dig core
  | none =>
    let e := s.engine d
    s.setEngine d { e with twins := e.twins ++ [x] }

/-- What the completion of a digested task does (R353, R355). -/
def digestDone (s : State) (t : TaskId) (x : Task) (core : Nat) : State :=
  if !(s.digestOn && x.kind.digested) then s
  else if s.twinSlot t.d t.g then
    s.compareTwin t.d { g := t.g, idx := t.idx, epoch := x.epoch, tensor := x.tensor, digest := x.digest, core := core,
                        kind := x.kindCode }
  else s.writeLog t x core

/-- The dies that hold twins of die `d`. -/
def twinDies (s : State) (d : Nat) : List Nat :=
  [0, 1, 2, 3].filter fun k => s.flag GE_RED_CFG_TWIN_VALID k 0 && decide (s.primaryOf k = d)

/-- PRIMARY_ANNOUNCE (R355): pending entries of the announced record compared again. -/
def primaryAnnounce (s : State) (d g idx e : Nat) : State :=
  (s.twinDies d).foldl (fun s k =>
    let x := s.engine k
    let hit := fun (y : TwinEntry) => decide (y.g = g ∧ y.idx = idx ∧ y.epoch = e)
    (x.twins.filter hit).foldl (fun s y => s.compareTwin k y)
      (s.setEngine k { x with twins := x.twins.filter fun y => !hit y })) s

end State

def execPrimaryAnnounce (d : Fin 4) (g : Fin 16) (task : BitVec 16) (e : BitVec 32) (s : State) :=
  commit s (s.primaryAnnounce d g task.toNat e.toNat)

end Sys2Proof.Machine
end

