-- ==== Sys2Proof/Machine/GraphEngine.lean ====
section
/-! DEFINITION. The graph engine: doorbells (R111, R112), validation of queued graphs (R113), queueing and dispatch (R126 to
R128), completion (R120), tokens (R121, R122), the quantum and yield points (R132, R133), in-field tests (R134 to R137,
R367, R368) and Forge holds (R137). -/

namespace Sys2Proof.Machine

/-- A task as records name it: kind, slot, index (R370). -/
def recTask (t : TaskId) (x : Task) : Option (Nat × Nat × Nat) := some (x.kindCode, t.g, t.idx)

namespace State

/-! ### Doorbells (R111, R112) -/

/-- A doorbell dropped, with a record naming the requester. -/
def dropDoorbell (s : State) (r : Requester) (d g : Nat) : State := s.dieRecord 0x0401 sevInfo d g [requesterCode r, g]

/-- SUBMIT: the slot goes to VALIDATING at once where no graph validates or waits, else to QUEUED. -/
def submit (s : State) (r : Requester) (d g start count : Nat) : State :=
  if !s.flag GE_CTRL_EN d 0 || s.slotState d g ≠ 0 then s.dropDoorbell r d g
  else
    let start := start % 65536
    let count := count % 131072
    let s := s.setGraph d g { start := start, count := count, clash := s.rangeClash d start count }
    let e := s.engine d
    if e.validating.isNone && e.submitted.isEmpty then
      (s.setEngine d { e with validating := some g }).setF GE_GRAPH_STATUS_STATE d g 2
    else (s.setEngine d { e with submitted := e.submitted ++ [g] }).setF GE_GRAPH_STATUS_STATE d g 1

/-- RETIRE: a slot that is DONE, REJECTED or CANCELLED returns to IDLE; a dropped doorbell changes none. -/
def retire (s : State) (r : Requester) (d g : Nat) : State :=
  if !s.flag GE_CTRL_EN d 0 || s.slotState d g < 4 then s.dropDoorbell r d g
  else (s.setGraph d g {}).putR ⟨.GE_GRAPH_STATUS, d, g⟩ 0

/-- A write of GE_DOORBELL (R112, R138). -/
def doorbell (s : State) (r : Requester) (d : Nat) (v : Word) : State :=
  match v.bits 63 62 with
  | 1 => s.submit r d (v.bits 51 48) (v.bits 15 0) (v.bits 32 16)
  | 2 => s.retire r d (v.bits 51 48)
  | _ => s.dropDoorbell r d (v.bits 51 48)

/-! ### Validation of queued graphs (R113) -/

/-- VALIDATION_START: the oldest queued graph, once no other validates. -/
def validationStart (s : State) (d : Nat) : State :=
  let e := s.engine d
  match e.validating, e.submitted with
  | none, g :: l => (s.setEngine d { e with validating := some g, submitted := l }).setF GE_GRAPH_STATUS_STATE d g 2
  | _, _ => s

/-- Ready tasks of a list of indices of a slot reported where nothing can take them (R129). -/
def checkReady (s : State) (d g : Nat) (l : List Nat) : State :=
  ((s.tasksOf d).filter fun t => decide (t.1.g = g) && l.contains t.1.idx && s.unplaceable d t).foldl
    (fun s t => s.reportUnplaced d t) s

/-- VALIDATION_END (R113, R125): RUNNING with every task loaded, or REJECTED with the first error. -/
def validationEnd (s : State) (d : Nat) : State :=
  let e := s.engine d
  match e.validating with
  | none => s
  | some g =>
    let err := s.graphError d g
    let s := s.setEngine d { e with validating := none }
    match err with
    | some (task, code) =>
      let s := ((s.setF GE_GRAPH_STATUS_STATE d g 5).setF GE_GRAPH_STATUS_ERR_CODE d g code).setF
        GE_GRAPH_STATUS_ERR_TASK d g task
      s.dieRecord 0x0402 sevInfo d g [g, code, task]
    | none =>
      let ts := (s.readGraph d g).map fun (t : Task) => { t with ext := [] }
      let s := s.setGraph d g { s.graph d g with tasks := ts }
      let s := (s.setF GE_GRAPH_STATUS_STATE d g 3).setF GE_GRAPH_STATUS_REMAINING d g ts.length
      s.checkReady d g (ts.map (·.idx))

end State

/-- Bytes of the row mask of a MATMUL (R169). -/
def Task.maskLength (x : Task) : Nat := ((if x.mmCoarse then (x.mmM + 31) / 32 else x.mmM) + 7) / 8

namespace State

/-! ### Queueing (R114, R126) -/

/-- The second reading: words 4 to 7, the operand extension and a row mask (R114, R169). -/
def reread (s : State) (d : Nat) (x : Task) : Task :=
  let w := (List.range 8).map fun i => if i < 4 then x.word i else s.readWord (s.descAddr d x.idx + 8 * i)
  let x := { x with w := w }
  let x := { x with ext := s.extOf d x }
  if x.kind = .matmul ∧ x.mmMask ≠ 0 then
    { x with mask := (List.range x.maskLength).map fun i => (s.readByte (x.mmMask + i), s.readBad (x.mmMask + i)) }
  else x

end State

/-- The bit of the row mask that governs a streamed row (R169). -/
def Task.maskBit (x : Task) (row : Nat) : Nat := if x.mmCoarse then row / 32 else row

/-- Is a streamed row masked? A bit from a poisoned granule masks nothing (R149). -/
def Task.masked (x : Task) (row : Nat) : Bool :=
  match x.mask[x.maskBit row / 8]? with
  | some (b, bad) => !bad && b.getLsbD (x.maskBit row % 8)
  | none => false

/-- Does the row's mask bit come from a poisoned granule (R149)? -/
def Task.maskPoisoned (x : Task) (row : Nat) : Bool := (x.mask[x.maskBit row / 8]?).any fun y => y.2

/-- Every row of a MATMUL is masked (R171). -/
def Task.allMasked (x : Task) : Bool := x.kind = .matmul && (List.range x.mmM).all x.masked

namespace State

/-- A task queued on physical core `p`: its second reading, and its place in the fetch order (R126, R142). -/
def queueTask (s : State) (t : TaskId) (x : Task) (p : Nat) : State :=
  let y := s.reread t.d x
  let c := s.coreAt t.d p
  (s.setTask t { y with status := .queued, core := some p }).setCoreAt t.d p { c with runAhead := c.runAhead ++ [t] }

/-- HORIZON in force: 0 taken as 1, above 16 as 16 (R159). -/
def horizon (s : State) (d p : Nat) : Nat := max 1 (min 16 (s.getF FE_CFG_HORIZON (d * 34 + p) 0))

/-- Tasks of a core queued and not dispatched. -/
def queuedOn (s : State) (d p : Nat) : List (TaskId × Task) :=
  (s.tasksOf d).filter fun t => decide (t.2.status = .queued) && decide (t.2.core = some p)

/-- The next core task of a tile chain whose previous task is queued or dispatched on core `p` (R126). -/
def chainNext (s : State) (d p : Nat) : Option (TaskId × Task) :=
  let all := s.tasksOf d
  all.find? fun t =>
    decide (t.2.status = .waiting) && t.2.kind.isCore && t.2.tileId.isSome && t.2.core.all (· = p) &&
    all.any fun u => decide (u.1.g = t.1.g) && decide (u.2.tileId = t.2.tileId) && u.2.succ.contains t.1.idx &&
      decide (u.2.core = some p) && decide (u.2.status = .queued ∨ u.2.status = .dispatched)

/-- Tasks of chains queued on a core while its horizon has room (R126). -/
def queueChain : Nat → Nat → Nat → State → State
  | 0, _, _, s => s
  | n + 1, d, p, s =>
    if s.horizon d p ≤ (s.queuedOn d p).length then s
    else match s.chainNext d p with
      | some t => queueChain n d p (s.queueTask t.1 t.2 p)
      | none => s

/-! ### Dispatch (R127) -/

/-- The unit of a core that a kind runs on (R116). -/
inductive CoreUnit where
  | array | port | vector | whole
  deriving DecidableEq, Repr

end State

/-- The dispatch slot of a core kind: one for the array, one for the accumulator port, one for the vector unit; a FUSED
chain and a TEST take the whole core (DEDUCED, assumption 42). -/
def Kind.coreUnit (k : Kind) : State.CoreUnit :=
  match k with
  | .matmul => .array
  | .drain | .spill | .resume => .port
  | .vector => .vector
  | _ => .whole

namespace State

/-- The dispatch slot a task needs on physical core `p` is free (R127, R151). -/
def slotFree (s : State) (d p : Nat) (k : Kind) : Bool :=
  let here := (s.dispatchedOf d).filter fun x => x.2.core = some p
  if k.coreUnit = .whole then here.isEmpty && (k ≠ .test || s.arrayIdle d p)
  else here.all fun x => x.2.kind.coreUnit ≠ k.coreUnit && x.2.kind.coreUnit ≠ .whole

/-- May the engine dispatch at all: not halted, or the one task of a STEP (R427)? -/
def mayDispatch (s : State) (d : Nat) : Bool :=
  !s.flag DBG_GE_CTRL_HALT 0 d || ((s.engine d).stepping && (s.dispatchedOf d).isEmpty)

/-- May logical core `c` take a ready core task now (R127)? A TEST waits only for the core to be free (R136). -/
def canTake (s : State) (d c : Nat) (t : TaskId × Task) : Bool :=
  t.2.kind.isCore && s.ready t && !s.heldBack t &&
  (match s.physOf d c with
    | some p =>
      s.slotFree d p t.2.kind &&
      (if t.2.kind = .test then t.2.elig.testBit c && !s.widthless d p && (s.schedOf d c).running.isNone
       else s.eligible d c t)
    | none => false)

/-- What the cores take in one cycle, lowest logical index first (R127): core `c` takes the first task in the order that no
lower core takes. -/
def picks (s : State) (d : Nat) : List (Nat × (TaskId × Task)) :=
  (List.range 32).foldl (fun l c =>
    match firstTask ((s.tasksOf d).filter fun t => s.canTake d c t && !(l.any fun y => y.2.1 = t.1)) with
    | some t => l ++ [(c, t)]
    | none => l) []

/-- What keeps engine tasks apart: each channel, moves, programs, and the graph engine's own kinds. -/
def engineLane (t : Task) : Nat :=
  match t.channel with
  | some c => c
  | none => if t.kind = .copy then (if t.cpProgram then 17 else 16) else 18

/-- The engine task is the next of its engine (R127). -/
def nextEngine (s : State) (t : TaskId) : Bool :=
  match s.task? t with
  | none => false
  | some x =>
    let l := (s.tasksOf t.d).filter fun y => !y.2.kind.isCore && s.ready y && !s.heldBack y && engineLane y.2 = engineLane x
    (firstTask l).any fun y => y.1 = t

/-- Tiles bound to core `p`: their entries have no defined content until they are written (R89). -/
def bindAll (s : State) (d p : Nat) (l : List Bound) : State :=
  let c := s.coreAt d p
  let covers := fun (e : Nat) => l.any fun b => decide (b.base * 1024 ≤ e ∧ e < (b.base + b.units) * 1024)
  ({ s with fresh := s.fresh + 1 } : State).setCoreAt d p { c with
    tiles := c.tiles ++ l, acc := c.acc.filter fun e => !covers e.1, accSeed := s.fresh }

/-- The tile of a task bound to core `p`, if it is not bound yet (R89). -/
def bindTile (s : State) (t : TaskId) (x : Task) (p : Nat) : State :=
  match x.tileOf with
  | some b =>
    if (s.boundCore t.d t.g b.tile).isSome then s
    else s.bindAll t.d p [{ b with g := t.g }]
  | none => s

/-- A task that starts (R128): its leave is in hand. -/
def startTask (s : State) (t : TaskId) : State :=
  match s.task? t with
  | some x => s.setTask t { x with started := true, startedAt := s.time }
  | none => s

/-- Leave at dispatch (R128, R387): none for class 0 and for a MATMUL with every row masked (R171); a core starts its task at
once on tokens it keeps, else asks for the difference. Core 34 stands for an engine. -/
def askLeave (s : State) (t : TaskId) (x : Task) : State :=
  let n := s.tokensOf t.d x.leave
  let p := x.core.getD 34
  let kept := if p < 34 then (s.coreAt t.d p).held - (s.inUse t.d p - n) else 0
  if x.leave = 0 ∨ x.allMasked ∨ n ≤ kept then s.startTask t
  else
    let e := s.engine t.d
    s.setEngine t.d { e with waitq := e.waitq ++ [⟨t, n - kept, x.priority, x.crit, s.time, p⟩] }

/-- What every dispatch does: the step it opens (R83, R318, R358), the channels it takes, its leave. -/
def dispatchTask (s : State) (t : TaskId) (x : Task) : State :=
  let s := s.setTask t { x with status := .dispatched, dispatchedAt := s.time }
  let e := s.engine t.d
  let s := s.setEngine t.d { e with top := max e.top (x.epoch + 1) }
  let s := (s.retractOver x.epoch).openStep x.epoch
  let s := (s.channelsOf t.d x).foldl (fun s c => s.takeChannel t c) s
  s.askLeave t x

/-- A chain takes its core (R151, R153): full credits, its tile rings, its stage counters cleared (R159). -/
def openChain (s : State) (t : TaskId) (x : Task) (p : Nat) : State :=
  if x.kind = .fused then
    let c := s.coreAt t.d p
    let stages := (List.range x.fuStages).map fun j => ({ done := x.item, credits := stQDepth (x.fuStage j) } : StageRt)
    let s := (s.setCoreAt t.d p { c with chain := some { task := t, items := x.fuItems, stages := stages } }).bindAll t.d p
      (s.ringsOf t.d t.g x)
    (List.range 8).foldl (fun s j => (s.putR ⟨.FE_STG_FULL, t.d * 34 + p, j⟩ 0).putR ⟨.FE_STG_EMPTY, t.d * 34 + p, j⟩ 0) s
  else s

/-- The RESUMEs whose source is the SPILL that core `p` takes are eligible only there (R98). -/
def tieResumes (s : State) (t : TaskId) (x : Task) (p : Nat) : State :=
  if x.kind = .spill then
    let ts := (s.graph t.d t.g).tasks
    (ts.filter fun r => r.kind = .resume && ((resumeSource ts r).any fun y => y.idx = t.idx)).foldl
      (fun s r => s.setTask ⟨t.d, t.g, r.idx⟩ { r with core := some p }) s
  else s

/-- The port's queue of tasks in dispatch order (R95, R99). -/
def joinPort (s : State) (t : TaskId) (x : Task) (p : Nat) : State :=
  if x.kind.coreUnit = .port then
    let c := s.coreAt t.d p
    s.setCoreAt t.d p { c with port := c.port ++ [t] }
  else s

/-- A task dispatched to logical core `c`, physical core `p`. -/
def dispatchCore (s : State) (d c p : Nat) (t : TaskId × Task) : State :=
  let s := if t.2.status = .queued then s else s.queueTask t.1 t.2 p
  match s.task? t.1 with
  | none => s
  | some x =>
    let s := (s.bindTile t.1 x p).tieResumes t.1 x p
    let y := s.schedOf d c
    let s := s.setSched d c { y with topEpoch := max y.topEpoch x.epoch }
    let s := ((s.joinPort t.1 x p).openChain t.1 x p).dispatchTask t.1 x
    queueChain 16 d p s

/-- The engine halts before the task BREAK_EN names (R427), except for a STEP. -/
def breaksAt (s : State) (t : TaskId) : Bool :=
  s.flag DBG_GE_CTRL_BREAK_EN 0 t.d && decide (s.getF DBG_GE_CTRL_G 0 t.d = t.g) &&
  decide (s.getF DBG_GE_CTRL_TASK 0 t.d = t.idx) && !(s.engine t.d).stepping

/-- TASK_DISPATCH to a core. -/
def dispatchTo (s : State) (d c : Nat) : State :=
  if !s.mayDispatch d then s
  else match (s.picks d).find? fun x => x.1 = c, s.physOf d c with
    | some x, some p =>
      if s.breaksAt x.2.1 then (s.setF DBG_GE_CTRL_HALT 0 d 1).checkHalted d else s.dispatchCore d c p x.2
    | _, _ => s

/-- TASK_DISPATCH of an engine task. -/
def dispatchEngine (s : State) (t : TaskId) : State :=
  if !s.mayDispatch t.d || !s.nextEngine t then s
  else if s.breaksAt t then (s.setF DBG_GE_CTRL_HALT 0 t.d 1).checkHalted t.d
  else match s.task? t with
    | some x => s.dispatchTask t (s.reread t.d x)
    | none => s

/-! ### Completion (R116, R120) -/

/-- One successor entry's decrement (R120). -/
def decrement (t : TaskId) (s : State) (i : Nat) : State :=
  match s.task? ⟨t.d, t.g, i⟩ with
  | some x => s.setTask ⟨t.d, t.g, i⟩ { x with pred := x.pred - 1 }
  | none => s

/-- The tokens of a task that ends (R387): kept by its core, from now for HOLD_US; given up by an engine, or by a core that
is held. -/
def endLeave (s : State) (t : TaskId) (x : Task) : State :=
  match x.core with
  | some p =>
    let held := match s.logicalOf t.d p with
      | some c => s.testHeld t.d c || s.forgeHeld t.d c
      | none => false
    if held then s.releaseKept t.d p else s
  | none => if s.flag THM_STATUS_QUENCHED t.d 0 || x.allMasked then s else s.releaseTokens t.d (s.tokensOf t.d x.leave)

/-- What a completed task leaves behind on its core: its fetches and reservation (R141), the port, the chain, and its tile
where it carries RELEASE (R89). -/
def leaveCore (s : State) (t : TaskId) (x : Task) : State :=
  match x.core with
  | none => s
  | some p =>
    let c := s.coreAt t.d p
    let s := s.setCoreAt t.d p { c with
      runAhead := c.runAhead.filter fun u => u ≠ t
      resv := c.resv.filter fun r => r.task ≠ t
      portGo := c.portGo && !(decide (c.port.head? = some t))
      port := c.port.filter fun u => u ≠ t
      chain := if c.chain.any (fun (y : Chain) => y.task = t) then none else c.chain }
    if x.kind = .fused then s.releaseRings t.d p t.g
    else if (x.kind = .drain ∨ x.kind = .spill) ∧ x.drRelease then s.releaseTile t.d p t.g x.drTile else s

/-- The channels of a completed task freed with its contexts (R290). -/
def leaveChannels (s : State) (t : TaskId) (x : Task) : State :=
  match s.channelsOf t.d x with
  | [] => s
  | l => l.foldl (fun s c => if (s.chan t.d c).task = some t then s.freeChannel t.d c else s) (s.dropContexts t)

/-- The core or engine a latency sample names (R422): the logical core, or the channel. -/
def latencyUnit (s : State) (t : TaskId) (x : Task) : Nat :=
  match x.core with
  | some p => ((s.logicalOf t.d p).getD 0) % 64
  | none => (x.channel.getD 0) % 64

/-- A stopped task counts as cancelled, and its successors with it (R130). -/
def stopWithSuccessors (s : State) (t : TaskId) (x : Task) : State :=
  let s := s.stopTask t { x with stopAtYield := false }
  let s := cancelFrom (s.cancelFuel t.d + x.succ.length) (x.succ.map fun i => ⟨t.d, t.g, i⟩) s
  (s.endGraphs t.d).checkHalted t.d

/-- The end of a STEP (R427). -/
def stepOver (s : State) (d : Nat) : State :=
  let e := s.engine d
  (s.setEngine d { e with stepping := false }).checkHalted d

/-- TASK_COMPLETE: the work is done and every write acknowledged. -/
def taskComplete (s : State) (t : TaskId) : State :=
  match s.task? t with
  | none => s
  | some x =>
    if x.status ≠ .dispatched ∨ !x.started ∨ !x.fin ∨ s.writeWaits t then s
    else if x.stopAtYield then (s.stopWithSuccessors t x).stepOver t.d
    else
      let core := match x.core with
        | some p => (s.logicalOf t.d p).getD 0
        | none => 0
      let s := s.digestDone t x core
      let s := s.setTask t { x with status := .completed }
      let s := ((s.leaveCore t x).leaveChannels t x).endLeave t x
      let s := s.offer t.d 0x01 (x.kindCode * 4096 + s.latencyUnit t x) ((s.time - x.dispatchedAt : Nat) : Int) x.dispatchedAt
      let s := x.succ.foldl (decrement t) s
      let s := s.checkReady t.d t.g (x.succ.filter fun i => (s.task? ⟨t.d, t.g, i⟩).any fun y => y.pred = 0)
      let s := match x.core with
        | some p => queueChain 16 t.d p s
        | none => s
      (s.endGraphs t.d).stepOver t.d

/-! ### Tokens (R121 to R123) -/

/-- The WAITs that run on a token, in slot and index order. -/
def waitsOn (s : State) (d token : Nat) : List (TaskId × Task) :=
  (s.dispatchedOf d).filter fun t => decide (t.2.kind = .wait) && t.2.started && !t.2.fin && decide (t.2.waToken = token)

/-- One WAIT looked at: satisfied when count − THRESHOLD, as a signed 32-bit difference, is zero or more. -/
def serveWait (s : State) (t : TaskId × Task) : State :=
  let n := s.getF GE_TOKEN_COUNT t.1.d t.2.waToken
  let diff := (BitVec.ofNat 32 n - BitVec.ofNat 32 t.2.waThreshold)
  if diff.toInt < 0 then s
  else
    let s := s.setTask t.1 { t.2 with fin := true }
    if t.2.waConsume then s.setF GE_TOKEN_COUNT t.1.d t.2.waToken diff.toNat else s

/-- The WAITs of a token looked at in slot and index order. -/
def serveWaits (s : State) (d token : Nat) : State := (s.waitsOn d token).foldl serveWait s

/-- TOKEN_INCREMENT: an increment arrives at a token of the runtime's (R121, R123). -/
def tokenIncrement (s : State) (d token inc : Nat) : State :=
  if 4032 ≤ token then s
  else (s.setF GE_TOKEN_COUNT d token (s.getF GE_TOKEN_COUNT d token + inc)).serveWaits d token

/-- A dispatched task of a kind that has started and whose work is not yet done. -/
def running? (s : State) (t : TaskId) (k : Kind) : Option Task :=
  (s.task? t).filter fun x => decide (x.status = .dispatched) && x.started && !x.fin && decide (x.kind = k)

/-- A task's work done. -/
def finish (s : State) (t : TaskId) : State :=
  match s.task? t with
  | some x => s.setTask t { x with fin := true }
  | none => s

/-- SIGNAL (R122): its increment is sent, over the die ring or on VL1; with no route left, a record names the target. The
die ring delivers at once, and coordinates that are this module's own are served in the module (DESIGN CHOICE,
assumption 43). -/
def signal (s : State) (t : TaskId) : State :=
  match s.running? t .signal with
  | none => s
  | some x =>
    let dst := x.sgX * 65536 + x.sgY * 256 + x.sgZ
    let s := s.finish t
    if x.sgLocal || (s.placed && dst = s.here) then s.tokenIncrement x.sgDie x.sgToken x.sgInc
    else if s.reachable dst then
      s.send (s.frameTo dst x.sgDie 1 t.d x.epoch 0x20 0 (Config.signalTag x.sgToken x.sgInc) [])
    else s.dieRecord 0x0406 sevDegraded t.d 0 [dst, x.sgDie, x.sgToken] x.epoch (recTask t x)

/-- WAIT (R121): the token it names is looked at. -/
def wait (s : State) (t : TaskId) : State :=
  match s.running? t .wait with
  | some x => s.serveWaits t.d x.waToken
  | none => s

/-- FENCE (R116): the buffers of the stacks in its mask hold nothing more. -/
def fence (s : State) (t : TaskId) : State :=
  match s.running? t .fence with
  | some x => (((List.range 12).filter x.feMask.testBit).foldl (fun s ms => s.flushStack ms) s).finish t
  | none => s

/-! ### The quantum and yield points (R132, R133) -/

/-- QUANTUM_OVERRUN: one record for a task that runs past its quantum. -/
def quantumOverrun (s : State) (t : TaskId) : State :=
  match s.task? t with
  | some x =>
    if x.status = .dispatched ∧ x.started ∧ !x.overrun ∧ x.kind.isCore then
      (s.setTask t { x with overrun := true }).dieRecord 0x0404 sevInfo t.d 0 [t.g, t.idx] x.epoch (recTask t x)
    else s
  | none => s

/-- Its core has asked for preemption (R135). -/
def preempted (s : State) (t : TaskId) (x : Task) : Bool :=
  match x.core.bind fun p => s.logicalOf t.d p with
  | some c => (s.schedOf t.d c).hold && (s.schedOf t.d c).preempt
  | none => false

/-- A chain at a yield point (R156): stage 0 stands before an item that is a multiple of 2^YIELD_LOG2. -/
def chainAtYield (x : Task) (y : Chain) : Bool := (y.stages.head?.any fun z => z.done % 2 ^ x.fuYieldLog2 = 0)

/-- Every item begun has gone through every stage. -/
def Chain.drained (y : Chain) : Bool := y.stages.all fun z => y.stages.head?.all fun h => h.done = z.done

/-- A task stops for a test (R133, R387): its tokens go, and it waits for the same core. -/
def yieldTask (s : State) (t : TaskId) (x : Task) : State :=
  let s := s.dropLeave t x
  match x.core with
  | some p =>
    let s := s.dropFetch t.d p t
    let c := s.coreAt t.d p
    let item := match c.chain with
      | some y => (y.stages.head?.map (·.done)).getD 0
      | none => x.item
    let s := s.setCoreAt t.d p { c with chain := if c.chain.any (fun (y : Chain) => y.task = t) then none else c.chain }
    let s := s.releaseRings t.d p t.g
    let s := (s.channelsOf t.d x).foldl (fun s k => if (s.chan t.d k).task = some t then s.freeChannel t.d k else s) s
    (s.setTask t { x with status := .waiting, started := false, item := item }).checkHalted t.d
  | none => s

/-- YIELD_POINT: the task stops where its region is being cancelled or a test preempts it, else runs on. A chain stops once
the items in flight are through. -/
def yieldPoint (s : State) (t : TaskId) : State :=
  match s.task? t with
  | none => s
  | some x =>
    if x.status ≠ .dispatched ∨ !x.started ∨ x.fin ∨ !x.yields ∨ !(x.stopAtYield || s.preempted t x) then s
    else
      let stop := fun (s : State) => if x.stopAtYield then s.stopWithSuccessors t x else s.yieldTask t x
      match x.core.bind fun p => (s.coreAt t.d p).chain.map fun y => (p, y) with
      | some (p, y) =>
        if !(chainAtYield x y) && !y.draining then s
        else if Chain.drained y then stop s
        else s.setCoreAt t.d p { s.coreAt t.d p with chain := some { y with draining := true } }
      | none => stop s

/-! ### In-field tests (R134 to R137, R367, R368) -/

/-- A structural test holds or runs on some core of the die. -/
def structuralBusy (s : State) (d : Nat) : Bool :=
  (s.engine d).sched.any fun e =>
    decide (e.2.running = some .structural) || (e.2.hold && decide (e.2.due = some .structural))

/-- A core held for a test gives up the tokens it keeps (R387). -/
def holdForTest (s : State) (d c : Nat) (x : Sched) : State :=
  let s := s.setSched d c { x with hold := true }
  match s.physOf d c with
  | some p => s.releaseKept d p
  | none => s

/-- TEST_DUE (R134, R135): a structural test holds its core, one core of a die at a time; a known-answer check first waits
for an idle gap. While a test is due or runs on the core, another falls due only after it (DESIGN CHOICE, assumption
44). -/
def testDue (s : State) (d c : Nat) (k : TestKind) : State :=
  let x := s.schedOf d c
  if !s.flag GE_CTRL_TEST_EN d 0 || x.due.isSome || x.running.isSome || s.coreStateOf d c = 3 then s
  else
    let busy := s.structuralBusy d
    let y := { x with due := some k }
    if k = .structural ∧ !busy then s.holdForTest d c y else s.setSched d c y

/-- KA_GAP_EXPIRY (R134): no idle gap came, and the check is taken as R135 has it. -/
def kaGapExpiry (s : State) (d c : Nat) : State :=
  let x := s.schedOf d c
  if x.due = some .knownAnswer ∧ !x.hold ∧ x.running = none then s.holdForTest d c x else s

/-- GRACE_EXPIRY (R135): preemption of the running task is requested; for a test that still waits to hold its core, from
the moment it does. -/
def graceExpiry (s : State) (d c : Nat) : State :=
  let x := s.schedOf d c
  if x.due.isSome ∧ x.running = none then s.setSched d c { x with preempt := true } else s

/-- An idle gap (R134): no task dispatched, none queued and ready, none ready that the core could take. -/
def idleGap (s : State) (d c : Nat) : Bool :=
  match s.physOf d c with
  | some p =>
    (s.coreTask d p).isNone &&
    !(s.tasksOf d).any fun t => s.ready t && t.2.kind.isCore &&
      ((decide (t.2.status = .queued) && decide (t.2.core = some p)) || s.eligible d c t)
  | none => false

/-- A test begins on a core. -/
def beginTest (s : State) (d c p : Nat) (k : TestKind) (byTask : Option TaskId) : State :=
  let x := s.schedOf d c
  let s := s.setSched d c { x with
    due := if byTask.isSome then x.due else none
    hold := byTask.isNone || x.hold, running := some k, preempt := false, startEpoch := x.topEpoch, byTask := byTask }
  if k = .knownAnswer then s.setF CORE_ARRAY_STATUS_KA_BUSY (d * 34 + p) 0 1 else s

/-- TEST_START (R134, R135): the held core, or a due check's core in an idle gap, is idle, and the engine is not halted
(R427). -/
def testStart (s : State) (d c : Nat) : State :=
  let x := s.schedOf d c
  match x.due, s.physOf d c with
  | some k, some p =>
    if x.running.isNone && !x.failedHold && s.arrayIdle d p && !s.flag DBG_GE_CTRL_HALT 0 d && !s.widthless d p &&
        (x.hold || (k = .knownAnswer && s.idleGap d c)) then s.beginTest d c p k none
    else s
  | _, _ => s

/-- The die's next core that waits for a structural test is held for it (R135). -/
def nextStructural (s : State) (d : Nat) : State :=
  if s.structuralBusy d then s
  else match (List.range 32).find? fun c =>
      decide ((s.schedOf d c).due = some .structural) && !(s.schedOf d c).hold with
    | some c => s.holdForTest d c (s.schedOf d c)
    | none => s

/-- The due time of a test of a core reset (R134, R136). -/
def nextDue (s : State) (d c : Nat) (k : TestKind) : State :=
  match k with
  | .knownAnswer =>
    s.setSched d c { s.schedOf d c with kaDue := s.time + s.getF GE_TEST_CFG_KA_S d 0 * 1000000000 }
  | .structural =>
    s.putR ⟨.GE_TEST_DUE, d, c⟩ (BitVec.ofNat 64 (s.time + s.getF GE_TEST_CFG_STRUCT_MIN d 0 * 60000000000))

/-- A pass (R136, R368): the epoch vouched for, the next due time, the core returned. -/
def testPassed (s : State) (d c : Nat) (k : TestKind) : State :=
  let x := s.schedOf d c
  let s := match k with
    | .knownAnswer => s.setF GE_TEST_LAST_KA_EPOCH d c x.startEpoch
    | .structural => s.setF GE_TEST_LAST_ST_EPOCH d c x.startEpoch
  let s := s.nextDue d c k
  let x := s.schedOf d c
  let due := if x.due = some k then none else x.due
  let s := s.setSched d c { x with
    running := none, due := due, hold := x.hold && due.isSome, byTask := none, preempt := x.preempt && due.isSome }
  s.nextStructural d

/-- FAIL for every step not SEALED and not yet answered GOOD, naming this module and the core's die (R368). -/
def failOpenSteps (s : State) (d : Nat) : State :=
  (s.sealer.steps.filter fun v => !v.sentGood && !v.failed).foldl (fun s v => s.failStep v.epoch 2 (some (d, s.here))) s

/-- A failure (R136, R368): records, the in-field-test trigger, FAIL verdicts; the core stays held. A TEST task resets the
due time whatever it finds. -/
def testFailed (s : State) (d c p : Nat) (k : TestKind) (o : TestOutcome) : State :=
  let last := s.getR ⟨.GE_TEST_LAST, d, c⟩
  let x := s.schedOf d c
  let s := if x.byTask.isSome then s.nextDue d c k else s
  let s := s.setSched d c { s.schedOf d c with
    running := none, due := if x.due = some k then none else x.due, hold := false, failedHold := true, byTask := none
    preempt := false }
  let task := x.byTask.bind fun t => (s.task? t).map fun y => (t, y)
  let epoch := (task.map fun t => t.2.epoch).getD 0
  let named := task.bind fun t => recTask t.1 t.2
  let s := match k with
    | .knownAnswer => s.coreRecord 0x0C05 sevSuspect d p [o.failLo.toNat, o.failHi.toNat, last.bits 63 32] epoch named
    | .structural =>
      s.coreRecord 0x0C06 sevSuspect d p [o.domains.toNat, o.signature.toNat, last.bits 63 32, last.bits 31 0] epoch named
  ((s.latchTrigger HIC_TRIG_STATUS_TEST [d, p]).failOpenSteps d).nextStructural d

/-- What a known-answer check leaves in the core's registers (R49, R367). -/
def kaResult (s : State) (d p : Nat) (o : TestOutcome) : State :=
  let k := d * 34 + p
  let s := s.setF CORE_ARRAY_STATUS_KA_BUSY k 0 0
  let s := s.putR ⟨.CORE_ARRAY_KAFAIL_LO, k, 0⟩ (s.getR ⟨.CORE_ARRAY_KAFAIL_LO, k, 0⟩ ||| o.failLo)
  let s := s.putR ⟨.CORE_ARRAY_KAFAIL_HI, k, 0⟩ (s.getR ⟨.CORE_ARRAY_KAFAIL_HI, k, 0⟩ ||| o.failHi)
  if o.rowFault then s.setF CORE_ARRAY_STATUS_ROW_FAULT k 0 1 else s

/-- The tiles of an array after a test: none is kept for a later task (R37), and none is active after a structural test
(R367). -/
def tilesTested (s : State) (d p : Nat) (k : TestKind) : State :=
  let c := s.coreAt d p
  s.setCoreAt d p { c with
    active := if k = .structural then {} else { c.active with tested := c.active.valid }
    shadow := { c.shadow with tested := c.shadow.valid } }

/-- Did the test find anything wrong? -/
def outcomeBad (k : TestKind) (o : TestOutcome) : Bool :=
  match k with
  | .knownAnswer => o.failLo != 0 || o.failHi != 0 || o.rowFault
  | .structural => o.domains != 0

/-- TEST_END: of the test that runs on the core, or of a pass that KA_START began (R52), whose failure is reported as the
check's own (DEDUCED, assumption 45). -/
def testEnd (s : State) (d p : Nat) (o : TestOutcome) : State :=
  match s.logicalOf d p with
  | none =>
    if s.flag CORE_ARRAY_STATUS_KA_BUSY (d * 34 + p) 0 then (s.kaResult d p o).tilesTested d p .knownAnswer else s
  | some c =>
    let x := s.schedOf d c
    match x.running with
    | some k =>
      let s := (if k = .knownAnswer then s.kaResult d p o else s).tilesTested d p k
      let s := match x.byTask with
        | some t => s.finish t
        | none => s
      if outcomeBad k o then s.testFailed d c p k o else s.testPassed d c k
    | none =>
      if s.flag CORE_ARRAY_STATUS_KA_BUSY (d * 34 + p) 0 then
        let s := (s.kaResult d p o).tilesTested d p .knownAnswer
        if outcomeBad .knownAnswer o then s.testFailed d c p .knownAnswer o
        else s.setF GE_TEST_LAST_KA_EPOCH d c x.topEpoch
      else s

/-- CORE_HOLD (R137): holds set; a held core gives up the tokens it keeps. -/
def coreHold (s : State) (d mask : Nat) : State :=
  let s := s.setF GE_CORE_HOLD_HOLD d 0 (s.getF GE_CORE_HOLD_HOLD d 0 ||| mask)
  ((List.range 32).filter mask.testBit).foldl (fun s c =>
    match s.physOf d c with
    | some p => s.releaseKept d p
    | none => s) s

/-- CORE_RELEASE (R137): Forge holds end, and the test holds that failures left (R136). -/
def coreRelease (s : State) (d mask : Nat) : State :=
  let h := s.getF GE_CORE_HOLD_HOLD d 0
  let s := s.setF GE_CORE_HOLD_HOLD d 0 (h - (h &&& mask))
  ((List.range 32).filter mask.testBit).foldl (fun s c =>
    let x := s.schedOf d c
    s.setSched d c { x with failedHold := false }) s

/-- A TEST task of a type (R136): begun on its free core, or, on a retired core, ended at once with a FAILED record. -/
def testTask (s : State) (t : TaskId) (k : TestKind) : State :=
  match s.task? t with
  | none => s
  | some x =>
    if x.kind ≠ .test ∨ x.teStructural ≠ decide (k = .structural) then s
    else match (List.range 32).find? x.elig.testBit with
      | none => s
      | some c =>
        match s.physOf t.d c with
        | some p =>
          if s.widthless t.d p then
            if s.ready (t, x) then
              (s.setTask t { x with status := .dispatched, started := true, fin := true, dispatchedAt := s.time }).coreRecord
                0x0C07 sevFailed t.d p [t.g, t.idx] x.epoch (recTask t x)
            else s
          else if x.status = .dispatched ∧ x.started ∧ !x.fin ∧ (s.schedOf t.d c).running = none then
            s.beginTest t.d c p k (some t)
          else s
        | none => s

end State

/-! ### The commands -/

def execSubmit (r : Requester) (d : Fin 4) (g : Fin 16) (start count : Nat) (s : State) :=
  commit s (s.atReg r (dieReg d 0x10) (s.submit r d g start count))
def execRetire (r : Requester) (d : Fin 4) (g : Fin 16) (s : State) :=
  commit s (s.atReg r (dieReg d 0x10) (s.retire r d g))
def execValidationStart (d : Fin 4) (s : State) := commit s (s.validationStart d)
def execValidationEnd (d : Fin 4) (s : State) := commit s (s.validationEnd d)
def execTaskDispatch (d : Fin 4) (u : DispatchUnit) (s : State) :=
  commit s (match u with
    | .core c => s.dispatchTo d c
    | .engine t => if t.d = d.val then s.dispatchEngine t else s)
def execTaskComplete (t : TaskId) (s : State) := commit s (s.taskComplete t)
def execQuantumOverrun (t : TaskId) (s : State) := commit s (s.quantumOverrun t)
def execYieldPoint (t : TaskId) (s : State) := commit s (s.yieldPoint t)
def execTestDue (d : Fin 4) (c : Fin 32) (k : TestKind) (s : State) := commit s (s.testDue d c k)
def execKaGapExpiry (d : Fin 4) (c : Fin 32) (s : State) := commit s (s.kaGapExpiry d c)
def execGraceExpiry (d : Fin 4) (c : Fin 32) (s : State) := commit s (s.graceExpiry d c)
def execTestStart (d : Fin 4) (c : Fin 32) (s : State) := commit s (s.testStart d c)
def execTestEnd (d : Fin 4) (c : Fin 34) (o : TestOutcome) (s : State) := commit s (s.testEnd d c o)
def execCoreHold (r : Requester) (d : Fin 4) (mask : BitVec 32) (s : State) :=
  commit s (s.atReg r (dieReg d 0x28) (s.coreHold d mask.toNat))
def execCoreRelease (r : Requester) (d : Fin 4) (mask : BitVec 32) (s : State) :=
  commit s (s.atReg r (dieReg d 0x30) (s.coreRelease d mask.toNat))
def execSignal (t : TaskId) (s : State) := commit s (s.signal t)
def execTokenIncrement (d : Fin 4) (token : Fin 4096) (inc : BitVec 16) (s : State) :=
  commit s (s.tokenIncrement d token inc.toNat)
def execWait (t : TaskId) (s : State) := commit s (s.wait t)
def execFence (t : TaskId) (s : State) := commit s (s.fence t)
def execTestKnownAnswer (t : TaskId) (s : State) := commit s (s.testTask t .knownAnswer)
def execTestStructural (t : TaskId) (s : State) := commit s (s.testTask t .structural)

end Sys2Proof.Machine
end

