-- ==== Sys2Proof/Machine/Link.lean ====
section
/-! DEFINITION. The receiving side of a link: retry (R265, R266), lost links (R267), delivery and forwarding (R263, R271,
R275, R276), hallmarks and discovery (R277 to R283), and the commands that bring a frame. -/

namespace Sys2Proof.Machine

/-! ### Hallmarks (R277) -/

/-- Two's complement bytes. -/
def toLeInt (n : Nat) (i : Int) : List Byte := toLe n (i % (2 ^ (8 * n) : Nat)).toNat

/-- A signed 16-bit number of a payload. -/
def intAt (l : List Byte) (off : Nat) : Int := (BitVec.ofNat 16 (leAt l off 2)).toInt

/-- Bytes 0 to 145 of a hallmark. -/
def Hallmark.bytes (h : Hallmark) : List Byte :=
  toLe 8 h.identity ++ toLe 1 h.feed ++ toLe 1 h.port ++ toLe 4 h.gen ++ toLe 1 h.phase ++
  toLe 1 ((if h.pinned then 1 else 0) + (if h.fault then 2 else 0)) ++ toLe 8 h.candidate ++
  (h.at_.flatMap fun x => toLeInt 2 x) ++ toLe 2 h.hops ++
  ((List.range 3).flatMap fun a => toLe 1 (h.len.getD a 1 - 1) ++ toLe 1 (if h.closed.getD a false then 1 else 0)) ++
  ((List.range 3).flatMap fun a => toLeInt 2 (h.lo.getD a 0) ++ toLeInt 2 (h.hi.getD a 0)) ++
  (h.links.flatMap fun x => toLe 1 x.1 ++ toLe 8 x.2.1 ++ toLe 1 x.2.2.1 ++ toLe 1 x.2.2.2 ++ List.replicate 5 0)

/-- A hallmark's content from its payload. -/
def Hallmark.ofBytes (l : List Byte) : Hallmark where
  identity := leAt l 0 8
  feed := leAt l 8 1
  port := leAt l 9 1
  gen := leAt l 10 4
  phase := leAt l 14 1
  pinned := leAt l 15 1 % 2 = 1
  fault := leAt l 15 1 / 2 % 2 = 1
  candidate := leAt l 16 8
  at_ := (List.range 3).map fun a => intAt l (24 + 2 * a)
  hops := leAt l 30 2
  len := (List.range 3).map fun a => leAt l (32 + 2 * a) 1 + 1
  closed := (List.range 3).map fun a => leAt l (33 + 2 * a) 1 % 2 = 1
  lo := (List.range 3).map fun a => intAt l (38 + 4 * a)
  hi := (List.range 3).map fun a => intAt l (40 + 4 * a)
  links := (List.range 6).map fun p =>
    (leAt l (50 + 16 * p) 1, leAt l (51 + 16 * p) 8, leAt l (59 + 16 * p) 1, leAt l (60 + 16 * p) 1)

/-- The hop count of a module that has no claim yet: the layout gives no other mark (DESIGN CHOICE, assumption 51). -/
def noClaim : Nat := 0xFFFF

namespace State

def linkState (s : State) (p : Nat) : Nat := s.getF PORT_IL_STATUS_STATE p 0

/-- A link that carries VL3 to a neighbour whose hallmark has verified. -/
def verified (s : State) (p : Nat) : Bool := s.linkState p = 3 || s.linkState p = 4

/-- This module's identity. -/
def identity (s : State) : Nat := s.getF PORT_MOD_ID_ID 0 0

/-- The hallmark of port `p` as the state stands. -/
def hallmarkOf (s : State) (p : Nat) : Hallmark where
  identity := s.identity
  feed := s.getF PWR_PINS_FEED_ID 0 0
  port := p
  gen := s.getF PORT_MOD_DISC_GEN 0 0
  phase := if s.getF PORT_MOD_DISC_PHASE 0 0 = 0 then 1 else s.getF PORT_MOD_DISC_PHASE 0 0
  pinned := s.disc.pinned
  fault := s.disc.fault
  candidate := s.disc.candidate
  at_ := s.disc.at_
  hops := match s.disc.claim with | some c => c.1 | none => noClaim
  len := s.disc.len
  closed := s.disc.closed
  lo := s.disc.lo
  hi := s.disc.hi
  links := (List.range 6).map fun q =>
    (s.linkState q, s.getF PORT_IL_NEIGH_ID q 0, s.getF PORT_IL_STATUS_NPORT q 0, s.getF PORT_IL_NEIGH_INFO_FEED q 0)

/-- A hallmark sent on port `p`, signed. -/
def sendHallmark (s : State) (p : Nat) : State :=
  let h := s.hallmarkOf p
  let b := h.bytes
  let s := s.setPort p { s.port p with sent := some h }
  s.sendNeighbour p 0x02 0 (b ++ (List.range 384).map (Config.hallmarkSig b))

/-- Hallmarks sent on every aligned port whose content has changed (R277). -/
def tellHallmarks (s : State) : State :=
  (List.range 6).foldl (fun s p =>
    if decide (2 ≤ s.linkState p ∧ s.linkState p ≤ 4) && (s.port p).sent != some (s.hallmarkOf p) then s.sendHallmark p
    else s) s

/-! ### Discovery (R278 to R283) -/

/-- The verified neighbours of the running generation. -/
def peers (s : State) : List (Nat × Hallmark) :=
  (List.range 6).filterMap fun p =>
    if s.verified p then
      (s.port p).peer.bind fun h => if h.gen = s.getF PORT_MOD_DISC_GEN 0 0 then some (p, h) else none
    else none

/-- Is an origin candidate (pinned, identity) better than another (R279)? -/
def betterCandidate (a b : Bool × Nat) : Bool := (a.1 && !b.1) || (a.1 == b.1 && decide (a.2 < b.2))

/-- The candidate this module offers itself as (R279). -/
def ownCandidate (s : State) : Bool × Nat :=
  (s.flag PORT_MOD_CFG_PIN_EN 0 0 && decide (s.getF PORT_MOD_PIN_ORIGIN 0 0 = s.identity), s.identity)

/-- The best candidate seen. -/
def bestCandidate (s : State) : Bool × Nat :=
  s.peers.foldl (fun b x => if betterCandidate (x.2.pinned, x.2.candidate) b then (x.2.pinned, x.2.candidate) else b)
    (if betterCandidate (s.disc.pinned, s.disc.candidate) s.ownCandidate then (s.disc.pinned, s.disc.candidate)
      else s.ownCandidate)

/-- The neighbours that stand by the same origin, in a phase of `n` or later, with a claim. -/
def claimers (s : State) (n : Nat) : List (Nat × Hallmark) :=
  s.peers.filter fun x =>
    decide (n ≤ x.2.phase) && decide (x.2.candidate = s.disc.candidate) && (x.2.pinned == s.disc.pinned) &&
    decide (x.2.hops ≠ noClaim)

/-- The claim taken: the origin's own, or of the smallest hop count and the lowest port (R280). -/
def bestClaim (s : State) : Option (Nat × Nat) :=
  if s.disc.candidate = s.identity then some (0, 6)
  else (s.claimers 3).foldl (fun (b : Option (Nat × Nat)) x =>
    match b with
    | some c => if x.2.hops + 1 < c.1 then some (x.2.hops + 1, x.1) else b
    | none => some (x.2.hops + 1, x.1)) none

/-- The coordinates of a claim: one unit from the neighbour's, away from it along its port (R280). -/
def claimAt (s : State) (c : Nat × Nat) : List Int :=
  match ((s.claimers 3).find? fun x => x.1 = c.2) with
  | some x => (List.range 3).map fun a =>
      x.2.at_.getD a 0 + (if c.2 / 2 = a then (if c.2 % 2 = 0 then 1 else -1) else 0)
  | none => [0, 0, 0]

/-- The length of axis `a` by a wrap link at this module's plus port (R281): own + 1 − neighbour's. -/
def wrapLen (s : State) (a : Nat) : Option Int :=
  match (s.claimers 3).find? fun x => x.1 = hopPort a true with
  | some x =>
    let own := s.disc.at_.getD a 0
    let nb := x.2.at_.getD a 0
    if nb = own + 1 then none else some (own + 1 - nb)
  | none => none

/-- The extents of an axis: closed, its length if so, the smallest and largest coordinate, and whether lengths disagree
or exceed 256 (R281). -/
def axisExtent (s : State) (a : Nat) : Bool × Nat × Int × Int × Bool :=
  let l := s.claimers 4
  let own := s.wrapLen a
  let lens := (match own with | some n => [n] | none => []) ++
    (l.filter fun x => x.2.closed.getD a false).map fun x => (x.2.len.getD a 1 : Int)
  let n := lens.foldl max 1
  let lo := l.foldl (fun m x => min m (x.2.lo.getD a 0)) (s.disc.at_.getD a 0)
  let hi := l.foldl (fun m x => max m (x.2.hi.getD a 0)) (s.disc.at_.getD a 0)
  (!lens.isEmpty, n.toNat, lo, hi, lens.any fun m => decide (m ≠ n ∨ 256 < m ∨ m < 1))

/-- Discovery's parts after phase 4, cleared or computed. -/
def extents (s : State) : DiscSt :=
  let e := (List.range 3).map s.axisExtent
  { s.disc with
    closed := e.map (·.1)
    len := e.map (·.2.1)
    lo := e.map (·.2.2.1)
    hi := e.map (·.2.2.2.1)
    clash := s.disc.clash || e.any (·.2.2.2.2) }

/-- The length of an axis once extents have settled (R281). -/
def finalLen (s : State) (a : Nat) : Nat :=
  if s.disc.closed.getD a false then s.disc.len.getD a 1
  else (s.disc.hi.getD a 0 - s.disc.lo.getD a 0 + 1).toNat

/-- A final coordinate from an unwrapped one (R281). -/
def finalAt (s : State) (a : Nat) (x : Int) : Nat :=
  if s.disc.closed.getD a false then (x % (max 1 (s.finalLen a) : Nat)).toNat else (x - s.disc.lo.getD a 0).toNat

/-- A cabling fault of kind 3 (R281, R282). -/
def extentsBad (s : State) : Bool :=
  s.disc.clash || ([0, 1, 2].any fun a => decide (256 < s.finalLen a)) ||
  decide (16384 < s.finalLen 0 * s.finalLen 1 * s.finalLen 2)

def setPhase (s : State) (n : Nat) : State :=
  (s.setF PORT_MOD_DISC_PHASE 0 0 n).setF PORT_MOD_COORD_VALID 0 0 (if n = 6 then 1 else 0)

/-- The fault flag of the domain, as this module knows it (R282). -/
def gatherFault (s : State) : State :=
  let f := s.disc.fault || s.peers.any fun x => x.2.fault
  ({ s with disc := { s.disc with fault := f } }).setF PORT_MOD_COORD_FAULT 0 0 (if f then 1 else 0)

/-- Discovery looked at after a hallmark or a link has changed: a changed candidate resumes phase 2, a changed claim
phase 3, changed extents phase 4 (R283); then hallmarks tell the neighbours. -/
def lookDisc (s : State) : State :=
  let phase := s.getF PORT_MOD_DISC_PHASE 0 0
  if phase < 2 then s.tellHallmarks
  else
    let s := s.gatherFault
    let c := s.bestCandidate
    if c ≠ (s.disc.pinned, s.disc.candidate) then
      let d : DiscSt := { pinned := c.1, candidate := c.2, fault := s.disc.fault, waiting := s.disc.waiting }
      (({ s with disc := d }).setPhase 2).tellHallmarks
    else if phase < 3 then s.tellHallmarks
    else
      let b := s.bestClaim
      let at_ := match b with | some c => s.claimAt c | none => [0, 0, 0]
      if (b, at_) ≠ (s.disc.claim, s.disc.at_) then
        let d : DiscSt := { pinned := c.1, candidate := c.2, claim := b, at_ := at_, lo := at_, hi := at_,
                            fault := s.disc.fault, waiting := s.disc.waiting }
        (({ s with disc := d }).setPhase 3).tellHallmarks
      else if phase < 4 then s.tellHallmarks
      else
        let e := s.extents
        if e ≠ s.disc then (({ s with disc := e }).setPhase 4).tellHallmarks
        else s.tellHallmarks

/-- A generation begins at phase 2 (R278). -/
def beginGeneration (s : State) (g : Nat) : State :=
  let s := (s.setF PORT_MOD_DISC_GEN 0 0 g).setF PORT_MOD_COORD_FAULT 0 0 0
  let c := s.ownCandidate
  let s := { s with disc := { pinned := c.1, candidate := c.2, waiting := s.disc.waiting } }
  (s.setPhase 2).lookDisc

/-- A new generation of this module (R278), while discovery runs. -/
def newGeneration (s : State) : State :=
  if s.flag PORT_MOD_CFG_DISC_EN 0 0 then s.beginGeneration ((s.getF PORT_MOD_DISC_GEN 0 0 + 1) % 2 ^ 32) else s

/-- A hallmark's generation taken (R278): a higher one is adopted. -/
def takeGeneration (s : State) (g : Nat) : State :=
  if s.getF PORT_MOD_DISC_GEN 0 0 < g ∧ s.flag PORT_MOD_CFG_DISC_EN 0 0 then s.beginGeneration g else s.lookDisc

/-- The rule a link breaks, 0 none (R282). -/
def linkFault (s : State) (p : Nat) (h : Hallmark) : Nat :=
  let pairs : Bool := if p % 2 = 0 then decide (h.port = p + 1) else decide (h.port + 1 = p)
  if !pairs then 1
  else if s.extentsBad then 3
  else
    let a := p / 2
    let own := s.finalAt a (s.disc.at_.getD a 0)
    let nb := s.finalAt a (h.at_.getD a 0)
    let l := s.finalLen a
    let one : Bool :=
      if s.disc.closed.getD a false then decide ((own + 1) % l = nb % l ∨ (nb + 1) % l = own % l)
      else decide (own + 1 = nb ∨ nb + 1 = own)
    if one && [0, 1, 2].all fun b => decide (b = a ∨ s.finalAt b (s.disc.at_.getD b 0) = s.finalAt b (h.at_.getD b 0)) then 0
    else 2

/-- One link checked (R282): a faulty one is held for VL3 only, a good one carries every lane. -/
def checkLink (s : State) (p : Nat) : State :=
  match s.peers.find? fun x => x.1 = p with
  | none => s
  | some x =>
    match s.linkFault p x.2 with
    | 0 => (s.setF PORT_IL_STATUS_STATE p 0 3).setF PORT_IL_STATUS_FAULT_KIND p 0 0
    | k =>
      let s := ((s.setF PORT_IL_STATUS_STATE p 0 4).setF PORT_IL_STATUS_FAULT p 0 1).setF PORT_IL_STATUS_FAULT_KIND p 0 k
      let s := s.portRecord 0x0904 sevDegraded p [s.identity, p, x.2.identity, x.2.port, k]
      { s with disc := { s.disc with fault := true } }

/-- Phase 5 (R282). -/
def checkLinks (s : State) : State := ((List.range 6).foldl checkLink s).gatherFault

/-- The waiting frames of a port that is held for a cabling fault dropped (R276, R282). -/
def dropLanes (s : State) (p : Nat) : State :=
  if s.linkState p ≠ 4 then s
  else
    let x := s.port p
    let gone := x.txq.filter fun t => t.frame.vl ≠ 3
    let s := s.setPort p { x with txq := x.txq.filter fun t => t.frame.vl = 3 }
    gone.foldl (fun s t =>
      let s := s.refuseFrame p [t.frame.kind, t.frame.dst]
      match t.back with
      | some b => s.owe b.1 b.2 t.frame.units
      | none => s) s

/-- The neighbours' final coordinates shown (R288). -/
def showNeighbours (s : State) : State :=
  s.peers.foldl (fun s x =>
    ((s.setF PORT_IL_NEIGH_INFO_NX x.1 0 (s.finalAt 0 (x.2.at_.getD 0 0))).setF PORT_IL_NEIGH_INFO_NY x.1 0
      (s.finalAt 1 (x.2.at_.getD 1 0))).setF PORT_IL_NEIGH_INFO_NZ x.1 0 (s.finalAt 2 (x.2.at_.getD 2 0))) s

/-- Phase 6 (R281, R283): coordinates and shape published, the pulse raised, waiting frames sent. -/
def publishCoords (s : State) : State :=
  let c := fun a => s.finalAt a (s.disc.at_.getD a 0)
  let s1 := ((s.setF PORT_MOD_COORD_X 0 0 (c 0)).setF PORT_MOD_COORD_Y 0 0 (c 1)).setF PORT_MOD_COORD_Z 0 0 (c 2)
  let s1 := ((s1.setF PORT_MOD_COORD_LX_M1 0 0 (s.finalLen 0 - 1)).setF PORT_MOD_COORD_LY_M1 0 0 (s.finalLen 1 - 1)).setF
    PORT_MOD_COORD_LZ_M1 0 0 (s.finalLen 2 - 1)
  let b := fun a => if s.disc.closed.getD a false then 1 else 0
  let s1 := ((s1.setF PORT_MOD_COORD_CLOSED_X 0 0 (b 0)).setF PORT_MOD_COORD_CLOSED_Y 0 0 (b 1)).setF
    PORT_MOD_COORD_CLOSED_Z 0 0 (b 2)
  let s1 := (s1.setF PORT_MOD_ORIGIN_ID 0 0 s.disc.candidate).showNeighbours
  let s1 := (s1.setPhase 6).pulse 4 0
  let s1 := if s.flag PORT_MOD_CFG_PIN_EN 0 0 ∧ s.getF PORT_MOD_PIN_ORIGIN 0 0 ≠ s.disc.candidate then
      s1.hubRecord 0x0905 sevInfo 2 0 [s.getF PORT_MOD_PIN_ORIGIN 0 0]
    else s1
  let s1 := (List.range 6).foldl dropLanes s1
  let wait := s1.disc.waiting
  let s1 := { s1 with disc := { s1.disc with waiting := [] } }
  let s1 := (List.range 6).foldl pumpPort (wait.foldl send s1)
  s1.tellHallmarks.freshenOwn

/-- May phase 4 end: every verified neighbour has reached it in this generation? -/
def extentsSettled (s : State) : Bool :=
  (List.range 6).all fun p => !s.verified p || (s.claimers 4).any fun x => x.1 = p

/-- DISCOVERY_SETTLE (R283). -/
def discoverySettle (s : State) : State :=
  match s.getF PORT_MOD_DISC_PHASE 0 0 with
  | 2 => (s.setPhase 3).lookDisc
  | 3 => if s.disc.claim.isSome then (s.setPhase 4).lookDisc else s
  | 4 => if s.extentsSettled then ((s.setPhase 5).checkLinks).lookDisc else s
  | 5 => s.publishCoords
  | _ => s

/-! ### Links down and up (R267, R277, R283) -/

/-- A link is lost (R267): the port's part, the tasks with frames on it, and a new generation. -/
def linkLost (s : State) (p : Nat) : State :=
  if decide (2 ≤ s.linkState p ∧ s.linkState p ≤ 4) then
    let r := s.downLink p
    let s := r.2.foldl (fun s dc =>
      match s.chanTask dc.1 dc.2 with
      | some x => s.failTask x.1 8
      | none => s) r.1
    (s.resendPages).newGeneration
  else s

/-- The data lanes of a port that carry traffic (R232). -/
def activeLanes (s : State) (p : Nat) : Nat :=
  ((List.range 16).filter fun l => (s.getF PORT_STATUS_ACTIVE p 0).testBit l).length

/-- LINK_ALIGN (R268, R277, R283): phase 1 begins; each side grants the whole of each class. -/
def linkAlign (s : State) (p : Nat) : State :=
  if s.flag PORT_IL_CFG_EN p 0 && decide (s.linkState p < 2) && decide (12 ≤ s.activeLanes p) && !(s.port p).badSig then
    let x := s.port p
    let s := s.setPort p { known := x.known, dropSec := x.dropSec, credit := fullCredit, txq := x.txq }
    ((s.setF PORT_STATUS_LOS p 0 0).setF PORT_IL_STATUS_STATE p 0 2).sendHallmark p
  else s

/-- A chain or signature that fails holds the link down (R277). -/
def badSignature (s : State) (p : Nat) : State :=
  let was := s.verified p
  let s := s.portRecord 0x0903 sevDegraded p [p]
  let s := if was then s.linkLost p else s
  let s := (s.setF PORT_IL_STATUS_BADSIG p 0 1).setF PORT_IL_STATUS_STATE p 0 0
  s.setPort p { known := (s.port p).known, dropSec := (s.port p).dropSec, badSig := true }

/-- BADSIG_RETRY (R277): the link may align again. -/
def badsigRetry (s : State) (p : Nat) : State :=
  if (s.port p).badSig then
    let x := s.port p
    s.setPort p { x with badSig := false }
  else s

/-- This module's certificate chain in pieces (R439). -/
def sendChain (s : State) (p : Nat) : State :=
  let n := (Config.chainLength + 4095) / 4096
  (List.range n).foldl (fun s i =>
    s.sendNeighbour p 0x03 (BitVec.ofNat 64 (i + n * 2 ^ 16 + Config.chainLength * 2 ^ 32))
      ((List.range (min 4096 (Config.chainLength - 4096 * i))).map fun k => Config.chainByte (4096 * i + k))) s

/-- The neighbour behind a port verified for the first time (R278, R283). -/
def neighbourUp (s : State) (p : Nat) (h : Hallmark) : State :=
  let s := ((s.setF PORT_IL_STATUS_STATE p 0 3).setF PORT_IL_NEIGH_ID p 0 h.identity).setF PORT_IL_STATUS_NPORT p 0 h.port
  s.linkPulse p 1

/-- A verified hallmark's content (R277, R278). -/
def takeContent (s : State) (p : Nat) (h : Hallmark) : State :=
  let x := s.port p
  let new : Bool := s.linkState p = 2
  let old : Bool := decide (h.gen < s.getF PORT_MOD_DISC_GEN 0 0)
  let kept := match x.peer with
    | some y => if old && !new then { y with links := h.links } else h
    | none => h
  let s := s.setPort p { x with peer := some kept }
  let s := if new then s.neighbourUp p h else s
  let s := (s.setF PORT_IL_NEIGH_INFO_FEED p 0 kept.feed).setF PORT_IL_NEIGH_INFO_GEN p 0 kept.gen
  let s := if new then s.newGeneration else s
  s.takeGeneration h.gen

/-- Is the key of an identity cached? -/
def knows (s : State) (id : Nat) : Bool := (List.range 6).any fun p => (s.port p).known.contains id

/-- A HALLMARK frame (R267, R277): from an unknown identity the chains are exchanged; a failed signature or another
identity takes the link down. -/
def takeHallmark (s : State) (p : Nat) (f : Frame) (sigOk : Bool) : State :=
  let h := Hallmark.ofBytes f.payload
  if !s.knows h.identity then s.sendChain p
  else if !sigOk then s.badSignature p
  else if s.verified p && decide (s.getF PORT_IL_NEIGH_ID p 0 ≠ h.identity) then s.linkLost p
  else s.takeContent p h

/-- A CERT frame (R277, R439): with the last piece in, the chain's check caches the key of the identity it certifies, or
holds the link down. -/
def takeCert (s : State) (p : Nat) (f : Frame) (chain : Option (BitVec 64)) : State :=
  let x := s.port p
  let l := (if f.w3.bits 15 0 = 0 then [] else x.certs) ++ [f.payload]
  if l.length < f.w3.bits 31 16 then s.setPort p { x with certs := l }
  else match chain with
    | some id => s.setPort p { x with known := x.known ++ [id.toNat], certs := [] }
    | none => s.badSignature p

/-! ### One hop (R263, R265, R266, R268) -/

/-- The frames an ACK covers leave the replay buffer; the round trip of the last is a monitor sample (R266, R422). -/
def takeAck (s : State) (p a : Nat) : State :=
  let x := s.port p
  match x.replay.findIdx? fun f => decide (f.seq = a) with
  | none => s
  | some i =>
    let gone := (x.replay.take (i + 1)).map (·.seq)
    let s := s.setPort p { x with
      replay := x.replay.drop (i + 1)
      sentAt := x.sentAt.filter fun e => !gone.contains e.1
      resends := 0 }
    let s := s.setF PORT_IL_STATUS_TX_UNACK p 0 (s.port p).replay.length
    gone.foldl (fun s q => s.offer 4 0x0B p ((s.time - Tab.getN 0 x.sentAt q : Nat) : Int) s.time) s

/-- Returned credit (R268). -/
def takeCred (s : State) (p : Nat) (f : Frame) : State :=
  let x := s.port p
  let s := if f.credVl < 6 then s.setPort p { x with credit := Tab.putN 0 x.credit f.credVl (Tab.getN 0 x.credit f.credVl + f.cred) }
    else s
  s.pumpPort p

/-- The credit class a frame used on the hop it came by (R268, R271): its lane's from its source, else a VL2 class. -/
def arrivalClass (s : State) (p : Nat) (f : Frame) : Nat :=
  let n := s.getR ⟨.PORT_IL_NEIGH_INFO, p, 0⟩
  if f.vl = 3 ∨ f.src = n.bits 55 32 then f.vl else transitClass f.dl

/-- A frame that fails its CRC (R265, R274): counted, and the first asks for a resend; the copy on its way out is stomped. -/
def failHop (s : State) (p : Nat) (f : Frame) : State :=
  let x := s.port p
  let s := s.addF PORT_IL_CRC_ERR_COUNT p 0 1
  if x.nakSent then s
  else
    let s := s.setPort p { x with nakSent := true }
    if f.vl ≠ 3 ∧ f.seq = x.expect ∧ kindLane f.kind ≠ some 8 ∧ s.placed ∧ f.dst ≠ s.here then
      match s.route f.dst with
      | some q => s.addF PORT_IL_STOMP_COUNT q 0 1
      | none => s
    else s

/-- Does the transit check of R276 let a frame through? -/
def mayTransit (s : State) (f : Frame) : Bool :=
  s.placed && s.inExtents f.dst &&
  (decide (f.job = s.getF PORT_MOD_JOB_JOB 0 0) ||
    (List.range 64).any fun i => s.flag PORT_MOD_PERMIT_VALID 0 i && decide (s.getF PORT_MOD_PERMIT_JOB 0 i = f.job))

/-- A frame forwarded on the port of its route, on VL2 in the class DL names (R271, R272, R276). -/
def forward (s : State) (p cls : Nat) (f : Frame) : State :=
  match s.route f.dst with
  | none => (s.refuseFrame p [f.kind, f.dst]).owe p cls f.units
  | some q =>
    if !s.mayTransit f || s.linkState q = 4 then (s.refuseFrame p [f.kind, f.dst]).owe p cls f.units
    else
      let dl := s.hopDl q (some p) f.dl
      s.enqueue q { cls := transitClass dl, back := some (p, cls), frame := withDl f dl }

/-- A signal dropped by the job check is recorded (R122, R275). -/
def dropSignal (s : State) (p : Nat) (f : Frame) : State :=
  if f.kind = 0x20 then s.portRecord 0x0405 sevInfo p [f.job] f.epoch else s

/-- A well-formed frame of a numbered lane: for this module it is delivered if its job is this module's, else it is
forwarded (R275, R276). -/
def arrive (s : State) (p cls : Nat) (f : Frame) : State × Option Frame :=
  if f.vl = 3 then (s.owe p cls f.units, some f)
  else if !s.placed || s.linkState p ≠ 3 then ((s.refuseFrame p [f.kind, f.dst]).owe p cls f.units, none)
  else if f.dst ≠ s.here then (s.forward p cls f, none)
  else if f.job = s.getF PORT_MOD_JOB_JOB 0 0 ∧ f.job ≠ 0 then (s.owe p cls f.units, some f)
  else (((s.refuseFrame p [f.kind, f.dst]).dropSignal p f).owe p cls f.units, none)

/-- A frame at the end of a hop, and what is delivered of it. -/
def hop (s : State) (p : Nat) (f : Frame) : State × Option Frame :=
  let x := s.port p
  if s.linkState p < 2 ∨ 4 < s.linkState p then (s, none)
  else match f.crc with
    | .stomped => (s, none)
    | .bad => (s.failHop p f, none)
    | .good =>
      if kindLane f.kind = some 8 then (if illFormed f then (s.dropFrame p, none) else (s, some f))
      else if f.seq ≠ x.expect then (s, none)
      else
        let s := s.setPort p { x with expect := (x.expect + 1) % 2 ^ 20, nakSent := false }
        let s := (s.takeAck p f.ack).takeCred p f
        let cls := s.arrivalClass p f
        let s := s.addF PORT_IL_RX_BYTES_COUNT p (if cls = 5 then 2 else min cls 4) f.wire
        if illFormed f then ((s.dropFrame p).owe p cls f.units, none) else s.arrive p cls f

/-- A frame of one kind brought to port `p`; what is delivered of it acts by `k`. -/
def frameIn (s : State) (p : Nat) (f : Frame) (kind : Bool) (k : State → Frame → State) : State :=
  if !kind then s
  else
    let r := s.hop p f
    match r.2 with
    | some g => k r.1 g
    | none => r.1

/-! ### Retry (R266) -/

/-- Frames resent from the `i`-th of the replay buffer: counted, and the link lost when the oldest has been resent
RETRY_MAX times before (R267). -/
def resendFrom (s : State) (p i : Nat) : State :=
  let x := s.port p
  let n := x.replay.length - i
  if n = 0 then s
  else if max 1 (s.getF PORT_IL_CFG_RETRY_MAX p 0) ≤ x.resends then s.linkLost p
  else (s.addF PORT_IL_RETRY_COUNT p 0 n).setPort p { x with resends := x.resends + 1 }

/-- NAK (R266): its ACK and credit, then go-back-N from the SEQ in TAG. -/
def takeNak (s : State) (p : Nat) (f : Frame) : State :=
  let s := (s.takeAck p f.ack).takeCred p f
  match (s.port p).replay.findIdx? fun g => decide (g.seq = f.w3.bits 19 0) with
  | some i => s.resendFrom p i
  | none => s

/-- CTRL (R266): acknowledgement and credit; a frame of an unlisted kind is dropped (R263). -/
def takeCtrl (s : State) (p : Nat) (f : Frame) : State := (s.takeAck p f.ack).takeCred p f

/-- SIGNAL_FRAME delivered (R122). -/
def takeSignal (s : State) (f : Frame) : State :=
  s.tokenIncrement (f.dstDie % 4) (Config.signalToken f.w3) (Config.signalInc f.w3)

/-- CLOSE (R337, R347): INDEX all ones carries a step-log record for the partner's Forge; else it ends a transfer. -/
def takeClose (s : State) (f : Frame) : State :=
  if f.w3.bits 50 32 = 2 ^ 19 - 1 ∧ f.src = s.getF ING_PARTNER_IN 0 0 then
    { s with ingot := { s.ingot with partnerLog := s.ingot.partnerLog ++ [f.payload] } }
  else s

/-- Is it a frame of this kind and TYPE? -/
def isType (f : Frame) (kind type : Nat) : Bool := f.kind = kind && decide (f.w3.bits 63 61 = type)

end State

def execLinkAlign (p : Fin 6) (s : State) := commit s (s.linkAlign p)
def execCtrl (p : Fin 6) (f : Frame) (s : State) :=
  commit s (s.frameIn p f (f.kind = 0 || (kindLane f.kind).isNone) fun s f => s.takeCtrl p f)
def execNak (p : Fin 6) (f : Frame) (s : State) :=
  commit s (s.frameIn p f (f.kind = 1) fun s f => s.takeNak p f)
def execAckTimeout (p : Fin 6) (s : State) := commit s (s.resendFrom p 0)
def execLinkLost (p : Fin 6) (s : State) := commit s (s.linkLost p)
def execHallmark (p : Fin 6) (f : Frame) (sigOk : Bool) (s : State) :=
  commit s (s.frameIn p f (f.kind = 2) fun s f => s.takeHallmark p f sigOk)
def execHallmarkPeriodic (p : Fin 6) (s : State) :=
  commit s (if 2 ≤ s.linkState p ∧ s.linkState p ≤ 4 then s.sendHallmark p else s)
def execCert (p : Fin 6) (f : Frame) (chain : Option (BitVec 64)) (s : State) :=
  commit s (s.frameIn p f (f.kind = 3) fun s f => s.takeCert p f chain)
def execBadsigRetry (p : Fin 6) (s : State) := commit s (s.badsigRetry p)
def execDiscoverySettle (s : State) := commit s s.discoverySettle
def execGossip (p : Fin 6) (f : Frame) (s : State) :=
  commit s (s.frameIn p f (f.kind = 4) fun s f => s.takeGossip p f.payload)
def execColl (p : Fin 6) (f : Frame) (s : State) :=
  commit s (s.frameIn p f (f.kind = 0x10) fun s f => s.takeColl f.dstDie f)
def execCollCredit (p : Fin 6) (f : Frame) (s : State) :=
  commit s (s.frameIn p f (f.kind = 0x11) fun s f => s.takeCredit f.dstDie f)
def execSenddata (p : Fin 6) (f : Frame) (s : State) :=
  commit s (s.frameIn p f (f.kind = 0x12) fun s f => s.takeSendData f.dstDie f)
def execSignalFrame (p : Fin 6) (f : Frame) (s : State) :=
  commit s (s.frameIn p f (f.kind = 0x20) fun s f => s.takeSignal f)
def execRwrite (p : Fin 6) (f : Frame) (s : State) :=
  commit s (s.frameIn p f (f.kind = 0x21) fun s f => s.takeRwrite f.dstDie f)
def execRread (p : Fin 6) (f : Frame) (s : State) :=
  commit s (s.frameIn p f (f.kind = 0x22) fun s f => s.takeRread f.dstDie f)
def execRresp (p : Fin 6) (f : Frame) (s : State) :=
  commit s (s.frameIn p f (f.kind = 0x23) fun s f => s.takeRresp f.dstDie f)
def execSeal (p : Fin 6) (f : Frame) (s : State) :=
  commit s (s.frameIn p f (f.kind = 0x24 && decide (f.w3.bits 63 62 = 0)) fun s f => s.takeSeal f)
def execRetract (p : Fin 6) (f : Frame) (s : State) :=
  commit s (s.frameIn p f (f.kind = 0x24 && decide (f.w3.bits 63 62 = 1)) fun s f =>
    s.retractStep f.epoch (f.w3.bits 53 50) (f.w3.bits 26 24) (f.w3.bits 23 0))
def execPage (p : Fin 6) (f : Frame) (s : State) :=
  commit s (s.frameIn p f (State.isType f 0x30 0) fun s f =>
    if s.isRestore f then s.restoreChunk (f.w3.bits 50 32) (f.w3.bits 59 51) f.payload else s.rxPage f)
def execPageEnd (p : Fin 6) (f : Frame) (s : State) :=
  commit s (s.frameIn p f (State.isType f 0x30 1) fun s f =>
    if s.isRestore f then s.restorePageEnd (f.w3.bits 50 32) else s.rxPageEnd f)
def execManifest (p : Fin 6) (f : Frame) (s : State) :=
  commit s (s.frameIn p f (State.isType f 0x30 2) fun s f =>
    if s.isRestore f then s.restorePiece (f.w3.bits 50 32) f.payload else s.rxManifest f)
def execClose (p : Fin 6) (f : Frame) (s : State) :=
  commit s (s.frameIn p f (State.isType f 0x30 3) fun s f => s.takeClose f)
def execPageOk (p : Fin 6) (f : Frame) (s : State) :=
  commit s (s.frameIn p f (State.isType f 0x31 0) fun s f => s.takePageOk f)
def execPageBad (p : Fin 6) (f : Frame) (s : State) :=
  commit s (s.frameIn p f (State.isType f 0x31 1) fun s f => s.takePageBad f)
def execComplete (p : Fin 6) (f : Frame) (s : State) :=
  commit s (s.frameIn p f (State.isType f 0x31 2) fun s f => s.takeComplete f)
def execRefused (p : Fin 6) (f : Frame) (s : State) :=
  commit s (s.frameIn p f (State.isType f 0x31 3) fun s f => s.takeRefused f)
def execAbort (p : Fin 6) (f : Frame) (s : State) :=
  commit s (s.frameIn p f (State.isType f 0x31 4) fun s f => s.takeAbort f)
def execRestoreReq (p : Fin 6) (f : Frame) (s : State) :=
  commit s (s.frameIn p f (State.isType f 0x31 5) fun s f => s.takeRestoreReq f)

/-- FEED_ID_SAMPLE (R456): an accepted change travels in the hallmarks and gossip records, and R334 applies to it. -/
def execFeedIdSample (v : BitVec 8) (s : State) :=
  let t := s.feedIdSample v
  commit s (if t.getF PWR_PINS_FEED_ID 0 0 = s.getF PWR_PINS_FEED_ID 0 0 then t.tellHallmarks else t.tellHallmarks.lookFed false)

end Sys2Proof.Machine
end

