-- ==== Sys2Proof/Machine/Light.lean ====
section
/-! DEFINITION. The light layer: the die ring (R235, R236), ring lock and heater feed-forward (R240 to R245), rotating
calibration and the spare lane (R246 to R249), stage monitors and loss location (R250 to R252), laser cartridges and
switchover (R253 to R257), and its start-up (R258). -/

namespace Sys2Proof.Machine

/-! ### Rings (R240) -/

/-- Is ring `n` a port's, and its port, lane and direction. -/
def ringIsPort (n : Nat) : Bool := decide (n < 204)
def ringPort (n : Nat) : Nat := n / 34
def ringIsTx (n : Nat) : Bool := decide (n % 34 < 17)
def ringLane (n : Nat) : Nat := if n < 204 then n % 34 % 17 else (n - 204) % 18 % 9

/-- The die above a ring: the home die of its port, or its own die position (R240). -/
def ringDie (n : Nat) : Nat := if n < 204 then ringPort n / 2 else (n - 204) / 18

/-! ### The heater command of R243 -/

/-- e to the −a/b in units of 2^-48, by a Taylor series of the exponent divided by 256, squared eight times. -/
def expNeg48 (a b : Nat) : Nat :=
  let one := 2 ^ 48
  let q := a * one / max 1 b
  if 64 * one ≤ q then 0
  else
    let y := q / 256
    let term := fun (x : Nat × Nat × Nat × Nat) (k : Nat) =>
      let t := x.2.2.1 * y / one / (k + 1)
      if k % 2 = 0 then (x.1, x.2.1 + t, t, 0) else (x.1 + t, x.2.1, t, 0)
    let r := (List.range 12).foldl term (one, 0, one, 0)
    (List.range 8).foldl (fun e _ => e * e / one) (r.1 - r.2.1)

/-- The command of one grant change at age `t` ns, in 1/4096 mW times 2^48: g·ΔP/40 · (1 − E·(1 − 8 µs/τ)), for t of d
or more (R243). ΔP is a quarter watt per token; `gain` is in 1/1000 GHz per W. -/
def heaterCommand (gain : Int) (tau dead : Nat) (tokens : Int) (t : Int) : Int :=
  if t < 1000 * dead then 0
  else
    let e : Int := expNeg48 (t - 1000 * dead).toNat (1000 * tau)
    let lead : Int := e * ((tau : Int) - 8) / tau
    gain * tokens * 4096 * (2 ^ 48 - lead) / 160000

/-! ### Light-layer state -/

/-- Ports of a group: group A (0) feeds the X and Y ports, group B (1) the Z ports (R253). -/
def groupPorts (g : Nat) : List Nat := if g = 0 then [0, 1, 2, 3] else [4, 5]

/-- The group of a port. -/
def portGroup (p : Nat) : Nat := if p < 4 then 0 else 1

/-- The largest of the drops of a list of lines, with its line: the first of the largest. -/
def worstDrop (base now : List (BitVec 16)) : Nat × Int :=
  (List.range 17).foldl (fun (b : Nat × Int) i =>
    let d : Int := (base.getD i 0).toInt - (now.getD i 0).toInt
    if i = 0 ∨ b.2 < d then (i, d) else b) (0, 0)

namespace State

def setLight (s : State) (l : LightSt) : State := { s with light := l }
def ring (s : State) (n : Nat) : RingSt := Tab.getN {} s.light.rings n
def setRing (s : State) (n : Nat) (r : RingSt) : State := s.setLight { s.light with rings := Tab.putN {} s.light.rings n r }
def cal (s : State) (f : Nat) : CalSt := Tab.getN {} s.light.cal f
def setCal (s : State) (f : Nat) (c : CalSt) : State := s.setLight { s.light with cal := Tab.putN {} s.light.cal f c }
def cart (s : State) (i : Nat) : CartSt := Tab.getN {} s.light.carts i
def setCart (s : State) (i : Nat) (c : CartSt) : State :=
  s.setLight { s.light with carts := Tab.putN {} s.light.carts i c }
def switchOf (s : State) (g : Nat) : SwitchSt := Tab.getN {} s.light.switch g
def setSwitch (s : State) (g : Nat) (x : SwitchSt) : State :=
  s.setLight { s.light with switch := Tab.putN {} s.light.switch g x }

/-- LL_STATUS.UNLOCKED shown: the rings sweeping or unlocked. -/
def showUnlocked (s : State) : State :=
  s.setF LL_STATUS_UNLOCKED 0 0
    ((List.range 294).filter fun n => s.getF LL_RING_STATE 0 n = 1 || s.getF LL_RING_STATE 0 n = 3).length

/-- A bit of a lane mask field changed. -/
def setLaneBit (s : State) (f : Field) (i b : Nat) (v : Bool) : State :=
  let m := s.getF f i 0
  s.setF f i 0 (if v then m ||| 2 ^ b else m - (m &&& 2 ^ b))

/-! ### Credit hold (R242, R255) -/

/-- Must the port hold: a ring of it relocks without cover, or its group switches over? -/
def holdDue (s : State) (p : Nat) : Bool :=
  (List.range 34).any (fun i => decide ((s.ring (34 * p + i)).relock = 1 ∨ (s.ring (34 * p + i)).relock = 2) &&
    !(s.ring (34 * p + i)).cover) ||
  decide ((s.switchOf (portGroup p)).phase ≠ 0)

/-- HOLD brought up to date; the end of a hold lets waiting frames go. -/
def showHold (s : State) (p : Nat) : State := (s.setF PORT_STATUS_HOLD p 0 (if s.holdDue p then 1 else 0)).pumpPort p

/-! ### The spare lane of a transmit fibre (R247, R248) -/

/-- The spare may take a job: its line is up. -/
def spareUp (s : State) (p : Nat) : Bool := s.getF PORT_LANE_STATE p 16 ≠ 0

/-- A data lane goes down; with fewer than 12 left the port fails (R232). -/
def laneDown (s : State) (p l : Nat) : State :=
  let s := (s.setF PORT_LANE_STATE p l 0).setLaneBit PORT_STATUS_ACTIVE p l false
  if s.activeLanes p < 12 ∧ decide (2 ≤ s.linkState p ∧ s.linkState p ≤ 4) then
    (s.portRecord 0x0801 sevFailed p [s.getF PORT_STATUS_ACTIVE p 0]).linkLost p
  else s

/-- A calibration ended without a result: the lane keeps its previous settings and its own line (R248). -/
def abortCal (s : State) (f : Nat) : State :=
  let c := s.cal f
  if c.phase = 0 then s
  else
    let s := s.setCal f { c with phase := 0, second := false }
    if f = 6 then s.setF LL_STATUS_DR_SPARE_BUSY 0 0 (if s.light.ringFailed.isEmpty then 0 else 1)
    else
      let s := if s.getF PORT_LANE_STATE f c.lane = 3 then s.setF PORT_LANE_STATE f c.lane 1 else s
      if s.getF PORT_STATUS_SPARE_USE f 0 = 1 then
        (s.setF PORT_STATUS_SPARE_USE f 0 0).setF PORT_STATUS_SPARE_FOR f 0 0x1F
      else s

/-- The spare takes lane `l` for a job of rank `use` (2 ring cover, 3 permanent) from an idle spare or a lower job; else
the lane goes down (R248). -/
def takeSpare (s : State) (p l use : Nat) : State :=
  let cur := s.getF PORT_STATUS_SPARE_USE p 0
  if s.spareUp p ∧ cur < use ∧ l < 16 then
    let was := s.getF PORT_STATUS_SPARE_FOR p 0
    let s := if cur = 1 then s.abortCal p else s
    let s := if cur = 2 ∧ was ≠ l then s.laneDown p was else s
    let s := (s.setF PORT_STATUS_SPARE_USE p 0 use).setF PORT_STATUS_SPARE_FOR p 0 l
    (s.setF PORT_LANE_STATE p l 2).setLaneBit PORT_STATUS_ACTIVE p l true
  else if cur = use ∧ s.getF PORT_STATUS_SPARE_FOR p 0 = l then s
  else s.laneDown p l

/-- The spare idle again, its lane on its own line. -/
def releaseSpare (s : State) (p : Nat) : State :=
  let l := s.getF PORT_STATUS_SPARE_FOR p 0
  let s := (s.setF PORT_STATUS_SPARE_USE p 0 0).setF PORT_STATUS_SPARE_FOR p 0 0x1F
  if l < 16 then (s.setF PORT_LANE_STATE p l 1).setLaneBit PORT_STATUS_ACTIVE p l true else s

/-- A lane fails (R247, R248): the spare carries it permanently if it can. -/
def failLane (s : State) (p l : Nat) : State :=
  if l < 16 then ((s.setLaneBit PORT_STATUS_FAILED p l true).takeSpare p l 3).pulse 5 5
  else (s.setF PORT_LANE_STATE p l 0).pulse 5 5

/-- A die-ring lane fails: it moves to line 16 if that is free (R242). -/
def failRingLane (s : State) (l : Nat) : State :=
  let free := s.light.ringFailed.isEmpty
  let s := if (s.cal 6).phase ≠ 0 ∧ free then s.abortCal 6 else s
  let s := s.setLight { s.light with ringFailed := Tab.putN false s.light.ringFailed l true }
  let s := s.setF LL_STATUS_DR_SPARE_BUSY 0 0 1
  s.setLaneBit LL_STATUS_DR_ACTIVE 0 l free

/-! ### Ring lock (R241, R242) -/

/-- Is every ring of a die-ring lane locked? -/
def ringLaneLocked (s : State) (l : Nat) : Bool :=
  (List.range 5).all fun d => s.getF LL_RING_STATE 0 (204 + 18 * d + l) = 2 && s.getF LL_RING_STATE 0 (204 + 18 * d + 9 + l) = 2

/-- The sum of the commands to the heaters under a die now, in 1/4096 mW times 2^48 (R243); 0 with FF_EN 0 (R244). -/
def dieCommand (s : State) (d : Nat) : Int :=
  if !s.flag LL_CTRL_FF_EN 0 0 then 0
  else
    let gain := sgn16 (s.getF LL_FF_GAIN 0 d)
    let tau := max 1 (s.getF LL_FF_TAU_US 0 d)
    let dead := s.getF LL_FF_DEAD_US 0 d
    (Tab.getN [] s.light.trajectories d).foldl (fun c n => c + heaterCommand gain tau dead n.tokens ((s.time : Int) - n.t0)) 0

/-- A locked ring's heater: its lock-in output with the command of its die on top, within 0 to 16 mW. How the command is
rounded to the heater's step is not stated: up or down by a free value (assumption 52). -/
def setHeater (s : State) (n : Nat) : State :=
  if s.getF LL_RING_STATE 0 n = 2 then
    let c := s.dieCommand (ringDie n)
    let r := s.draw
    let step : Int := if c % 2 ^ 48 = 0 then 0 else (r.1.toNat % 2 : Nat)
    let h : Int := ((s.ring n).lockIn : Int) + c / 2 ^ 48 + step
    r.2.setF LL_RING_HEATER 0 n (max 0 (min 65535 h)).toNat
  else s

/-- RING_LOOP_UPDATE (R241): the lock-in output and detuning of each locked ring, offered to the monitors (R422). -/
def ringLoopUpdate (s : State) (rd : List RingReading) : State :=
  rd.foldl (fun s x =>
    let n := x.ring.val
    if s.getF LL_RING_STATE 0 n = 2 then
      let s := s.setRing n { s.ring n with lockIn := x.lockIn.toNat }
      let s := (s.setF LL_RING_DETUNE 0 n x.detune.toNat).setHeater n
      s.offer 4 9 n x.detune.toInt s.time
    else s) s

/-- RING_UNLOCK (R242). -/
def ringUnlock (s : State) (n : Nat) : State :=
  if s.getF LL_RING_STATE 0 n ≠ 2 then s
  else
    let s := (s.setF LL_RING_STATE 0 n 3).setRing n { s.ring n with relock := 1, cover := false }
    let s := s.showUnlocked
    if ringIsPort n then s.showHold (ringPort n)
    else if Tab.getN false s.light.ringFailed (ringLane n) then s
    else s.setLaneBit LL_STATUS_DR_ACTIVE 0 (ringLane n) false

/-- Ring cover ends: the lane returns (R248). -/
def coverEnd (s : State) (n : Nat) : State :=
  let p := ringPort n
  let l := ringLane n
  if !ringIsTx n then s
  else if s.getF PORT_STATUS_SPARE_USE p 0 = 2 ∧ s.getF PORT_STATUS_SPARE_FOR p 0 = l then s.releaseSpare p
  else if l < 16 ∧ s.getF PORT_LANE_STATE p l = 0 ∧ !(s.getF PORT_STATUS_FAILED p 0).testBit l then
    (s.setF PORT_LANE_STATE p l 1).setLaneBit PORT_STATUS_ACTIVE p l true
  else s

/-- RELOCK_SEARCH_END (R242): locked, on to the sweep, or failed. -/
def relockSearchEnd (s : State) (n : Nat) (locked : Bool) : State :=
  let r := s.ring n
  if r.relock ≠ 1 ∧ r.relock ≠ 2 then s
  else if locked then
    let s := ((s.setF LL_RING_STATE 0 n 2).setRing n { r with relock := 0, cover := false }).addF LL_RING_RELOCKS 0 n 1
    let s := s.showUnlocked.lightRecord 0x0803 sevInfo 4 n [n]
    if ringIsPort n then (if r.cover then s.coverEnd n else s).showHold (ringPort n)
    else if s.ringLaneLocked (ringLane n) then s.setLaneBit LL_STATUS_DR_ACTIVE 0 (ringLane n) true else s
  else if r.relock = 1 then
    ((s.setF LL_RING_STATE 0 n 1).setRing n { r with relock := 2 }).showUnlocked
  else
    let s := (s.setF LL_RING_STATE 0 n 3).setRing n { r with relock := 3 }
    let s := (s.showUnlocked.lightRecord 0x0804 sevDegraded 4 n [n]).pulse 5 4
    if ringIsPort n then (if ringIsTx n then s.failLane (ringPort n) (ringLane n) else s).showHold (ringPort n)
    else if ringLane n < 8 then s.failRingLane (ringLane n) else s

/-- RING_COVER_TIMEOUT (R242): the lane of a ring still unlocked moves to the spare, and the hold ends. The spare of a
receive fibre is the far module's. -/
def ringCoverTimeout (s : State) (n : Nat) : State :=
  let r := s.ring n
  if ringIsPort n && decide (r.relock = 1 ∨ r.relock = 2) && !r.cover then
    let s := s.setRing n { r with cover := true }
    (if ringIsTx n && decide (ringLane n < 16) then s.takeSpare (ringPort n) (ringLane n) 2 else s).showHold (ringPort n)
  else s

/-- HEATER_FEED_FORWARD (R243): the notices of a die become trajectories, and the heaters under it move. -/
def heaterFeedForward (s : State) (d : Nat) : State :=
  match Tab.getN [] s.light.notices d with
  | [] => s
  | l =>
    let s := s.setLight { s.light with
      notices := Tab.putN [] s.light.notices d []
      trajectories := Tab.putN [] s.light.trajectories d (Tab.getN [] s.light.trajectories d ++ l) }
    ((List.range 294).filter fun n => ringDie n = d).foldl setHeater s

/-! ### The die ring (R236) -/

/-- Die positions in the order HD, CD0, CD1, CD3, CD2. -/
def ringOrder : List Nat := [4, 0, 1, 3, 2]

/-- The first die of a request field after the previous owner. -/
def nextOwner (prev : Option Nat) (bits : BitVec 5) : Option Nat :=
  let k := match prev with
    | some d => ringOrder.findIdx (· = d) + 1
    | none => 0
  (ringOrder.rotateLeft (k % 5)).find? fun d => bits.getLsbD d

/-- DIE_RING_SLOT (R236): the next urgent requester owns the slot, else the next requester; an unrequested slot passes
empty. While a switchover holds the die ring it defers its slots (R255). -/
def dieRingSlot (s : State) (lane : Nat) (request urgent : BitVec 5) : State :=
  let prev := Tab.getN none s.light.ringOwner lane
  let owner := (nextOwner prev urgent).or (nextOwner prev request)
  if (s.switchOf 1).phase ≠ 0 || !(s.getF LL_STATUS_DR_ACTIVE 0 0).testBit lane then s
  else match owner with
    | some d => s.setLight { s.light with ringOwner := Tab.putN none s.light.ringOwner lane (some d) }
    | none => s

/-! ### Loss of signal (R239) -/

/-- LOSS_OF_SIGNAL (R239, R267). -/
def lossOfSignal (s : State) (p : Nat) : State := (s.setF PORT_STATUS_LOS p 0 1).linkLost p

/-! ### Rotating calibration (R246, R247) -/

/-- Lanes of a fibre's rotation: 17, or 9 of the die ring (R246). -/
def calLanes (f : Nat) : Nat := if f = 6 then 9 else 17

/-- May a calibration of lane `l` begin on fibre `f` (R246 to R249)? -/
def mayCalibrate (s : State) (f l : Nat) : Bool :=
  decide ((s.cal f).phase = 0) &&
  (if f = 6 then decide ((s.switchOf 1).phase = 0) && s.light.ringFailed.isEmpty
   else decide ((s.switchOf (portGroup f)).phase = 0) && !s.flag PORT_STATUS_HOLD f 0 &&
     decide (s.getF PORT_STATUS_SPARE_USE f 0 = 0) && s.spareUp f && decide (s.getF PORT_LANE_STATE f l = 1))

/-- Does rotation run on a fibre (R246, R247)? -/
def rotates (s : State) (f : Nat) : Bool :=
  s.flag LL_CTRL_ROT_EN 0 0 && s.flag LL_STATUS_READY 0 0 &&
  (if f = 6 then s.light.ringFailed.isEmpty
   else s.flag PORT_CFG_CAL_EN f 0 && decide (s.getF PORT_STATUS_SPARE_USE f 0 ≠ 3))

/-- CALIBRATION_SLOT (R246): the next lane is announced; the spare is calibrated with no hand-over. -/
def calibrationSlot (s : State) (f : Nat) : State :=
  if !s.rotates f then s
  else
    let c := s.cal f
    let l := c.next
    let may := s.mayCalibrate f l
    let c := { c with next := (l + 1) % calLanes f }
    if !may then s.setCal f c
    else s.setCal f { c with phase := if l + 1 = calLanes f then 3 else 1, lane := l, second := false }

/-- The end of phase 3 of a calibration (R246, R247). -/
def calResult (s : State) (f : Nat) (passed : Bool) (x : LaneSet) (margin : BitVec 16) : State :=
  let c := s.cal f
  let ok : Bool := passed && decide (200 ≤ margin.toInt)
  let spare : Bool := decide (c.lane + 1 = calLanes f)
  if ok then
    let c := { c with
      settings := if c.second then c.settings else Tab.putN {} c.settings c.lane x
      passedAt := Tab.putN none c.passedAt c.lane (some s.time)
      phase := if spare then 0 else 4 }
    let s := s.setCal f c
    if f = 6 then s else s.setF PORT_LANE_MARGIN f c.lane margin.toNat
  else
    let s := if f = 6 then s else s.addF PORT_LANE_CAL_FAILS f c.lane 1
    if !c.second then s.setCal f { c with second := true }
    else
      let s := s.setCal f { c with phase := 0, second := false }
      if f = 6 then
        let s := s.lightRecord 0x0805 sevDegraded 0 c.lane [6, c.lane]
        if spare then s.pulse 5 5 else (s.failRingLane c.lane).pulse 5 5
      else (s.portRecord 0x0805 sevDegraded f [f, c.lane]).failLane f c.lane

/-- CALIBRATION_PHASE_END (R246). -/
def calibrationPhaseEnd (s : State) (f : Nat) (passed : Bool) (x : LaneSet) (margin : BitVec 16) : State :=
  let c := s.cal f
  match c.phase with
  | 1 =>
    let s := s.setCal f { c with phase := 2 }
    if f = 6 then s.setF LL_STATUS_DR_SPARE_BUSY 0 0 1
    else (s.setF PORT_STATUS_SPARE_USE f 0 1).setF PORT_STATUS_SPARE_FOR f 0 c.lane
  | 2 =>
    let s := s.setCal f { c with phase := 3 }
    if f = 6 then s else s.setF PORT_LANE_STATE f c.lane 3
  | 3 => s.calResult f passed x margin
  | 4 =>
    let s := s.setCal f { c with phase := 0, second := false }
    if f = 6 then s.setF LL_STATUS_DR_SPARE_BUSY 0 0 0 else s.releaseSpare f
  | _ => s

/-- ANNOUNCE_TIMEOUT (R247): the slot is skipped. -/
def announceTimeout (s : State) (f : Nat) : State :=
  if (s.cal f).phase = 1 then s.setCal f { s.cal f with phase := 0 } else s

/-- SPARE_PREEMPT (R248): a job of higher rank takes the spare of a fibre from a lower one. -/
def sparePreempt (s : State) (f l : Nat) (permanent : Bool) : State :=
  if f = 6 then
    if (s.cal 6).phase ≠ 0 ∧ permanent ∧ l < 8 then s.failRingLane l else s
  else
    let use := if permanent then 3 else 2
    let cur := s.getF PORT_STATUS_SPARE_USE f 0
    if cur = 0 ∨ use ≤ cur then s
    else if permanent then s.failLane f l
    else s.takeSpare f l 2

/-! ### Stage monitors and loss location (R250 to R252) -/

/-- FAR_READINGS (R250, R251): the far R readings of a port; the first with a far identity and port are the baseline. -/
def farReadings (s : State) (p : Nat) (r : List (BitVec 16)) : State :=
  let s := (List.range 17).foldl (fun s l => s.setF PORT_MON_R_FAR_DBM p l (r.getD l 0).toNat) s
  let id := s.getF PORT_IL_NEIGH_ID p 0
  let far := s.getF PORT_IL_STATUS_NPORT p 0
  if id = 0 ∨ s.light.farBase.any (fun b => decide (b.1 = p ∧ b.2.1 = id ∧ b.2.2.1 = far)) then s
  else s.setLight { s.light with farBase := s.light.farBase ++ [(p, id, far, r)] }

/-- The cartridge a group runs on; none when it is dark. -/
def groupSource (s : State) (g : Nat) : Option Nat :=
  let c := s.getF (if g = 0 then LC_ROUTE_A_SRC else LC_ROUTE_B_SRC) 0 0
  if c = 3 then none else some c

/-- The drops below baseline of a path by stage (R252): L, S, M and R of a line, and of its fibre. -/
def pathDrops (s : State) (x : LossReadings) (p l : Nat) : Int × Int × Int × Int :=
  let drop := fun (b n : BitVec 16) => b.toInt - n.toInt
  let at2 := fun (t : List (List (BitVec 16))) (i j : Nat) => (t.getD i []).getD j (0 : BitVec 16)
  let dl := match s.groupSource (portGroup p) with
    | some c => match (s.cart c).base with
      | some b => drop (b.getD l 0) (at2 x.l c l)
      | none => 0
    | none => 0
  let ds := match s.light.baseline with | some b => drop (at2 b.s p l) (at2 x.s p l) | none => 0
  let dm := match s.light.baseline with | some b => drop (at2 b.m p l) (at2 x.m p l) | none => 0
  let far := s.light.farBase.find? fun b =>
    decide (b.1 = p ∧ b.2.1 = s.getF PORT_IL_NEIGH_ID p 0 ∧ b.2.2.1 = s.getF PORT_IL_STATUS_NPORT p 0)
  let dr := match far with
    | some b => drop (b.2.2.2.getD l 0) (BitVec.ofNat 16 (s.getF PORT_MON_R_FAR_DBM p l))
    | none => dm
  (dl, ds, dm, dr)

/-- The drop of a fibre's total against the mean of its lines' M drops (R252). -/
def fibreDrop (s : State) (x : LossReadings) (p : Nat) : Int :=
  match s.light.baseline with
  | some b =>
    (b.f.getD p 0).toInt - (x.f.getD p 0).toInt - meanOf ((List.range 17).map fun l => (s.pathDrops x p l).2.2.1)
  | none => 0

/-- The losses found: key, stage, port and line of LL_LOSS, and excess. Each path's loss stage is the first whose drop
exceeds the stage before it by STEP; a loss at L is the cartridge's, one at F the fibre's (R252). -/
def findLosses (s : State) (x : LossReadings) : List (Nat × Nat × Nat × Nat × Int) :=
  let step : Int := (max 1 (s.getF LL_MON_CFG_STEP 0 0) : Nat)
  let dedupe := fun (l : List (Nat × Nat × Nat × Nat × Int)) =>
    l.foldl (fun acc e => if acc.any fun y => y.1 = e.1 then acc else acc ++ [e]) []
  dedupe ((List.range 6).flatMap fun p =>
    let df := s.fibreDrop x p
    let fibre := if step ≤ df then [((3 * 16 + p) * 32 + 31, 3, p, 31, df)] else []
    let lines := (List.range 17).filterMap fun l =>
      let d := s.pathDrops x p l
      if step ≤ d.1 then
        some ((0 * 16 + 7 + (s.groupSource (portGroup p)).getD 0) * 32 + l, 0, 7, l, d.1)
      else if step ≤ d.2.1 - d.1 then some ((16 + p) * 32 + l, 1, p, l, d.2.1 - d.1)
      else if step ≤ d.2.2.1 - d.2.1 then some ((2 * 16 + p) * 32 + l, 2, p, l, d.2.2.1 - d.2.1)
      else if step ≤ df then none
      else if step ≤ d.2.2.2 - (d.2.2.1 + df) then some ((4 * 16 + p) * 32 + l, 4, p, l, d.2.2.2 - (d.2.2.1 + df))
      else none
    (lines.filter fun e => e.2.1 < 3) ++ fibre ++ (lines.filter fun e => e.2.1 = 4))

/-- A loss reported: recorded, and latched if no loss is (R252). -/
def reportLoss (s : State) (e : Nat × Nat × Nat × Nat × Int) : State :=
  let x := e.2.2.2.2.toNat
  let s := s.lightRecord 0x0806 (if 200 ≤ x then sevDegraded else sevInfo) 3 e.2.2.1 [e.2.1, e.2.2.1, e.2.2.2.1, x]
  if s.flag LL_LOSS_VALID 0 0 then s
  else ((((s.setF LL_LOSS_VALID 0 0 1).setF LL_LOSS_STAGE 0 0 e.2.1).setF LL_LOSS_PORT 0 0 e.2.2.1).setF LL_LOSS_LINE 0 0
    e.2.2.2.1).setF LL_LOSS_EXCESS 0 0 (min x 65535)

/-- The stage readings of R250 shown in the port engines. -/
def showReadings (s : State) (x : LossReadings) : State :=
  (List.range 6).foldl (fun s p =>
    let s := s.setF PORT_MON_F_F_DBM p 0 (x.f.getD p 0).toNat
    (List.range 17).foldl (fun s l =>
      ((s.setF PORT_MON_S_DBM p l ((x.s.getD p []).getD l 0).toNat).setF PORT_MON_M_DBM p l
        ((x.m.getD p []).getD l 0).toNat).setF PORT_MON_R_DBM p l ((x.r.getD p []).getD l 0).toNat) s) s

/-- Lane margins offered to the monitors once a second (R422). -/
def offerMargins (s : State) : State :=
  (List.range 102).foldl (fun s i => s.offer 4 0x0A i (sgn16 (s.getF PORT_LANE_MARGIN (i / 17) (i % 17))) s.time) s

/-- LOSS_LOCATION (R250, R252): each loss is reported once until its excess changes by STEP. -/
def lossLocation (s : State) (x : LossReadings) : State :=
  let s := (s.showReadings x).offerMargins
  if !s.flag LL_CTRL_LOC_EN 0 0 then s
  else
    let step := max 1 (s.getF LL_MON_CFG_STEP 0 0)
    let was := s.light.reported
    let due := fun (e : Nat × Nat × Nat × Nat × Int) =>
      let r : Nat := Tab.getN 0 was e.1
      decide (r = 0 ∨ step ≤ ((e.2.2.2.2 - r : Int)).natAbs)
    let l := s.findLosses x
    let now := l.foldl (fun t e => Tab.putN 0 t e.1 (if due e then e.2.2.2.2.toNat else Tab.getN 0 was e.1)) ([] : Tab Nat Nat)
    let s := s.setLight { s.light with reported := now }
    (l.filter due).foldl reportLoss s

/-! ### Cartridges and switchover (R253 to R257) -/

/-- The group a cartridge serves now. -/
def lcServes (s : State) (i : Nat) : Option Nat := [0, 1].find? fun g => s.groupSource g = some i

/-- LC2 is lit and serves no group (R254, R256). -/
def lc2Free (s : State) : Bool :=
  s.flag LC_STATUS_PRESENT 0 2 && s.flag LC_STATUS_LATCH 0 2 && decide (s.getF LC_STATUS_STATE 0 2 = 2) && (s.lcServes 2).isNone &&
  [0, 1].all fun g => decide ((s.switchOf g).phase = 0 ∨ (s.switchOf g).dest ≠ 2)

/-- A cartridge's state shown, with its pulse on a change. -/
def cartState (s : State) (i v : Nat) : State :=
  if s.getF LC_STATUS_STATE 0 i = v then s else (s.setF LC_STATUS_STATE 0 i v).pulse 5 0

/-- PENDING shown. -/
def showPending (s : State) : State :=
  s.setF LC_ROUTE_PENDING 0 0 (if [0, 1].any fun g => (s.switchOf g).waiting.isSome then 1 else 0)

/-- A switchover begins (R249, R255): calibrations of the group end, and its ports hold. -/
def startSwitch (s : State) (g dst : Nat) : State :=
  if (s.switchOf g).phase ≠ 0 then s
  else
    let s := (groupPorts g).foldl abortCal s
    let s := if g = 1 then s.abortCal 6 else s
    let s := (s.setSwitch g { phase := 1, dest := dst }).showPending
    (groupPorts g).foldl showHold s

/-- The new source feeds the group; the old one stands by if it is lit. -/
def takeSource (s : State) (g dst : Nat) : State :=
  let old := s.groupSource g
  let s := s.setF (if g = 0 then LC_ROUTE_A_SRC else LC_ROUTE_B_SRC) 0 0 dst
  let s := match old with
    | some o => if s.getF LC_STATUS_STATE 0 o = 3 ∧ (s.lcServes o).isNone then s.cartState o 2 else s
    | none => s
  let s := if g = 1 ∧ old.isNone then
      s.setF LL_STATUS_DR_ACTIVE 0 0 (((List.range 8).filter s.ringLaneLocked).foldl (fun m l => m ||| 2 ^ l) 0)
    else s
  s.cartState dst 3

/-- SWITCHOVER_PHASE_END (R255). -/
def switchoverPhaseEnd (s : State) (g : Nat) : State :=
  let x := s.switchOf g
  match x.phase with
  | 1 => s.setSwitch g { x with phase := 2 }
  | 2 => (s.setSwitch g { x with phase := 3 }).takeSource g x.dest
  | 3 => s.setSwitch g { x with phase := 4 }
  | 4 => (groupPorts g).foldl showHold (s.setSwitch g { waiting := x.waiting })
  | _ => s

/-- RELOCK_OVERRUN (R255). -/
def relockOverrun (s : State) (g : Nat) : State :=
  let x := s.switchOf g
  if x.phase = 3 ∧ !x.overrun then (s.setSwitch g { x with overrun := true }).lightRecord 0x0809 sevDegraded 1 g [g] else s

/-- Hard or dropout of a serving cartridge: LC2 takes the group where it is free (R254, R256). -/
def lightLost (s : State) (i : Nat) (dropout : Bool) : State :=
  let sev := if dropout then sevFailed else sevDegraded
  let ev := if dropout then 0x080A else 0x0808
  match s.lcServes i with
  | none => s.lightRecord ev sev 1 i [i]
  | some g =>
    if i = 2 then s.lightRecord ev sev 1 i [i]
    else if s.lc2Free then (s.lightRecord 0x0808 sevDegraded 1 i [i]).startSwitch g 2
    else if dropout then
      let s := s.setF (if g = 0 then LC_ROUTE_A_SRC else LC_ROUTE_B_SRC) 0 0 3
      let s := if g = 1 then s.setF LL_STATUS_DR_ACTIVE 0 0 0 else s
      s.lightRecord 0x080A sevFailed 1 i [i]
    else s.lightRecord 0x0808 sevDegraded 1 i [i]

/-- The tarnish threshold in 0.01 dB (R254, R259). -/
def tarnishDb (s : State) : Int :=
  let h := s.getF LC_CFG_HARD_DB 0 0
  let t := s.getF LC_CFG_TARNISH_DB 0 0
  if h ≤ t then ((h : Int) - 5) * 10 else (t : Int) * 10

/-- One cartridge's averaged L readings compared (R254). -/
def compareCart (s : State) (i : Nat) (l : List (BitVec 16)) : State :=
  match (s.cart i).base with
  | none => s
  | some b =>
    if !s.flag LC_STATUS_PRESENT 0 i || !(s.cart i).commissioned then s
    else
      let w := worstDrop b l
      let s := (s.setF LC_STATUS_WORST_LINE 0 i w.1).setF LC_STATUS_WORST_DB 0 i (max 0 w.2).toNat
      let s := if s.tarnishDb ≤ w.2 ∧ !s.flag LC_STATUS_TARNISH 0 i then
          (s.setF LC_STATUS_TARNISH 0 i 1).lightRecord 0x0807 sevDegraded 1 i [i, w.1]
        else s
      if ((s.getF LC_CFG_HARD_DB 0 0 * 10 : Nat) : Int) ≤ w.2 ∧ !s.flag LC_STATUS_HARD 0 i then
        (s.setF LC_STATUS_HARD 0 i 1).lightLost i false
      else s

/-- LASER_COMPARE (R254): group A's cartridge first, so that it takes LC2 when both reach hard at once (R256). -/
def laserCompare (s : State) (l : List (List (BitVec 16))) : State :=
  [0, 1, 2].foldl (fun s i => s.compareCart i (l.getD i [])) s

/-- A cartridge's light goes at once (R254, R256). -/
def goDark (s : State) (i : Nat) : State :=
  let s := (s.setF LC_STATUS_HARD 0 i 1).lightLost i true
  (s.setCart i { s.cart i with locked := false, commissioned := false }).cartState i 0

/-- DROPOUT (R254). -/
def dropout (s : State) (i : Nat) : State := if s.flag LC_STATUS_PRESENT 0 i then s.goDark i else s

/-- LATCH_RELEASE (R254): of a serving cartridge a dropout; of any other only its own loss. -/
def latchRelease (s : State) (i : Nat) : State :=
  if !s.flag LC_STATUS_LATCH 0 i then s
  else
    let s := s.setF LC_STATUS_LATCH 0 i 0
    if (s.lcServes i).isSome then s.goDark i
    else (s.setCart i { s.cart i with locked := false, commissioned := false }).cartState i 0

/-- The modules a dispatched COLLECTIVE, SEND or RECV exchanges frames with. -/
def trafficOf (s : State) (d : Nat) : List Nat :=
  let tasks := (s.dispatchedOf d).filter fun x => x.2.kind = .collective || x.2.kind = .send || x.2.kind = .recv
  tasks.flatMap fun x =>
    (if x.2.kind = .collective then [] else [srPeer x.2]) ++
    (List.range 16).flatMap fun c =>
      let ch := s.chan d c
      if ch.task = some x.1 then ch.tx.map (·.dst) ++ ch.rx.map (·.src) else []

/-- Is it a collective boundary of a group: no such task with traffic on a port of it (R254)? -/
def boundaryNow (s : State) (g : Nat) : Bool :=
  (List.range 4).all fun d => (s.trafficOf d).all fun c =>
    match s.route c with
    | some p => portGroup p != g
    | none => true

/-- A waiting switchover taken. -/
def takeWaiting (s : State) (g : Nat) : State :=
  match (s.switchOf g).waiting with
  | some dst => s.startSwitch g dst
  | none => s

/-- COLLECTIVE_BOUNDARY (R254). -/
def collectiveBoundary (s : State) (g : Nat) : State := if s.boundaryNow g then s.takeWaiting g else s

/-- A switchover asked for, at once or at the next boundary (R254). -/
def askSwitch (s : State) (g dst : Nat) (atBoundary : Bool) : State :=
  if atBoundary then (s.setSwitch g { s.switchOf g with waiting := some dst }).showPending else s.startSwitch g dst

/-- LC_ROUTE.CMD to LC2 (R254, R259): refused if LC2 serves the other group or is not lit. -/
def groupToLc2 (s : State) (g : Nat) (cmd : Nat) (atBoundary : Bool) : State :=
  if s.lcServes 2 = some g then s
  else if s.lc2Free then s.askSwitch g 2 atBoundary
  else s.refuseWrite (lightReg 1 8) (BitVec.ofNat 64 (cmd * 64 + if atBoundary then 32 else 0))

/-- LC_ROUTE.CMD 0b11 (R256, R257): LC2 returns to standby if its group's own cartridge is in service. -/
def returnLc2 (s : State) (atBoundary : Bool) : State :=
  let w := BitVec.ofNat 64 (3 * 64 + if atBoundary then 32 else 0)
  match s.lcServes 2 with
  | some g => if s.getF LC_STATUS_STATE 0 g = 2 then s.askSwitch g g atBoundary else s.refuseWrite (lightReg 1 8) w
  | none => if 2 ≤ s.getF LC_STATUS_STATE 0 2 then s else s.refuseWrite (lightReg 1 8) w

/-- CARTRIDGE_INSERT (R257): a cartridge warms up; one seen before in the bay has its baseline by its serial (R251). -/
def cartridgeInsert (s : State) (i : Nat) (serial : BitVec 32) : State :=
  let c := s.cart i
  let same : Bool := s.getF LC_STATUS_SERIAL 0 i = serial.toNat
  let s := ((s.setF LC_STATUS_PRESENT 0 i 1).setF LC_STATUS_LATCH 0 i 1).setF LC_STATUS_SERIAL 0 i serial.toNat
  let s := s.setCart i { base := if same then c.base else none
                         offsets := if same then c.offsets else []
                         field := s.getF LL_STATUS_START_PHASE 0 0 ≠ 0 }
  s.cartState i 1

/-- A cartridge not used (R257). -/
def rejectCart (s : State) (i : Nat) : State :=
  ((s.setCart i { s.cart i with rejected := true }).cartState i 0).lightRecord 0x080B sevDegraded 1 i [i]

/-- A commissioned cartridge in its place: serving its group if the group still names it or is dark, else standby, with
the switch-back of R257. -/
def placeCart (s : State) (i : Nat) : State :=
  let s := s.setCart i { s.cart i with locked := true, commissioned := true }
  if (s.lcServes i).isSome then s.cartState i 3
  else
    let s := s.cartState i 2
    if i < 2 then
      match s.groupSource i with
      | none => s.startSwitch i i
      | some 2 => if s.flag LC_CFG_SWBACK_EN 0 0 then s.askSwitch i i true else s
      | some _ => s
    else s

/-- The L baseline of a cartridge: its own, or the factory's for one delivered in the bay (R251). -/
def cartBase (s : State) (i : Nat) : Option (List (BitVec 16)) :=
  match (s.cart i).base with
  | some b => some b
  | none => if (s.cart i).field then none else s.light.baseline.map fun b => b.l.getD i []

/-- Every line within 1.0 dB of a baseline (R257). -/
def withinDb (b l : List (BitVec 16)) : Bool :=
  (List.range 17).all fun k => decide (((b.getD k 0).toInt - (l.getD k 0).toInt).natAbs ≤ 100)

/-- GRID_LOCK (R257): with a baseline at hand the cartridge is commissioned against it; else it waits for its reading at
60 s (R251). -/
def gridLock (s : State) (i : Nat) (l : List (BitVec 16)) : State :=
  if s.getF LC_STATUS_STATE 0 i ≠ 1 ∨ (s.cart i).locked then s
  else
    let s := s.setCart i { s.cart i with locked := true }
    match s.cartBase i with
    | none => s
    | some b =>
      if withinDb b l then (s.setCart i { s.cart i with base := some b }).placeCart i else s.rejectCart i

/-- GRID_LOCK_TIMEOUT (R257). -/
def gridLockTimeout (s : State) (i : Nat) : State :=
  if s.getF LC_STATUS_STATE 0 i = 1 ∧ !(s.cart i).locked then s.rejectCart i else s

/-- CARTRIDGE_COMMISSIONING (R251, R257): the reading becomes the baseline if every line is within 1.0 dB of the +13.0 dBm
of R233 (DEDUCED, assumption 53). -/
def cartridgeCommissioning (s : State) (i : Nat) (l offsets : List (BitVec 16)) : State :=
  let c := s.cart i
  if !c.locked ∨ c.commissioned ∨ c.rejected then s
  else if withinDb (List.replicate 17 1300#16) l then
    (s.setCart i { c with base := some l, offsets := offsets }).placeCart i
  else s.rejectCart i

/-! ### Start-up of the light layer (R258) -/

/-- A lane that passed its calibration comes up if it shows 3.5 dB, else it is held down (R234). -/
def bringLane (s : State) (p l : Nat) (x : LaneSet) (margin : BitVec 16) : State :=
  let c := s.cal p
  let s := s.setF PORT_LANE_MARGIN p l margin.toNat
  if 350 ≤ margin.toInt then
    let s := s.setCal p { c with settings := Tab.putN {} c.settings l x, passedAt := Tab.putN none c.passedAt l (some s.time) }
    let s := s.setF PORT_LANE_STATE p l 1
    if l < 16 then s.setLaneBit PORT_STATUS_ACTIVE p l true else s
  else s.portRecord 0x0802 sevDegraded p [p, l, margin.toNat]

/-- LL_START_PHASE_END (R258). -/
def llStartPhaseEnd (s : State) (ok : Bool) (fits : List (BitVec 64)) (lanes : List LanePass) : State :=
  let p := s.getF LL_STATUS_START_PHASE 0 0
  if p = 0 ∨ 5 < p ∨ s.flag LL_STATUS_STOPPED 0 0 then s
  else if !ok then (s.setF LL_STATUS_STOPPED 0 0 1).lightRecord 0x080C sevFailed 0 p [p]
  else
    let s := s.setF LL_STATUS_START_PHASE 0 0 (p + 1)
    match p with
    | 1 =>
      let s := [0, 1, 2].foldl (fun s i =>
        if s.flag LC_STATUS_PRESENT 0 i && !(s.cart i).rejected then
          (s.setCart i { s.cart i with base := s.cartBase i }).placeCart i
        else s) s
      ((List.range 294).foldl (fun s n => s.setF LL_RING_STATE 0 n 1) s).showUnlocked
    | 2 => s
    | 3 =>
      ((List.range 294).foldl (fun s n => s.setF LL_RING_STATE 0 n 2) s).showUnlocked.setF LL_STATUS_DR_ACTIVE 0 0 0xFF
    | 4 =>
      let s := (List.range 4).foldl (fun s d =>
        (s.putR ⟨.LL_FF, 0, d⟩ (fits.getD d 0)).setF LL_FF_VALID 0 d 1) s
      s.setF LL_STATUS_FF_VALID 0 0 1
    | _ => (lanes.foldl (fun s x => s.bringLane x.port.val x.lane.val x.settings x.margin) s).setF LL_STATUS_READY 0 0 1

/-- DARK_LANE_CALIBRATION_RETRY (R258). -/
def darkLaneRetry (s : State) (p l : Nat) (lit : Bool) (x : LaneSet) (margin : BitVec 16) : State :=
  if s.flag LL_STATUS_READY 0 0 && decide (s.getF PORT_LANE_STATE p l = 0) && !(s.getF PORT_STATUS_FAILED p 0).testBit l && lit then
    s.bringLane p l x margin
  else s

/-- LL_CTRL.CNT_CLR (R259). -/
def llCntClr (s : State) : State := (List.range 294).foldl (fun s n => s.setF LL_RING_RELOCKS 0 n 0) s

end State

def groupOfBool (b : Bool) : Nat := if b then 1 else 0

def execDieRingSlot (lane : Fin 8) (request urgent : BitVec 5) (s : State) := commit s (s.dieRingSlot lane request urgent)
def execRingLoopUpdate (rd : List RingReading) (s : State) := commit s (s.ringLoopUpdate rd)
def execRingUnlock (n : Fin 294) (s : State) := commit s (s.ringUnlock n)
def execRelockSearchEnd (n : Fin 294) (locked : Bool) (s : State) := commit s (s.relockSearchEnd n locked)
def execRingCoverTimeout (n : Fin 294) (s : State) := commit s (s.ringCoverTimeout n)
def execHeaterFeedForward (d : Fin 4) (s : State) := commit s (s.heaterFeedForward d)
def execLossOfSignal (p : Fin 6) (s : State) := commit s (s.lossOfSignal p)
def execCalibrationSlot (f : Fin 7) (s : State) := commit s (s.calibrationSlot f)
def execCalibrationPhaseEnd (f : Fin 7) (passed : Bool) (x : LaneSet) (margin : BitVec 16) (s : State) :=
  commit s (s.calibrationPhaseEnd f passed x margin)
def execAnnounceTimeout (f : Fin 7) (s : State) := commit s (s.announceTimeout f)
def execSparePreempt (f : Fin 7) (lane : Fin 16) (permanent : Bool) (s : State) :=
  commit s (s.sparePreempt f lane permanent)
def execFarReadings (p : Fin 6) (r : List (BitVec 16)) (s : State) := commit s (s.farReadings p r)
def execLossLocation (x : LossReadings) (s : State) := commit s (s.lossLocation x)
def execLaserCompare (l : List (List (BitVec 16))) (s : State) := commit s (s.laserCompare l)
def execDropout (i : Fin 3) (s : State) := commit s (s.dropout i)
def execLatchRelease (i : Fin 3) (s : State) := commit s (s.latchRelease i)
def execCollectiveBoundary (b : Bool) (s : State) := commit s (s.collectiveBoundary (groupOfBool b))
def execBoundaryTimeout (b : Bool) (s : State) := commit s (s.takeWaiting (groupOfBool b))
def execSwitchoverPhaseEnd (b : Bool) (s : State) := commit s (s.switchoverPhaseEnd (groupOfBool b))
def execGroupAToLc2 (r : Requester) (atBoundary : Bool) (s : State) :=
  commit s (s.atReg r (lightReg 1 8) (s.groupToLc2 0 1 atBoundary))
def execGroupBToLc2 (r : Requester) (atBoundary : Bool) (s : State) :=
  commit s (s.atReg r (lightReg 1 8) (s.groupToLc2 1 2 atBoundary))
def execReturnLc2ToStandby (r : Requester) (atBoundary : Bool) (s : State) :=
  commit s (s.atReg r (lightReg 1 8) (s.returnLc2 atBoundary))
def execCartridgeInsert (i : Fin 3) (serial : BitVec 32) (s : State) := commit s (s.cartridgeInsert i serial)
def execGridLock (i : Fin 3) (l : List (BitVec 16)) (s : State) := commit s (s.gridLock i l)
def execLlStartPhaseEnd (ok : Bool) (fits : List (BitVec 64)) (lanes : List LanePass) (s : State) :=
  commit s (s.llStartPhaseEnd ok fits lanes)
def execLlCntClr (r : Requester) (s : State) := commit s (s.atReg r (lightReg 0 0) s.llCntClr)
def execGridLockTimeout (i : Fin 3) (s : State) := commit s (s.gridLockTimeout i)
def execCartridgeCommissioning (i : Fin 3) (l offsets : List (BitVec 16)) (s : State) :=
  commit s (s.cartridgeCommissioning i l offsets)
def execRelockOverrun (b : Bool) (s : State) := commit s (s.relockOverrun (groupOfBool b))
def execDarkLaneCalibrationRetry (p : Fin 6) (lane : Fin 17) (lit : Bool) (x : LaneSet) (margin : BitVec 16) (s : State) :=
  commit s (s.darkLaneRetry p lane lit x margin)

end Sys2Proof.Machine
end

