-- ==== Sys2Proof/Machine/Fetch.lean ====
section
/-! DEFINITION. Fetch engines (R139 to R149, R159): what a task has fetched and in which order, staging reservations, reads
and their return, poison, and the operand bytes a unit of the core sees. -/

namespace Sys2Proof.Machine

/-! ### The operands of a MATMUL and of a DRAIN (R34, R117, R164, R166, R468, R469) -/

/-- Bytes of `n` elements of a format packed from a byte boundary. -/
def packedBytes (fmt n : Nat) : Nat := (n * elemBits fmt + 7) / 8

namespace Task

/-- Stored rows of the stationary operand: (address, bytes) (R34). -/
def wRows (x : Task) : List (Nat × Nat) :=
  if x.mmTransposed then (List.range x.declN).map fun n => (x.mmWAddr + n * x.mmWStride, packedBytes x.mmWFmt x.mmKt)
  else (List.range x.mmKt).map fun r => (x.mmWAddr + r * x.mmWStride, packedBytes x.mmWFmt x.declN)

/-- Address of the stationary scale of segment `g` and column `n` (R468). -/
def wScaleAt (x : Task) (g n : Nat) : Nat :=
  if x.mmTransposed then x.mmWScale + n * ((x.mmWStride + 31) / 32) + g else x.mmWScale + g * x.mmWStride + n

/-- Segments of a tile that hold rows of it. -/
def segments (x : Task) : Nat := (x.mmKt + 31) / 32

/-- The stationary scales' bytes. -/
def wScaleRows (x : Task) : List (Nat × Nat) :=
  if isMx x.mmWFmt then
    (List.range x.segments).flatMap fun g => (List.range x.declN).map fun n => (x.wScaleAt g n, 1)
  else []

/-- Bytes of one streamed element. -/
def xBytes (x : Task) : Nat := elemBits x.mmXFmt / 8

/-- Address of the streamed scale of token `m`, block `j` (R468). -/
def xScaleAt (x : Task) (m j : Nat) : Nat := x.mmXScale + m * ((x.mmXStride + 31) / 32) + j

/-- The rows of the streamed operand that enter: those not masked (R170). -/
def openRows (x : Task) : List Nat := (List.range x.mmM).filter fun m => !x.masked m

/-- The streamed operand, each row followed by its scales (R144). -/
def xRows (x : Task) : List (Nat × Nat) :=
  x.openRows.flatMap fun m =>
    (x.mmXAddr + m * x.mmXStride, x.mmKt * x.xBytes) ::
      (if isMx x.mmXFmt then (List.range x.segments).map fun j => (x.xScaleAt m j, 1) else [])

/-- Is tile element (m, n) of a DRAIN inside its tensor (R106)? -/
def drInside (x : Task) (m n : Nat) : Bool := decide (x.drRow0 + m < x.drRows) && decide (x.drCol0 + n < x.drCols)

/-- The index of tile element (m, n) in its tensor (R79, R106). -/
def drIndex (x : Task) (m n : Nat) : Nat := (x.drRow0 + m) * x.drCols + (x.drCol0 + n)

/-- The saved operand of a DRAIN and its scales (R166, R469). -/
def savedRows (x : Task) : List (Nat × Nat) :=
  if !x.drDeriv then []
  else
    let w := elemBits x.drSavedFmt / 8
    let cells := (List.range x.drM).flatMap fun m => (List.range x.drN).filterMap fun n =>
      if x.drInside m n then some (x.drRow0 + m, x.drCol0 + n) else none
    (cells.map fun c => (x.drSaved + (c.1 * x.drCols + c.2) * w, w)) ++
    (if isMx x.drSavedFmt then
      cells.map fun c => (x.drSavedScale + c.1 * ((x.drCols + 31) / 32) + c.2 / 32, 1) else [])

/-- What a task reads, in the order of R144. A FUSED chain reads each item's operands as its stages reach them, and the
operands of a VECTOR have no extent the spec gives (DESIGN CHOICE, assumption 46). -/
def operandRows (x : Task) : List (Nat × Nat) :=
  match x.kind with
  | .matmul => if x.allMasked then [] else x.wRows ++ x.wScaleRows ++ [(x.mmMask, x.mask.length)] ++ x.xRows
  | .drain => x.savedRows
  | _ => []

end Task

/-- The 64-byte lines of a list of byte ranges, each once, in order of first need. -/
def linesNeeded (l : List (Nat × Nat)) : List Nat :=
  (l.flatMap fun r => (List.range ((r.1 % 64 + r.2 + 63) / 64)).map fun i => r.1 / 64 + i).eraseDups

namespace State

/-- Does an address lie in the scratchpad window of physical core `p` (R139)? -/
def ownScratch (s : State) (d p a : Nat) : Bool :=
  match s.logicalOf d p with
  | some c => decide (scratchBase d c ≤ a ∧ a < scratchBase d c + 0x400000)
  | none => false

/-- The lines a task has fetched into staging. -/
def fetchLines (s : State) (d p : Nat) (x : Task) : List Nat :=
  (linesNeeded x.operandRows).filter fun l => !s.ownScratch d p (64 * l)

/-- Bytes of the staging area (R140, R159). -/
def stageBytes (s : State) (d p : Nat) : Nat := s.getF FE_STAGE_SIZE (d * 34 + p) 0 * 65536

/-- The reservation of a task. -/
def resvOf (s : State) (d p : Nat) (t : TaskId) : Option Reservation := (s.coreAt d p).resv.find? fun r => r.task = t

/-- The predecessors a task waits for before its reads (R143): every one complete but its tile-chain predecessor, which
must then be a MATMUL or a RESUME. -/
def mayFetch (s : State) (t : TaskId) (x : Task) : Bool :=
  (s.graph t.d t.g).tasks.all fun y =>
    !y.succ.contains x.idx || decide (y.status = .completed) ||
    (y.tileId.isSome && decide (y.tileId = x.tileId) && (y.kind = .matmul || y.kind = .resume))

/-- The queued and dispatched tasks of a core in queue order. -/
def fetchQueue (s : State) (d p : Nat) : List (TaskId × Task) :=
  (s.coreAt d p).runAhead.filterMap fun t => (s.task? t).map fun x => (t, x)

/-- A task takes its reservation: the smaller of its footprint and half the area, while it fits behind those ahead of it
(R141). -/
def reserve (s : State) (d p : Nat) (t : TaskId) (x : Task) : Option State :=
  let lines := s.fetchLines d p x
  let n := min (64 * lines.length) (s.stageBytes d p / 2)
  let c := s.coreAt d p
  let used := c.resv.foldl (fun n r => n + r.bytes) 0
  if used + n ≤ s.stageBytes d p then
    some (s.setCoreAt d p { c with resv := c.resv ++ [{ task := t, bytes := n, todo := lines }] })
  else none

/-- Reservations taken in queue order: a task that cannot take one stops those behind it (R141). -/
def reserveAll (d p : Nat) : List (TaskId × Task) → State → State
  | [], s => s
  | (t, x) :: l, s =>
    if (s.resvOf d p t).isSome || (s.fetchLines d p x).isEmpty then reserveAll d p l s
    else match s.reserve d p t x with
      | some s => reserveAll d p l s
      | none => s

/-- Entries in use (R147): one for each 256 bytes of a request. -/
def entriesUsed (s : State) (d p : Nat) : Nat :=
  (s.coreAt d p).entries.foldl (fun n e => n + (e.len + 255) / 256) 0

end State

/-- The first lines of a list that make one request: contiguous, up to 256 bytes within a 256-byte boundary, or, merged, up
to a 4 KiB granule (R147). -/
def requestLines (merge : Bool) : List Nat → List Nat
  | [] => []
  | l :: t =>
    let span := if merge then 64 else 4
    let rec go (last : Nat) : List Nat → List Nat
      | [] => []
      | k :: r => if k = last + 1 ∧ k / span = l / span then k :: go k r else []
    l :: go l t

namespace State

/-- FETCH_READ_ISSUE: the next read of the first queued task that may issue one and has a line left (R143, R144, R147). -/
def fetchIssue (s : State) (d p : Nat) : State :=
  let q := s.fetchQueue d p
  let s := reserveAll d p q s
  match q.find? fun x => s.mayFetch x.1 x.2 && ((s.resvOf d p x.1).any fun r => !r.todo.isEmpty) with
  | none => s
  | some x =>
    match s.resvOf d p x.1 with
    | none => s
    | some r =>
      let ls := requestLines (s.flag FE_CFG_MERGE_EN (d * 34 + p) 0) r.todo
      let n := 64 * ls.length
      if 384 < s.entriesUsed d p + (n + 255) / 256 then s
      else
        let s := (s.addF FE_RD_REQ_COUNT (d * 34 + p) 0 1).addF FE_RD_BYTES_COUNT (d * 34 + p) 0 n
        let c := s.coreAt d p
        let e : FetchEntry := { task := x.1, addr := 64 * (ls.headD 0), len := n, issuedAt := s.time,
                                sampled := s.getF FE_RD_REQ_COUNT (d * 34 + p) 0 % 64 = 0 }
        s.setCoreAt d p { c with
          entries := c.entries ++ [e]
          resv := c.resv.map fun y => if y.task = x.1 then { y with todo := y.todo.drop ls.length } else y }

/-- A poisoned line that holds part of a task's row mask: its bits mask nothing (R149, R169). -/
def maskLine (t : TaskId) (a : Nat) (s : State) : State :=
  match s.task? t with
  | some x => s.setTask t { x with
      mask := x.mask.mapIdx fun i y => if (x.mmMask + i) / 64 = a / 64 then (y.1, true) else y }
  | none => s

/-- One line of a read arrives: poisoned by an uncorrectable error found now or by the poison its source carries (R149). -/
def stageLine (d p : Nat) (e : FetchEntry) (bad : List Nat) (s : State) (i : Nat) : State :=
  let a := e.addr + 64 * i
  let hit := bad.contains i
  let s := if hit && isStackAddr a then
      (match s.findRegion a with
        | some k => s.eccRead (s.locate k a) .uncorrectable
        | none => s)
    else s
  let poisoned := hit || s.anyBad a 64
  let s := if poisoned then
      s.coreRecord 0x0502 sevSuspect d p [p, e.task.g, e.task.idx, a]
        (((s.task? e.task).map Task.epoch).getD 0) ((s.task? e.task).bind fun x => recTask e.task x)
    else s
  if e.discard then s
  else
    let s := if poisoned then s.maskLine e.task a else s
    let c := s.coreAt d p
    let fill := fun (t : Tab Nat (Option (Byte × Bool))) =>
      (List.range 64).foldl (fun t j => Tab.putN none t (a + j) (some (s.readByte (a + j), poisoned))) t
    s.setCoreAt d p { c with resv := c.resv.map fun r => if r.task = e.task then { r with have_ := fill r.have_ } else r }

/-- FETCH_READ_RETURN: the data goes to staging, or, of a task that has gone, is discarded and counted (R148). `bad` lists
the 64-byte lines of the read that came uncorrectable. -/
def fetchReturn (s : State) (d p entry : Nat) (bad : List Nat) : State :=
  match (s.coreAt d p).entries[entry]? with
  | none => s
  | some e =>
    let s := (List.range (e.len / 64)).foldl (stageLine d p e bad) s
    let c := s.coreAt d p
    let left := c.entries.eraseIdx entry
    let last := e.discard && !(left.any fun y => y.task = e.task)
    let s := s.setCoreAt d p { c with
      entries := left
      resv := if last then c.resv.filter fun r => r.task ≠ e.task else c.resv }
    let s := if e.discard then s.addF FE_RD_DISCARD_COUNT (d * 34 + p) 0 e.len else s
    if e.sampled then s.offer d 0x05 ((s.logicalOf d p).getD 0) ((s.time - e.issuedAt : Nat) : Int) e.issuedAt else s

/-- Every read of a task has come. -/
def fetched (s : State) (d p : Nat) (t : TaskId) (x : Task) : Bool :=
  match s.resvOf d p t with
  | some r => r.todo.isEmpty && !(s.coreAt d p).entries.any fun e => e.task = t
  | none => (s.fetchLines d p x).isEmpty

/-- A byte of an operand as a unit of the core reads it: in its own scratchpad in place, else from staging; with its
poison (R139, R149). -/
def operandByte (s : State) (d p : Nat) (t : TaskId) (a : Nat) : Byte × Bool :=
  if s.ownScratch d p a then (s.readByte a, s.readBad a)
  else match s.resvOf d p t with
    | some r => (Tab.getN none r.have_ a).getD (s.readByte a, s.readBad a)
    | none => (s.readByte a, s.readBad a)

/-- The little-endian number in `n` bytes of an operand, with its poison. -/
def operandNat (s : State) (d p : Nat) (t : TaskId) (a n : Nat) : Nat × Bool :=
  let l := (List.range n).map fun i => s.operandByte d p t (a + i)
  (ofLe (l.map (·.1)), l.any (·.2))

/-- An element of a floating operand: the canonical NaN of its format where its granule is poisoned (R149). -/
def operandElem (s : State) (d p : Nat) (t : TaskId) (f : FloatFmt) (a : Nat) : Nat :=
  let x := s.operandNat d p t a (f.bits / 8)
  if x.2 then f.nanCode else x.1

/-- A scale byte of an operand: the NaN scale where it is poisoned. -/
def operandScale (s : State) (d p : Nat) (t : TaskId) (a : Nat) : Nat :=
  let x := s.operandNat d p t a 1
  if x.2 then 0xFF else x.1

/-- FE_CNT_CLR (R159). -/
def feCntClr (s : State) (d p : Nat) : State :=
  let k := d * 34 + p
  let s := [RegName.FE_RD_BYTES, .FE_RD_REQ, .FE_RD_DISCARD, .FE_CYC_ENTRIES_FULL, .FE_CYC_SPACE].foldl
    (fun s r => s.putR ⟨r, k, 0⟩ 0) s
  (List.range 8).foldl (fun s j => (s.putR ⟨.FE_STG_FULL, k, j⟩ 0).putR ⟨.FE_STG_EMPTY, k, j⟩ 0) s

end State

def execFetchReadIssue (d : Fin 4) (c : Fin 34) (s : State) := commit s (s.fetchIssue d c)
def execFetchReadReturn (d : Fin 4) (c : Fin 34) (entry : Fin 384) (bad : List Nat) (s : State) :=
  commit s (s.fetchReturn d c entry bad)
def execFeCntClr (r : Requester) (d : Fin 4) (c : Fin 34) (s : State) :=
  commit s (s.atReg r (coreReg d c 0x4018) (s.feCntClr d c))

end Sys2Proof.Machine
end

