-- ==== Sys2Proof/Machine/Matrix.lean ====
section
/-! DEFINITION. The matrix array: loading tiles (R33 to R37), the swap (R40), passing tokens (R28 to R32, R38, R39), the foot
(R73), and hand-over to the accumulators (R92 to R96). -/

namespace Sys2Proof.Machine

/-! ### Arithmetic of a column (R28, R39, R60, R61, R70 to R73) -/

/-- The lane of a mode (R60, R61). -/
def laneOf (mode : Nat) : FloatFmt := if mode = 0 then a21 else lane42

/-- A value as a lane holds it. -/
def FloatFmt.hold (f : FloatFmt) (v : Val) : Val := f.decode (f.round v)

/-- A segment of a floating mode (R28): the first product, then each product added into the lane. -/
def laneSum (f : FloatFmt) : List (Val × Val) → Val
  | [] => .fin false 0 0
  | x :: t => t.foldl (fun a y => f.hold (a.add (f.hold (y.1.mul y.2)))) (f.hold (x.1.mul x.2))

/-- A segment of a code mode (R32). -/
def codeSum (xs ws : List Int) : Int := (xs.zip ws).foldl (fun a p => a + p.1 * p.2) 0

/-- Foot stage F1 (R73): the segment sum by its scales, as FP32, with what it counts. -/
def footF1 (v : Val) (scales : List (Option Int)) : F32 × RangeClass :=
  let v := scales.foldl (fun (v : Val) k => match k with | some e => v.scale e | none => .nan) v
  let r := fp32.convert .nearest 0 v
  (BitVec.ofNat 32 r.1, r.2)

/-- F2 and F3 (R39). -/
def footSum (s : Nat → F32) : F32 := fadd (fadd (s 0) (s 1)) (fadd (s 2) (s 3))

/-- What a code decodes to (R66, R67). -/
def codeVal (mode book c : Nat) : Int := if mode = 2 then w1Val c else w2Val book c

/-- A token's segment as the feeder sends it: the elements, the block's scale, and, in the code modes, its aligned form. -/
structure FedSeg where
  vals : List Val
  scale : Option Int
  aligned : Aligned
  deriving DecidableEq, Repr

/-- The element of a tile at array row `r`, column `n`; rows past K_t hold zeros (R35). -/
def WTile.cell (w : WTile) (r n : Nat) : Nat := (w.cells.getD r []).getD n 0

/-- The scale exponent of a tile's segment and column. -/
def WTile.scaleExp (w : WTile) (g n : Nat) : Option Int := e8m0 ((w.scales.getD g []).getD n 127)

/-- The sum of segment `g` in column `n` at F1. -/
def segmentF1 (w : WTile) (f : FedSeg) (g n : Nat) : F32 × RangeClass :=
  if w.mode = 1 ∨ w.mode = 2 then
    if f.aligned.nonFinite ∨ w.bad.any (fun b => b.1 / 32 = g ∧ b.2 = n) then (0x7FC00000, .nonfinite)
    else
      let ws := (List.range 32).map fun i =>
        if 32 * g + i < w.kt then codeVal w.mode w.codebook (w.cell (32 * g + i) n) else 0
      footF1 (.ofInt (codeSum f.aligned.lanes ws)) [some f.aligned.exp, f.scale]
  else
    let lane := laneOf w.mode
    let wf := (elemFmt w.fmt).getD e4m3
    let ps := (List.range 32).map fun i => (f.vals.getD i (.fin false 0 0), wf.decode (w.cell (32 * g + i) n))
    footF1 (laneSum lane ps) [f.scale, w.scaleExp g n]

namespace State

/-! ### Loading a tile (R33 to R37) -/

/-- Does a tile serve a MATMUL: same operand address, format, mode, orientation, K_t and codebook (R37), and wide enough
for its columns (DEDUCED, assumption 47)? -/
def serves (w : WTile) (x : Task) : Bool :=
  w.valid && w.addr = x.mmWAddr && w.fmt = x.mmWFmt && w.mode = x.mmMode && w.transposed == x.mmTransposed &&
  w.kt = x.mmKt && w.codebook = x.mmCodebook && decide (x.declN ≤ w.cols)

/-- One element of the stationary operand for array row `r`, column `n`, with its poison (R30, R34). -/
def wElem (s : State) (d p : Nat) (t : TaskId) (x : Task) (r n : Nat) : Nat × Bool :=
  let row := x.mmWAddr + (if x.mmTransposed then n else r) * x.mmWStride
  let i := if x.mmTransposed then r else n
  let b := elemBits x.mmWFmt
  if 8 ≤ b then (s.operandElem d p t ((elemFmt x.mmWFmt).getD e4m3) (row + i * (b / 8)), false)
  else
    let y := s.operandByte d p t (row + i * b / 8)
    (y.1.toNat >>> (i * b % 8) % 2 ^ b, y.2)

/-- The tile a MATMUL loads: rows 0 to K_t − 1 from its operand, the others zero (R33 to R35). -/
def loadTile (s : State) (d p : Nat) (t : TaskId) (x : Task) : WTile :=
  let elems := (List.range x.mmKt).map fun r => (List.range x.declN).map fun n => s.wElem d p t x r n
  { valid := true, mode := x.mmMode, fmt := x.mmWFmt, transposed := x.mmTransposed, kt := x.mmKt
    codebook := x.mmCodebook, addr := x.mmWAddr, cols := x.declN
    cells := elems.map fun l => l.map (·.1)
    scales := if isMx x.mmWFmt then
        (List.range x.segments).map fun g => (List.range x.declN).map fun n => s.operandScale d p t (x.wScaleAt g n)
      else []
    bad := (List.range x.mmKt).flatMap fun r => (List.range x.declN).filterMap fun n =>
      if ((elems.getD r []).getD n (0, false)).2 then some (r, n) else none
    owner := some t }

/-- The shadow registers of a core shown (R36, R52). -/
def showShadow (s : State) (d p : Nat) : State :=
  let k := d * 34 + p
  let w := (s.coreAt d p).shadow
  let s := (s.setF CORE_ARRAY_STATUS_SHADOW_VALID k 0 (if w.valid then 1 else 0)).setF CORE_ARRAY_STATUS_SHADOW_MODE k 0
    (min w.mode 3)
  let r := s.getR ⟨.CORE_ARRAY_CODEBOOK, k, 0⟩
  s.putR ⟨.CORE_ARRAY_CODEBOOK, k, 0⟩ (BitVec.ofNat 64 (w.codebook * 65536 + r.toNat % 65536))

/-- The active registers of a core shown. -/
def showActive (s : State) (d p : Nat) : State :=
  let k := d * 34 + p
  let w := (s.coreAt d p).active
  let s := s.setF CORE_ARRAY_STATUS_ACTIVE_MODE k 0 (min w.mode 3)
  let r := s.getR ⟨.CORE_ARRAY_CODEBOOK, k, 0⟩
  s.putR ⟨.CORE_ARRAY_CODEBOOK, k, 0⟩ (BitVec.ofNat 64 (r.toNat / 65536 * 65536 + w.codebook))

/-- The unfinished MATMULs of a core in queue order. -/
def matmulQueue (s : State) (d p : Nat) : List (TaskId × Task) :=
  (s.fetchQueue d p).filter fun y => decide (y.2.kind = .matmul) && !y.2.fin && !y.2.allMasked

/-- Will the array keep the tile in force when the task's turn comes: the active one, where no test has run since it was
loaded, for the first MATMUL of the queue, else the one its predecessor in the queue uses (R37)? -/
def keepsTile (s : State) (d p : Nat) (t : TaskId) (x : Task) : Bool :=
  let c := s.coreAt d p
  match (s.matmulQueue d p).takeWhile fun y => y.1 ≠ t with
  | [] => !c.active.tested && serves c.active x
  | l => match l.getLast? with
    | some y =>
      y.2.mmWAddr = x.mmWAddr && y.2.mmWFmt = x.mmWFmt && y.2.mmMode = x.mmMode && y.2.mmTransposed == x.mmTransposed &&
      y.2.mmKt = x.mmKt && y.2.mmCodebook = x.mmCodebook && decide (x.declN ≤ y.2.declN)
    | none => false

/-- The first MATMUL of the queue that neither keeps a tile nor has one loaded: the loader's next. -/
def loadNext (s : State) (d p : Nat) : Option (TaskId × Task) :=
  let c := s.coreAt d p
  (s.matmulQueue d p).find? fun y =>
    !s.keepsTile d p y.1 y.2 && decide (c.shadow.owner ≠ some y.1) && decide (c.active.owner ≠ some y.1)

/-- SHADOW_LOAD: the tile of the loader's next MATMUL, queued or dispatched, into the free shadow registers, once it may
read and its operand has come (R33, R143); its stationary part leaves the reservation (R141). -/
def shadowLoad (s : State) (t : TaskId) : State :=
  match s.task? t with
  | some x =>
    (match x.core with
      | some p =>
        let c := s.coreAt t.d p
        if !c.shadow.valid && ((s.loadNext t.d p).any fun y => y.1 = t) && s.mayFetch t x && s.fetched t.d p t x then
          let n := 64 * ((linesNeeded (x.wRows ++ x.wScaleRows)).filter fun l => !s.ownScratch t.d p (64 * l)).length
          let c := { c with
            shadow := s.loadTile t.d p t x
            resv := c.resv.map fun r => if r.task = t then { r with bytes := r.bytes - min n r.bytes } else r }
          (s.setCoreAt t.d p c).showShadow t.d p
        else s
      | none => s)
  | none => s

/-- A dispatched MATMUL still passes tokens over the active tile. -/
def activeBusy (s : State) (d p : Nat) : Bool :=
  let c := s.coreAt d p
  (s.dispatchedOf d).any fun y =>
    decide (y.2.core = some p) && decide (y.2.kind = .matmul) && !y.2.fin && !y.2.allMasked &&
    decide (c.shadow.owner ≠ some y.1)

/-- The swap bubble of a mode (R40, R42). -/
def bubble (mode : Nat) : Nat := if 3 ≤ mode then 62 else 31

/-- Active and shadow exchanged (R36, R40): the retired tile's set is free, and the shadow fields show that tile (DEDUCED,
assumption 55). -/
def swapTiles (s : State) (d p : Nat) : State :=
  let k := d * 34 + p
  let c := s.coreAt d p
  let s := if c.active.valid then s.addF CORE_ARRAY_CYC_BUBBLE_COUNT k 0 (bubble c.active.mode) else s
  let s := (s.addF CORE_ARRAY_TILES_COUNT k 0 1).setCoreAt d p { c with active := c.shadow, shadow := {} }
  let s := (s.showActive d p).setF CORE_ARRAY_STATUS_SHADOW_VALID k 0 0
  let s := s.setF CORE_ARRAY_STATUS_SHADOW_MODE k 0 (min c.active.mode 3)
  let r := s.getR ⟨.CORE_ARRAY_CODEBOOK, k, 0⟩
  s.putR ⟨.CORE_ARRAY_CODEBOOK, k, 0⟩ (BitVec.ofNat 64 (c.active.codebook * 65536 + r.toNat % 65536))

/-- TILE_SWAP (R40): the shadow load is done and the outgoing tile's last token has entered. -/
def tileSwap (s : State) (d p : Nat) : State :=
  if (s.coreAt d p).shadow.valid && !s.activeBusy d p then s.swapTiles d p else s

/-! ### Passing tokens (R38, R117) -/

/-- Segment `g` of token `m` as the feeder sends it (R32, R70 to R72): elements past K_t are zeros (R35), and those of a
block whose scale is NaN are NaN (R63). -/
def fedSeg (s : State) (d p : Nat) (t : TaskId) (x : Task) (m g : Nat) : FedSeg :=
  let f := (elemFmt x.mmXFmt).getD e4m3
  let scale := if isMx x.mmXFmt && g < x.segments then e8m0 (s.operandScale d p t (x.xScaleAt m g)) else some 0
  let vals := (List.range 32).map fun i =>
    if 32 * g + i < x.mmKt then
      if scale.isNone then .nan
      else f.decode (s.operandElem d p t f (x.mmXAddr + m * x.mmXStride + (32 * g + i) * x.xBytes))
    else .fin false 0 0
  ⟨vals, scale, alignBlock f vals⟩

/-- The counts of a segment at the row feeder: of its rows below K_t, in the code modes (R35, R71, R80). -/
def fedCounts (x : Task) (f : FedSeg) (g : Nat) : List Count :=
  if x.mmMode = 1 ∨ x.mmMode = 2 then f.aligned.counts.take (x.mmKt - 32 * g) else []

/-- One token: the sums it will hand over, and what it counts. -/
def passToken (s : State) (d p : Nat) (t : TaskId) (x : Task) (w : WTile) (tile m : Nat) : Hand × SlotDelta :=
  let segs := (List.range 4).map (s.fedSeg d p t x m)
  let f1 := (List.range x.declN).map fun n => (List.range 4).map fun g =>
    segmentF1 w (segs.getD g ⟨[], none, ⟨[], 0, true, []⟩⟩) g n
  let sums := f1.map fun l => footSum fun g => (l.getD g (0, .normal)).1
  let sums := if x.maskPoisoned m then sums.map fun _ => 0x7FC00000 else sums
  let fed := countDelta ((List.range 4).flatMap fun g => fedCounts x (segs.getD g ⟨[], none, ⟨[], 0, true, []⟩⟩) g)
  let foot := footDelta (f1.flatMap fun l => l.map (·.2))
  (⟨t, tile, m, sums, x.mmAdd, false⟩, { fed with ovf := fed.ovf + foot.ovf, van := fed.van + foot.van })

/-- An accumulator entry of a core; one that nothing has written since its tile was bound has no defined content (R89). -/
def accAt (s : State) (d p i : Nat) : F32 :=
  match Tab.getN none (s.coreAt d p).acc i with
  | some v => v
  | none => Config.accContent (d * 34 + p) (s.coreAt d p).accSeed i

def setAcc (s : State) (d p i : Nat) (v : F32) : State :=
  let c := s.coreAt d p
  s.setCoreAt d p { c with acc := Tab.putN none c.acc i (some v) }

end State

/-- Entry of element (m, n) of a tile (R88); of a pair the lo entry, its hi entry following (R87). -/
def Bound.entry (b : Bound) (m n : Nat) : Nat := b.base * 1024 + (m * b.n + n) * (if b.pair then 2 else 1)

namespace State

/-- Element (m, n) set to +0 (R170). -/
def zeroElem (s : State) (d p : Nat) (b : Bound) (m n : Nat) : State :=
  let i := b.entry m n
  let s := s.setAcc d p i 0
  if b.pair then s.setAcc d p (i + 1) 0 else s

/-- The rows that a mask leaves out of an OVERWRITE pass read +0 (R170). -/
def zeroMasked (s : State) (d p : Nat) (x : Task) (b : Bound) : State :=
  if x.mmAdd then s
  else ((List.range x.mmM).filter x.masked).foldl (fun s m =>
    (List.range b.n).foldl (fun s n => s.zeroElem d p b m n) s) s

/-- The in-flight counter of a bound tile changed (R94). -/
def inflightAdd (s : State) (d p g tile n : Nat) : State :=
  let c := s.coreAt d p
  s.setCoreAt d p { c with tiles := c.tiles.map fun b =>
    if b.g = g ∧ b.tile = tile then { b with inflight := b.inflight + n } else b }

/-- The unmasked tokens of a pass into a bound tile enter offset 0 in ascending order (R38, R94, R170). -/
def passTokens (s : State) (d p : Nat) (t : TaskId) (x : Task) (w : WTile) (tile : Nat) : State :=
  let rows := x.openRows
  let out := rows.map (s.passToken d p t x w tile)
  let c := s.coreAt d p
  let s := s.setCoreAt d p { c with foot := c.foot ++ out.map (·.1) }
  let s := s.inflightAdd d p t.g tile rows.length
  let s := out.foldl (fun s o => s.enterCounts d x.mmXSlot x.epoch o.2) s
  s.addF CORE_ARRAY_CYC_BUSY_COUNT (d * 34 + p) 0 (if 3 ≤ x.mmMode then 2 * rows.length else rows.length)

/-- MATMUL (R117, R169 to R171): with its tile active and its operands there, its tokens enter and it is done; with every
row masked it loads nothing and is done at once. -/
def matmul (s : State) (t : TaskId) : State :=
  match s.running? t .matmul with
  | none => s
  | some x =>
    match x.core, x.tileOf with
    | some p, some b =>
      let c := s.coreAt t.d p
      if x.allMasked then (s.zeroMasked t.d p x b).finish t
      else if serves c.active x && (decide (c.active.owner = some t) || !c.active.tested) && s.fetched t.d p t x then
        ((s.zeroMasked t.d p x b).passTokens t.d p t x c.active x.mmTile).finish t
      else s
    | _, _ => s

/-! ### Hand-over (R92 to R96) -/

/-- An ECC event at an entry that a hand-over or the port reads for a task (R96, R370): its record and count. -/
def accEcc (s : State) (d p tile : Nat) (t : TaskId) (e : EntryEcc) : State :=
  let x := s.task? t
  let epoch := (x.map Task.epoch).getD 0
  let task := x.bind fun x => recTask t x
  if e.uncorrectable then s.coreRecord 0x0302 sevSuspect d p [p, tile, e.entry] epoch task
  else ((s.addF ACC_STATUS_ECC_CORR (d * 34 + p) 0 1).coreRecord 0x0301 sevInfo d p [p, tile, e.entry] epoch
    task).coreEccBurst d p

/-- Is an entry found uncorrectable? -/
def eccBad (ecc : List EntryEcc) (i : Nat) : Bool := ecc.any fun e => e.uncorrectable && e.entry = i

end State

/-- The compensated add of R92: the new hi and lo. -/
def pairAdd (hi lo x : F32) : F32 × F32 :=
  let sum := fadd hi x
  let bp := fsub sum hi
  let e := fadd (fsub hi (fsub sum bp)) (fsub x bp)
  let t := fadd lo e
  let h := fadd sum t
  let l := fsub t (fsub h sum)
  if (f32Val h).isFin then (h, l) else (h, 0)

/-- The canonical FP32 NaN. -/
def f32Nan : F32 := 0x7FC00000

namespace State

/-- One element handed over (R92): an entry found uncorrectable that is read takes the canonical NaN (R96). -/
def handElem (d p : Nat) (b : Bound) (h : Hand) (ecc : List EntryEcc) (s : State) (n : Nat) : State :=
  let i := b.entry h.m n
  let x := h.sums.getD n 0
  if b.pair then
    if h.add then
      let hi := if eccBad ecc i || eccBad ecc (i + 1) then f32Nan else s.accAt d p (i + 1)
      let r := pairAdd hi (s.accAt d p i) x
      (s.setAcc d p i r.2).setAcc d p (i + 1) r.1
    else (s.setAcc d p i 0).setAcc d p (i + 1) x
  else if h.add then s.setAcc d p i (fadd (if eccBad ecc i then f32Nan else s.accAt d p i) x)
  else s.setAcc d p i x

/-- The entries a hand-over reads. -/
def handReads (b : Bound) (h : Hand) : List Nat :=
  if h.add && !h.discard then
    (List.range b.n).flatMap fun n => if b.pair then [b.entry h.m n, b.entry h.m n + 1] else [b.entry h.m n]
  else []

/-- HAND_OVER: the token that entered first (R93). `ecc` are the errors found in the entries it reads. -/
def handOver (s : State) (d p : Nat) (ecc : List EntryEcc) : State :=
  let c := s.coreAt d p
  match c.foot with
  | [] => s
  | h :: rest =>
    let s := s.setCoreAt d p { c with foot := rest }
    match c.tiles.find? fun b => b.g = h.task.g ∧ b.tile = h.tile with
    | none => s
    | some b =>
      let reads := handReads b h
      let ecc := ecc.filter fun e => reads.contains e.entry
      let s := ecc.foldl (fun s e => s.accEcc d p h.tile h.task e) s
      let s := if h.discard then s else (List.range b.n).foldl (handElem d p b h ecc) s
      let c := s.coreAt d p
      let hit := fun (y : Bound) => decide (y.g = h.task.g ∧ y.tile = h.tile)
      let tiles := c.tiles.map fun y => if hit y then { y with inflight := y.inflight - 1 } else y
      s.setCoreAt d p { c with tiles := tiles.filter fun y => !(hit y && y.releasing && y.inflight = 0) }

end State

def execShadowLoad (t : TaskId) (s : State) := commit s (s.shadowLoad t)
def execTileSwap (d : Fin 4) (c : Fin 34) (s : State) := commit s (s.tileSwap d c)
def execMatmul (t : TaskId) (s : State) := commit s (s.matmul t)
def execHandOver (d : Fin 4) (c : Fin 34) (ecc : List EntryEcc) (s : State) := commit s (s.handOver d c ecc)

end Sys2Proof.Machine
end

