-- ==== Sys2Proof/Machine/Accum.lean ====
section
/-! DEFINITION. The accumulator port and the output stage: activation and its derivative (R101 to R104), DRAIN (R100, R103,
R105, R106), SPILL and RESUME (R97, R98), the start of a port task (R95), and debug visibility (R108, R109). -/

namespace Sys2Proof.Machine

/-! ### Activation (R101, R102) and derivative (R104) -/

/-- 1.0 in FP32. -/
def f32One : F32 := 0x3F800000

/-- A zero of the sign of `x`. -/
def zeroLike (x : F32) : F32 := if x.getLsbD 31 then 0x80000000 else 0

/-- An FP32 word as the output stage holds it: a subnormal is a zero of its sign, a NaN the canonical one (R58, R59). -/
def f32Hold (x : F32) : F32 := f32Of (f32Val x)

/-- A BF16 descriptor value widened to FP32. -/
def f32OfBf16 (a : Nat) : F32 := f32Of (bf16.decode a)

/-- f(x) of R101: every special value from its table, the functions of codes 3 to 6 elsewhere by the algorithm of R102,
a free function (`Config.activation`). -/
def activate (code alpha : Nat) (x : F32) : F32 :=
  match f32Val x with
  | .nan => f32Of .nan
  | .inf neg =>
    match code with
    | 0 => f32Hold x
    | 1 => if neg then 0 else f32Hold x
    | 2 => if !neg then f32Hold x else if alpha % 32768 ≠ 0 then f32Hold x else 0
    | 3 => if neg then 0 else f32One
    | 4 => if neg then fneg f32One else f32One
    | _ => if neg then 0x80000000 else f32Hold x
  | .fin neg m _ =>
    match code with
    | 0 => f32Hold x
    | 1 => if m = 0 ∨ neg then 0 else f32Hold x
    | 2 => if m = 0 then zeroLike x else if neg then fmul (f32OfBf16 alpha) x else f32Hold x
    | 3 => if m = 0 then 0x3F000000 else f32Hold (Config.activation 3 x)
    | _ => if m = 0 then zeroLike x else f32Hold (Config.activation code x)

/-- y · (1 − y) and 1 − y², each as a multiply and a subtraction and as one fused term: the two evaluations that the one
multiply and one fused term of R104 allow. -/
def outputForms (code : Nat) (y : F32) : F32 × F32 :=
  if code = 3 then (fmul y (fsub f32One y), ffma (fneg y) y y)
  else (fsub f32One (fmul y y), ffma (fneg y) y f32One)

/-- g(s) of R104. From a saved output of sigmoid or tanh, the value where both evaluations give it, else a free one
(DEDUCED from R102 and R104, assumption 48). -/
def derivative (code alpha : Nat) (fromZ : Bool) (x : F32) : F32 :=
  match f32Val x with
  | .nan => f32Of .nan
  | v =>
    if code = 1 then (if fpos x then f32One else 0)
    else if code = 2 then (if fpos x then f32One else f32OfBf16 alpha)
    else if fromZ then
      match v with
      | .inf neg => if code = 3 ∨ code = 4 ∨ neg then 0 else f32One
      | _ => f32Hold (Config.derivative code true x)
    else
      let f := outputForms code x
      if f.1 = f.2 then f.1 else f32Hold (Config.derivative code false x)

/-! ### The elements of a tile -/

namespace State

/-- The value of element (m, n) of a tile as the port reads it, pairs collapsed (R100 stage 0); an entry found uncorrectable
gives NaN (R96). -/
def tileValue (s : State) (d p : Nat) (b : Bound) (ecc : List EntryEcc) (m n : Nat) : F32 :=
  let i := b.entry m n
  if b.pair then
    if eccBad ecc i || eccBad ecc (i + 1) then f32Nan else fadd (s.accAt d p (i + 1)) (s.accAt d p i)
  else if eccBad ecc i then f32Nan else f32Hold (s.accAt d p i)

/-- Every entry of a tile. -/
def tileEntries (b : Bound) : List Nat :=
  (List.range (b.m * b.n * (if b.pair then 2 else 1))).map fun k => b.base * 1024 + k

/-- The ECC events a port read of a tile finds (R96). -/
def portEcc (s : State) (d p : Nat) (b : Bound) (tile : Nat) (t : TaskId) (ecc : List EntryEcc) : State × List EntryEcc :=
  let ecc := ecc.filter fun e => (tileEntries b).contains e.entry
  (ecc.foldl (fun s e => s.accEcc d p tile t e) s, ecc)

/-- Entry `n` of the scale vector. -/
def scaleAt (s : State) (d p : Nat) (t : TaskId) (x : Task) (n : Nat) : F32 :=
  BitVec.ofNat 32 (s.operandElem d p t fp32 (x.drScale + 4 * n))

/-- Entry `n` of the bias vector, widened (R100). -/
def biasAt (s : State) (d p : Nat) (t : TaskId) (x : Task) (n : Nat) : F32 :=
  if x.drBiasBf16 then f32OfBf16 (s.operandElem d p t bf16 (x.drBias + 2 * n))
  else BitVec.ofNat 32 (s.operandElem d p t fp32 (x.drBias + 4 * n))

/-- Stages 0 and 1. -/
def scaled (s : State) (d p : Nat) (t : TaskId) (x : Task) (b : Bound) (ecc : List EntryEcc) (m n : Nat) : F32 :=
  let v := s.tileValue d p b ecc m n
  if x.drScale = 0 then v else fmul v (s.scaleAt d p t x n)

/-- The value after stage 2: the activation input z (R100, R105). -/
def preValue (s : State) (d p : Nat) (t : TaskId) (x : Task) (b : Bound) (ecc : List EntryEcc) (m n : Nat) : F32 :=
  let v := s.scaled d p t x b ecc m n
  if x.drBias = 0 then v else fadd v (s.biasAt d p t x n)

/-- The value after stage 3 (R100). -/
def postValue (s : State) (d p : Nat) (t : TaskId) (x : Task) (b : Bound) (ecc : List EntryEcc) (m n : Nat) : F32 :=
  activate x.drFunc x.drAlpha (s.preValue d p t x b ecc m n)

/-- Element (m, n) of the saved operand, widened to FP32 (R103, R469). -/
def savedValue (s : State) (d p : Nat) (t : TaskId) (x : Task) (m n : Nat) : F32 :=
  let f := (elemFmt x.drSavedFmt).getD e4m3
  let r := x.drRow0 + m
  let c := x.drCol0 + n
  let e := s.operandElem d p t f (x.drSaved + (r * x.drCols + c) * (f.bits / 8))
  f32Of (if isMx x.drSavedFmt then
      mxVal f (s.operandScale d p t (x.drSavedScale + r * ((x.drCols + 31) / 32) + c / 32)) e
    else f.decode e)

/-- Stages 0 to 2 of derivative mode (R103). -/
def gradValue (s : State) (d p : Nat) (t : TaskId) (x : Task) (b : Bound) (ecc : List EntryEcc) (m n : Nat) : F32 :=
  fmul (s.scaled d p t x b ecc m n) (derivative x.drFunc x.drAlpha x.drSavedZ (s.savedValue d p t x m n))

end State

/-! ### Conversion and writing (R105, R106, R469) -/

/-- One output of the stage: its value by element, destination, format, rounding, slot, tensor, scale tensor, and, for the
task digest, its base address and ordinal (R352; its scales count under 2^16 more: DESIGN CHOICE, assumption 49). `dense`
is the address of the queue entry of an output that is queued (R152). -/
structure Output where
  value : Nat → Nat → F32
  dst : Nat
  fmt : Nat
  rnd : Nat
  slot : Nat
  tensor : Nat
  scales : Nat
  base : Nat
  ord : Nat
  dense : Option Nat

namespace State

/-- Bytes written as a run of elements from index `i0`, line by line, each with its conversion tag (R192), and digested at
their offset from `base` (R352). -/
def writeRun (s : State) (t : TaskId) (x : Task) (o : Output) (a i0 : Nat) (bytes : List Byte) : State :=
  let w := elemBits o.fmt / 8
  let s := (linesOf a bytes).foldl (fun s l =>
    s.write { addr := l.1, data := l.2, epoch := some x.epoch, tensor := o.tensor
              conv := some { slot := o.slot, fmt := o.fmt, index0 := i0 + (l.1 - a) / w }, owner := some t }) s
  if o.dense.isSome then s else s.addDigest t o.ord (a - o.base) bytes

/-- Columns of a DRAIN's tile that lie inside its tensor (R106). -/
def colsIn (x : Task) (n : Nat) : Nat := min n (x.drCols - x.drCol0)

/-- A row converted (R76, R65): the codes, the scales from its first block on, and the counts. -/
def convertRow (s : State) (d : Nat) (x : Task) (o : Output) (m n : Nat) : List Nat × List Nat × List Count :=
  let f := (elemFmt o.fmt).getD e4m3
  let mode := Rounding.ofCode o.rnd
  let ns := fun (j : Nat) => noise (s.getR ⟨.GE_NOISE_SEED, d, 0⟩) x.epoch o.tensor (x.drIndex m j)
  let vals := (List.range n).map fun j => f32Val (o.value m j)
  if isMx o.fmt then
    let first := x.drCol0 % 32
    let blocks := (List.range ((first + n + 31) / 32)).map fun k =>
      let lo := 32 * k - first
      let xs := (vals.drop lo).take (32 * (k + 1) - first - lo)
      mxBlock f mode (fun i => ns (lo + i)) xs
    (blocks.flatMap (·.2.1), blocks.map (·.1), blocks.flatMap (·.2.2))
  else
    let r := vals.mapIdx fun j v => f.convert mode (ns j) v
    (r.map (·.1), [], (vals.zip r).map fun y => countOf y.1 y.2.2)

/-- One row of an output: converted, counted, written. -/
def outRow (d : Nat) (t : TaskId) (x : Task) (o : Output) (cols : Nat) (s : State) (m : Nat) : State :=
  let w := elemBits o.fmt / 8
  let n := colsIn x cols
  if x.drRows ≤ x.drRow0 + m ∨ n = 0 then s
  else
    let r := s.convertRow d x o m n
    let s := s.enterCounts d o.slot x.epoch (countDelta r.2.2)
    let i0 := x.drIndex m 0
    let a := match o.dense with
      | some q => q + m * cols * w
      | none => o.dst + i0 * w
    let s := s.writeRun t x o a i0 (r.1.flatMap fun c => toLe w c)
    if isMx o.fmt then
      let off := (x.drRow0 + m) * ((x.drCols + 31) / 32) + x.drCol0 / 32
      let bs := r.2.1.map fun c => BitVec.ofNat 8 c
      (s.writePlain (o.scales + off) bs (some x.epoch) o.tensor (some t)).addDigest t (2 ^ 16 + o.ord) off bs
    else s

/-- The outputs of a DRAIN over the tile `b` as the port reads it; `dense` is the queue entry of a chain's stage, `ord` the
ordinal of its first output that is not queued, `adv` the advance of its destination (R152). -/
def drainOutputs (s : State) (d p : Nat) (t : TaskId) (x : Task) (b : Bound) (ecc : List EntryEcc) (dense : Option Nat)
    (ord adv : Nat) : List Output :=
  let main := if x.drDeriv then s.gradValue d p t x b ecc else s.postValue d p t x b ecc
  let o : Output :=
    { value := main, dst := x.drDst, fmt := x.drFmt, rnd := x.drRnd, slot := x.drSlot, tensor := x.tensor
      scales := x.drOutScale, base := x.drDst - adv, ord := ord, dense := dense }
  if x.drSec = 0 ∨ x.drDeriv then [o]
  else
    [o, { value := if x.drSecPost then main else s.preValue d p t x b ecc
          dst := x.drSec, fmt := x.drSecFmt, rnd := x.drSecRnd, slot := x.drSecSlot, tensor := x.drSecTensor
          scales := x.drSecScale, base := x.drSec, ord := if dense.isSome then ord else ord + 1, dense := none }]

/-- The tile drained: every row of every output, and the stage's cycles (R100 to R106). -/
def drainTile (s : State) (d p : Nat) (t : TaskId) (x : Task) (b : Bound) (ecc : List EntryEcc) (dense : Option Nat)
    (ord adv : Nat) : State :=
  let r := s.portEcc d p b x.drTile t ecc
  let os := s.drainOutputs d p t x b r.2 dense ord adv
  let s := os.foldl (fun s o => (List.range b.m).foldl (outRow d t x o b.n) s) r.1
  s.addF OUT_CYC_BUSY_COUNT (d * 34 + p) 0 (b.m * ((b.n + 127) / 128))

/-! ### The port (R95, R99) -/

/-- ACC_PORT_START: the port's next task has started and no sum of its tile is in flight. -/
def portStart (s : State) (d p : Nat) : State :=
  let c := s.coreAt d p
  match c.port.head? with
  | none => s
  | some t =>
    match s.task? t with
    | some x =>
      let quiet : Bool := match x.tileOf with
        | some b => c.tiles.any fun y => decide (y.g = t.g ∧ y.tile = b.tile ∧ y.inflight = 0)
        | none => false
      if x.status = .dispatched ∧ x.started ∧ !x.fin ∧ quiet then s.setCoreAt d p { c with portGo := true } else s
    | none => s

/-- The task that holds the port and may read or write its tile, with its core and tile. -/
def onPort (s : State) (t : TaskId) (k : Kind) : Option (Task × Nat × Bound) :=
  match s.running? t k with
  | some x =>
    (match x.core, x.tileOf with
      | some p, some b =>
        let c := s.coreAt t.d p
        if c.portGo && decide (c.port.head? = some t) then some (x, p, b) else none
      | _, _ => none)
  | none => none

/-- DRAIN in forward or derivative mode, once its saved operand has come. -/
def drain (s : State) (t : TaskId) (deriv : Bool) (ecc : List EntryEcc) : State :=
  match s.onPort t .drain with
  | some (x, p, b) =>
    if x.drDeriv ≠ deriv ∨ !s.fetched t.d p t x then s else (s.drainTile t.d p t x b ecc none 0 0).finish t
  | none => s

/-- The pair of element (m, n) as SPILL writes it: lo then hi; an uncorrectable entry makes the element NaN (R62, R96,
R97). -/
def spillPair (s : State) (d p : Nat) (b : Bound) (ecc : List EntryEcc) (m n : Nat) : List Byte :=
  let i := b.entry m n
  if b.pair then
    if eccBad ecc i || eccBad ecc (i + 1) then toLe 4 0 ++ toLe 4 f32Nan.toNat
    else toLe 4 (s.accAt d p i).toNat ++ toLe 4 (s.accAt d p (i + 1)).toNat
  else toLe 4 0 ++ toLe 4 (if eccBad ecc i then f32Nan else s.accAt d p i).toNat

/-- SPILL (R97). -/
def spill (s : State) (t : TaskId) (ecc : List EntryEcc) : State :=
  match s.onPort t .spill with
  | some (x, p, b) =>
    let r := s.portEcc t.d p b x.drTile t ecc
    let bs := (List.range b.m).flatMap fun m => (List.range b.n).flatMap fun n => s.spillPair t.d p b r.2 m n
    let s := r.1.writePlain x.spBuf bs (some x.epoch) x.tensor (some t)
    (s.addDigest t 0 0 bs).finish t
  | none => s

/-- One element of a RESUME (R98): the pair at its place in the buffer, NaN where the line is poisoned (R149). -/
def resumeElem (t : TaskId) (x : Task) (p : Nat) (b : Bound) (s : State) (k : Nat) : State :=
  let a := x.spBuf + 8 * k
  let lo := s.operandNat t.d p t a 4
  let hi := s.operandNat t.d p t (a + 4) 4
  let bad := lo.2 || hi.2
  let h : F32 := if bad then f32Nan else BitVec.ofNat 32 hi.1
  let l : F32 := if bad then 0 else BitVec.ofNat 32 lo.1
  let i := b.base * 1024 + k * (if b.pair then 2 else 1)
  if b.pair then (s.setAcc t.d p i l).setAcc t.d p (i + 1) h else s.setAcc t.d p i (fadd h l)

/-- RESUME (R98). -/
def resume (s : State) (t : TaskId) : State :=
  match s.onPort t .resume with
  | some (x, p, b) => ((List.range (b.m * b.n)).foldl (resumeElem t x p b) s).finish t
  | none => s

/-! ### Debug visibility (R108) and counters (R109) -/

/-- The tile whose units cover an entry (R108). -/
def covering (s : State) (d p e : Nat) : Option Bound :=
  (s.coreAt d p).tiles.find? fun b => decide (b.base * 1024 ≤ e ∧ e < (b.base + b.units) * 1024)

/-- ACC_DBG_FLAGS as a read of ACC_DBG_DATA latches it; `fixed` and `err` are what the entries' ECC shows. -/
def dbgFlags (b : Option Bound) (fixed err : Bool) : Word :=
  let bit := fun (c : Bool) (n : Nat) => if c then 2 ^ n else 0
  let ecc := bit fixed 4 + bit err 3
  match b with
  | none => BitVec.ofNat 64 ecc
  | some b => BitVec.ofNat 64 (b.tile % 4096 * 2 ^ 20 + b.inflight % 256 * 256 + ecc + bit b.pair 2 + 2 +
      bit (b.inflight ≠ 0) 0)

/-- Does an entry hold an element of a bound tile? Any other holds no defined value (R89, R108). -/
def entryDefined (s : State) (d p e : Nat) : Bool :=
  (s.coreAt d p).tiles.any fun b => decide (b.base * 1024 ≤ e ∧ e < b.base * 1024 + b.m * b.n * (if b.pair then 2 else 1))

/-- The entries at `e` and `e + 1` as one word; one without a defined value reads free (assumption 56). -/
def dbgEntries (s : State) (d p e : Nat) : Word × State :=
  let e1 := (e + 1) % 131072
  let w := s.draw
  let x := if s.entryDefined d p e then (s.accAt d p e).toNat else w.1.toNat % 2 ^ 32
  let y := if s.entryDefined d p e1 then (s.accAt d p e1).toNat else w.1.toNat / 2 ^ 32
  (BitVec.ofNat 64 (y * 2 ^ 32 + x), if s.entryDefined d p e && s.entryDefined d p e1 then s else w.2)

/-- A read of ACC_DBG_DATA (R108): outside debug mode it gives zero and a record. -/
def accDbgRead (s : State) (d p : Nat) (fixed err : Bool) : State :=
  if !s.flag DBG_STATUS_DEBUG_MODE 0 0 then
    { s.coreRecord 0x0303 sevInfo d p [p] with readData := 0 }
  else
    let e := s.getF ACC_DBG_ADDR_ENTRY (d * 34 + p) 0
    let r := s.dbgEntries d p e
    { r.2.putR ⟨.ACC_DBG_FLAGS, d * 34 + p, 0⟩ (dbgFlags (s.covering d p e) fixed err) with readData := r.1 }

/-- ACC_CNT_CLR (R109). -/
def accCntClr (s : State) (d p : Nat) : State :=
  let k := d * 34 + p
  ((s.setF ACC_STATUS_ECC_CORR k 0 0).putR ⟨.OUT_CYC_BUSY, k, 0⟩ 0).putR ⟨.OUT_CYC_STALL, k, 0⟩ 0

end State

def execDrainForward (t : TaskId) (ecc : List EntryEcc) (s : State) := commit s (s.drain t false ecc)
def execDrainDerivative (t : TaskId) (ecc : List EntryEcc) (s : State) := commit s (s.drain t true ecc)
def execAccPortStart (d : Fin 4) (c : Fin 34) (s : State) := commit s (s.portStart d c)
def execSpill (t : TaskId) (ecc : List EntryEcc) (s : State) := commit s (s.spill t ecc)
def execResume (t : TaskId) (s : State) := commit s (s.resume t)
def execAccDbgRead (r : Requester) (d : Fin 4) (c : Fin 34) (fixed err : Bool) (s : State) :=
  commit s (s.atReg r (coreReg d c 0x3018) (s.accDbgRead d c fixed err))
def execAccCntClr (r : Requester) (d : Fin 4) (c : Fin 34) (s : State) :=
  commit s (s.atReg r (coreReg d c 0x3008) (s.accCntClr d c))

end Sys2Proof.Machine
end

