-- ==== Sys2Proof/Machine/Chain.lean ====
section
/-! DEFINITION. VECTOR tasks (R150) and FUSED chains (R151 to R158): the items of a chain's stages, their queues and credits,
and the stall counters. -/

namespace Sys2Proof.Machine

/-! ### The vector unit -/

/-- The counting class of a code of `Config.vectorCounts`. -/
def vectorClass (n : Nat) : RangeClass :=
  match n with
  | 1 => .ovf | 2 => .van | 3 => .sub | 4 => .nonfinite | _ => .normal

/-- The ordinal in the task digest of an operand that is written: its place among the written ones (R352). -/
def writtenRank (runs : List (Nat × Nat × Nat × List Byte)) (o : Nat) : Nat :=
  ((List.range o).filter fun k => runs.any fun r => r.1 = k).length

namespace State

/-- A vector program run: what it writes and counts is free (`Config.vectorWrites`, `Config.vectorCounts`), the writes and
counts go where its operands say (R80, R150, R192). `addr` gives the address of an operand where it is not its own
(R152); `queued` names operands whose writes are not digested, `ord` the ordinal of a stage's operand. -/
def runVector (s : State) (d p : Nat) (t : TaskId) (x : Task) (addr : Nat → Word → Nat) (queued : Nat → Bool)
    (ord : Nat → Nat) : State :=
  let base := match s.logicalOf d p with
    | some c => scratchBase d c
    | none => scratchBase d 0
  let prog := s.readBytesAt (base + x.veProgOff) (8 * x.veProgLen)
  let ops := x.veOperands
  let runs := Config.vectorWrites prog ops s.fresh
  let counts := Config.vectorCounts prog ops s.fresh
  let s := { s with fresh := s.fresh + 1 }
  let s := runs.foldl (fun s r =>
    match ops[r.1]? with
    | none => s
    | some w =>
      let a := addr r.1 w + r.2.1
      let n := elemBits (voFmt w) / 8
      let s := (linesOf a r.2.2.2).foldl (fun s l =>
        s.write { addr := l.1, data := l.2, epoch := some x.epoch, tensor := x.tensor
                  conv := some { slot := voSlot w, fmt := voFmt w, index0 := r.2.2.1 + (l.1 - a) / n }
                  owner := some t }) s
      if queued r.1 then s else s.addDigest t (ord (writtenRank runs r.1)) (a - voAddr w) r.2.2.2) s
  counts.foldl (fun s c =>
    match ops[c.1]? with
    | some w => s.enterCounts d (voSlot w) x.epoch (countDelta [⟨vectorClass c.2.1, c.2.2⟩])
    | none => s) s

/-- VECTOR (R150). -/
def vector (s : State) (t : TaskId) : State :=
  match s.running? t .vector with
  | some x =>
    (match x.core with
      | some p => (s.runVector t.d p t x (fun _ w => voAddr w) (fun _ => false) id).finish t
      | none => s)
  | none => s

/-! ### The items of a chain (R152 to R154) -/

/-- Entry of item `i` in the queue behind stage `j` (R152, R153). -/
def queueEntry (d : Nat) (x : Task) (j i : Nat) : Nat :=
  let r := x.fuStage j
  poolBase d + stQOff r + i % stQDepth r * (stQEntry r * 64)

/-- The address advance of stage `j` at item `i` (R152). -/
def advanceOf (x : Task) (j i : Nat) : Nat := i * stAdv (x.fuStage j) * 64

/-- A descriptor with its address fields of words 4 to 6 replaced: bits 43:0 of word `k`. -/
def withAddr (m : Task) (k a : Nat) : Task :=
  let w := m.word k
  { m with w := m.w.set k (BitVec.ofNat 64 (w.toNat / 2 ^ 44 * 2 ^ 44 + a % 2 ^ 44)) }

/-- A MATMUL stage's template for item `i`: the stationary address advanced, the streamed operand from the queue. -/
def matmulItem (d : Nat) (x m : Task) (j i : Nat) : Task :=
  let m := withAddr m 4 (m.mmWAddr + advanceOf x j i)
  if j = 0 then m else withAddr m 5 (queueEntry d x (j - 1) i)

/-- Outputs of a stage that are not queued: a DRAIN's destination and secondary, a VECTOR's operands, a RECV's buffer. -/
def stageOutputs (m : Task) (last : Bool) : Nat :=
  let n := if last then 1 else 0
  match m.kind with
  | .drain => n + (if m.drSec = 0 then 0 else 1)
  | .vector => m.veOperands.length + n - 1
  | .recv => n
  | _ => 0

/-- The digest ordinal of the first output of stage `j` (R352). -/
def stageOrd (s : State) (d : Nat) (x : Task) (j : Nat) : Nat :=
  (List.range j).foldl (fun n k => n + stageOutputs (s.stageTask d x k) (decide (k + 1 = x.fuStages))) 0

/-- One item of a MATMUL stage: its tile is loaded and swapped in unless it is the active one (R37), and its tokens pass
into a tile of the ring. -/
def matmulStage (s : State) (p : Nat) (t : TaskId) (x m : Task) (j i : Nat) : State :=
  let m := matmulItem t.d x m j i
  let b := ringTile m t.g j (i % stQDepth (x.fuStage j))
  let c := s.coreAt t.d p
  let s := if serves c.active m && !c.active.tested then s
    else
      let s := s.setCoreAt t.d p { c with shadow := s.loadTile t.d p t m }
      (s.showShadow t.d p).swapTiles t.d p
  (s.zeroMasked t.d p m b).passTokens t.d p t m (s.coreAt t.d p).active b.tile

/-- One item of a DRAIN stage: from the ring of the stage before it, into its queue entry or its advanced destination. -/
def drainStage (s : State) (p : Nat) (t : TaskId) (x prev m : Task) (j i : Nat) (ecc : List EntryEcc) : State :=
  let b := ringTile prev t.g (j - 1) (i % stQDepth (x.fuStage (j - 1)))
  if j + 1 < x.fuStages then s.drainTile t.d p t m b ecc (some (queueEntry t.d x j i)) (s.stageOrd t.d x j) 0
  else
    let adv := advanceOf x j i
    s.drainTile t.d p t (withAddr m 5 (m.drDst + adv)) b ecc none (s.stageOrd t.d x j) adv

/-- One item of a VECTOR stage: operand 0 from the queue, or advanced. -/
def vectorStage (s : State) (p : Nat) (t : TaskId) (x m : Task) (j i : Nat) : State :=
  let out := if j + 1 < x.fuStages then some (m.veOperands.length - 1) else none
  let addr := fun (k : Nat) (w : Word) =>
    if k = 0 then (if j = 0 then voAddr w + advanceOf x j i else queueEntry t.d x (j - 1) i)
    else if out = some k then queueEntry t.d x j i
    else voAddr w
  s.runVector t.d p t m addr (fun k => decide (out = some k)) fun o => s.stageOrd t.d x j + o

/-- A transfer stage's template for item `i`: its buffer from or to the queue, or advanced. -/
def transferItem (d : Nat) (x m : Task) (j i : Nat) : Task :=
  let a := if m.kind = .send then (if j = 0 then m.srLocal + advanceOf x j i else queueEntry d x (j - 1) i)
    else if j + 1 < x.fuStages then queueEntry d x j i else m.srLocal + advanceOf x j i
  withAddr m 5 a

/-- One step of a SEND or RECV stage: the transfer of its item begun on its channel, or, once it is through, the channel
ready for the next; true when the item is through (R157). -/
def transferStage (s : State) (t : TaskId) (x m : Task) (j i : Nat) : State × Bool :=
  let c := m.srChan
  let ch := s.chan t.d c
  if ch.task ≠ some t then (s, false)
  else if ch.through then
    let b := transferItem t.d x m j i
    let bytes := (List.range b.srLength).map fun k => s.engineByte (b.srLocal + k)
    let s := if m.kind = .recv ∧ j + 1 = x.fuStages then
        s.addDigest t (s.stageOrd t.d x j) (b.srLocal - m.srLocal) bytes
      else s
    (s.setChan t.d c { task := some t, early := ch.early }, true)
  else if ch.begun then (s, false)
  else
    let m := transferItem t.d x m j i
    let s := s.setChan t.d c { ch with body := some m }
    match m.kind, m.srMode with
    | .send, 0 => (s.beginSend t m, false)
    | .send, _ => (s.beginRemoteSend t m, false)
    | _, 0 => (s.beginRecv t m, false)
    | _, _ => (s.beginRemoteRecv t m, false)

/-- May stage `j` take its next item (R153, R154): an item left, its input there, a credit for its output, and, at stage 0,
no stop under way (R156)? -/
def stageMay (y : Chain) (last j : Nat) : Bool :=
  match y.stages[j]? with
  | none => false
  | some z =>
    decide (z.done < y.items) && (decide (j ≠ 0) || !y.draining) &&
    (decide (j = 0) || (y.stages[j - 1]?).any fun u => decide (z.done < u.done)) &&
    (decide (j = last) || decide (0 < z.credits))

/-- An item of stage `j` counted: its output credit taken, its input credit returned. -/
def stageDone (y : Chain) (j : Nat) : Chain :=
  { y with stages := y.stages.mapIdx fun k z =>
      if k = j then { z with done := z.done + 1, credits := z.credits - 1 }
      else if k + 1 = j then { z with credits := z.credits + 1 }
      else z }

/-- The input tile of a DRAIN stage has no sum in flight (R95). -/
def ringQuiet (s : State) (p : Nat) (t : TaskId) (x prev : Task) (j i : Nat) : Bool :=
  let b := ringTile prev t.g (j - 1) (i % stQDepth (x.fuStage (j - 1)))
  (s.coreAt t.d p).tiles.all fun u => decide (u.g ≠ b.g ∨ u.tile ≠ b.tile ∨ u.inflight = 0)

/-- The item counted on the core's chain; with the last item of the last stage the task's work is done. -/
def countItem (s : State) (p : Nat) (t : TaskId) (j : Nat) : State :=
  let c := s.coreAt t.d p
  match c.chain with
  | none => s
  | some y =>
    let y := stageDone y j
    let s := s.setCoreAt t.d p { c with chain := some y }
    if y.stages.all fun z => z.done = y.items then s.finish t else s

/-- STAGE_ITEM: stage `j` of a running chain takes its next item, if it may. `ecc` are the errors found in the tile a DRAIN
stage reads. -/
def stageItem (s : State) (t : TaskId) (j : Nat) (ecc : List EntryEcc) : State :=
  match s.running? t .fused with
  | none => s
  | some x =>
    match x.core.bind fun p => (s.coreAt t.d p).chain.map fun y => (p, y) with
    | none => s
    | some (p, y) =>
      if y.task ≠ t ∨ !stageMay y (x.fuStages - 1) j then s
      else
        let i := (y.stages[j]?.map (·.done)).getD 0
        let m := s.stageTask t.d x j
        match m.kind with
        | .matmul => (s.matmulStage p t x m j i).countItem p t j
        | .drain =>
          let prev := s.stageTask t.d x (j - 1)
          if s.ringQuiet p t x prev j i then (s.drainStage p t x prev m j i ecc).countItem p t j else s
        | .vector => (s.vectorStage p t x m j i).countItem p t j
        | .send | .recv =>
          let r := s.transferStage t x m j i
          if r.2 then r.1.countItem p t j else r.1
        | _ => s

/-- The hand-overs of a core that are under way, all made. -/
def handAll : Nat → Nat → Nat → State → State
  | 0, _, _, s => s
  | n + 1, d, p, s => if (s.coreAt d p).foot.isEmpty then s else handAll n d p (s.handOver d p [])

/-- Rounds over the stages of a chain in stage order, a stalled stage passed over (R154). -/
def chainRounds : Nat → TaskId → Nat → Nat → State → State
  | 0, _, _, _, s => s
  | n + 1, t, p, k, s =>
    let s := (List.range k).foldl (fun s j => s.stageItem t j []) s
    chainRounds n t p k (handAll ((s.coreAt t.d p).foot.length) t.d p s)

/-- FUSED (R151): the chain runs its items through its stages as far as it can. -/
def fused (s : State) (t : TaskId) : State :=
  match s.running? t .fused with
  | some x =>
    (match x.core with
      | some p => chainRounds (x.fuItems + x.fuStages) t p x.fuStages s
      | none => s)
  | none => s

/-- STAGE_STALL_END (R158): the run of stalled cycles counted and offered; a stage past its last item counts none. -/
def stageStallEnd (s : State) (t : TaskId) (j : Nat) (full : Bool) (cycles : Nat) : State :=
  match s.running? t .fused with
  | some x =>
    (match x.core.bind fun p => (s.coreAt t.d p).chain.map fun y => (p, y) with
      | some (p, y) =>
        if y.stages[j]?.any fun z => decide (z.done < y.items) then
          let k := t.d * 34 + p
          let s := if full then s.addF FE_STG_FULL_COUNT k j cycles else s.addF FE_STG_EMPTY_COUNT k j cycles
          s.offer t.d 0x03 ((s.logicalOf t.d p).getD 0 * 8 + j) cycles s.time
        else s
      | none => s)
  | none => s

end State

def execVector (t : TaskId) (s : State) := commit s (s.vector t)
def execFused (t : TaskId) (s : State) := commit s (s.fused t)
def execStageItem (t : TaskId) (stage : Fin 8) (s : State) := commit s (s.stageItem t stage [])
def execStageStallEnd (t : TaskId) (stage : Fin 8) (full : Bool) (cycles : Nat) (s : State) :=
  commit s (s.stageStallEnd t stage full cycles)

end Sys2Proof.Machine
end

