-- ==== Sys2Proof/Machine/Update.lean ====
section
/-! DEFINITION. COPY tasks: MOVE (R203), and the update programs of the Crucible stacks, micro-op by micro-op (R198 to
R202). -/

namespace Sys2Proof.Machine

/-! ### MOVE (R203) -/

namespace State

/-- One 64-byte line moved; `bad` says which granules of the whole source are found uncorrectable now. A granule that is
poisoned is written with the poison code (R180). -/
def moveLine (t : TaskId) (x : Task) (bad : List Nat) (s : State) (i : Nat) : State :=
  let a := x.cpSrc + 64 * i
  let found := [0, 1].filter fun g => bad.contains (2 * i + g)
  let s := if isStackAddr a then
      found.foldl (fun s g => match s.findRegion a with
        | some e => s.eccRead (s.locate e (a + 32 * g)) .uncorrectable
        | none => s) s
    else s
  let poison := [0, 1].filter fun g => bad.contains (2 * i + g) || s.readBad (a + 32 * g)
  s.write { addr := x.cpDst + 64 * i, data := s.readBytesAt a 64, epoch := some x.epoch, tensor := x.tensor
            conv := none, owner := some t, poison := poison }

/-- MOVE. -/
def move (s : State) (t : TaskId) (bad : List Nat) : State :=
  match s.running? t .copy with
  | some x => if x.cpProgram then s else ((List.range (x.cpLength / 64)).foldl (moveLine t x bad) s).finish t
  | none => s

end State

/-! ### Micro-operations (R201) -/

/-- A micro-operation. -/
inductive Micro where
  | nop
  | ld (dst stream : Nat)
  | st (a stream : Nat)
  | add (dst a b : Nat)
  | sub (dst a b : Nat)
  | mul (dst a b : Nat)
  | fma (dst a b c : Nat)
  | div (dst a b : Nat)
  | sqrt (dst a : Nat)
  | max (dst a b : Nat)
  | min (dst a b : Nat)
  | abs (dst a : Nat)
  | sgn (dst a : Nat)
  | sel (dst a b c : Nat)
  | neg (dst a : Nat)
  | end_
  deriving DecidableEq, Repr

/-- The micro-operation of a 32-bit word; none for a reserved code. -/
def Micro.ofWord (w : Nat) : Option Micro :=
  let d := w / 2 ^ 22 % 16
  let a := w / 2 ^ 17 % 32
  let b := w / 2 ^ 12 % 32
  let c := w / 2 ^ 7 % 32
  let st := w / 16 % 8
  match w / 2 ^ 26 % 64 with
  | 0x00 => some .nop
  | 0x01 => some (.ld d st)
  | 0x02 => some (.st a st)
  | 0x03 => some (.add d a b)
  | 0x04 => some (.sub d a b)
  | 0x05 => some (.mul d a b)
  | 0x06 => some (.fma d a b c)
  | 0x07 => some (.div d a b)
  | 0x08 => some (.sqrt d a)
  | 0x09 => some (.max d a b)
  | 0x0A => some (.min d a b)
  | 0x0B => some (.abs d a)
  | 0x0C => some (.sgn d a)
  | 0x0D => some (.sel d a b c)
  | 0x0E => some (.neg d a)
  | 0x3F => some .end_
  | _ => none

/-- The register an arithmetic micro-op writes, whose result carries a residue check (R360). -/
def Micro.checked : Micro → Option Nat
  | .add d _ _ | .sub d _ _ | .mul d _ _ | .fma d _ _ _ | .div d _ _ | .sqrt d _ => some d
  | _ => none

/-- The shipped AdamW program (R201). -/
def adamwOps : List Nat :=
  [0x04000000, 0x04400010, 0x04800020, 0x04C00030, 0x15000000, 0x14850000, 0x18811100, 0x14C72000, 0x18C93180, 0x15475000,
   0x214A0000, 0x0D4B6000, 0x15854000, 0x1D8C5000, 0x19837300, 0x184D8080, 0x08020010, 0x08040020, 0x08060030, 0xFC000000]

/-- A source of a micro-operation: f0 to f15, then k0 to k15. -/
def UpdRun.src (u : UpdRun) (n : Nat) : F32 := if n < 16 then u.f.getD n 0 else u.konst.getD (n - 16) 0

/-- A destination register written. -/
def UpdRun.dst (u : UpdRun) (n : Nat) (v : F32) : UpdRun := { u with f := u.f.set n v }

namespace State

/-- The words of a program, up to its 32nd micro-op: program memory for the selectors 0x10 to 0x13 (R200, R213). The
micro-ops of 0x01 and 0x03 are not given. -/
def progWords (s : State) (ms prog digStream : Nat) : List Nat :=
  if prog = 2 then adamwOps
  else if prog = 4 then [0x04000000 + digStream * 16, 0xFC000000]
  else if 0x10 ≤ prog ∧ prog < 0x14 then
    (List.range 16).flatMap fun j =>
      let w := (s.getR ⟨.CRU_UPD_PROG, ms, 16 * (prog - 0x10) + j⟩).toNat
      [w % 2 ^ 32, w / 2 ^ 32]
  else []

/-- Bytes of an element of a stream. -/
def streamWidth (p : PStream) : Nat := elemBits p.fmt / 8

/-- Does every stream's range lie in one valid uncompressed region, and the element in this stack (R199)? -/
def streamsOk (s : State) (ms : Nat) (u : UpdRun) : Bool :=
  u.streams.all fun p =>
    let n := streamWidth p
    match s.findRegion p.addr with
    | some e =>
      let r := s.region e
      decide (r.comp = 0) && decide (p.addr + u.length * n ≤ r.base + r.length) &&
        decide ((r.place (p.addr + u.i * n - r.base)).stack = ms)
    | none => false

/-- Does element `i` of a stream lie in stack `ms`? -/
def inStack (s : State) (p : PStream) (ms i : Nat) : Bool :=
  let a := p.addr + i * streamWidth p
  match s.findRegion a with
  | some e => ((s.region e).place (a - (s.region e).base)).stack = ms
  | none => false

/-- The first element at or after `i` that a stack holds. -/
def nextElem (s : State) (ms : Nat) (p : PStream) (i length : Nat) : Option Nat :=
  (List.range' i (length - i)).find? fun k => s.inStack p ms k

/-- A running program COPY with its streams. -/
def progTask (s : State) (t : TaskId) : Option Task := (s.running? t .copy).filter fun x => x.cpProgram

/-- The streams of a program COPY. -/
def progStreams (x : Task) : List PStream := (List.range x.cpStreams).map x.cpStream

/-- A stack's update unit takes a COPY at its first element there (R200). -/
def updBegin (s : State) (ms : Nat) (t : TaskId) (x : Task) (i : Nat) : State :=
  let u : UpdRun :=
    { task := t, prog := x.cpProg, streams := progStreams x, konst := x.cpConst, f := List.replicate 16 0, i := i
      length := x.cpLength, digStream := x.cpDigStream }
  let s := s.setStack ms { s.stack ms with upd := some u }
  ((s.setF CRU_UPD_STATUS_PROG ms 0 x.cpProg).setF CRU_UPD_STATUS_BUSY ms 0 1).setF CRU_UPD_STATUS_DONE ms 0 0

def setUpd (s : State) (ms : Nat) (u : UpdRun) : State := s.setStack ms { s.stack ms with upd := some u }

/-- The COPY whose program a stack's unit would begin next: the first running one with an element in the stack. -/
def updNext (s : State) (ms : Nat) : Option (TaskId × Task × Nat) :=
  ([0, 1, 2, 3].flatMap s.dispatchedOf).findSome? fun y =>
    match s.progTask y.1 with
    | some x =>
      match progStreams x with
      | p :: _ => (s.nextElem ms p 0 x.cpLength).map fun i => (y.1, x, i)
      | [] => none
    | none => none

/-- The unit of a stack ready for a micro-op: the run in hand, else the next COPY's, begun. -/
def updReady (s : State) (ms : Nat) : State :=
  if (s.stack ms).upd.isSome then s
  else match s.updNext ms with
    | some (t, x, i) => s.updBegin ms t x i
    | none => s

/-- The epoch of the COPY a unit works on. -/
def updEpoch (s : State) (u : UpdRun) : Nat := ((s.task? u.task).map (·.epoch)).getD 0

/-- Element `i` of a stream as the unit reads it: its code, widened by `LD`. -/
def streamCode (s : State) (u : UpdRun) (p : PStream) : Nat :=
  s.engineElem ((elemFmt p.fmt).getD fp32) (streamWidth p) (p.addr + u.i * streamWidth p)

/-- A code written to element `i` of a stream, in its stack. -/
def putCode (s : State) (u : UpdRun) (p : PStream) (code : Nat) : State :=
  s.write { addr := p.addr + u.i * streamWidth p, data := toLe (streamWidth p) code, epoch := some (s.updEpoch u)
            tensor := p.tensor, conv := some { slot := p.slot, fmt := p.fmt, index0 := p.index0 + u.i }
            owner := some u.task }

/-- A poisoned granule that the unit reads is written back as canonical NaNs with a valid code (R180). -/
def healGran (s : State) (u : UpdRun) (p : PStream) : State :=
  let a := p.addr + u.i * streamWidth p
  if s.engineBad a then
    let f := (elemFmt p.fmt).getD fp32
    let n := streamWidth p
    s.write { addr := a - a % 32, data := (List.range (32 / n)).flatMap fun _ => toLe n f.nanCode
              epoch := some (s.updEpoch u), tensor := p.tensor, conv := none, owner := some u.task }
  else s

/-- A value stored to a stream (R201): converted under R76, counted in its slot, written. -/
def storeTo (s : State) (ms : Nat) (u : UpdRun) (p : PStream) (v : F32) : State :=
  let f := (elemFmt p.fmt).getD fp32
  let e := s.updEpoch u
  let z := noise (s.getR ⟨.CRU_SEED, ms, 0⟩) e p.tensor (p.index0 + u.i)
  let r := f.convert (Rounding.ofCode p.rnd) z (f32Val v)
  (s.enterCounts (ms / 3) p.slot e (countDelta [countOf (f32Val v) r.2])).putCode u p r.1

/-- Element `i` of the digested stream entered into the partial digest: as stored, else as read (R202). -/
def digestElem (s : State) (ms : Nat) (u : UpdRun) : UpdRun :=
  match u.streams[u.digStream]? with
  | some p =>
    let n := streamWidth p
    let off := (p.index0 + u.i) * n
    { u with digest := (u.digest + digBytes (s.stackKey ms (s.updEpoch u)) off
        (List.replicate (off % 4) 0 ++ toLe n (s.streamCode u p))) % digP }
  | none => u

/-- The partial digest of a stack written (R202). -/
def writePartial (s : State) (x : Task) (t : TaskId) (ms digest : Nat) : State :=
  if x.cpDst = 0 then s else s.writePlain (x.cpDst + 8 * ms) (toLe 8 digest) (some x.epoch) x.tensor (some t)

/-- The COPY looked at after a stack's unit has ended its part: once none that holds an element is left, the others write 0
and the COPY's work is done (R202). -/
def updOver (s : State) (t : TaskId) (x : Task) : State :=
  let p := (progStreams x).headD ⟨0, 0, 0, 0, 0, 0⟩
  let holds := fun (ms : Nat) => (s.nextElem ms p 0 x.cpLength).isSome
  let ended := fun (ms : Nat) => (s.stack ms).upd.any fun (u : UpdRun) => decide (u.task = t) && u.ended
  if (List.range 12).all fun ms => !holds ms || ended ms then
    let s := (List.range 12).foldl (fun s ms =>
      if (s.stack ms).upd.any fun (u : UpdRun) => u.task = t then s.setStack ms { s.stack ms with upd := none }
      else s.writePartial x t ms 0) s
    s.finish t
  else s

/-- A unit's part of a COPY is over: its partial digest is written and it is idle. -/
def updEnd (s : State) (ms : Nat) (u : UpdRun) : State :=
  let s := (s.setUpd ms { u with ended := true }).setF CRU_UPD_STATUS_BUSY ms 0 0
  match s.task? u.task with
  | some x => (s.writePartial x u.task ms u.digest).updOver u.task x
  | none => s

/-- A program stopped at a broken constraint (R199): recorded, and the COPY goes on to its end. -/
def updStop (s : State) (ms : Nat) (u : UpdRun) : State :=
  let s := (s.setF CRU_UPD_STATUS_STOPPED ms 0 1).stackRecord 0x0605 sevSuspect ms 2 0 [u.prog, u.i] (s.updEpoch u)
    ((s.task? u.task).bind fun x => recTask u.task x)
  s.updEnd ms u

/-- The element in hand is complete: the next one this stack holds begins with every register at +0 (R201). -/
def elemDone (s : State) (ms : Nat) (u : UpdRun) : State :=
  let u := s.digestElem ms u
  let s := s.addF CRU_UPD_STATUS_DONE ms 0 1
  match u.streams with
  | p :: _ =>
    match s.nextElem ms p (u.i + 1) u.length with
    | some i => s.setUpd ms { u with i := i, pc := 0, f := List.replicate 16 0 }
    | none => s.updEnd ms u
  | [] => s.updEnd ms u

/-- What one micro-operation does to the element in hand (R201); none where it breaks a constraint. -/
def microEffect (s : State) (ms : Nat) (u : UpdRun) : Micro → Option (State × UpdRun)
  | .nop => some (s, u)
  | .ld d k =>
    match u.streams[k]? with
    | some p =>
      let f := (elemFmt p.fmt).getD fp32
      some (s.healGran u p, u.dst d (f32Of (f.decode (s.streamCode u p))))
    | none => none
  | .st a k =>
    match u.streams[k]? with
    | some p => some (s.storeTo ms u p (u.src a), u)
    | none => none
  | .add d a b => some (s, u.dst d (fadd (u.src a) (u.src b)))
  | .sub d a b => some (s, u.dst d (fsub (u.src a) (u.src b)))
  | .mul d a b => some (s, u.dst d (fmul (u.src a) (u.src b)))
  | .fma d a b c => some (s, u.dst d (ffma (u.src a) (u.src b) (u.src c)))
  | .div d a b => some (s, u.dst d (fdiv (u.src a) (u.src b)))
  | .sqrt d a => some (s, u.dst d (fsqrt (u.src a)))
  | .max d a b => some (s, u.dst d (fmax (u.src a) (u.src b)))
  | .min d a b => some (s, u.dst d (fmin (u.src a) (u.src b)))
  | .abs d a => some (s, u.dst d (fabs (u.src a)))
  | .sgn d a => some (s, u.dst d (fsgn (u.src a)))
  | .sel d a b c => some (s, u.dst d (if fpos (u.src a) then u.src b else u.src c))
  | .neg d a => some (s, u.dst d (fneg (u.src a)))
  | .end_ => some (s, u)

/-- A failed residue check of a unit's result for a stream's element (R360). -/
def updFault (s : State) (ms : Nat) (u : UpdRun) (p : Option PStream) (e : Nat) : State :=
  let a := p.map fun (p : PStream) => p.addr + u.i * streamWidth p
  s.residueFail ms 2 ((a.map s.addrChannel).getD 0) [u.prog, u.i] e ((s.task? u.task).bind fun x => recTask u.task x)

/-- The micro-op in hand run and the next one reached; after END or the 32nd the element is complete. `bad` is the value
of a result that fails its residue check: it is written all the same (R360). -/
def microStep (s : State) (ms : Nat) (u : UpdRun) (m : Micro) (bad : Option F32 := none) : State :=
  if !s.streamsOk ms u then s.updStop ms u
  else match s.microEffect ms u m with
    | none => s.updStop ms u
    | some (s, v) =>
      let hit := m.checked.bind fun d => bad.map fun y => (d, y)
      let w := match hit with
        | some (d, y) => v.dst d y
        | none => v
      let w := { w with pc := w.pc + 1 }
      let t := if m = .end_ ∨ 32 ≤ w.pc then s.elemDone ms w else s.setUpd ms w
      if hit.isSome then t.updFault ms u u.streams.head? (s.updEpoch u) else t

/-- The micro-op a unit comes to next: none where its program has no such word, `some none` for a reserved one. -/
def nextMicro (s : State) (ms : Nat) (u : UpdRun) : Option (Option Micro) :=
  ((s.progWords ms u.prog u.digStream)[u.pc]?).map Micro.ofWord

/-- A micro-op of stack `ms`: the one its program comes to. -/
def micro (s : State) (ms : Nat) (m : Micro) (bad : Option F32 := none) : State :=
  let r := s.updReady ms
  match (r.stack ms).upd with
  | some u => if !u.ended && decide (r.nextMicro ms u = some (some m)) then r.microStep ms u m bad else s
  | none => s

/-- The value of a result that fails its residue check, where a list of faults names one (R360). -/
def faultAt (faults : List Residue) (ms : Nat) (u : UpdRun) (op : Nat) : Option F32 :=
  (faults.find? fun r => r.ms.val = ms && r.elem = u.i && r.op = op).map (·.value)

/-- The next word of a unit's program run. -/
def runWord (s : State) (ms : Nat) (u : UpdRun) (faults : List Residue) : State :=
  match s.nextMicro ms u with
  | some (some m) => s.microStep ms u m (faultAt faults ms u u.pc)
  | some none => s.updStop ms u
  | none => s.elemDone ms u

/-- The element in hand under program 0x01 or 0x03 (R200): g, w and m read, w and m stored; what they become is free
(`Config.sgdStep`, `Config.signStep`). A fault of op 0 or 1 gives what w or m takes instead (R360). -/
def runFree (s : State) (ms : Nat) (u : UpdRun) (faults : List Residue) : State :=
  match u.streams with
  | g :: w :: m :: _ =>
    if !s.streamsOk ms u then s.updStop ms u
    else
      let val := fun (p : PStream) => f32Of (((elemFmt p.fmt).getD fp32).decode (s.streamCode u p))
      let xs := [val g, val w, val m]
      let out := if u.prog = 1 then Config.sgdStep u.konst xs else Config.signStep u.konst xs
      let fw := faultAt faults ms u 0
      let fm := faultAt faults ms u 1
      let e := s.updEpoch u
      let s := [g, w, m].foldl (fun s p => s.healGran u p) s
      let s := (s.storeTo ms u w (fw.getD (f32Hold (out.getD 0 0)))).storeTo ms u m (fm.getD (f32Hold (out.getD 1 0)))
      let s := s.elemDone ms u
      let s := if fw.isSome then s.updFault ms u (some w) e else s
      if fm.isSome then s.updFault ms u (some m) e else s
  | _ => s.updStop ms u

/-- A unit's program run for a number of micro-ops or to its end. -/
def runUnit (faults : List Residue) : Nat → Nat → TaskId → State → State
  | 0, _, _, s => s
  | n + 1, ms, t, s =>
    match (s.stack ms).upd with
    | some u =>
      if u.task ≠ t ∨ u.ended then s
      else runUnit faults n ms t (if u.prog = 1 ∨ u.prog = 3 then s.runFree ms u faults else s.runWord ms u faults)
    | none => s

/-- One stack's part of a COPY: begun where its unit is free, and run to its end. -/
def runStack (faults : List Residue) (t : TaskId) (x : Task) (s : State) (ms : Nat) : State :=
  let s := if (s.stack ms).upd.isSome then s
    else match progStreams x with
      | p :: _ => (match s.nextElem ms p 0 x.cpLength with
        | some i => s.updBegin ms t x i
        | none => s)
      | [] => s
  runUnit faults (33 * x.cpLength + 1) ms t s

/-- A program COPY (R200): run in every stack that holds an element of its range; a range that no region covers any more is
a broken constraint (R199), reported by the first stack of the COPY's die (DESIGN CHOICE, assumption 50). -/
def runProgram (s : State) (t : TaskId) (sel : Nat → Bool) (faults : List Residue := []) : State :=
  match s.progTask t with
  | some x =>
    if !sel x.cpProg then s
    else
      let p := (progStreams x).headD ⟨0, 0, 0, 0, 0, 0⟩
      if (List.range 12).any fun ms => (s.nextElem ms p 0 x.cpLength).isSome then (List.range 12).foldl (runStack faults t x) s
      else
        let s := if x.cpLength = 0 then s
          else (s.setF CRU_UPD_STATUS_STOPPED (3 * t.d) 0 1).stackRecord 0x0605 sevSuspect (3 * t.d) 2 0 [x.cpProg, 0] x.epoch
            (recTask t x)
        s.updOver t x
  | none => s

end State

/-! ### The commands -/

def execMove (t : TaskId) (bad : List Nat) (s : State) := commit s (s.move t bad)
def execSgdWithMomentum (t : TaskId) (faults : List Residue) (s : State) :=
  commit s (s.runProgram t (faults := faults) fun n => decide (n = 1))
def execAdamw (t : TaskId) (faults : List Residue) (s : State) :=
  commit s (s.runProgram t (faults := faults) fun n => decide (n = 2))
def execSignMomentum (t : TaskId) (faults : List Residue) (s : State) :=
  commit s (s.runProgram t (faults := faults) fun n => decide (n = 3))
def execDigestOnly (t : TaskId) (s : State) := commit s (s.runProgram t fun n => decide (n = 4))
def execProgramMemorySlot (t : TaskId) (faults : List Residue) (s : State) :=
  commit s (s.runProgram t (faults := faults) fun n => decide (0x10 ≤ n ∧ n < 0x14))

def execNop (ms : Fin 12) (s : State) := commit s (s.micro ms .nop)
def execLd (ms : Fin 12) (dst : Fin 16) (stream : Fin 8) (s : State) := commit s (s.micro ms (.ld dst stream))
def execSt (ms : Fin 12) (a : Fin 32) (stream : Fin 8) (s : State) := commit s (s.micro ms (.st a stream))
def execAdd (ms : Fin 12) (dst : Fin 16) (a b : Fin 32) (bad : Option (BitVec 32)) (s : State) :=
  commit s (s.micro ms (.add dst a b) bad)
def execSub (ms : Fin 12) (dst : Fin 16) (a b : Fin 32) (bad : Option (BitVec 32)) (s : State) :=
  commit s (s.micro ms (.sub dst a b) bad)
def execMul (ms : Fin 12) (dst : Fin 16) (a b : Fin 32) (bad : Option (BitVec 32)) (s : State) :=
  commit s (s.micro ms (.mul dst a b) bad)
def execFma (ms : Fin 12) (dst : Fin 16) (a b c : Fin 32) (bad : Option (BitVec 32)) (s : State) :=
  commit s (s.micro ms (.fma dst a b c) bad)
def execDiv (ms : Fin 12) (dst : Fin 16) (a b : Fin 32) (bad : Option (BitVec 32)) (s : State) :=
  commit s (s.micro ms (.div dst a b) bad)
def execSqrt (ms : Fin 12) (dst : Fin 16) (a : Fin 32) (bad : Option (BitVec 32)) (s : State) :=
  commit s (s.micro ms (.sqrt dst a) bad)
def execMax (ms : Fin 12) (dst : Fin 16) (a b : Fin 32) (s : State) := commit s (s.micro ms (.max dst a b))
def execMin (ms : Fin 12) (dst : Fin 16) (a b : Fin 32) (s : State) := commit s (s.micro ms (.min dst a b))
def execAbs (ms : Fin 12) (dst : Fin 16) (a : Fin 32) (s : State) := commit s (s.micro ms (.abs dst a))
def execSgn (ms : Fin 12) (dst : Fin 16) (a : Fin 32) (s : State) := commit s (s.micro ms (.sgn dst a))
def execNeg (ms : Fin 12) (dst : Fin 16) (a : Fin 32) (s : State) := commit s (s.micro ms (.neg dst a))
def execSel (ms : Fin 12) (dst : Fin 16) (a b c : Fin 32) (s : State) := commit s (s.micro ms (.sel dst a b c))
def execEndProgram (ms : Fin 12) (s : State) := commit s (s.micro ms .end_)

end Sys2Proof.Machine
end

