-- ==== Sys2Proof/Machine/RegWrite.lean ====
section
/-! DEFINITION. Register accesses: writes under the access types of R12 with the checks of R13, R19, R225 and R403, the
refusals of each chapter's register tables, and what each write sets off; reads, with the fields a unit computes; job
boundaries (R444); and the commands of the rows that write whole registers. -/

namespace Sys2Proof.Machine

/-- One field of a register written under its access type (R12); an agent-only field takes a write from AGENT alone
(R403). -/
def Field.write (f : Field) (agent : Bool) (v old : Word) : Word :=
  if f.agent && !agent then old
  else match f.acc with
    | .rw => f.set old (f.get v)
    | .w1c => old &&& ~~~(v &&& f.mask)
    | .w1s => old ||| (v &&& f.mask)
    | _ => old

/-- Would the write change an agent-only field, or set off its action (R403)? -/
def Field.trespass (f : Field) (v old : Word) : Bool :=
  f.agent && (match f.acc with
    | .rw => f.get v != f.get old
    | .wo => f.get v != 0
    | .w1s => f.get v != 0
    | _ => false)

namespace State

/-! ### The plain part of a write -/

/-- The fields of a register written under their access types, reserved bits as they stand. -/
def fieldsWrite (s : State) (r : Requester) (k : RegKey) (v : Word) : State :=
  s.putR k ((fieldsOf k.name).foldl (fun w f => f.write (s.isAgent r) v w) (s.getR k))

/-- The record of a refused change of an agent-only field (R403). -/
def agentRecord (s : State) (r : Requester) (k : RegKey) (a : Nat) (v : Word) : State :=
  if !s.isAgent r && (fieldsOf k.name).any fun f => f.trespass v (s.getR k) then
    let ev := if k.name = .PORT_MOD_JOB then 0x0906 else 0x0E0F
    s.record { event := ev, sev := sevInfo, unit := unitOf (dieOfAddr a) (a % 0x100000000 / 0x1000000),
               syn := Config.syndrome ev [requesterCode r, a] }
  else s

/-! ### Jobs (R289, R364, R383, R444) -/

/-- May JOB be written with this value now? -/
def jobAllowed (s : State) (j : Nat) : Bool :=
  !s.anyRunning && (decide (j = 0) || (decide (s.getF PWR_STATUS_STATE 0 0 ≠ 5) && !s.flag HIC_QUAR_Q 0 0))

/-- A job boundary: JOB takes the value, the ingot in progress is void, the receive slots empty and SERIAL starts again
(R335, R341); then the profile's part. -/
def newJob (s : State) (j : Nat) : State :=
  let s := (s.setF PORT_MOD_JOB_JOB 0 0 j).voidIngot 6
  let s := (s.emptySlot 0).emptySlot 1
  (s.setIngot { s.ingot with next := 0 }).jobBoundary j

/-- A write of PORT_MOD_JOB. -/
def jobWrite (s : State) (r : Requester) (a : Nat) (v : Word) : State :=
  let k : RegKey := ⟨.PORT_MOD_JOB, 0, 0⟩
  let s := s.agentRecord r k a v
  let s := s.putR k (PORT_MOD_JOB_TRANSIT_PCT.write (s.isAgent r) v (s.getR k))
  let j := PORT_MOD_JOB_JOB.get v
  if s.jobAllowed j then s.newJob j else s.refuseWrite a v

/-! ### Refusals (the register tables) -/

/-- Does an address range lie in one valid uncompressed, unversioned region, die-local to `d` where one is named? -/
def plainRegion (s : State) (a n : Nat) (d : Option Nat) : Bool :=
  match s.findRegion a with
  | some e =>
    let r := s.region e
    decide (r.comp = 0) && !r.ver && decide (a + n ≤ r.base + r.length) && (match d with
      | some d => decide (r.il = 1 ∧ r.die = d)
      | none => true)
  | none => false

/-- Is a slot named by a mask not IDLE? -/
def slotsBusy (s : State) (d m : Nat) : Bool := (List.range 16).any fun g => m.testBit g && decide (s.slotState d g ≠ 0)

/-- GE_RED_CFG refused: a named slot not IDLE; TWIN_OF in force naming the die itself, or changed while any twin slot is
not IDLE (R361, R376). -/
def redCfgBad (s : State) (d : Nat) (v : Word) : Bool :=
  let old := s.getR ⟨.GE_RED_CFG, d, 0⟩
  s.slotsBusy d (GE_RED_CFG_TWIN_SLOTS.get v) ||
  (decide (GE_RED_CFG_TWIN_VALID.get v = 1) && decide (GE_RED_CFG_TWIN_OF.get v = d)) ||
  (decide (GE_RED_CFG_TWIN_OF.get v ≠ GE_RED_CFG_TWIN_OF.get old) && s.slotsBusy d (GE_RED_CFG_TWIN_SLOTS.get old))

/-- HIC_RED_CFG refused (R353, R357). -/
def moduleRedBad (s : State) (v : Word) : Bool :=
  let m := HIC_RED_CFG_MODE.get v
  s.anyRunning || decide (m = 3) || (decide (m ≠ 0) && !((List.range 4).all fun d => s.flag AS_DLOG_BASE_VALID d 0))

/-- ING_CADENCE refused (R330, R335). -/
def cadenceBad (s : State) (v : Word) : Bool :=
  let t2 := ING_CADENCE_T2_EVERY.get v
  let t3 := ING_CADENCE_T3_EVERY.get v
  (decide (t3 ≠ 0) && decide (t3 % t2 ≠ 0)) || s.ingot.boundary.any fun e => decide (ING_CADENCE_FROM_EPOCH.get v ≤ e)

/-- A published region exists (R213). -/
def anyRegion (s : State) : Bool := (List.range 64).any fun e => (s.region e).valid

/-- A COPY that uses an update program slot is dispatched (R213). -/
def slotInUse (s : State) (p : Nat) : Bool :=
  (List.range 4).any fun d => (s.dispatchedOf d).any fun x =>
    decide (x.2.kind = .copy) && x.2.cpUpdate && decide (x.2.cpProg = 0x10 + p)

/-- A core has a task in its run-ahead queue or dispatched (R140). -/
def coreQueued (s : State) (k : Nat) : Bool :=
  !(s.core k).runAhead.isEmpty || (s.coreTask (k / 34) (k % 34)).isSome

/-! ### What single registers do -/

/-- PORT_IL_CFG.EN written 0 loses the link (R267); written 1 lets it align. -/
def portEnable (s : State) (p : Nat) (was : Bool) : State :=
  let on := s.flag PORT_IL_CFG_EN p 0
  if was && !on then (s.linkLost p).setF PORT_IL_STATUS_STATE p 0 5
  else if !was && on then s.setF PORT_IL_STATUS_STATE p 0 0
  else s

/-- PORT_IL_CTRL.CNT_CLR (R288). -/
def portCntClr (s : State) (p : Nat) : State :=
  let s := [.PORT_IL_RETRY, .PORT_IL_CRC_ERR, .PORT_IL_DROP, .PORT_IL_STOMP, .PORT_IL_LINKDOWN].foldl
    (fun (s : State) n => s.putR ⟨n, p, 0⟩ 0) s
  (List.range 5).foldl (fun s v => (s.putR ⟨.PORT_IL_TX_BYTES, p, v⟩ 0).putR ⟨.PORT_IL_RX_BYTES, p, v⟩ 0) s

/-- PORT_MOD_CFG: DISC_EN from 0 to 1 starts a generation (R278); a changed pin changes what this module offers (R279). -/
def discCfg (s : State) (was : Bool) : State :=
  if !was && s.flag PORT_MOD_CFG_DISC_EN 0 0 then s.newGeneration else s.lookDisc

/-- COL_CHECK (R318, R321, R325). -/
def colCheck (s : State) (v : Word) : State :=
  let e := COL_CHECK_EPOCH.get v
  match COL_CHECK_VERDICT.get v with
  | 0 => if COL_CHECK_ROUND.get v = 1 then s.sealRoundStart e else s.checkGood e
  | 1 => s.checkHold e 0
  | 2 => s.checkFail e (COL_CHECK_SUSPECT_DIE.get v) (COL_CHECK_SUSPECT.get v)
  | _ => s

/-- HIC_QUAR.Q set or cleared (R364). -/
def quarEdge (s : State) (was : Bool) : State :=
  let is := s.flag HIC_QUAR_Q 0 0
  if !was && is then
    (s.setF HIC_QUAR_SINCE 0 0 (s.time / 16)).hubRecord 0x0C0B sevFailed 5 0 [s.getF HIC_QUAR_CAUSE 0 0]
  else if was && !is then s.hubRecord 0x0C0C sevInfo 5 0 []
  else s

/-- Records that wait in the hub buffer enter the ring while it has room (R375). -/
def drainRing (s : State) : State := s.drainHub s.elog.hub.length

/-- HIC_ELOG_CONS: an index beyond PROD is ignored (R377). -/
def consWrite (s : State) (v : Word) : State :=
  let n := HIC_ELOG_CONS_INDEX.get v
  let ahead := (n + 2 ^ 32 - s.getF HIC_ELOG_PROD_INDEX 0 0) % 2 ^ 32
  if ahead ≠ 0 ∧ ahead < 2 ^ 31 then s
  else
    let s := s.setF HIC_ELOG_CONS_INDEX 0 0 n
    let live := fun (i : Nat) => decide ((i + 2 ^ 32 - n) % 2 ^ 32 < s.ringUsed)
    { s with elog := { s.elog with failedAt := s.elog.failedAt.filter live } }.drainRing

/-- HIC_FORGE_STATUS.OVERLOAD as the agent writes it, with the records and the pacing of R405. -/
def overloadEdge (s : State) (was : Bool) : State :=
  let is := s.flag HIC_FORGE_STATUS_OVERLOAD 0 0
  if was = is then s
  else (s.setF ING_STATUS_PACED 0 0 (if is then 1 else 0)).hubRecord (if is then 0x0E01 else 0x0E02)
    (if is then sevDegraded else sevInfo) 8 0 []

/-- TIME_CFG (R419, R429): SET_IMMEDIATE looks at PPS_EN as it stood. -/
def timeCfg (s : State) (r : Requester) (k : RegKey) (v : Word) : State :=
  let s := if TIME_CFG_SET_IMMEDIATE.get v = 1 then s.setImmediate else s
  s.fieldsWrite r k v

/-- DBG_GE_CTRL (R427). -/
def dbgGeWrite (s : State) (d : Nat) (v : Word) : State :=
  let s := s.breakEn d (v.bit 61) (v.bits 51 48) (v.bits 15 0)
  let s := s.halt d (v.bit 63)
  if v.bit 62 then s.stepEngine d else s

/-! ### The write of one register -/

/-- GE_CTRL, GE_GRAPH_BASE and the other registers of a compute die's unit 0. -/
def dieWrite (s : State) (r : Requester) (k : RegKey) (a : Nat) (v : Word) : State :=
  let d := k.inst
  let plain := s.fieldsWrite r k v
  match k.name with
  | .GE_CTRL =>
    let base := s.getF GE_GRAPH_BASE_BASE d 0 * 0x800000
    if GE_CTRL_EN.get v = 1 ∧ !(decide (poolBase d ≤ base ∧ base < poolBase d + 0x8000000)) then
      (s.setF GE_CTRL_TEST_EN d 0 (GE_CTRL_TEST_EN.get v)).refuseWrite a v
    else plain
  | .GE_GRAPH_BASE => if s.slotsBusy d 0xFFFF then s else plain
  | .GE_DOORBELL => s.doorbell r d v
  | .GE_CANCEL => if GE_CANCEL_CANCEL.get v = 1 then s.cancelRegion d (GE_CANCEL_REGION.get v) else s
  | .GE_CORE_HOLD => s.coreHold d (GE_CORE_HOLD_HOLD.get v)
  | .GE_CORE_RELEASE => s.coreRelease d (GE_CORE_RELEASE_RELEASE.get v)
  | .GE_TOKEN => if 4032 ≤ k.idx then s.refuseWrite a v else plain.serveWaits d k.idx
  | .GE_RSTAT_CTRL =>
    if GE_RSTAT_CTRL_CLR_ALL.get v = 1 then plain.clrAll d
    else if GE_RSTAT_CTRL_SNAP_NOW.get v = 1 then plain.snapNow d
    else plain
  | .COL_CTRL => if COL_CTRL_CNT_CLR.get v = 1 then s.colCntClr d else s
  | .GE_RED_CFG => if s.redCfgBad d v then s.refuseWrite a v else plain
  | .AS_DLOG_BASE =>
    if AS_DLOG_BASE_VALID.get v = 1 ∧ !(s.plainRegion (AS_DLOG_BASE_BASE.get v * 0x4000000) 0x4000000 (some d)) then
      s.refuseWrite a v
    else plain
  | .PWR_LV_MAP => if s.granted d ≠ 0 then s.dieRecord 0x0D0B sevInfo d 0 [a, v.toNat] else plain
  | .PWR_LV_CFG =>
    let f := s.getF PWR_LV_CFG_FLOOR_W d 0
    if s.granted d ≠ 0 ∧ PWR_LV_CFG_FLOOR_W.get v ≠ f then
      (plain.setF PWR_LV_CFG_FLOOR_W d 0 f).dieRecord 0x0D0B sevInfo d 0 [a, v.toNat]
    else plain
  | .THM_CTRL =>
    let s := if THM_CTRL_CNT_CLR.get v = 1 then s.thmCntClr d else s
    if THM_CTRL_RELEASE.get v = 1 then s.thmRelease d else s
  | _ => plain

/-- The registers of a core, a Braze edge and a fabric port. -/
def unitWrite (s : State) (r : Requester) (k : RegKey) (a : Nat) (v : Word) : State :=
  let plain := s.fieldsWrite r k v
  match k.name with
  | .CORE_ARRAY_CTRL => s.arrayCtrl (k.inst / 34) (k.inst % 34) v
  | .ACC_CTRL => if v.bit 0 then s.accCntClr (k.inst / 34) (k.inst % 34) else s
  | .FE_CTRL => if v.bit 0 then s.feCntClr (k.inst / 34) (k.inst % 34) else s
  | .FE_STAGE =>
    if s.coreQueued k.inst then
      s.coreRecord 0x0501 sevInfo (k.inst / 34) (k.inst % 34) [a, v.toNat]
    else if 64 < FE_STAGE_BASE.get v + FE_STAGE_SIZE.get v then s
    else plain
  | .BRZ_CFG => plain.bundleRetire (k.inst / 8) (k.inst % 8) (BRZ_CFG_RETIRE.get v)
  | .BRZ_CTRL => if v.bit 0 then s.brzCntClr (k.inst / 8) (k.inst % 8) else s
  | .PORT_IL_CFG => plain.portEnable k.inst (s.flag PORT_IL_CFG_EN k.inst 0)
  | .PORT_IL_CTRL => if v.bit 0 then s.portCntClr k.inst else s
  | _ => plain

/-- The registers of a stack and of the light layer. -/
def stackWriteReg (s : State) (r : Requester) (k : RegKey) (a : Nat) (v : Word) : State :=
  let ms := k.inst
  let plain := s.fieldsWrite r k v
  match k.name with
  | .CRU_CTRL =>
    let s := plain
    let s := if CRU_CTRL_CNT_CLR.get v = 1 then s.cruCntClr ms else s
    if CRU_CTRL_RT_PUBLISH.get v = 1 ∧ ms = 0 then s.rtPublish v else s
  | .CRU_WCB => if CRU_WCB_FLUSH.get v = 1 then s.flushStack ms else s
  | .CRU_REGION_A => if ms = 0 then plain else s
  | .CRU_REGION_B => if ms = 0 then plain else s
  | .CRU_UPD_PROG => if s.slotInUse (k.idx / 16) then s else plain
  | .CRU_VER_CFG => if s.anyRegion then plain.setF CRU_VER_CFG_RESERVE ms 0 (s.getF CRU_VER_CFG_RESERVE ms 0) else plain
  | .CRU_MARGIN_CTRL => if CRU_MARGIN_CTRL_GO.get v = 1 then s.marginGo ms v else plain
  | .LL_CTRL => if LL_CTRL_CNT_CLR.get v = 1 then plain.llCntClr else plain
  | .LC_ROUTE =>
    match LC_ROUTE_CMD.get v with
    | 1 => s.groupToLc2 0 1 (v.bit 5)
    | 2 => s.groupToLc2 1 2 (v.bit 5)
    | 3 => s.returnLc2 (v.bit 5)
    | _ => s
  | _ => let _ := a; plain

/-- The registers of hub units 1 to 6. -/
def hubWrite (s : State) (r : Requester) (k : RegKey) (a : Nat) (v : Word) : State :=
  let plain := s.fieldsWrite r k v
  match k.name with
  | .BOOT_RST_CTRL =>
    let s := if v.bit 63 then s.seqGo r else s
    s.domainRst (BOOT_RST_CTRL_DOMAIN_RST.get v)
  | .PORT_MOD_CFG => plain.discCfg (s.flag PORT_MOD_CFG_DISC_EN 0 0)
  | .PORT_MOD_PIN => plain.lookDisc
  | .PORT_MOD_PERMIT => (s.agentRecord r k a v).fieldsWrite r k v
  | .COL_CHECK => s.colCheck v
  | .ING_CTRL =>
    let s := plain
    let s := if ING_CTRL_CNT_CLR.get v = 1 then s.ingCntClr else s
    let s := if ING_CTRL_ABORT.get v = 1 then s.voidIngot 5 else s
    if ING_CTRL_RESTORE.get v = 1 then s.restore else s
  | .ING_CADENCE => if s.cadenceBad v then s.refuseWrite a v else plain
  | .ING_PARTNER => plain.lookFed true
  | .ING_RX =>
    if ING_RX_VALID.get v = 1 ∧ !(s.plainRegion (ING_RX_BASE.get v * 0x200000) (ING_RX_SIZE.get v * 0x1000000) none) then
      s.refuseWrite a v
    else plain
  | .ING_T2 => plain.hand (ING_T2_HAND.get v)
  | .HIC_RED_CFG => if s.moduleRedBad v then s.refuseWrite a v else plain
  | .HIC_QUAR => ((s.agentRecord r k a v).fieldsWrite r k v).quarEdge (s.flag HIC_QUAR_Q 0 0)
  | .HIC_ELOG_BASE =>
    let n := HIC_ELOG_BASE_SIZE_LOG2.get v
    if n < 10 ∨ 20 < n then s.refuseWrite a v else plain.drainRing
  | .HIC_ELOG_CONS => s.consWrite v
  | _ => plain

/-- The registers of hub units 7 to 13. -/
def forgeWrite (s : State) (r : Requester) (k : RegKey) (a : Nat) (v : Word) : State :=
  let plain := s.fieldsWrite r k v
  match k.name with
  | .HIC_COMPLETE => s.hicComplete k.idx (HIC_COMPLETE_SOURCE.get v)
  | .HIC_TARGET => if s.flag HIC_CTRL_EN 0 0 then s.hubRecord 0x0E04 sevInfo 7 0 [k.idx, v.toNat] else plain
  | .HIC_FORGE_CFG =>
    let m := s.getF HIC_FORGE_CFG_AGENT_MASK 0 0
    if s.flag HIC_FORGE_CFG_LOCK 0 0 ∧ HIC_FORGE_CFG_AGENT_MASK.get v ≠ m then
      (plain.setF HIC_FORGE_CFG_AGENT_MASK 0 0 m).refuseWrite a v
    else plain
  | .HIC_FORGE_STATUS =>
    ((s.agentRecord r k a v).fieldsWrite r k v).overloadEdge (s.flag HIC_FORGE_STATUS_OVERLOAD 0 0)
  | .HIC_FORGE_CLS => match r with
    | .forge c => if c.val = k.idx then plain else s.refuseWrite a v
    | _ => s.refuseWrite a v
  | .TIME_CFG => s.timeCfg r k v
  | .DBG_CTRL => if v.bit 0 then s.lock r else s
  | .DBG_GE_CTRL => s.dbgGe r k.idx v (s.dbgGeWrite k.idx v)
  | .PROF_CMD => if v.bit 63 then s.profCmd r (Fin.ofNat 4 (PROF_CMD_PROFILE.get v)) (v.bit 62) none else s
  | .BOOT_FLASH_CMD =>
    let op := BOOT_FLASH_CMD_OP.get v
    let s := s.fieldsWrite r k v
    if op = 0 then s else s.flashStart r op (BOOT_FLASH_CMD_ADDR.get v)
  | .BOOT_CTR => s.counterRaise r k.idx v
  | _ => plain

/-- A write that has reached its register. -/
def writeReg (s : State) (r : Requester) (k : RegKey) (a : Nat) (v : Word) : State :=
  if k.name = .PORT_MOD_JOB then s.jobWrite r a v
  else
    let w := dieOfAddr a
    let u := a % 0x100000000 / 0x1000000
    if w < 4 ∧ u = 0 then s.dieWrite r k a v
    else if w < 4 then s.unitWrite r k a v
    else if w = 4 ∧ u < 7 then s.hubWrite r k a v
    else if w = 4 then s.forgeWrite r k a v
    else s.stackWriteReg r k a v

/-- May the requester's access reach a register: the debug port only while an unlock covers accesses (R424, R425)? -/
def mayAccess (s : State) (r : Requester) : Bool := decide (r ≠ .debug) || s.hasScope 0

/-- A register write (R12, R13, R19, R225): a misaligned one is not performed; one to a reserved offset is ignored; one to a
domain in reset completes without effect. -/
def regWrite (s : State) (r : Requester) (a : Nat) (v : Word) : State :=
  if !s.mayAccess r then s
  else if !isRegAddr a then s
  else if a % 8 ≠ 0 then s.accessRecord 0x0101 r a
  else s.atReg r a (match regAt a with
    | some k => s.writeReg r k a v
    | none => s)

/-! ### Reads -/

/-- CAL_AGE_S (R260): whole seconds since the lane's last passed calibration. -/
def calAge (s : State) (p l : Nat) : Nat :=
  match Tab.getN none (s.cal p).passedAt l with
  | some t => min ((s.time - t) / 1000000000) 0xFFFF
  | none => 0xFFFF

/-- ACC_STATUS (R109): units, tiles and the port as the core's state has them. -/
def accStatus (s : State) (k : Nat) (w : Word) : Word :=
  let c := s.core k
  let used := (List.range 128).filter fun u => c.tiles.any fun b =>
    decide (b.base ≤ u ∧ u < b.base + b.units)
  let w := ACC_STATUS_FREE_UNITS.set w (128 - used.length)
  let w := ACC_STATUS_BOUND_TILES.set w c.tiles.length
  match c.port.head?.bind s.task? with
  | some x =>
    let w := ACC_STATUS_PORT_TILE.set w ((x.tileOf.map (·.tile)).getD 0)
    let w := ACC_STATUS_RESUME_BUSY.set w (if x.kind = .resume then 1 else 0)
    let w := ACC_STATUS_SPILL_BUSY.set w (if x.kind = .spill then 1 else 0)
    ACC_STATUS_DRAIN_BUSY.set w (if x.kind = .drain then 1 else 0)
  | none => w

/-- FE_STATUS (R159). -/
def feStatus (s : State) (k : Nat) (w : Word) : Word :=
  let c := s.core k
  let queued := (c.runAhead.filter fun t => (s.task? t).any fun x => decide (x.status = .queued)).length
  let w := (FE_STATUS_ENTRIES.set w c.entries.length)
  let w := FE_STATUS_QUEUED.set w queued
  match c.chain with
  | some ch =>
    FE_STATUS_ITEM.set (FE_STATUS_STAGES.set (FE_STATUS_FUSED.set w 1) ch.stages.length) ((ch.stages.map (·.done)).headD 0)
  | none => w

/-- GE_LIVE (R138). -/
def liveWord (s : State) (d : Nat) : Word :=
  let live := ((s.tasksOf d).filter fun t => decide (s.slotState d t.1.g = 3) && t.2.live).length
  let ready := ((s.tasksOf d).filter s.ready).length
  GE_LIVE_LIVE.set (GE_LIVE_READY.set 0 ready) live

/-- GE_CORE_STATE (R138). -/
def coreStateWord (s : State) (d : Nat) : Word :=
  BitVec.ofNat 64 ((List.range 32).foldl (fun n c => n + s.coreStateOf d c * 4 ^ c) 0)

/-- HIC_LEVEL (R406). -/
def levelWord (s : State) (g : Nat) : Word :=
  BitVec.ofNat 64 ((List.range 64).foldl (fun n i => n + if s.level g i then 2 ^ i else 0) 0)

/-- PWR_LV_STATUS (R400). -/
def leaveWord (s : State) (d : Nat) (w : Word) : Word :=
  let held := ((List.range 34).filter fun p => (s.coreAt d p).held ≠ 0).length
  let w := PWR_LV_STATUS_QUEUED.set w (s.engine d).waitq.length
  let w := PWR_LV_STATUS_HELD.set w held
  let lock := match leaveHead (s.engine d).waitq with
    | some h => s.headLocked d h
    | none => false
  PWR_LV_STATUS_HEAD_LOCK.set w (if lock then 1 else 0)

/-- THM_STATUS (R400): QCOUNT counts the present one-second window. -/
def quenchWord (s : State) (d : Nat) (w : Word) : Word :=
  if (s.quenchOf d).second = s.time / 1000000000 then w else THM_STATUS_QCOUNT.set w 0

/-- CORE_ARRAY_ID (R52). -/
def coreIdWord (s : State) (k : Nat) : Word :=
  let l := s.logicalOf (k / 34) (k % 34)
  BitVec.ofNat 64 (k / 34 * 2 ^ 16 + (if l.isNone then 2 ^ 15 else 0) + l.getD 0 * 2 ^ 8 + k % 34)

/-- The value a register reads as: its word, with the fields its unit computes. -/
def regValue (s : State) (k : RegKey) : Word :=
  let w := s.getR k
  match k.name with
  | .TIME_NOW => BitVec.ofNat 64 s.time
  | .GE_LIVE => s.liveWord k.inst
  | .GE_CORE_STATE => s.coreStateWord k.inst
  | .ACC_STATUS => s.accStatus k.inst w
  | .FE_STATUS => s.feStatus k.inst w
  | .CRU_WCB => CRU_WCB_OCCUPANCY.set w (s.stack k.inst).wcb.length
  | .CRU_VER_STATUS => CRU_VER_STATUS_FREE.set w (s.freeFrames k.inst)
  | .CRU_REGION_A => if k.inst = 0 then w else (Tab.getN (0, 0) s.published k.idx).1
  | .CRU_REGION_B => if k.inst = 0 then w else (Tab.getN (0, 0) s.published k.idx).2
  | .PWR_LV_STATUS => s.leaveWord k.inst w
  | .THM_STATUS => s.quenchWord k.inst w
  | .HIC_LEVEL => s.levelWord k.idx
  | .CORE_ARRAY_ID => s.coreIdWord k.inst
  | .CORE_ARRAY_STATUS => CORE_ARRAY_STATUS_IDLE.set w (if s.arrayIdle (k.inst / 34) (k.inst % 34) then 1 else 0)
  | .CORE_ARRAY_WIDTH => if s.coreGone (k.inst / 34) (k.inst % 34) then 0 else w
  | .MON_COUNT => MON_COUNT_LATE.set w (s.mon k.inst k.idx).late
  | .DBG_STATUS => s.dbgStatusWord
  | .PORT_LANE => PORT_LANE_CAL_AGE_S.set w (s.calAge k.inst k.idx)
  | .PWR_PINS => PWR_PINS_PPS_IN.set w (if Config.ppsLevel s.time then 1 else 0)
  | _ => w

/-- The counters of cycles that time alone fills (R53, R109, R159). -/
def isTimeCounter : RegName → Bool
  | .CORE_ARRAY_CYC_TOTAL | .CORE_ARRAY_CYC_LOADWAIT | .CORE_ARRAY_CYC_STARVE | .OUT_CYC_STALL
  | .FE_CYC_ENTRIES_FULL | .FE_CYC_SPACE => true
  | _ => false

/-- A read of one register: its value, and what the read sets off (R12, R407, R418). What only the passing of time counts
reads as a free value (assumption 98). -/
def readReg (s : State) (k : RegKey) : Word × State :=
  if isTimeCounter k.name then s.draw
  else match k.name with
  | .ING_RD => (ING_RD_WAIT_US.set (s.regValue k) (s.draw.1.toNat % 2 ^ 32), s.draw.2)
  | .TIME_NOW => (s.regValue k, s.setF TIME_FRAC_FRAC 0 0 s.frac)
  | .HIC_CLAIM => let t := s.hicClaim k.idx; (t.readData, t)
  | .ACC_DBG_DATA => let t := s.accDbgRead (k.inst / 34) (k.inst % 34) false false; (t.readData, t)
  | _ => (s.regValue k, s)

/-- The Forge debug module (R424): its registers are a standard's; what they hold is a free value (assumption 59). -/
def isDebugModule (a : Nat) : Bool := decide (hubReg 10 0x1000 ≤ a ∧ a < hubReg 10 0x2000)

/-- A register read (R12, R13, R19, R225). -/
def regRead (s : State) (r : Requester) (a : Nat) : Word × State :=
  if a % 8 ≠ 0 then (0, s.accessRecord 0x0101 r a)
  else if s.inReset (dieOfAddr a) then (0, s.accessRecord 0x0102 r a)
  else match regAt a with
    | some k => s.readReg k
    | none => if isDebugModule a then s.draw else (0, s)

/-! ### Accesses to other addresses (R13, R14, R19, R424) -/

/-- Does an address name no register and no storage (R14, R19, R20, R184)? -/
def unmappedAddr (s : State) (a : Nat) : Bool := !isRegAddr a && !s.mapped a

/-- UNMAPPED_ACCESS (R19), or an access to register space that is not aligned (R13): no effect, a read returns zero. -/
def unmappedAccess (s : State) (r : Requester) (a : Nat) (write : Bool) : State :=
  let t := if write then s else { s with readData := 0 }
  if s.unmappedAddr a then t.accessRecord 0x0102 r a
  else if isRegAddr a && decide (a % 8 ≠ 0) then t.accessRecord 0x0101 r a
  else s

/-- The answer of a debug access. -/
def dbgAnswer (s : State) (w : Word) : State := { s with readData := w }.tap 0x12 (.word w)

/-- DBG_ACCESS (R424): one 8-byte access while an unlock covers it; else a read returns 0 and a write is dropped. -/
def dbgAccess (s : State) (write : Bool) (a : Nat) (v : Word) : State :=
  if !s.hasScope 0 then (if write then s.tap 0x12 .none else s.dbgAnswer 0)
  else if isRegAddr a then
    if write then (s.regWrite .debug a v).tap 0x12 .none
    else
      let x := s.regRead .debug a
      x.2.dbgAnswer x.1
  else if a % 8 ≠ 0 then (if write then s.tap 0x12 .none else s.dbgAnswer 0).accessRecord 0x0101 .debug a
  else if s.unmappedAddr a then (if write then s.tap 0x12 .none else s.dbgAnswer 0).accessRecord 0x0102 .debug a
  else if write then (s.writePlain a (toLe 8 v.toNat) none 0 none).tap 0x12 .none
  else s.dbgAnswer (s.readWord a)

/-- REGWRITE (R116, R117): its register writes in order, an address of 0 skipped. -/
def regwriteTask (s : State) (t : TaskId) : State :=
  match s.running? t .regwrite with
  | none => s
  | some x =>
    let one := fun (s : State) (i : Nat) =>
      if x.rwAddr i = 0 then s else s.regWrite (.task t) (x.rwAddr i) (BitVec.ofNat 64 (x.rwValue i))
    ([0, 1].foldl one s).finish t

/-! ### Rows that write one register -/

/-- QUARANTINE (R364, R416): the agent writes Q and CAUSE. -/
def quarantine (s : State) (r : Requester) (cause : Nat) : State :=
  s.regWrite r (hubReg 5 0x18) (BitVec.ofNat 64 (2 ^ 63 + cause * 2 ^ 60))

/-- UNQUARANTINE (R364). -/
def unquarantine (s : State) (r : Requester) : State :=
  s.regWrite r (hubReg 5 0x18) (BitVec.ofNat 64 (s.getF HIC_QUAR_CAUSE 0 0 * 2 ^ 60))

/-- DISCOVERY_START (R278): DISC_EN written 1, the other fields of the register as they stand. -/
def discoveryStart (s : State) (r : Requester) : State :=
  s.regWrite r (hubReg 2 0x20) (s.getR ⟨.PORT_MOD_CFG, 0, 0⟩ ||| 1#64)

/-- ERROR_RECORD (R372): a unit reports an event. -/
def errorRecord (s : State) (x : Report) : State :=
  s.record { event := x.event.toNat, sev := x.severity.toNat, unit := x.unit.toNat, sub := x.subunit.toNat,
             core := x.core.map fun c => (c.1.val, c.2.val), epoch := x.epoch.toNat,
             task := x.task.map fun t => (t.1.val, t.2.1.val, t.2.2.toNat), syn := x.syndrome, alert := x.alert }

end State

def execRegisterWrite (r : Requester) (a : Nat) (v : Word) (s : State) := commit s (s.regWrite r a v)
def execUnmappedAccess (r : Requester) (a : Nat) (write : Bool) (_v : Word) (s : State) :=
  commit s (s.unmappedAccess r a write)
def execRegwrite (t : TaskId) (s : State) := commit s (s.regwriteTask t)
def execDiscoveryStart (r : Requester) (s : State) := commit s (s.discoveryStart r)
def execQuarantine (r : Requester) (cause : BitVec 3) (s : State) := commit s (s.quarantine r cause.toNat)
def execUnquarantine (r : Requester) (s : State) := commit s (s.unquarantine r)
def execErrorRecord (x : Report) (s : State) := commit s (s.errorRecord x)
def execElogEnable (r : Requester) (v : Word) (s : State) := commit s (s.regWrite r (hubReg 5 0x100) v)
def execDbgAccess (write : Bool) (a : BitVec 44) (data : BitVec 64) (s : State) :=
  commit s (s.dbgAccess write a.toNat data)
def execJob (r : Requester) (v : Word) (s : State) := commit s (s.regWrite r (hubReg 2 0x30) v)

end Sys2Proof.Machine
end

