-- ==== Sys2Proof/Machine/Dispatch.lean ====
section
/-! DEFINITION. The command at the front of the queue and its meaning: one arm per row of the opcode table. -/

namespace Sys2Proof.Machine

/-- The effect of a command on everything but the queue. -/
def exec (i : Instr) (s : State) : Host.Outcome State Fault Refusal :=
  match i with
  | .registerWrite r a v => Sys2Proof.Machine.execRegisterWrite r a v s
  | .unmappedAccess r a write v => Sys2Proof.Machine.execUnmappedAccess r a write v s
  | .submit r d g start count => Sys2Proof.Machine.execSubmit r d g start count s
  | .retire r d g => Sys2Proof.Machine.execRetire r d g s
  | .validationStart d => Sys2Proof.Machine.execValidationStart d s
  | .validationEnd d => Sys2Proof.Machine.execValidationEnd d s
  | .taskDispatch d u => Sys2Proof.Machine.execTaskDispatch d u s
  | .taskComplete t => Sys2Proof.Machine.execTaskComplete t s
  | .cancel r d region => Sys2Proof.Machine.execCancel r d region s
  | .regionCancelDone d region => Sys2Proof.Machine.execRegionCancelDone d region s
  | .quantumOverrun t => Sys2Proof.Machine.execQuantumOverrun t s
  | .yieldPoint t => Sys2Proof.Machine.execYieldPoint t s
  | .testDue d c k => Sys2Proof.Machine.execTestDue d c k s
  | .kaGapExpiry d c => Sys2Proof.Machine.execKaGapExpiry d c s
  | .graceExpiry d c => Sys2Proof.Machine.execGraceExpiry d c s
  | .testStart d c => Sys2Proof.Machine.execTestStart d c s
  | .testEnd d c o => Sys2Proof.Machine.execTestEnd d c o s
  | .coreHold r d mask => Sys2Proof.Machine.execCoreHold r d mask s
  | .coreRelease r d mask => Sys2Proof.Machine.execCoreRelease r d mask s
  | .matmul t => Sys2Proof.Machine.execMatmul t s
  | .shadowLoad t => Sys2Proof.Machine.execShadowLoad t s
  | .tileSwap d c => Sys2Proof.Machine.execTileSwap d c s
  | .handOver d c ecc => Sys2Proof.Machine.execHandOver d c ecc s
  | .vector t => Sys2Proof.Machine.execVector t s
  | .drainForward t ecc => Sys2Proof.Machine.execDrainForward t ecc s
  | .drainDerivative t ecc => Sys2Proof.Machine.execDrainDerivative t ecc s
  | .accPortStart d c => Sys2Proof.Machine.execAccPortStart d c s
  | .spill t ecc => Sys2Proof.Machine.execSpill t ecc s
  | .resume t => Sys2Proof.Machine.execResume t s
  | .move t bad => Sys2Proof.Machine.execMove t bad s
  | .sgdWithMomentum t faults => Sys2Proof.Machine.execSgdWithMomentum t faults s
  | .adamw t faults => Sys2Proof.Machine.execAdamw t faults s
  | .signMomentum t faults => Sys2Proof.Machine.execSignMomentum t faults s
  | .digestOnly t => Sys2Proof.Machine.execDigestOnly t s
  | .programMemorySlot t faults => Sys2Proof.Machine.execProgramMemorySlot t faults s
  | .nop ms => Sys2Proof.Machine.execNop ms s
  | .ld ms dst stream => Sys2Proof.Machine.execLd ms dst stream s
  | .st ms a stream => Sys2Proof.Machine.execSt ms a stream s
  | .add ms dst a b bad => Sys2Proof.Machine.execAdd ms dst a b bad s
  | .sub ms dst a b bad => Sys2Proof.Machine.execSub ms dst a b bad s
  | .mul ms dst a b bad => Sys2Proof.Machine.execMul ms dst a b bad s
  | .fma ms dst a b c bad => Sys2Proof.Machine.execFma ms dst a b c bad s
  | .div ms dst a b bad => Sys2Proof.Machine.execDiv ms dst a b bad s
  | .sqrt ms dst a bad => Sys2Proof.Machine.execSqrt ms dst a bad s
  | .max ms dst a b => Sys2Proof.Machine.execMax ms dst a b s
  | .min ms dst a b => Sys2Proof.Machine.execMin ms dst a b s
  | .abs ms dst a => Sys2Proof.Machine.execAbs ms dst a s
  | .sgn ms dst a => Sys2Proof.Machine.execSgn ms dst a s
  | .neg ms dst a => Sys2Proof.Machine.execNeg ms dst a s
  | .sel ms dst a b c => Sys2Proof.Machine.execSel ms dst a b c s
  | .endProgram ms => Sys2Proof.Machine.execEndProgram ms s
  | .allReduce t => Sys2Proof.Machine.execAllReduce t s
  | .reduceScatter t => Sys2Proof.Machine.execReduceScatter t s
  | .allGather t => Sys2Proof.Machine.execAllGather t s
  | .broadcast t => Sys2Proof.Machine.execBroadcast t s
  | .allToAll t => Sys2Proof.Machine.execAllToAll t s
  | .permute t => Sys2Proof.Machine.execPermute t s
  | .collectiveComplete t => Sys2Proof.Machine.execCollectiveComplete t s
  | .stall t => Sys2Proof.Machine.execStall t s
  | .sendStream t => Sys2Proof.Machine.execSendStream t s
  | .sendRemote t => Sys2Proof.Machine.execSendRemote t s
  | .recvStream t => Sys2Proof.Machine.execRecvStream t s
  | .recvRemote t => Sys2Proof.Machine.execRecvRemote t s
  | .fused t => Sys2Proof.Machine.execFused t s
  | .stageItem t stage => Sys2Proof.Machine.execStageItem t stage s
  | .stageStallEnd t stage full cycles => Sys2Proof.Machine.execStageStallEnd t stage full cycles s
  | .signal t => Sys2Proof.Machine.execSignal t s
  | .tokenIncrement d token inc => Sys2Proof.Machine.execTokenIncrement d token inc s
  | .wait t => Sys2Proof.Machine.execWait t s
  | .fence t => Sys2Proof.Machine.execFence t s
  | .regwrite t => Sys2Proof.Machine.execRegwrite t s
  | .testKnownAnswer t => Sys2Proof.Machine.execTestKnownAnswer t s
  | .testStructural t => Sys2Proof.Machine.execTestStructural t s
  | .apply r d c => Sys2Proof.Machine.execApply r d c s
  | .coreArrayRetire r d c => Sys2Proof.Machine.execCoreArrayRetire r d c s
  | .kaStart r d c => Sys2Proof.Machine.execKaStart r d c s
  | .arrayCntClr r d c => Sys2Proof.Machine.execArrayCntClr r d c s
  | .accDbgRead r d c fixed err => Sys2Proof.Machine.execAccDbgRead r d c fixed err s
  | .accCntClr r d c => Sys2Proof.Machine.execAccCntClr r d c s
  | .stepBoundary d epoch => Sys2Proof.Machine.execStepBoundary d epoch s
  | .snapNow r d => Sys2Proof.Machine.execSnapNow r d s
  | .clrAll r d => Sys2Proof.Machine.execClrAll r d s
  | .fetchReadIssue d c => Sys2Proof.Machine.execFetchReadIssue d c s
  | .fetchReadReturn d c entry bad => Sys2Proof.Machine.execFetchReadReturn d c entry bad s
  | .feCntClr r d c => Sys2Proof.Machine.execFeCntClr r d c s
  | .stackRead r a e0 e1 => Sys2Proof.Machine.execStackRead r a e0 e1 s
  | .stackWrite w => Sys2Proof.Machine.execStackWrite w s
  | .wcbLineWriteback ms => Sys2Proof.Machine.execWcbLineWriteback ms s
  | .flush r ms => Sys2Proof.Machine.execFlush r ms s
  | .firstTouchCopyDone ms corr bad => Sys2Proof.Machine.execFirstTouchCopyDone ms corr bad s
  | .pinsAbandoned ms => Sys2Proof.Machine.execPinsAbandoned ms s
  | .forcedCommit ms => Sys2Proof.Machine.execForcedCommit ms s
  | .scrub ms channel rowg gran e => Sys2Proof.Machine.execScrub ms channel rowg gran e s
  | .refresh ms channel bank => Sys2Proof.Machine.execRefresh ms channel bank s
  | .rtPublish r => Sys2Proof.Machine.execRtPublish r s
  | .rtPublishDone => Sys2Proof.Machine.execRtPublishDone s
  | .cruCntClr r ms => Sys2Proof.Machine.execCruCntClr r ms s
  | .rowContextCreate ms c x => Sys2Proof.Machine.execRowContextCreate ms c x s
  | .rowChunkArrive ms c q k leaf data faults => Sys2Proof.Machine.execRowChunkArrive ms c q k leaf data faults s
  | .stackThermalChange ms temp => Sys2Proof.Machine.execStackThermalChange ms temp s
  | .go r ms v => Sys2Proof.Machine.execGo r ms v s
  | .marginDone ms errors => Sys2Proof.Machine.execMarginDone ms errors s
  | .flitReceive d e far b good f => Sys2Proof.Machine.execFlitReceive d e far b good f s
  | .resendRequest d e far b bseq => Sys2Proof.Machine.execResendRequest d e far b bseq s
  | .bundleTrainingEnd d e b passed => Sys2Proof.Machine.execBundleTrainingEnd d e b passed s
  | .bundleRetire r d e mask => Sys2Proof.Machine.execBundleRetire r d e mask s
  | .brzCntClr r d e => Sys2Proof.Machine.execBrzCntClr r d e s
  | .localPllLoss die => Sys2Proof.Machine.execLocalPllLoss die s
  | .rootPllLoss => Sys2Proof.Machine.execRootPllLoss s
  | .seqGo r => Sys2Proof.Machine.execSeqGo r s
  | .seqPhaseEnd => Sys2Proof.Machine.execSeqPhaseEnd s
  | .seqPhaseTimeout => Sys2Proof.Machine.execSeqPhaseTimeout s
  | .domainRst r mask => Sys2Proof.Machine.execDomainRst r mask s
  | .resetNAssert => Sys2Proof.Machine.execResetNAssert s
  | .dieRingSlot lane request urgent => Sys2Proof.Machine.execDieRingSlot lane request urgent s
  | .ringLoopUpdate rd => Sys2Proof.Machine.execRingLoopUpdate rd s
  | .ringUnlock n => Sys2Proof.Machine.execRingUnlock n s
  | .relockSearchEnd n locked => Sys2Proof.Machine.execRelockSearchEnd n locked s
  | .ringCoverTimeout n => Sys2Proof.Machine.execRingCoverTimeout n s
  | .heaterFeedForward d => Sys2Proof.Machine.execHeaterFeedForward d s
  | .lossOfSignal p => Sys2Proof.Machine.execLossOfSignal p s
  | .calibrationSlot f => Sys2Proof.Machine.execCalibrationSlot f s
  | .calibrationPhaseEnd f passed x margin => Sys2Proof.Machine.execCalibrationPhaseEnd f passed x margin s
  | .announceTimeout f => Sys2Proof.Machine.execAnnounceTimeout f s
  | .sparePreempt f lane permanent => Sys2Proof.Machine.execSparePreempt f lane permanent s
  | .farReadings p r => Sys2Proof.Machine.execFarReadings p r s
  | .lossLocation x => Sys2Proof.Machine.execLossLocation x s
  | .laserCompare l => Sys2Proof.Machine.execLaserCompare l s
  | .dropout line => Sys2Proof.Machine.execDropout line s
  | .latchRelease idx => Sys2Proof.Machine.execLatchRelease idx s
  | .collectiveBoundary b => Sys2Proof.Machine.execCollectiveBoundary b s
  | .boundaryTimeout b => Sys2Proof.Machine.execBoundaryTimeout b s
  | .switchoverPhaseEnd b => Sys2Proof.Machine.execSwitchoverPhaseEnd b s
  | .groupAToLc2 r atBoundary => Sys2Proof.Machine.execGroupAToLc2 r atBoundary s
  | .groupBToLc2 r atBoundary => Sys2Proof.Machine.execGroupBToLc2 r atBoundary s
  | .returnLc2ToStandby r atBoundary => Sys2Proof.Machine.execReturnLc2ToStandby r atBoundary s
  | .cartridgeInsert idx serial => Sys2Proof.Machine.execCartridgeInsert idx serial s
  | .gridLock idx l => Sys2Proof.Machine.execGridLock idx l s
  | .llStartPhaseEnd ok fits lanes => Sys2Proof.Machine.execLlStartPhaseEnd ok fits lanes s
  | .llCntClr r => Sys2Proof.Machine.execLlCntClr r s
  | .linkAlign p => Sys2Proof.Machine.execLinkAlign p s
  | .ctrl p f => Sys2Proof.Machine.execCtrl p f s
  | .nak p f => Sys2Proof.Machine.execNak p f s
  | .ackTimeout p => Sys2Proof.Machine.execAckTimeout p s
  | .linkLost p => Sys2Proof.Machine.execLinkLost p s
  | .hallmark p f sigOk => Sys2Proof.Machine.execHallmark p f sigOk s
  | .hallmarkPeriodic p => Sys2Proof.Machine.execHallmarkPeriodic p s
  | .cert p f chain => Sys2Proof.Machine.execCert p f chain s
  | .badsigRetry p => Sys2Proof.Machine.execBadsigRetry p s
  | .discoveryStart r => Sys2Proof.Machine.execDiscoveryStart r s
  | .discoverySettle => Sys2Proof.Machine.execDiscoverySettle s
  | .gossip p f => Sys2Proof.Machine.execGossip p f s
  | .gossipHour => Sys2Proof.Machine.execGossipHour s
  | .gossipExpiry => Sys2Proof.Machine.execGossipExpiry s
  | .coll p f => Sys2Proof.Machine.execColl p f s
  | .collCredit p f => Sys2Proof.Machine.execCollCredit p f s
  | .senddata p f => Sys2Proof.Machine.execSenddata p f s
  | .signalFrame p f => Sys2Proof.Machine.execSignalFrame p f s
  | .rwrite p f => Sys2Proof.Machine.execRwrite p f s
  | .rread p f => Sys2Proof.Machine.execRread p f s
  | .rresp p f => Sys2Proof.Machine.execRresp p f s
  | .seal p f => Sys2Proof.Machine.execSeal p f s
  | .retract p f => Sys2Proof.Machine.execRetract p f s
  | .retractDone => Sys2Proof.Machine.execRetractDone s
  | .sealVerdict => Sys2Proof.Machine.execSealVerdict s
  | .commit => Sys2Proof.Machine.execCommit s
  | .sealTimeout e => Sys2Proof.Machine.execSealTimeout e s
  | .checkGood r e => Sys2Proof.Machine.execCheckGood r e s
  | .checkHold r e why => Sys2Proof.Machine.execCheckHold r e why s
  | .checkFail r e die xyz => Sys2Proof.Machine.execCheckFail r e die xyz s
  | .sealRoundStart r e => Sys2Proof.Machine.execSealRoundStart r e s
  | .colCntClr r d => Sys2Proof.Machine.execColCntClr r d s
  | .ingotBoundary e => Sys2Proof.Machine.execIngotBoundary e s
  | .ingotPageRead ms => Sys2Proof.Machine.execIngotPageRead ms s
  | .page p f => Sys2Proof.Machine.execPage p f s
  | .pageEnd p f => Sys2Proof.Machine.execPageEnd p f s
  | .manifest p f => Sys2Proof.Machine.execManifest p f s
  | .close p f => Sys2Proof.Machine.execClose p f s
  | .pageOk p f => Sys2Proof.Machine.execPageOk p f s
  | .pageBad p f => Sys2Proof.Machine.execPageBad p f s
  | .complete p f => Sys2Proof.Machine.execComplete p f s
  | .refused p f => Sys2Proof.Machine.execRefused p f s
  | .abort p f => Sys2Proof.Machine.execAbort p f s
  | .restoreReq p f => Sys2Proof.Machine.execRestoreReq p f s
  | .ingotRouteTimeout => Sys2Proof.Machine.execIngotRouteTimeout s
  | .hand r mask => Sys2Proof.Machine.execHand r mask s
  | .ingotAbort r => Sys2Proof.Machine.execIngotAbort r s
  | .restore r => Sys2Proof.Machine.execRestore r s
  | .ingCntClr r => Sys2Proof.Machine.execIngCntClr r s
  | .primaryAnnounce d g task e => Sys2Proof.Machine.execPrimaryAnnounce d g task e s
  | .dualHoldRelease e => Sys2Proof.Machine.execDualHoldRelease e s
  | .quarantine r cause => Sys2Proof.Machine.execQuarantine r cause s
  | .unquarantine r => Sys2Proof.Machine.execUnquarantine r s
  | .errorRecord x => Sys2Proof.Machine.execErrorRecord x s
  | .elogEnable r v => Sys2Proof.Machine.execElogEnable r v s
  | .pwrEnAssert mv => Sys2Proof.Machine.execPwrEnAssert mv s
  | .inrushDone => Sys2Proof.Machine.execInrushDone s
  | .pwrEnDeassert => Sys2Proof.Machine.execPwrEnDeassert s
  | .inputOvervoltage mv => Sys2Proof.Machine.execInputOvervoltage mv s
  | .inputVoltageWarning mv => Sys2Proof.Machine.execInputVoltageWarning mv s
  | .inputWarningClear mv => Sys2Proof.Machine.execInputWarningClear mv s
  | .powerFail mv watts => Sys2Proof.Machine.execPowerFail mv watts s
  | .railPhaseEnd ok => Sys2Proof.Machine.execRailPhaseEnd ok s
  | .railFault rail volt curr => Sys2Proof.Machine.execRailFault rail volt curr s
  | .budgetPeriod rd => Sys2Proof.Machine.execBudgetPeriod rd s
  | .leaveGrant d => Sys2Proof.Machine.execLeaveGrant d s
  | .grantTakesEffect t => Sys2Proof.Machine.execGrantTakesEffect t s
  | .backfillExpiry d => Sys2Proof.Machine.execBackfillExpiry d s
  | .leaveHoldExpiry d c => Sys2Proof.Machine.execLeaveHoldExpiry d c s
  | .inputOverpower watts => Sys2Proof.Machine.execInputOverpower watts s
  | .sensorSample d idx v => Sys2Proof.Machine.execSensorSample d idx v s
  | .quenchExit d => Sys2Proof.Machine.execQuenchExit d s
  | .release r d => Sys2Proof.Machine.execRelease r d s
  | .thmCntClr r d => Sys2Proof.Machine.execThmCntClr r d s
  | .coolantInletHigh inlet outlet => Sys2Proof.Machine.execCoolantInletHigh inlet outlet s
  | .hicClaim c => Sys2Proof.Machine.execHicClaim c s
  | .hicComplete r c source => Sys2Proof.Machine.execHicComplete r c source s
  | .agentMaskLock r => Sys2Proof.Machine.execAgentMaskLock r s
  | .forgeWindow cycles overloaded paceLost => Sys2Proof.Machine.execForgeWindow cycles overloaded paceLost s
  | .dmaRequest p write a data => Sys2Proof.Machine.execDmaRequest p write a data s
  | .driveFail p => Sys2Proof.Machine.execDriveFail p s
  | .collectorUnreachable => Sys2Proof.Machine.execCollectorUnreachable s
  | .collectorReconnect => Sys2Proof.Machine.execCollectorReconnect s
  | .transit authorised pct => Sys2Proof.Machine.execTransit authorised pct s
  | .permit authorised entries => Sys2Proof.Machine.execPermit authorised entries s
  | .serviceEnter authorised => Sys2Proof.Machine.execServiceEnter authorised s
  | .serviceLeave authorised => Sys2Proof.Machine.execServiceLeave authorised s
  | .profile authorised prof reset x => Sys2Proof.Machine.execProfile authorised prof reset x s
  | .debugNonce authorised => Sys2Proof.Machine.execDebugNonce authorised s
  | .debugToken authorised tok => Sys2Proof.Machine.execDebugToken authorised tok s
  | .mctpControl request => Sys2Proof.Machine.execMctpControl request s
  | .pldmMonitoring => Sys2Proof.Machine.execPldmMonitoring s
  | .spdmRequest kind => Sys2Proof.Machine.execSpdmRequest kind s
  | .ppsEdge stamp => Sys2Proof.Machine.execPpsEdge stamp s
  | .ppsHoldover => Sys2Proof.Machine.execPpsHoldover s
  | .setImmediate r => Sys2Proof.Machine.execSetImmediate r s
  | .setValid r => Sys2Proof.Machine.execSetValid r s
  | .monitorWindowEnd die m => Sys2Proof.Machine.execMonitorWindowEnd die m s
  | .idcode => Sys2Proof.Machine.execIdcode s
  | .dbgNonce => Sys2Proof.Machine.execDbgNonce s
  | .dbgUnlock tok => Sys2Proof.Machine.execDbgUnlock tok s
  | .dbgAccess write a data => Sys2Proof.Machine.execDbgAccess write a data s
  | .dbgStatus => Sys2Proof.Machine.execDbgStatus s
  | .bypass bits => Sys2Proof.Machine.execBypass bits s
  | .lock r => Sys2Proof.Machine.execLock r s
  | .unlockExpiry => Sys2Proof.Machine.execUnlockExpiry s
  | .halt r d on => Sys2Proof.Machine.execHalt r d on s
  | .step r d => Sys2Proof.Machine.execStep r d s
  | .breakEn r d on g task => Sys2Proof.Machine.execBreakEn r d on g task s
  | .bootRomStart pins a b => Sys2Proof.Machine.execBootRomStart pins a b s
  | .trialWatchdog => Sys2Proof.Machine.execTrialWatchdog s
  | .firmwareUpdateComponent x image => Sys2Proof.Machine.execFirmwareUpdateComponent x image s
  | .flashRead r a => Sys2Proof.Machine.execFlashRead r a s
  | .flashProgram r a => Sys2Proof.Machine.execFlashProgram r a s
  | .flashErase r a => Sys2Proof.Machine.execFlashErase r a s
  | .flashOpDone ok => Sys2Proof.Machine.execFlashOpDone ok s
  | .counterRaise r idx v => Sys2Proof.Machine.execCounterRaise r idx v s
  | .profileSwitch r prof x => Sys2Proof.Machine.execProfileSwitch r prof x s
  | .profileSwitchReset r prof => Sys2Proof.Machine.execProfileSwitchReset r prof s
  | .job r v => Sys2Proof.Machine.execJob r v s
  | .startupPhaseEnd x => Sys2Proof.Machine.execStartupPhaseEnd x s
  | .startupPhaseTimeout => Sys2Proof.Machine.execStartupPhaseTimeout s
  | .feedIdSample v => Sys2Proof.Machine.execFeedIdSample v s
  | .leakDetect zone inlet outlet => Sys2Proof.Machine.execLeakDetect zone inlet outlet s
  | .resetNRelease => Sys2Proof.Machine.execResetNRelease s
  | .inputReturn mv => Sys2Proof.Machine.execInputReturn mv s
  | .holdUpEnd => Sys2Proof.Machine.execHoldUpEnd s
  | .coolantOutletHigh inlet outlet => Sys2Proof.Machine.execCoolantOutletHigh inlet outlet s
  | .gridLockTimeout idx => Sys2Proof.Machine.execGridLockTimeout idx s
  | .cartridgeCommissioning idx l offsets => Sys2Proof.Machine.execCartridgeCommissioning idx l offsets s
  | .relockOverrun b => Sys2Proof.Machine.execRelockOverrun b s
  | .darkLaneCalibrationRetry p lane lit x margin => Sys2Proof.Machine.execDarkLaneCalibrationRetry p lane lit x margin s
  | .ppsOutPulse => Sys2Proof.Machine.execPpsOutPulse s
  | .pcieLinkChange p up rate width => Sys2Proof.Machine.execPcieLinkChange p up rate width s
  | .managementLinkChange up fec => Sys2Proof.Machine.execManagementLinkChange up fec s
  | .dbgTrstN => Sys2Proof.Machine.execDbgTrstN s

end Sys2Proof.Machine
end

