-- ==== Sys2Proof/Machine/Tick.lean ====
section
/-! DEFINITION. What one 100 MHz timer tick does to device time (R418, R419): the step of an empty queue. -/

namespace Sys2Proof.Machine

/-- The trimmed rate correction as a signed number of 0.01 ppm (TIME_STATUS). -/
def rateOf (n : Nat) : Int := if n < 32768 then (n : Int) else (n : Int) - 65536

/-- What one tick adds for an offset still to be slewed: at most 100 ppm of 10 ns, in 1/65536 ns (R419). -/
def slewStep (slew : Int) : Int := if slew < 0 then Max.max slew (-65) else Min.min slew 65

namespace State

/-- Device time over one tick: 10 ns, adjusted by the slew and by the trimmed rate (R418 to R420). -/
def runClock (s : State) : State :=
  let d := slewStep s.clock.slew
  let r := s.clock.rem + rateOf (s.getF TIME_STATUS_RATE 0 0) * 65536
  let n := ((s.time : Int) * 65536 + s.frac + 655360 + d + r / 10000000).toNat
  { s with time := n / 65536, frac := n % 65536,
           clock := { s.clock with slew := s.clock.slew - d, rem := r % 10000000 } }

/-- A timer tick: device time runs while the root PLL is locked (R418). -/
def tick (s : State) : State := if s.flag BOOT_CLK_STATUS_ROOT_LOCK 0 0 then s.runClock else s

end State

end Sys2Proof.Machine
end

