-- ==== Sys2Proof/Laws/Table.lean ====
section
/-! SUPPORT. The laws of the sparse tables: a read after a write, and the canonical form every write keeps. -/

namespace Sys2Proof.Machine

section reads
variable {κ α : Type} [DecidableEq κ]

theorem Tab.get_erase (d : κ → α) (t : Tab κ α) (k k' : κ) :
    Tab.get d (Tab.erase t k) k' = if k = k' then d k' else Tab.get d t k' := by
  induction t with
  | nil => simp [Tab.erase, Tab.get]
  | cons e t ih =>
    simp only [Tab.erase]
    by_cases h : e.1 = k
    · rw [if_pos h, ih]; subst h; by_cases h2 : e.1 = k' <;> simp [Tab.get, h2]
    · rw [if_neg h]; simp only [Tab.get, ih]
      by_cases h2 : e.1 = k'
      · subst h2; simp [Ne.symm h]
      · simp [h2]

theorem Tab.get_insert (lt : κ → κ → Bool) (d : κ → α) (t : Tab κ α) (k k' : κ) (v : α)
    (h : ∀ e ∈ t, e.1 ≠ k) :
    Tab.get d (Tab.insert lt t k v) k' = if k = k' then v else Tab.get d t k' := by
  induction t with
  | nil => simp [Tab.insert, Tab.get]
  | cons e t ih =>
    simp only [Tab.insert]
    split
    · simp [Tab.get]
    · simp only [Tab.get, ih (fun x hx => h x (List.mem_cons_of_mem _ hx))]
      by_cases h2 : e.1 = k'
      · have := h e (List.mem_cons_self ..)
        subst h2; simp [Ne.symm this]
      · simp [h2]

theorem Tab.mem_erase {t : Tab κ α} {k : κ} {e : κ × α} : e ∈ Tab.erase t k ↔ e ∈ t ∧ e.1 ≠ k := by
  induction t with
  | nil => simp [Tab.erase]
  | cons a t ih =>
    simp only [Tab.erase]; split
    · rename_i h; rw [ih]; constructor
      · rintro ⟨a1, a2⟩; exact ⟨List.mem_cons_of_mem _ a1, a2⟩
      · rintro ⟨a1, a2⟩; rcases List.mem_cons.mp a1 with rfl | a1
        · exact absurd h a2
        · exact ⟨a1, a2⟩
    · rename_i h; simp only [List.mem_cons, ih]; constructor
      · rintro (rfl | ⟨a1, a2⟩)
        · exact ⟨.inl rfl, h⟩
        · exact ⟨.inr a1, a2⟩
      · rintro ⟨rfl | a1, a2⟩
        · exact .inl rfl
        · exact .inr ⟨a1, a2⟩

/-- A read after a write: the value written at that key, every other key as before. -/
theorem Tab.get_put [DecidableEq α] (lt : κ → κ → Bool) (d : κ → α) (t : Tab κ α) (k k' : κ) (v : α) :
    Tab.get d (Tab.put lt d t k v) k' = if k = k' then v else Tab.get d t k' := by
  unfold Tab.put
  split
  · rename_i h; rw [Tab.get_erase]; by_cases h2 : k = k'
    · subst h2; simp [h]
    · simp [h2]
  · rw [Tab.get_insert _ _ _ _ _ _ (fun e he => (Tab.mem_erase.mp he).2), Tab.get_erase]
    by_cases h2 : k = k' <;> simp [h2]

end reads

section canonical
variable {κ α : Type} [DecidableEq α]

theorem Tab.wf_cons (lt : κ → κ → Bool) (d : κ → α) (e : κ × α) (t : Tab κ α) :
    Tab.wf lt d (e :: t) = true ↔ e.2 ≠ d e.1 ∧ (∀ x ∈ t, lt e.1 x.1 = true) ∧ Tab.wf lt d t = true := by
  simp [Tab.wf, List.all_eq_true, and_assoc]

theorem Tab.wf_erase [DecidableEq κ] (lt : κ → κ → Bool) (d : κ → α) (t : Tab κ α) (k : κ) (h : Tab.wf lt d t = true) :
    Tab.wf lt d (Tab.erase t k) = true := by
  induction t with
  | nil => rfl
  | cons e t ih =>
    obtain ⟨h1, h2, h3⟩ := (Tab.wf_cons ..).mp h
    simp only [Tab.erase]; split
    · exact ih h3
    · exact (Tab.wf_cons ..).mpr ⟨h1, fun x hx => h2 x (Tab.mem_erase.mp hx).1, ih h3⟩

theorem Tab.mem_insert (lt : κ → κ → Bool) (t : Tab κ α) (k : κ) (v : α) (x : κ × α) :
    x ∈ Tab.insert lt t k v ↔ x = (k, v) ∨ x ∈ t := by
  induction t with
  | nil => simp [Tab.insert]
  | cons e t ih =>
    simp only [Tab.insert]; split
    · simp
    · simp only [List.mem_cons, ih]; tauto

theorem Tab.wf_insert (lt : κ → κ → Bool) (tr : ∀ a b c, lt a b = true → lt b c = true → lt a c = true)
    (tot : ∀ a b, a ≠ b → lt a b = true ∨ lt b a = true) (d : κ → α) (t : Tab κ α) (k : κ) (v : α)
    (hv : v ≠ d k) (hk : ∀ e ∈ t, e.1 ≠ k) (h : Tab.wf lt d t = true) :
    Tab.wf lt d (Tab.insert lt t k v) = true := by
  induction t with
  | nil => simp [Tab.insert, Tab.wf, hv]
  | cons e t ih =>
    obtain ⟨h1, h2, h3⟩ := (Tab.wf_cons ..).mp h
    simp only [Tab.insert]; split
    · rename_i hl
      refine (Tab.wf_cons ..).mpr ⟨hv, ?_, h⟩
      intro x hx
      rcases List.mem_cons.mp hx with rfl | hx
      · exact hl
      · exact tr _ _ _ hl (h2 x hx)
    · rename_i hl
      have hek : lt e.1 k = true := by
        rcases tot e.1 k (hk e (List.mem_cons_self ..)) with h | h
        · exact h
        · exact absurd h hl
      refine (Tab.wf_cons ..).mpr ⟨h1, ?_, ih (fun x hx => hk x (List.mem_cons_of_mem _ hx)) h3⟩
      intro x hx
      rcases (Tab.mem_insert ..).mp hx with rfl | hx
      · exact hek
      · exact h2 x hx

/-- A write keeps the canonical form. -/
theorem Tab.wf_put [DecidableEq κ] (lt : κ → κ → Bool) (tr : ∀ a b c, lt a b = true → lt b c = true → lt a c = true)
    (tot : ∀ a b, a ≠ b → lt a b = true ∨ lt b a = true) (d : κ → α) (t : Tab κ α) (k : κ) (v : α)
    (h : Tab.wf lt d t = true) : Tab.wf lt d (Tab.put lt d t k v) = true := by
  unfold Tab.put; split
  · exact Tab.wf_erase _ _ _ _ h
  · rename_i hv
    exact Tab.wf_insert lt tr tot d _ k v hv (fun e he => (Tab.mem_erase.mp he).2) (Tab.wf_erase _ _ _ _ h)

end canonical

section natural
variable {α : Type} [DecidableEq α]

theorem natLt_trans (a b c : Nat) (h1 : natLt a b = true) (h2 : natLt b c = true) : natLt a c = true := by
  simp [natLt] at *; omega

theorem natLt_total (a b : Nat) (h : a ≠ b) : natLt a b = true ∨ natLt b a = true := by
  simp [natLt]; omega

@[simp] theorem Tab.getN_putN (d : α) (t : Tab Nat α) (k k' : Nat) (v : α) :
    Tab.getN d (Tab.putN d t k v) k' = if k = k' then v else Tab.getN d t k' :=
  Tab.get_put ..

theorem Tab.wf_putN (d : α) (t : Tab Nat α) (k : Nat) (v : α) (h : Tab.wf natLt (fun _ => d) t = true) :
    Tab.wf natLt (fun _ => d) (Tab.putN d t k v) = true :=
  Tab.wf_put natLt natLt_trans natLt_total _ t k v h

end natural

end Sys2Proof.Machine
end

