-- ==== Sys2Proof/Laws/State.lean ====
section
/-! SUPPORT. The laws of the state's parts: for each update one lemma per field, and the reads after each write. -/

namespace Sys2Proof.Machine.State

/-! ### putR writes regs and nothing else -/

@[simp] theorem putR_pending (s : State) (k : RegKey) (v : Word) : (s.putR k v).pending = s.pending := rfl
@[simp] theorem putR_time (s : State) (k : RegKey) (v : Word) : (s.putR k v).time = s.time := rfl
@[simp] theorem putR_frac (s : State) (k : RegKey) (v : Word) : (s.putR k v).frac = s.frac := rfl
@[simp] theorem putR_fresh (s : State) (k : RegKey) (v : Word) : (s.putR k v).fresh = s.fresh := rfl
@[simp] theorem putR_mem (s : State) (k : RegKey) (v : Word) : (s.putR k v).mem = s.mem := rfl
@[simp] theorem putR_linePoison (s : State) (k : RegKey) (v : Word) : (s.putR k v).linePoison = s.linePoison := rfl
@[simp] theorem putR_dram (s : State) (k : RegKey) (v : Word) : (s.putR k v).dram = s.dram := rfl
@[simp] theorem putR_granPoison (s : State) (k : RegKey) (v : Word) : (s.putR k v).granPoison = s.granPoison := rfl
@[simp] theorem putR_packed (s : State) (k : RegKey) (v : Word) : (s.putR k v).packed = s.packed := rfl
@[simp] theorem putR_published (s : State) (k : RegKey) (v : Word) : (s.putR k v).published = s.published := rfl
@[simp] theorem putR_publishing (s : State) (k : RegKey) (v : Word) : (s.putR k v).publishing = s.publishing := rfl
@[simp] theorem putR_repair (s : State) (k : RegKey) (v : Word) : (s.putR k v).repair = s.repair := rfl
@[simp] theorem putR_readData (s : State) (k : RegKey) (v : Word) : (s.putR k v).readData = s.readData := rfl
@[simp] theorem putR_readBytes (s : State) (k : RegKey) (v : Word) : (s.putR k v).readBytes = s.readBytes := rfl
@[simp] theorem putR_readPoison (s : State) (k : RegKey) (v : Word) : (s.putR k v).readPoison = s.readPoison := rfl
@[simp] theorem putR_engines (s : State) (k : RegKey) (v : Word) : (s.putR k v).engines = s.engines := rfl
@[simp] theorem putR_cores (s : State) (k : RegKey) (v : Word) : (s.putR k v).cores = s.cores := rfl
@[simp] theorem putR_stackTab (s : State) (k : RegKey) (v : Word) : (s.putR k v).stackTab = s.stackTab := rfl
@[simp] theorem putR_chans (s : State) (k : RegKey) (v : Word) : (s.putR k v).chans = s.chans := rfl
@[simp] theorem putR_sealer (s : State) (k : RegKey) (v : Word) : (s.putR k v).sealer = s.sealer := rfl
@[simp] theorem putR_ports (s : State) (k : RegKey) (v : Word) : (s.putR k v).ports = s.ports := rfl
@[simp] theorem putR_disc (s : State) (k : RegKey) (v : Word) : (s.putR k v).disc = s.disc := rfl
@[simp] theorem putR_ingot (s : State) (k : RegKey) (v : Word) : (s.putR k v).ingot = s.ingot := rfl
@[simp] theorem putR_elog (s : State) (k : RegKey) (v : Word) : (s.putR k v).elog = s.elog := rfl
@[simp] theorem putR_trig (s : State) (k : RegKey) (v : Word) : (s.putR k v).trig = s.trig := rfl
@[simp] theorem putR_inService (s : State) (k : RegKey) (v : Word) : (s.putR k v).inService = s.inService := rfl
@[simp] theorem putR_quench (s : State) (k : RegKey) (v : Word) : (s.putR k v).quench = s.quench := rfl
@[simp] theorem putR_sensors (s : State) (k : RegKey) (v : Word) : (s.putR k v).sensors = s.sensors := rfl
@[simp] theorem putR_input (s : State) (k : RegKey) (v : Word) : (s.putR k v).input = s.input := rfl
@[simp] theorem putR_links (s : State) (k : RegKey) (v : Word) : (s.putR k v).links = s.links := rfl
@[simp] theorem putR_light (s : State) (k : RegKey) (v : Word) : (s.putR k v).light = s.light := rfl
@[simp] theorem putR_clock (s : State) (k : RegKey) (v : Word) : (s.putR k v).clock = s.clock := rfl
@[simp] theorem putR_mons (s : State) (k : RegKey) (v : Word) : (s.putR k v).mons = s.mons := rfl
@[simp] theorem putR_hub (s : State) (k : RegKey) (v : Word) : (s.putR k v).hub = s.hub := rfl
@[simp] theorem putR_boot (s : State) (k : RegKey) (v : Word) : (s.putR k v).boot = s.boot := rfl
@[simp] theorem putR_tier2Lost (s : State) (k : RegKey) (v : Word) : (s.putR k v).tier2Lost = s.tier2Lost := rfl
@[simp] theorem putR_tier2Stopped (s : State) (k : RegKey) (v : Word) : (s.putR k v).tier2Stopped = s.tier2Stopped := rfl

/-! ### setF writes regs and nothing else -/

@[simp] theorem setF_pending (s : State) (f : Field) (i j v : Nat) : (s.setF f i j v).pending = s.pending := rfl
@[simp] theorem setF_time (s : State) (f : Field) (i j v : Nat) : (s.setF f i j v).time = s.time := rfl
@[simp] theorem setF_frac (s : State) (f : Field) (i j v : Nat) : (s.setF f i j v).frac = s.frac := rfl
@[simp] theorem setF_fresh (s : State) (f : Field) (i j v : Nat) : (s.setF f i j v).fresh = s.fresh := rfl
@[simp] theorem setF_mem (s : State) (f : Field) (i j v : Nat) : (s.setF f i j v).mem = s.mem := rfl
@[simp] theorem setF_linePoison (s : State) (f : Field) (i j v : Nat) : (s.setF f i j v).linePoison = s.linePoison := rfl
@[simp] theorem setF_dram (s : State) (f : Field) (i j v : Nat) : (s.setF f i j v).dram = s.dram := rfl
@[simp] theorem setF_granPoison (s : State) (f : Field) (i j v : Nat) : (s.setF f i j v).granPoison = s.granPoison := rfl
@[simp] theorem setF_packed (s : State) (f : Field) (i j v : Nat) : (s.setF f i j v).packed = s.packed := rfl
@[simp] theorem setF_published (s : State) (f : Field) (i j v : Nat) : (s.setF f i j v).published = s.published := rfl
@[simp] theorem setF_publishing (s : State) (f : Field) (i j v : Nat) : (s.setF f i j v).publishing = s.publishing := rfl
@[simp] theorem setF_repair (s : State) (f : Field) (i j v : Nat) : (s.setF f i j v).repair = s.repair := rfl
@[simp] theorem setF_readData (s : State) (f : Field) (i j v : Nat) : (s.setF f i j v).readData = s.readData := rfl
@[simp] theorem setF_readBytes (s : State) (f : Field) (i j v : Nat) : (s.setF f i j v).readBytes = s.readBytes := rfl
@[simp] theorem setF_readPoison (s : State) (f : Field) (i j v : Nat) : (s.setF f i j v).readPoison = s.readPoison := rfl
@[simp] theorem setF_engines (s : State) (f : Field) (i j v : Nat) : (s.setF f i j v).engines = s.engines := rfl
@[simp] theorem setF_cores (s : State) (f : Field) (i j v : Nat) : (s.setF f i j v).cores = s.cores := rfl
@[simp] theorem setF_stackTab (s : State) (f : Field) (i j v : Nat) : (s.setF f i j v).stackTab = s.stackTab := rfl
@[simp] theorem setF_chans (s : State) (f : Field) (i j v : Nat) : (s.setF f i j v).chans = s.chans := rfl
@[simp] theorem setF_sealer (s : State) (f : Field) (i j v : Nat) : (s.setF f i j v).sealer = s.sealer := rfl
@[simp] theorem setF_ports (s : State) (f : Field) (i j v : Nat) : (s.setF f i j v).ports = s.ports := rfl
@[simp] theorem setF_disc (s : State) (f : Field) (i j v : Nat) : (s.setF f i j v).disc = s.disc := rfl
@[simp] theorem setF_ingot (s : State) (f : Field) (i j v : Nat) : (s.setF f i j v).ingot = s.ingot := rfl
@[simp] theorem setF_elog (s : State) (f : Field) (i j v : Nat) : (s.setF f i j v).elog = s.elog := rfl
@[simp] theorem setF_trig (s : State) (f : Field) (i j v : Nat) : (s.setF f i j v).trig = s.trig := rfl
@[simp] theorem setF_inService (s : State) (f : Field) (i j v : Nat) : (s.setF f i j v).inService = s.inService := rfl
@[simp] theorem setF_quench (s : State) (f : Field) (i j v : Nat) : (s.setF f i j v).quench = s.quench := rfl
@[simp] theorem setF_sensors (s : State) (f : Field) (i j v : Nat) : (s.setF f i j v).sensors = s.sensors := rfl
@[simp] theorem setF_input (s : State) (f : Field) (i j v : Nat) : (s.setF f i j v).input = s.input := rfl
@[simp] theorem setF_links (s : State) (f : Field) (i j v : Nat) : (s.setF f i j v).links = s.links := rfl
@[simp] theorem setF_light (s : State) (f : Field) (i j v : Nat) : (s.setF f i j v).light = s.light := rfl
@[simp] theorem setF_clock (s : State) (f : Field) (i j v : Nat) : (s.setF f i j v).clock = s.clock := rfl
@[simp] theorem setF_mons (s : State) (f : Field) (i j v : Nat) : (s.setF f i j v).mons = s.mons := rfl
@[simp] theorem setF_hub (s : State) (f : Field) (i j v : Nat) : (s.setF f i j v).hub = s.hub := rfl
@[simp] theorem setF_boot (s : State) (f : Field) (i j v : Nat) : (s.setF f i j v).boot = s.boot := rfl
@[simp] theorem setF_tier2Lost (s : State) (f : Field) (i j v : Nat) : (s.setF f i j v).tier2Lost = s.tier2Lost := rfl
@[simp] theorem setF_tier2Stopped (s : State) (f : Field) (i j v : Nat) : (s.setF f i j v).tier2Stopped = s.tier2Stopped := rfl

/-! ### addF writes regs and nothing else -/

@[simp] theorem addF_pending (s : State) (f : Field) (i j n : Nat) : (s.addF f i j n).pending = s.pending := rfl
@[simp] theorem addF_time (s : State) (f : Field) (i j n : Nat) : (s.addF f i j n).time = s.time := rfl
@[simp] theorem addF_frac (s : State) (f : Field) (i j n : Nat) : (s.addF f i j n).frac = s.frac := rfl
@[simp] theorem addF_fresh (s : State) (f : Field) (i j n : Nat) : (s.addF f i j n).fresh = s.fresh := rfl
@[simp] theorem addF_mem (s : State) (f : Field) (i j n : Nat) : (s.addF f i j n).mem = s.mem := rfl
@[simp] theorem addF_linePoison (s : State) (f : Field) (i j n : Nat) : (s.addF f i j n).linePoison = s.linePoison := rfl
@[simp] theorem addF_dram (s : State) (f : Field) (i j n : Nat) : (s.addF f i j n).dram = s.dram := rfl
@[simp] theorem addF_granPoison (s : State) (f : Field) (i j n : Nat) : (s.addF f i j n).granPoison = s.granPoison := rfl
@[simp] theorem addF_packed (s : State) (f : Field) (i j n : Nat) : (s.addF f i j n).packed = s.packed := rfl
@[simp] theorem addF_published (s : State) (f : Field) (i j n : Nat) : (s.addF f i j n).published = s.published := rfl
@[simp] theorem addF_publishing (s : State) (f : Field) (i j n : Nat) : (s.addF f i j n).publishing = s.publishing := rfl
@[simp] theorem addF_repair (s : State) (f : Field) (i j n : Nat) : (s.addF f i j n).repair = s.repair := rfl
@[simp] theorem addF_readData (s : State) (f : Field) (i j n : Nat) : (s.addF f i j n).readData = s.readData := rfl
@[simp] theorem addF_readBytes (s : State) (f : Field) (i j n : Nat) : (s.addF f i j n).readBytes = s.readBytes := rfl
@[simp] theorem addF_readPoison (s : State) (f : Field) (i j n : Nat) : (s.addF f i j n).readPoison = s.readPoison := rfl
@[simp] theorem addF_engines (s : State) (f : Field) (i j n : Nat) : (s.addF f i j n).engines = s.engines := rfl
@[simp] theorem addF_cores (s : State) (f : Field) (i j n : Nat) : (s.addF f i j n).cores = s.cores := rfl
@[simp] theorem addF_stackTab (s : State) (f : Field) (i j n : Nat) : (s.addF f i j n).stackTab = s.stackTab := rfl
@[simp] theorem addF_chans (s : State) (f : Field) (i j n : Nat) : (s.addF f i j n).chans = s.chans := rfl
@[simp] theorem addF_sealer (s : State) (f : Field) (i j n : Nat) : (s.addF f i j n).sealer = s.sealer := rfl
@[simp] theorem addF_ports (s : State) (f : Field) (i j n : Nat) : (s.addF f i j n).ports = s.ports := rfl
@[simp] theorem addF_disc (s : State) (f : Field) (i j n : Nat) : (s.addF f i j n).disc = s.disc := rfl
@[simp] theorem addF_ingot (s : State) (f : Field) (i j n : Nat) : (s.addF f i j n).ingot = s.ingot := rfl
@[simp] theorem addF_elog (s : State) (f : Field) (i j n : Nat) : (s.addF f i j n).elog = s.elog := rfl
@[simp] theorem addF_trig (s : State) (f : Field) (i j n : Nat) : (s.addF f i j n).trig = s.trig := rfl
@[simp] theorem addF_inService (s : State) (f : Field) (i j n : Nat) : (s.addF f i j n).inService = s.inService := rfl
@[simp] theorem addF_quench (s : State) (f : Field) (i j n : Nat) : (s.addF f i j n).quench = s.quench := rfl
@[simp] theorem addF_sensors (s : State) (f : Field) (i j n : Nat) : (s.addF f i j n).sensors = s.sensors := rfl
@[simp] theorem addF_input (s : State) (f : Field) (i j n : Nat) : (s.addF f i j n).input = s.input := rfl
@[simp] theorem addF_links (s : State) (f : Field) (i j n : Nat) : (s.addF f i j n).links = s.links := rfl
@[simp] theorem addF_light (s : State) (f : Field) (i j n : Nat) : (s.addF f i j n).light = s.light := rfl
@[simp] theorem addF_clock (s : State) (f : Field) (i j n : Nat) : (s.addF f i j n).clock = s.clock := rfl
@[simp] theorem addF_mons (s : State) (f : Field) (i j n : Nat) : (s.addF f i j n).mons = s.mons := rfl
@[simp] theorem addF_hub (s : State) (f : Field) (i j n : Nat) : (s.addF f i j n).hub = s.hub := rfl
@[simp] theorem addF_boot (s : State) (f : Field) (i j n : Nat) : (s.addF f i j n).boot = s.boot := rfl
@[simp] theorem addF_tier2Lost (s : State) (f : Field) (i j n : Nat) : (s.addF f i j n).tier2Lost = s.tier2Lost := rfl
@[simp] theorem addF_tier2Stopped (s : State) (f : Field) (i j n : Nat) : (s.addF f i j n).tier2Stopped = s.tier2Stopped := rfl

/-! ### wrapF writes regs and nothing else -/

@[simp] theorem wrapF_pending (s : State) (f : Field) (i j : Nat) : (s.wrapF f i j).pending = s.pending := rfl
@[simp] theorem wrapF_time (s : State) (f : Field) (i j : Nat) : (s.wrapF f i j).time = s.time := rfl
@[simp] theorem wrapF_frac (s : State) (f : Field) (i j : Nat) : (s.wrapF f i j).frac = s.frac := rfl
@[simp] theorem wrapF_fresh (s : State) (f : Field) (i j : Nat) : (s.wrapF f i j).fresh = s.fresh := rfl
@[simp] theorem wrapF_mem (s : State) (f : Field) (i j : Nat) : (s.wrapF f i j).mem = s.mem := rfl
@[simp] theorem wrapF_linePoison (s : State) (f : Field) (i j : Nat) : (s.wrapF f i j).linePoison = s.linePoison := rfl
@[simp] theorem wrapF_dram (s : State) (f : Field) (i j : Nat) : (s.wrapF f i j).dram = s.dram := rfl
@[simp] theorem wrapF_granPoison (s : State) (f : Field) (i j : Nat) : (s.wrapF f i j).granPoison = s.granPoison := rfl
@[simp] theorem wrapF_packed (s : State) (f : Field) (i j : Nat) : (s.wrapF f i j).packed = s.packed := rfl
@[simp] theorem wrapF_published (s : State) (f : Field) (i j : Nat) : (s.wrapF f i j).published = s.published := rfl
@[simp] theorem wrapF_publishing (s : State) (f : Field) (i j : Nat) : (s.wrapF f i j).publishing = s.publishing := rfl
@[simp] theorem wrapF_repair (s : State) (f : Field) (i j : Nat) : (s.wrapF f i j).repair = s.repair := rfl
@[simp] theorem wrapF_readData (s : State) (f : Field) (i j : Nat) : (s.wrapF f i j).readData = s.readData := rfl
@[simp] theorem wrapF_readBytes (s : State) (f : Field) (i j : Nat) : (s.wrapF f i j).readBytes = s.readBytes := rfl
@[simp] theorem wrapF_readPoison (s : State) (f : Field) (i j : Nat) : (s.wrapF f i j).readPoison = s.readPoison := rfl
@[simp] theorem wrapF_engines (s : State) (f : Field) (i j : Nat) : (s.wrapF f i j).engines = s.engines := rfl
@[simp] theorem wrapF_cores (s : State) (f : Field) (i j : Nat) : (s.wrapF f i j).cores = s.cores := rfl
@[simp] theorem wrapF_stackTab (s : State) (f : Field) (i j : Nat) : (s.wrapF f i j).stackTab = s.stackTab := rfl
@[simp] theorem wrapF_chans (s : State) (f : Field) (i j : Nat) : (s.wrapF f i j).chans = s.chans := rfl
@[simp] theorem wrapF_sealer (s : State) (f : Field) (i j : Nat) : (s.wrapF f i j).sealer = s.sealer := rfl
@[simp] theorem wrapF_ports (s : State) (f : Field) (i j : Nat) : (s.wrapF f i j).ports = s.ports := rfl
@[simp] theorem wrapF_disc (s : State) (f : Field) (i j : Nat) : (s.wrapF f i j).disc = s.disc := rfl
@[simp] theorem wrapF_ingot (s : State) (f : Field) (i j : Nat) : (s.wrapF f i j).ingot = s.ingot := rfl
@[simp] theorem wrapF_elog (s : State) (f : Field) (i j : Nat) : (s.wrapF f i j).elog = s.elog := rfl
@[simp] theorem wrapF_trig (s : State) (f : Field) (i j : Nat) : (s.wrapF f i j).trig = s.trig := rfl
@[simp] theorem wrapF_inService (s : State) (f : Field) (i j : Nat) : (s.wrapF f i j).inService = s.inService := rfl
@[simp] theorem wrapF_quench (s : State) (f : Field) (i j : Nat) : (s.wrapF f i j).quench = s.quench := rfl
@[simp] theorem wrapF_sensors (s : State) (f : Field) (i j : Nat) : (s.wrapF f i j).sensors = s.sensors := rfl
@[simp] theorem wrapF_input (s : State) (f : Field) (i j : Nat) : (s.wrapF f i j).input = s.input := rfl
@[simp] theorem wrapF_links (s : State) (f : Field) (i j : Nat) : (s.wrapF f i j).links = s.links := rfl
@[simp] theorem wrapF_light (s : State) (f : Field) (i j : Nat) : (s.wrapF f i j).light = s.light := rfl
@[simp] theorem wrapF_clock (s : State) (f : Field) (i j : Nat) : (s.wrapF f i j).clock = s.clock := rfl
@[simp] theorem wrapF_mons (s : State) (f : Field) (i j : Nat) : (s.wrapF f i j).mons = s.mons := rfl
@[simp] theorem wrapF_hub (s : State) (f : Field) (i j : Nat) : (s.wrapF f i j).hub = s.hub := rfl
@[simp] theorem wrapF_boot (s : State) (f : Field) (i j : Nat) : (s.wrapF f i j).boot = s.boot := rfl
@[simp] theorem wrapF_tier2Lost (s : State) (f : Field) (i j : Nat) : (s.wrapF f i j).tier2Lost = s.tier2Lost := rfl
@[simp] theorem wrapF_tier2Stopped (s : State) (f : Field) (i j : Nat) : (s.wrapF f i j).tier2Stopped = s.tier2Stopped := rfl

/-! ### pend writes regs and nothing else -/

@[simp] theorem pend_pending (s : State) (g i : Nat) : (s.pend g i).pending = s.pending := rfl
@[simp] theorem pend_time (s : State) (g i : Nat) : (s.pend g i).time = s.time := rfl
@[simp] theorem pend_frac (s : State) (g i : Nat) : (s.pend g i).frac = s.frac := rfl
@[simp] theorem pend_fresh (s : State) (g i : Nat) : (s.pend g i).fresh = s.fresh := rfl
@[simp] theorem pend_mem (s : State) (g i : Nat) : (s.pend g i).mem = s.mem := rfl
@[simp] theorem pend_linePoison (s : State) (g i : Nat) : (s.pend g i).linePoison = s.linePoison := rfl
@[simp] theorem pend_dram (s : State) (g i : Nat) : (s.pend g i).dram = s.dram := rfl
@[simp] theorem pend_granPoison (s : State) (g i : Nat) : (s.pend g i).granPoison = s.granPoison := rfl
@[simp] theorem pend_packed (s : State) (g i : Nat) : (s.pend g i).packed = s.packed := rfl
@[simp] theorem pend_published (s : State) (g i : Nat) : (s.pend g i).published = s.published := rfl
@[simp] theorem pend_publishing (s : State) (g i : Nat) : (s.pend g i).publishing = s.publishing := rfl
@[simp] theorem pend_repair (s : State) (g i : Nat) : (s.pend g i).repair = s.repair := rfl
@[simp] theorem pend_readData (s : State) (g i : Nat) : (s.pend g i).readData = s.readData := rfl
@[simp] theorem pend_readBytes (s : State) (g i : Nat) : (s.pend g i).readBytes = s.readBytes := rfl
@[simp] theorem pend_readPoison (s : State) (g i : Nat) : (s.pend g i).readPoison = s.readPoison := rfl
@[simp] theorem pend_engines (s : State) (g i : Nat) : (s.pend g i).engines = s.engines := rfl
@[simp] theorem pend_cores (s : State) (g i : Nat) : (s.pend g i).cores = s.cores := rfl
@[simp] theorem pend_stackTab (s : State) (g i : Nat) : (s.pend g i).stackTab = s.stackTab := rfl
@[simp] theorem pend_chans (s : State) (g i : Nat) : (s.pend g i).chans = s.chans := rfl
@[simp] theorem pend_sealer (s : State) (g i : Nat) : (s.pend g i).sealer = s.sealer := rfl
@[simp] theorem pend_ports (s : State) (g i : Nat) : (s.pend g i).ports = s.ports := rfl
@[simp] theorem pend_disc (s : State) (g i : Nat) : (s.pend g i).disc = s.disc := rfl
@[simp] theorem pend_ingot (s : State) (g i : Nat) : (s.pend g i).ingot = s.ingot := rfl
@[simp] theorem pend_elog (s : State) (g i : Nat) : (s.pend g i).elog = s.elog := rfl
@[simp] theorem pend_trig (s : State) (g i : Nat) : (s.pend g i).trig = s.trig := rfl
@[simp] theorem pend_inService (s : State) (g i : Nat) : (s.pend g i).inService = s.inService := rfl
@[simp] theorem pend_quench (s : State) (g i : Nat) : (s.pend g i).quench = s.quench := rfl
@[simp] theorem pend_sensors (s : State) (g i : Nat) : (s.pend g i).sensors = s.sensors := rfl
@[simp] theorem pend_input (s : State) (g i : Nat) : (s.pend g i).input = s.input := rfl
@[simp] theorem pend_links (s : State) (g i : Nat) : (s.pend g i).links = s.links := rfl
@[simp] theorem pend_light (s : State) (g i : Nat) : (s.pend g i).light = s.light := rfl
@[simp] theorem pend_clock (s : State) (g i : Nat) : (s.pend g i).clock = s.clock := rfl
@[simp] theorem pend_mons (s : State) (g i : Nat) : (s.pend g i).mons = s.mons := rfl
@[simp] theorem pend_hub (s : State) (g i : Nat) : (s.pend g i).hub = s.hub := rfl
@[simp] theorem pend_boot (s : State) (g i : Nat) : (s.pend g i).boot = s.boot := rfl
@[simp] theorem pend_tier2Lost (s : State) (g i : Nat) : (s.pend g i).tier2Lost = s.tier2Lost := rfl
@[simp] theorem pend_tier2Stopped (s : State) (g i : Nat) : (s.pend g i).tier2Stopped = s.tier2Stopped := rfl

/-! ### setEngine writes engines and nothing else -/

@[simp] theorem setEngine_pending (s : State) (d : Nat) (e : Engine) : (s.setEngine d e).pending = s.pending := rfl
@[simp] theorem setEngine_time (s : State) (d : Nat) (e : Engine) : (s.setEngine d e).time = s.time := rfl
@[simp] theorem setEngine_frac (s : State) (d : Nat) (e : Engine) : (s.setEngine d e).frac = s.frac := rfl
@[simp] theorem setEngine_fresh (s : State) (d : Nat) (e : Engine) : (s.setEngine d e).fresh = s.fresh := rfl
@[simp] theorem setEngine_regs (s : State) (d : Nat) (e : Engine) : (s.setEngine d e).regs = s.regs := rfl
@[simp] theorem setEngine_mem (s : State) (d : Nat) (e : Engine) : (s.setEngine d e).mem = s.mem := rfl
@[simp] theorem setEngine_linePoison (s : State) (d : Nat) (e : Engine) : (s.setEngine d e).linePoison = s.linePoison := rfl
@[simp] theorem setEngine_dram (s : State) (d : Nat) (e : Engine) : (s.setEngine d e).dram = s.dram := rfl
@[simp] theorem setEngine_granPoison (s : State) (d : Nat) (e : Engine) : (s.setEngine d e).granPoison = s.granPoison := rfl
@[simp] theorem setEngine_packed (s : State) (d : Nat) (e : Engine) : (s.setEngine d e).packed = s.packed := rfl
@[simp] theorem setEngine_published (s : State) (d : Nat) (e : Engine) : (s.setEngine d e).published = s.published := rfl
@[simp] theorem setEngine_publishing (s : State) (d : Nat) (e : Engine) : (s.setEngine d e).publishing = s.publishing := rfl
@[simp] theorem setEngine_repair (s : State) (d : Nat) (e : Engine) : (s.setEngine d e).repair = s.repair := rfl
@[simp] theorem setEngine_readData (s : State) (d : Nat) (e : Engine) : (s.setEngine d e).readData = s.readData := rfl
@[simp] theorem setEngine_readBytes (s : State) (d : Nat) (e : Engine) : (s.setEngine d e).readBytes = s.readBytes := rfl
@[simp] theorem setEngine_readPoison (s : State) (d : Nat) (e : Engine) : (s.setEngine d e).readPoison = s.readPoison := rfl
@[simp] theorem setEngine_cores (s : State) (d : Nat) (e : Engine) : (s.setEngine d e).cores = s.cores := rfl
@[simp] theorem setEngine_stackTab (s : State) (d : Nat) (e : Engine) : (s.setEngine d e).stackTab = s.stackTab := rfl
@[simp] theorem setEngine_chans (s : State) (d : Nat) (e : Engine) : (s.setEngine d e).chans = s.chans := rfl
@[simp] theorem setEngine_sealer (s : State) (d : Nat) (e : Engine) : (s.setEngine d e).sealer = s.sealer := rfl
@[simp] theorem setEngine_ports (s : State) (d : Nat) (e : Engine) : (s.setEngine d e).ports = s.ports := rfl
@[simp] theorem setEngine_disc (s : State) (d : Nat) (e : Engine) : (s.setEngine d e).disc = s.disc := rfl
@[simp] theorem setEngine_ingot (s : State) (d : Nat) (e : Engine) : (s.setEngine d e).ingot = s.ingot := rfl
@[simp] theorem setEngine_elog (s : State) (d : Nat) (e : Engine) : (s.setEngine d e).elog = s.elog := rfl
@[simp] theorem setEngine_trig (s : State) (d : Nat) (e : Engine) : (s.setEngine d e).trig = s.trig := rfl
@[simp] theorem setEngine_inService (s : State) (d : Nat) (e : Engine) : (s.setEngine d e).inService = s.inService := rfl
@[simp] theorem setEngine_quench (s : State) (d : Nat) (e : Engine) : (s.setEngine d e).quench = s.quench := rfl
@[simp] theorem setEngine_sensors (s : State) (d : Nat) (e : Engine) : (s.setEngine d e).sensors = s.sensors := rfl
@[simp] theorem setEngine_input (s : State) (d : Nat) (e : Engine) : (s.setEngine d e).input = s.input := rfl
@[simp] theorem setEngine_links (s : State) (d : Nat) (e : Engine) : (s.setEngine d e).links = s.links := rfl
@[simp] theorem setEngine_light (s : State) (d : Nat) (e : Engine) : (s.setEngine d e).light = s.light := rfl
@[simp] theorem setEngine_clock (s : State) (d : Nat) (e : Engine) : (s.setEngine d e).clock = s.clock := rfl
@[simp] theorem setEngine_mons (s : State) (d : Nat) (e : Engine) : (s.setEngine d e).mons = s.mons := rfl
@[simp] theorem setEngine_hub (s : State) (d : Nat) (e : Engine) : (s.setEngine d e).hub = s.hub := rfl
@[simp] theorem setEngine_boot (s : State) (d : Nat) (e : Engine) : (s.setEngine d e).boot = s.boot := rfl
@[simp] theorem setEngine_tier2Lost (s : State) (d : Nat) (e : Engine) : (s.setEngine d e).tier2Lost = s.tier2Lost := rfl
@[simp] theorem setEngine_tier2Stopped (s : State) (d : Nat) (e : Engine) : (s.setEngine d e).tier2Stopped = s.tier2Stopped := rfl

/-! ### setCore writes cores and nothing else -/

@[simp] theorem setCore_pending (s : State) (k : Nat) (c : CoreSt) : (s.setCore k c).pending = s.pending := rfl
@[simp] theorem setCore_time (s : State) (k : Nat) (c : CoreSt) : (s.setCore k c).time = s.time := rfl
@[simp] theorem setCore_frac (s : State) (k : Nat) (c : CoreSt) : (s.setCore k c).frac = s.frac := rfl
@[simp] theorem setCore_fresh (s : State) (k : Nat) (c : CoreSt) : (s.setCore k c).fresh = s.fresh := rfl
@[simp] theorem setCore_regs (s : State) (k : Nat) (c : CoreSt) : (s.setCore k c).regs = s.regs := rfl
@[simp] theorem setCore_mem (s : State) (k : Nat) (c : CoreSt) : (s.setCore k c).mem = s.mem := rfl
@[simp] theorem setCore_linePoison (s : State) (k : Nat) (c : CoreSt) : (s.setCore k c).linePoison = s.linePoison := rfl
@[simp] theorem setCore_dram (s : State) (k : Nat) (c : CoreSt) : (s.setCore k c).dram = s.dram := rfl
@[simp] theorem setCore_granPoison (s : State) (k : Nat) (c : CoreSt) : (s.setCore k c).granPoison = s.granPoison := rfl
@[simp] theorem setCore_packed (s : State) (k : Nat) (c : CoreSt) : (s.setCore k c).packed = s.packed := rfl
@[simp] theorem setCore_published (s : State) (k : Nat) (c : CoreSt) : (s.setCore k c).published = s.published := rfl
@[simp] theorem setCore_publishing (s : State) (k : Nat) (c : CoreSt) : (s.setCore k c).publishing = s.publishing := rfl
@[simp] theorem setCore_repair (s : State) (k : Nat) (c : CoreSt) : (s.setCore k c).repair = s.repair := rfl
@[simp] theorem setCore_readData (s : State) (k : Nat) (c : CoreSt) : (s.setCore k c).readData = s.readData := rfl
@[simp] theorem setCore_readBytes (s : State) (k : Nat) (c : CoreSt) : (s.setCore k c).readBytes = s.readBytes := rfl
@[simp] theorem setCore_readPoison (s : State) (k : Nat) (c : CoreSt) : (s.setCore k c).readPoison = s.readPoison := rfl
@[simp] theorem setCore_engines (s : State) (k : Nat) (c : CoreSt) : (s.setCore k c).engines = s.engines := rfl
@[simp] theorem setCore_stackTab (s : State) (k : Nat) (c : CoreSt) : (s.setCore k c).stackTab = s.stackTab := rfl
@[simp] theorem setCore_chans (s : State) (k : Nat) (c : CoreSt) : (s.setCore k c).chans = s.chans := rfl
@[simp] theorem setCore_sealer (s : State) (k : Nat) (c : CoreSt) : (s.setCore k c).sealer = s.sealer := rfl
@[simp] theorem setCore_ports (s : State) (k : Nat) (c : CoreSt) : (s.setCore k c).ports = s.ports := rfl
@[simp] theorem setCore_disc (s : State) (k : Nat) (c : CoreSt) : (s.setCore k c).disc = s.disc := rfl
@[simp] theorem setCore_ingot (s : State) (k : Nat) (c : CoreSt) : (s.setCore k c).ingot = s.ingot := rfl
@[simp] theorem setCore_elog (s : State) (k : Nat) (c : CoreSt) : (s.setCore k c).elog = s.elog := rfl
@[simp] theorem setCore_trig (s : State) (k : Nat) (c : CoreSt) : (s.setCore k c).trig = s.trig := rfl
@[simp] theorem setCore_inService (s : State) (k : Nat) (c : CoreSt) : (s.setCore k c).inService = s.inService := rfl
@[simp] theorem setCore_quench (s : State) (k : Nat) (c : CoreSt) : (s.setCore k c).quench = s.quench := rfl
@[simp] theorem setCore_sensors (s : State) (k : Nat) (c : CoreSt) : (s.setCore k c).sensors = s.sensors := rfl
@[simp] theorem setCore_input (s : State) (k : Nat) (c : CoreSt) : (s.setCore k c).input = s.input := rfl
@[simp] theorem setCore_links (s : State) (k : Nat) (c : CoreSt) : (s.setCore k c).links = s.links := rfl
@[simp] theorem setCore_light (s : State) (k : Nat) (c : CoreSt) : (s.setCore k c).light = s.light := rfl
@[simp] theorem setCore_clock (s : State) (k : Nat) (c : CoreSt) : (s.setCore k c).clock = s.clock := rfl
@[simp] theorem setCore_mons (s : State) (k : Nat) (c : CoreSt) : (s.setCore k c).mons = s.mons := rfl
@[simp] theorem setCore_hub (s : State) (k : Nat) (c : CoreSt) : (s.setCore k c).hub = s.hub := rfl
@[simp] theorem setCore_boot (s : State) (k : Nat) (c : CoreSt) : (s.setCore k c).boot = s.boot := rfl
@[simp] theorem setCore_tier2Lost (s : State) (k : Nat) (c : CoreSt) : (s.setCore k c).tier2Lost = s.tier2Lost := rfl
@[simp] theorem setCore_tier2Stopped (s : State) (k : Nat) (c : CoreSt) : (s.setCore k c).tier2Stopped = s.tier2Stopped := rfl

/-! ### setStack writes stackTab and nothing else -/

@[simp] theorem setStack_pending (s : State) (k : Nat) (x : StackSt) : (s.setStack k x).pending = s.pending := rfl
@[simp] theorem setStack_time (s : State) (k : Nat) (x : StackSt) : (s.setStack k x).time = s.time := rfl
@[simp] theorem setStack_frac (s : State) (k : Nat) (x : StackSt) : (s.setStack k x).frac = s.frac := rfl
@[simp] theorem setStack_fresh (s : State) (k : Nat) (x : StackSt) : (s.setStack k x).fresh = s.fresh := rfl
@[simp] theorem setStack_regs (s : State) (k : Nat) (x : StackSt) : (s.setStack k x).regs = s.regs := rfl
@[simp] theorem setStack_mem (s : State) (k : Nat) (x : StackSt) : (s.setStack k x).mem = s.mem := rfl
@[simp] theorem setStack_linePoison (s : State) (k : Nat) (x : StackSt) : (s.setStack k x).linePoison = s.linePoison := rfl
@[simp] theorem setStack_dram (s : State) (k : Nat) (x : StackSt) : (s.setStack k x).dram = s.dram := rfl
@[simp] theorem setStack_granPoison (s : State) (k : Nat) (x : StackSt) : (s.setStack k x).granPoison = s.granPoison := rfl
@[simp] theorem setStack_packed (s : State) (k : Nat) (x : StackSt) : (s.setStack k x).packed = s.packed := rfl
@[simp] theorem setStack_published (s : State) (k : Nat) (x : StackSt) : (s.setStack k x).published = s.published := rfl
@[simp] theorem setStack_publishing (s : State) (k : Nat) (x : StackSt) : (s.setStack k x).publishing = s.publishing := rfl
@[simp] theorem setStack_repair (s : State) (k : Nat) (x : StackSt) : (s.setStack k x).repair = s.repair := rfl
@[simp] theorem setStack_readData (s : State) (k : Nat) (x : StackSt) : (s.setStack k x).readData = s.readData := rfl
@[simp] theorem setStack_readBytes (s : State) (k : Nat) (x : StackSt) : (s.setStack k x).readBytes = s.readBytes := rfl
@[simp] theorem setStack_readPoison (s : State) (k : Nat) (x : StackSt) : (s.setStack k x).readPoison = s.readPoison := rfl
@[simp] theorem setStack_engines (s : State) (k : Nat) (x : StackSt) : (s.setStack k x).engines = s.engines := rfl
@[simp] theorem setStack_cores (s : State) (k : Nat) (x : StackSt) : (s.setStack k x).cores = s.cores := rfl
@[simp] theorem setStack_chans (s : State) (k : Nat) (x : StackSt) : (s.setStack k x).chans = s.chans := rfl
@[simp] theorem setStack_sealer (s : State) (k : Nat) (x : StackSt) : (s.setStack k x).sealer = s.sealer := rfl
@[simp] theorem setStack_ports (s : State) (k : Nat) (x : StackSt) : (s.setStack k x).ports = s.ports := rfl
@[simp] theorem setStack_disc (s : State) (k : Nat) (x : StackSt) : (s.setStack k x).disc = s.disc := rfl
@[simp] theorem setStack_ingot (s : State) (k : Nat) (x : StackSt) : (s.setStack k x).ingot = s.ingot := rfl
@[simp] theorem setStack_elog (s : State) (k : Nat) (x : StackSt) : (s.setStack k x).elog = s.elog := rfl
@[simp] theorem setStack_trig (s : State) (k : Nat) (x : StackSt) : (s.setStack k x).trig = s.trig := rfl
@[simp] theorem setStack_inService (s : State) (k : Nat) (x : StackSt) : (s.setStack k x).inService = s.inService := rfl
@[simp] theorem setStack_quench (s : State) (k : Nat) (x : StackSt) : (s.setStack k x).quench = s.quench := rfl
@[simp] theorem setStack_sensors (s : State) (k : Nat) (x : StackSt) : (s.setStack k x).sensors = s.sensors := rfl
@[simp] theorem setStack_input (s : State) (k : Nat) (x : StackSt) : (s.setStack k x).input = s.input := rfl
@[simp] theorem setStack_links (s : State) (k : Nat) (x : StackSt) : (s.setStack k x).links = s.links := rfl
@[simp] theorem setStack_light (s : State) (k : Nat) (x : StackSt) : (s.setStack k x).light = s.light := rfl
@[simp] theorem setStack_clock (s : State) (k : Nat) (x : StackSt) : (s.setStack k x).clock = s.clock := rfl
@[simp] theorem setStack_mons (s : State) (k : Nat) (x : StackSt) : (s.setStack k x).mons = s.mons := rfl
@[simp] theorem setStack_hub (s : State) (k : Nat) (x : StackSt) : (s.setStack k x).hub = s.hub := rfl
@[simp] theorem setStack_boot (s : State) (k : Nat) (x : StackSt) : (s.setStack k x).boot = s.boot := rfl
@[simp] theorem setStack_tier2Lost (s : State) (k : Nat) (x : StackSt) : (s.setStack k x).tier2Lost = s.tier2Lost := rfl
@[simp] theorem setStack_tier2Stopped (s : State) (k : Nat) (x : StackSt) : (s.setStack k x).tier2Stopped = s.tier2Stopped := rfl

/-! ### setPageVer writes stackTab and nothing else -/

@[simp] theorem setPageVer_pending (s : State) (k p : Nat) (x : PageVer) : (s.setPageVer k p x).pending = s.pending := rfl
@[simp] theorem setPageVer_time (s : State) (k p : Nat) (x : PageVer) : (s.setPageVer k p x).time = s.time := rfl
@[simp] theorem setPageVer_frac (s : State) (k p : Nat) (x : PageVer) : (s.setPageVer k p x).frac = s.frac := rfl
@[simp] theorem setPageVer_fresh (s : State) (k p : Nat) (x : PageVer) : (s.setPageVer k p x).fresh = s.fresh := rfl
@[simp] theorem setPageVer_regs (s : State) (k p : Nat) (x : PageVer) : (s.setPageVer k p x).regs = s.regs := rfl
@[simp] theorem setPageVer_mem (s : State) (k p : Nat) (x : PageVer) : (s.setPageVer k p x).mem = s.mem := rfl
@[simp] theorem setPageVer_linePoison (s : State) (k p : Nat) (x : PageVer) : (s.setPageVer k p x).linePoison = s.linePoison := rfl
@[simp] theorem setPageVer_dram (s : State) (k p : Nat) (x : PageVer) : (s.setPageVer k p x).dram = s.dram := rfl
@[simp] theorem setPageVer_granPoison (s : State) (k p : Nat) (x : PageVer) : (s.setPageVer k p x).granPoison = s.granPoison := rfl
@[simp] theorem setPageVer_packed (s : State) (k p : Nat) (x : PageVer) : (s.setPageVer k p x).packed = s.packed := rfl
@[simp] theorem setPageVer_published (s : State) (k p : Nat) (x : PageVer) : (s.setPageVer k p x).published = s.published := rfl
@[simp] theorem setPageVer_publishing (s : State) (k p : Nat) (x : PageVer) : (s.setPageVer k p x).publishing = s.publishing := rfl
@[simp] theorem setPageVer_repair (s : State) (k p : Nat) (x : PageVer) : (s.setPageVer k p x).repair = s.repair := rfl
@[simp] theorem setPageVer_readData (s : State) (k p : Nat) (x : PageVer) : (s.setPageVer k p x).readData = s.readData := rfl
@[simp] theorem setPageVer_readBytes (s : State) (k p : Nat) (x : PageVer) : (s.setPageVer k p x).readBytes = s.readBytes := rfl
@[simp] theorem setPageVer_readPoison (s : State) (k p : Nat) (x : PageVer) : (s.setPageVer k p x).readPoison = s.readPoison := rfl
@[simp] theorem setPageVer_engines (s : State) (k p : Nat) (x : PageVer) : (s.setPageVer k p x).engines = s.engines := rfl
@[simp] theorem setPageVer_cores (s : State) (k p : Nat) (x : PageVer) : (s.setPageVer k p x).cores = s.cores := rfl
@[simp] theorem setPageVer_chans (s : State) (k p : Nat) (x : PageVer) : (s.setPageVer k p x).chans = s.chans := rfl
@[simp] theorem setPageVer_sealer (s : State) (k p : Nat) (x : PageVer) : (s.setPageVer k p x).sealer = s.sealer := rfl
@[simp] theorem setPageVer_ports (s : State) (k p : Nat) (x : PageVer) : (s.setPageVer k p x).ports = s.ports := rfl
@[simp] theorem setPageVer_disc (s : State) (k p : Nat) (x : PageVer) : (s.setPageVer k p x).disc = s.disc := rfl
@[simp] theorem setPageVer_ingot (s : State) (k p : Nat) (x : PageVer) : (s.setPageVer k p x).ingot = s.ingot := rfl
@[simp] theorem setPageVer_elog (s : State) (k p : Nat) (x : PageVer) : (s.setPageVer k p x).elog = s.elog := rfl
@[simp] theorem setPageVer_trig (s : State) (k p : Nat) (x : PageVer) : (s.setPageVer k p x).trig = s.trig := rfl
@[simp] theorem setPageVer_inService (s : State) (k p : Nat) (x : PageVer) : (s.setPageVer k p x).inService = s.inService := rfl
@[simp] theorem setPageVer_quench (s : State) (k p : Nat) (x : PageVer) : (s.setPageVer k p x).quench = s.quench := rfl
@[simp] theorem setPageVer_sensors (s : State) (k p : Nat) (x : PageVer) : (s.setPageVer k p x).sensors = s.sensors := rfl
@[simp] theorem setPageVer_input (s : State) (k p : Nat) (x : PageVer) : (s.setPageVer k p x).input = s.input := rfl
@[simp] theorem setPageVer_links (s : State) (k p : Nat) (x : PageVer) : (s.setPageVer k p x).links = s.links := rfl
@[simp] theorem setPageVer_light (s : State) (k p : Nat) (x : PageVer) : (s.setPageVer k p x).light = s.light := rfl
@[simp] theorem setPageVer_clock (s : State) (k p : Nat) (x : PageVer) : (s.setPageVer k p x).clock = s.clock := rfl
@[simp] theorem setPageVer_mons (s : State) (k p : Nat) (x : PageVer) : (s.setPageVer k p x).mons = s.mons := rfl
@[simp] theorem setPageVer_hub (s : State) (k p : Nat) (x : PageVer) : (s.setPageVer k p x).hub = s.hub := rfl
@[simp] theorem setPageVer_boot (s : State) (k p : Nat) (x : PageVer) : (s.setPageVer k p x).boot = s.boot := rfl
@[simp] theorem setPageVer_tier2Lost (s : State) (k p : Nat) (x : PageVer) : (s.setPageVer k p x).tier2Lost = s.tier2Lost := rfl
@[simp] theorem setPageVer_tier2Stopped (s : State) (k p : Nat) (x : PageVer) : (s.setPageVer k p x).tier2Stopped = s.tier2Stopped := rfl

/-! ### setChan writes chans and nothing else -/

@[simp] theorem setChan_pending (s : State) (d c : Nat) (x : ChanSt) : (s.setChan d c x).pending = s.pending := rfl
@[simp] theorem setChan_time (s : State) (d c : Nat) (x : ChanSt) : (s.setChan d c x).time = s.time := rfl
@[simp] theorem setChan_frac (s : State) (d c : Nat) (x : ChanSt) : (s.setChan d c x).frac = s.frac := rfl
@[simp] theorem setChan_fresh (s : State) (d c : Nat) (x : ChanSt) : (s.setChan d c x).fresh = s.fresh := rfl
@[simp] theorem setChan_regs (s : State) (d c : Nat) (x : ChanSt) : (s.setChan d c x).regs = s.regs := rfl
@[simp] theorem setChan_mem (s : State) (d c : Nat) (x : ChanSt) : (s.setChan d c x).mem = s.mem := rfl
@[simp] theorem setChan_linePoison (s : State) (d c : Nat) (x : ChanSt) : (s.setChan d c x).linePoison = s.linePoison := rfl
@[simp] theorem setChan_dram (s : State) (d c : Nat) (x : ChanSt) : (s.setChan d c x).dram = s.dram := rfl
@[simp] theorem setChan_granPoison (s : State) (d c : Nat) (x : ChanSt) : (s.setChan d c x).granPoison = s.granPoison := rfl
@[simp] theorem setChan_packed (s : State) (d c : Nat) (x : ChanSt) : (s.setChan d c x).packed = s.packed := rfl
@[simp] theorem setChan_published (s : State) (d c : Nat) (x : ChanSt) : (s.setChan d c x).published = s.published := rfl
@[simp] theorem setChan_publishing (s : State) (d c : Nat) (x : ChanSt) : (s.setChan d c x).publishing = s.publishing := rfl
@[simp] theorem setChan_repair (s : State) (d c : Nat) (x : ChanSt) : (s.setChan d c x).repair = s.repair := rfl
@[simp] theorem setChan_readData (s : State) (d c : Nat) (x : ChanSt) : (s.setChan d c x).readData = s.readData := rfl
@[simp] theorem setChan_readBytes (s : State) (d c : Nat) (x : ChanSt) : (s.setChan d c x).readBytes = s.readBytes := rfl
@[simp] theorem setChan_readPoison (s : State) (d c : Nat) (x : ChanSt) : (s.setChan d c x).readPoison = s.readPoison := rfl
@[simp] theorem setChan_engines (s : State) (d c : Nat) (x : ChanSt) : (s.setChan d c x).engines = s.engines := rfl
@[simp] theorem setChan_cores (s : State) (d c : Nat) (x : ChanSt) : (s.setChan d c x).cores = s.cores := rfl
@[simp] theorem setChan_stackTab (s : State) (d c : Nat) (x : ChanSt) : (s.setChan d c x).stackTab = s.stackTab := rfl
@[simp] theorem setChan_sealer (s : State) (d c : Nat) (x : ChanSt) : (s.setChan d c x).sealer = s.sealer := rfl
@[simp] theorem setChan_ports (s : State) (d c : Nat) (x : ChanSt) : (s.setChan d c x).ports = s.ports := rfl
@[simp] theorem setChan_disc (s : State) (d c : Nat) (x : ChanSt) : (s.setChan d c x).disc = s.disc := rfl
@[simp] theorem setChan_ingot (s : State) (d c : Nat) (x : ChanSt) : (s.setChan d c x).ingot = s.ingot := rfl
@[simp] theorem setChan_elog (s : State) (d c : Nat) (x : ChanSt) : (s.setChan d c x).elog = s.elog := rfl
@[simp] theorem setChan_trig (s : State) (d c : Nat) (x : ChanSt) : (s.setChan d c x).trig = s.trig := rfl
@[simp] theorem setChan_inService (s : State) (d c : Nat) (x : ChanSt) : (s.setChan d c x).inService = s.inService := rfl
@[simp] theorem setChan_quench (s : State) (d c : Nat) (x : ChanSt) : (s.setChan d c x).quench = s.quench := rfl
@[simp] theorem setChan_sensors (s : State) (d c : Nat) (x : ChanSt) : (s.setChan d c x).sensors = s.sensors := rfl
@[simp] theorem setChan_input (s : State) (d c : Nat) (x : ChanSt) : (s.setChan d c x).input = s.input := rfl
@[simp] theorem setChan_links (s : State) (d c : Nat) (x : ChanSt) : (s.setChan d c x).links = s.links := rfl
@[simp] theorem setChan_light (s : State) (d c : Nat) (x : ChanSt) : (s.setChan d c x).light = s.light := rfl
@[simp] theorem setChan_clock (s : State) (d c : Nat) (x : ChanSt) : (s.setChan d c x).clock = s.clock := rfl
@[simp] theorem setChan_mons (s : State) (d c : Nat) (x : ChanSt) : (s.setChan d c x).mons = s.mons := rfl
@[simp] theorem setChan_hub (s : State) (d c : Nat) (x : ChanSt) : (s.setChan d c x).hub = s.hub := rfl
@[simp] theorem setChan_boot (s : State) (d c : Nat) (x : ChanSt) : (s.setChan d c x).boot = s.boot := rfl
@[simp] theorem setChan_tier2Lost (s : State) (d c : Nat) (x : ChanSt) : (s.setChan d c x).tier2Lost = s.tier2Lost := rfl
@[simp] theorem setChan_tier2Stopped (s : State) (d c : Nat) (x : ChanSt) : (s.setChan d c x).tier2Stopped = s.tier2Stopped := rfl

/-! ### setPort writes ports and nothing else -/

@[simp] theorem setPort_pending (s : State) (p : Nat) (x : PortSt) : (s.setPort p x).pending = s.pending := rfl
@[simp] theorem setPort_time (s : State) (p : Nat) (x : PortSt) : (s.setPort p x).time = s.time := rfl
@[simp] theorem setPort_frac (s : State) (p : Nat) (x : PortSt) : (s.setPort p x).frac = s.frac := rfl
@[simp] theorem setPort_fresh (s : State) (p : Nat) (x : PortSt) : (s.setPort p x).fresh = s.fresh := rfl
@[simp] theorem setPort_regs (s : State) (p : Nat) (x : PortSt) : (s.setPort p x).regs = s.regs := rfl
@[simp] theorem setPort_mem (s : State) (p : Nat) (x : PortSt) : (s.setPort p x).mem = s.mem := rfl
@[simp] theorem setPort_linePoison (s : State) (p : Nat) (x : PortSt) : (s.setPort p x).linePoison = s.linePoison := rfl
@[simp] theorem setPort_dram (s : State) (p : Nat) (x : PortSt) : (s.setPort p x).dram = s.dram := rfl
@[simp] theorem setPort_granPoison (s : State) (p : Nat) (x : PortSt) : (s.setPort p x).granPoison = s.granPoison := rfl
@[simp] theorem setPort_packed (s : State) (p : Nat) (x : PortSt) : (s.setPort p x).packed = s.packed := rfl
@[simp] theorem setPort_published (s : State) (p : Nat) (x : PortSt) : (s.setPort p x).published = s.published := rfl
@[simp] theorem setPort_publishing (s : State) (p : Nat) (x : PortSt) : (s.setPort p x).publishing = s.publishing := rfl
@[simp] theorem setPort_repair (s : State) (p : Nat) (x : PortSt) : (s.setPort p x).repair = s.repair := rfl
@[simp] theorem setPort_readData (s : State) (p : Nat) (x : PortSt) : (s.setPort p x).readData = s.readData := rfl
@[simp] theorem setPort_readBytes (s : State) (p : Nat) (x : PortSt) : (s.setPort p x).readBytes = s.readBytes := rfl
@[simp] theorem setPort_readPoison (s : State) (p : Nat) (x : PortSt) : (s.setPort p x).readPoison = s.readPoison := rfl
@[simp] theorem setPort_engines (s : State) (p : Nat) (x : PortSt) : (s.setPort p x).engines = s.engines := rfl
@[simp] theorem setPort_cores (s : State) (p : Nat) (x : PortSt) : (s.setPort p x).cores = s.cores := rfl
@[simp] theorem setPort_stackTab (s : State) (p : Nat) (x : PortSt) : (s.setPort p x).stackTab = s.stackTab := rfl
@[simp] theorem setPort_chans (s : State) (p : Nat) (x : PortSt) : (s.setPort p x).chans = s.chans := rfl
@[simp] theorem setPort_sealer (s : State) (p : Nat) (x : PortSt) : (s.setPort p x).sealer = s.sealer := rfl
@[simp] theorem setPort_disc (s : State) (p : Nat) (x : PortSt) : (s.setPort p x).disc = s.disc := rfl
@[simp] theorem setPort_ingot (s : State) (p : Nat) (x : PortSt) : (s.setPort p x).ingot = s.ingot := rfl
@[simp] theorem setPort_elog (s : State) (p : Nat) (x : PortSt) : (s.setPort p x).elog = s.elog := rfl
@[simp] theorem setPort_trig (s : State) (p : Nat) (x : PortSt) : (s.setPort p x).trig = s.trig := rfl
@[simp] theorem setPort_inService (s : State) (p : Nat) (x : PortSt) : (s.setPort p x).inService = s.inService := rfl
@[simp] theorem setPort_quench (s : State) (p : Nat) (x : PortSt) : (s.setPort p x).quench = s.quench := rfl
@[simp] theorem setPort_sensors (s : State) (p : Nat) (x : PortSt) : (s.setPort p x).sensors = s.sensors := rfl
@[simp] theorem setPort_input (s : State) (p : Nat) (x : PortSt) : (s.setPort p x).input = s.input := rfl
@[simp] theorem setPort_links (s : State) (p : Nat) (x : PortSt) : (s.setPort p x).links = s.links := rfl
@[simp] theorem setPort_light (s : State) (p : Nat) (x : PortSt) : (s.setPort p x).light = s.light := rfl
@[simp] theorem setPort_clock (s : State) (p : Nat) (x : PortSt) : (s.setPort p x).clock = s.clock := rfl
@[simp] theorem setPort_mons (s : State) (p : Nat) (x : PortSt) : (s.setPort p x).mons = s.mons := rfl
@[simp] theorem setPort_hub (s : State) (p : Nat) (x : PortSt) : (s.setPort p x).hub = s.hub := rfl
@[simp] theorem setPort_boot (s : State) (p : Nat) (x : PortSt) : (s.setPort p x).boot = s.boot := rfl
@[simp] theorem setPort_tier2Lost (s : State) (p : Nat) (x : PortSt) : (s.setPort p x).tier2Lost = s.tier2Lost := rfl
@[simp] theorem setPort_tier2Stopped (s : State) (p : Nat) (x : PortSt) : (s.setPort p x).tier2Stopped = s.tier2Stopped := rfl

/-! ### setQuench writes quench and nothing else -/

@[simp] theorem setQuench_pending (s : State) (d : Nat) (x : QuenchSt) : (s.setQuench d x).pending = s.pending := rfl
@[simp] theorem setQuench_time (s : State) (d : Nat) (x : QuenchSt) : (s.setQuench d x).time = s.time := rfl
@[simp] theorem setQuench_frac (s : State) (d : Nat) (x : QuenchSt) : (s.setQuench d x).frac = s.frac := rfl
@[simp] theorem setQuench_fresh (s : State) (d : Nat) (x : QuenchSt) : (s.setQuench d x).fresh = s.fresh := rfl
@[simp] theorem setQuench_regs (s : State) (d : Nat) (x : QuenchSt) : (s.setQuench d x).regs = s.regs := rfl
@[simp] theorem setQuench_mem (s : State) (d : Nat) (x : QuenchSt) : (s.setQuench d x).mem = s.mem := rfl
@[simp] theorem setQuench_linePoison (s : State) (d : Nat) (x : QuenchSt) : (s.setQuench d x).linePoison = s.linePoison := rfl
@[simp] theorem setQuench_dram (s : State) (d : Nat) (x : QuenchSt) : (s.setQuench d x).dram = s.dram := rfl
@[simp] theorem setQuench_granPoison (s : State) (d : Nat) (x : QuenchSt) : (s.setQuench d x).granPoison = s.granPoison := rfl
@[simp] theorem setQuench_packed (s : State) (d : Nat) (x : QuenchSt) : (s.setQuench d x).packed = s.packed := rfl
@[simp] theorem setQuench_published (s : State) (d : Nat) (x : QuenchSt) : (s.setQuench d x).published = s.published := rfl
@[simp] theorem setQuench_publishing (s : State) (d : Nat) (x : QuenchSt) : (s.setQuench d x).publishing = s.publishing := rfl
@[simp] theorem setQuench_repair (s : State) (d : Nat) (x : QuenchSt) : (s.setQuench d x).repair = s.repair := rfl
@[simp] theorem setQuench_readData (s : State) (d : Nat) (x : QuenchSt) : (s.setQuench d x).readData = s.readData := rfl
@[simp] theorem setQuench_readBytes (s : State) (d : Nat) (x : QuenchSt) : (s.setQuench d x).readBytes = s.readBytes := rfl
@[simp] theorem setQuench_readPoison (s : State) (d : Nat) (x : QuenchSt) : (s.setQuench d x).readPoison = s.readPoison := rfl
@[simp] theorem setQuench_engines (s : State) (d : Nat) (x : QuenchSt) : (s.setQuench d x).engines = s.engines := rfl
@[simp] theorem setQuench_cores (s : State) (d : Nat) (x : QuenchSt) : (s.setQuench d x).cores = s.cores := rfl
@[simp] theorem setQuench_stackTab (s : State) (d : Nat) (x : QuenchSt) : (s.setQuench d x).stackTab = s.stackTab := rfl
@[simp] theorem setQuench_chans (s : State) (d : Nat) (x : QuenchSt) : (s.setQuench d x).chans = s.chans := rfl
@[simp] theorem setQuench_sealer (s : State) (d : Nat) (x : QuenchSt) : (s.setQuench d x).sealer = s.sealer := rfl
@[simp] theorem setQuench_ports (s : State) (d : Nat) (x : QuenchSt) : (s.setQuench d x).ports = s.ports := rfl
@[simp] theorem setQuench_disc (s : State) (d : Nat) (x : QuenchSt) : (s.setQuench d x).disc = s.disc := rfl
@[simp] theorem setQuench_ingot (s : State) (d : Nat) (x : QuenchSt) : (s.setQuench d x).ingot = s.ingot := rfl
@[simp] theorem setQuench_elog (s : State) (d : Nat) (x : QuenchSt) : (s.setQuench d x).elog = s.elog := rfl
@[simp] theorem setQuench_trig (s : State) (d : Nat) (x : QuenchSt) : (s.setQuench d x).trig = s.trig := rfl
@[simp] theorem setQuench_inService (s : State) (d : Nat) (x : QuenchSt) : (s.setQuench d x).inService = s.inService := rfl
@[simp] theorem setQuench_sensors (s : State) (d : Nat) (x : QuenchSt) : (s.setQuench d x).sensors = s.sensors := rfl
@[simp] theorem setQuench_input (s : State) (d : Nat) (x : QuenchSt) : (s.setQuench d x).input = s.input := rfl
@[simp] theorem setQuench_links (s : State) (d : Nat) (x : QuenchSt) : (s.setQuench d x).links = s.links := rfl
@[simp] theorem setQuench_light (s : State) (d : Nat) (x : QuenchSt) : (s.setQuench d x).light = s.light := rfl
@[simp] theorem setQuench_clock (s : State) (d : Nat) (x : QuenchSt) : (s.setQuench d x).clock = s.clock := rfl
@[simp] theorem setQuench_mons (s : State) (d : Nat) (x : QuenchSt) : (s.setQuench d x).mons = s.mons := rfl
@[simp] theorem setQuench_hub (s : State) (d : Nat) (x : QuenchSt) : (s.setQuench d x).hub = s.hub := rfl
@[simp] theorem setQuench_boot (s : State) (d : Nat) (x : QuenchSt) : (s.setQuench d x).boot = s.boot := rfl
@[simp] theorem setQuench_tier2Lost (s : State) (d : Nat) (x : QuenchSt) : (s.setQuench d x).tier2Lost = s.tier2Lost := rfl
@[simp] theorem setQuench_tier2Stopped (s : State) (d : Nat) (x : QuenchSt) : (s.setQuench d x).tier2Stopped = s.tier2Stopped := rfl

/-! ### setSensor writes sensors and nothing else -/

@[simp] theorem setSensor_pending (s : State) (d i : Nat) (x : SensorSt) : (s.setSensor d i x).pending = s.pending := rfl
@[simp] theorem setSensor_time (s : State) (d i : Nat) (x : SensorSt) : (s.setSensor d i x).time = s.time := rfl
@[simp] theorem setSensor_frac (s : State) (d i : Nat) (x : SensorSt) : (s.setSensor d i x).frac = s.frac := rfl
@[simp] theorem setSensor_fresh (s : State) (d i : Nat) (x : SensorSt) : (s.setSensor d i x).fresh = s.fresh := rfl
@[simp] theorem setSensor_regs (s : State) (d i : Nat) (x : SensorSt) : (s.setSensor d i x).regs = s.regs := rfl
@[simp] theorem setSensor_mem (s : State) (d i : Nat) (x : SensorSt) : (s.setSensor d i x).mem = s.mem := rfl
@[simp] theorem setSensor_linePoison (s : State) (d i : Nat) (x : SensorSt) : (s.setSensor d i x).linePoison = s.linePoison := rfl
@[simp] theorem setSensor_dram (s : State) (d i : Nat) (x : SensorSt) : (s.setSensor d i x).dram = s.dram := rfl
@[simp] theorem setSensor_granPoison (s : State) (d i : Nat) (x : SensorSt) : (s.setSensor d i x).granPoison = s.granPoison := rfl
@[simp] theorem setSensor_packed (s : State) (d i : Nat) (x : SensorSt) : (s.setSensor d i x).packed = s.packed := rfl
@[simp] theorem setSensor_published (s : State) (d i : Nat) (x : SensorSt) : (s.setSensor d i x).published = s.published := rfl
@[simp] theorem setSensor_publishing (s : State) (d i : Nat) (x : SensorSt) : (s.setSensor d i x).publishing = s.publishing := rfl
@[simp] theorem setSensor_repair (s : State) (d i : Nat) (x : SensorSt) : (s.setSensor d i x).repair = s.repair := rfl
@[simp] theorem setSensor_readData (s : State) (d i : Nat) (x : SensorSt) : (s.setSensor d i x).readData = s.readData := rfl
@[simp] theorem setSensor_readBytes (s : State) (d i : Nat) (x : SensorSt) : (s.setSensor d i x).readBytes = s.readBytes := rfl
@[simp] theorem setSensor_readPoison (s : State) (d i : Nat) (x : SensorSt) : (s.setSensor d i x).readPoison = s.readPoison := rfl
@[simp] theorem setSensor_engines (s : State) (d i : Nat) (x : SensorSt) : (s.setSensor d i x).engines = s.engines := rfl
@[simp] theorem setSensor_cores (s : State) (d i : Nat) (x : SensorSt) : (s.setSensor d i x).cores = s.cores := rfl
@[simp] theorem setSensor_stackTab (s : State) (d i : Nat) (x : SensorSt) : (s.setSensor d i x).stackTab = s.stackTab := rfl
@[simp] theorem setSensor_chans (s : State) (d i : Nat) (x : SensorSt) : (s.setSensor d i x).chans = s.chans := rfl
@[simp] theorem setSensor_sealer (s : State) (d i : Nat) (x : SensorSt) : (s.setSensor d i x).sealer = s.sealer := rfl
@[simp] theorem setSensor_ports (s : State) (d i : Nat) (x : SensorSt) : (s.setSensor d i x).ports = s.ports := rfl
@[simp] theorem setSensor_disc (s : State) (d i : Nat) (x : SensorSt) : (s.setSensor d i x).disc = s.disc := rfl
@[simp] theorem setSensor_ingot (s : State) (d i : Nat) (x : SensorSt) : (s.setSensor d i x).ingot = s.ingot := rfl
@[simp] theorem setSensor_elog (s : State) (d i : Nat) (x : SensorSt) : (s.setSensor d i x).elog = s.elog := rfl
@[simp] theorem setSensor_trig (s : State) (d i : Nat) (x : SensorSt) : (s.setSensor d i x).trig = s.trig := rfl
@[simp] theorem setSensor_inService (s : State) (d i : Nat) (x : SensorSt) : (s.setSensor d i x).inService = s.inService := rfl
@[simp] theorem setSensor_quench (s : State) (d i : Nat) (x : SensorSt) : (s.setSensor d i x).quench = s.quench := rfl
@[simp] theorem setSensor_input (s : State) (d i : Nat) (x : SensorSt) : (s.setSensor d i x).input = s.input := rfl
@[simp] theorem setSensor_links (s : State) (d i : Nat) (x : SensorSt) : (s.setSensor d i x).links = s.links := rfl
@[simp] theorem setSensor_light (s : State) (d i : Nat) (x : SensorSt) : (s.setSensor d i x).light = s.light := rfl
@[simp] theorem setSensor_clock (s : State) (d i : Nat) (x : SensorSt) : (s.setSensor d i x).clock = s.clock := rfl
@[simp] theorem setSensor_mons (s : State) (d i : Nat) (x : SensorSt) : (s.setSensor d i x).mons = s.mons := rfl
@[simp] theorem setSensor_hub (s : State) (d i : Nat) (x : SensorSt) : (s.setSensor d i x).hub = s.hub := rfl
@[simp] theorem setSensor_boot (s : State) (d i : Nat) (x : SensorSt) : (s.setSensor d i x).boot = s.boot := rfl
@[simp] theorem setSensor_tier2Lost (s : State) (d i : Nat) (x : SensorSt) : (s.setSensor d i x).tier2Lost = s.tier2Lost := rfl
@[simp] theorem setSensor_tier2Stopped (s : State) (d i : Nat) (x : SensorSt) : (s.setSensor d i x).tier2Stopped = s.tier2Stopped := rfl

/-! ### setDram writes dram and nothing else -/

@[simp] theorem setDram_pending (s : State) (p : Place) (b : Byte) : (s.setDram p b).pending = s.pending := rfl
@[simp] theorem setDram_time (s : State) (p : Place) (b : Byte) : (s.setDram p b).time = s.time := rfl
@[simp] theorem setDram_frac (s : State) (p : Place) (b : Byte) : (s.setDram p b).frac = s.frac := rfl
@[simp] theorem setDram_fresh (s : State) (p : Place) (b : Byte) : (s.setDram p b).fresh = s.fresh := rfl
@[simp] theorem setDram_regs (s : State) (p : Place) (b : Byte) : (s.setDram p b).regs = s.regs := rfl
@[simp] theorem setDram_mem (s : State) (p : Place) (b : Byte) : (s.setDram p b).mem = s.mem := rfl
@[simp] theorem setDram_linePoison (s : State) (p : Place) (b : Byte) : (s.setDram p b).linePoison = s.linePoison := rfl
@[simp] theorem setDram_granPoison (s : State) (p : Place) (b : Byte) : (s.setDram p b).granPoison = s.granPoison := rfl
@[simp] theorem setDram_packed (s : State) (p : Place) (b : Byte) : (s.setDram p b).packed = s.packed := rfl
@[simp] theorem setDram_published (s : State) (p : Place) (b : Byte) : (s.setDram p b).published = s.published := rfl
@[simp] theorem setDram_publishing (s : State) (p : Place) (b : Byte) : (s.setDram p b).publishing = s.publishing := rfl
@[simp] theorem setDram_repair (s : State) (p : Place) (b : Byte) : (s.setDram p b).repair = s.repair := rfl
@[simp] theorem setDram_readData (s : State) (p : Place) (b : Byte) : (s.setDram p b).readData = s.readData := rfl
@[simp] theorem setDram_readBytes (s : State) (p : Place) (b : Byte) : (s.setDram p b).readBytes = s.readBytes := rfl
@[simp] theorem setDram_readPoison (s : State) (p : Place) (b : Byte) : (s.setDram p b).readPoison = s.readPoison := rfl
@[simp] theorem setDram_engines (s : State) (p : Place) (b : Byte) : (s.setDram p b).engines = s.engines := rfl
@[simp] theorem setDram_cores (s : State) (p : Place) (b : Byte) : (s.setDram p b).cores = s.cores := rfl
@[simp] theorem setDram_stackTab (s : State) (p : Place) (b : Byte) : (s.setDram p b).stackTab = s.stackTab := rfl
@[simp] theorem setDram_chans (s : State) (p : Place) (b : Byte) : (s.setDram p b).chans = s.chans := rfl
@[simp] theorem setDram_sealer (s : State) (p : Place) (b : Byte) : (s.setDram p b).sealer = s.sealer := rfl
@[simp] theorem setDram_ports (s : State) (p : Place) (b : Byte) : (s.setDram p b).ports = s.ports := rfl
@[simp] theorem setDram_disc (s : State) (p : Place) (b : Byte) : (s.setDram p b).disc = s.disc := rfl
@[simp] theorem setDram_ingot (s : State) (p : Place) (b : Byte) : (s.setDram p b).ingot = s.ingot := rfl
@[simp] theorem setDram_elog (s : State) (p : Place) (b : Byte) : (s.setDram p b).elog = s.elog := rfl
@[simp] theorem setDram_trig (s : State) (p : Place) (b : Byte) : (s.setDram p b).trig = s.trig := rfl
@[simp] theorem setDram_inService (s : State) (p : Place) (b : Byte) : (s.setDram p b).inService = s.inService := rfl
@[simp] theorem setDram_quench (s : State) (p : Place) (b : Byte) : (s.setDram p b).quench = s.quench := rfl
@[simp] theorem setDram_sensors (s : State) (p : Place) (b : Byte) : (s.setDram p b).sensors = s.sensors := rfl
@[simp] theorem setDram_input (s : State) (p : Place) (b : Byte) : (s.setDram p b).input = s.input := rfl
@[simp] theorem setDram_links (s : State) (p : Place) (b : Byte) : (s.setDram p b).links = s.links := rfl
@[simp] theorem setDram_light (s : State) (p : Place) (b : Byte) : (s.setDram p b).light = s.light := rfl
@[simp] theorem setDram_clock (s : State) (p : Place) (b : Byte) : (s.setDram p b).clock = s.clock := rfl
@[simp] theorem setDram_mons (s : State) (p : Place) (b : Byte) : (s.setDram p b).mons = s.mons := rfl
@[simp] theorem setDram_hub (s : State) (p : Place) (b : Byte) : (s.setDram p b).hub = s.hub := rfl
@[simp] theorem setDram_boot (s : State) (p : Place) (b : Byte) : (s.setDram p b).boot = s.boot := rfl
@[simp] theorem setDram_tier2Lost (s : State) (p : Place) (b : Byte) : (s.setDram p b).tier2Lost = s.tier2Lost := rfl
@[simp] theorem setDram_tier2Stopped (s : State) (p : Place) (b : Byte) : (s.setDram p b).tier2Stopped = s.tier2Stopped := rfl

/-! ### setGranBad writes granPoison and nothing else -/

@[simp] theorem setGranBad_pending (s : State) (p : Place) (b : Bool) : (s.setGranBad p b).pending = s.pending := rfl
@[simp] theorem setGranBad_time (s : State) (p : Place) (b : Bool) : (s.setGranBad p b).time = s.time := rfl
@[simp] theorem setGranBad_frac (s : State) (p : Place) (b : Bool) : (s.setGranBad p b).frac = s.frac := rfl
@[simp] theorem setGranBad_fresh (s : State) (p : Place) (b : Bool) : (s.setGranBad p b).fresh = s.fresh := rfl
@[simp] theorem setGranBad_regs (s : State) (p : Place) (b : Bool) : (s.setGranBad p b).regs = s.regs := rfl
@[simp] theorem setGranBad_mem (s : State) (p : Place) (b : Bool) : (s.setGranBad p b).mem = s.mem := rfl
@[simp] theorem setGranBad_linePoison (s : State) (p : Place) (b : Bool) : (s.setGranBad p b).linePoison = s.linePoison := rfl
@[simp] theorem setGranBad_dram (s : State) (p : Place) (b : Bool) : (s.setGranBad p b).dram = s.dram := rfl
@[simp] theorem setGranBad_packed (s : State) (p : Place) (b : Bool) : (s.setGranBad p b).packed = s.packed := rfl
@[simp] theorem setGranBad_published (s : State) (p : Place) (b : Bool) : (s.setGranBad p b).published = s.published := rfl
@[simp] theorem setGranBad_publishing (s : State) (p : Place) (b : Bool) : (s.setGranBad p b).publishing = s.publishing := rfl
@[simp] theorem setGranBad_repair (s : State) (p : Place) (b : Bool) : (s.setGranBad p b).repair = s.repair := rfl
@[simp] theorem setGranBad_readData (s : State) (p : Place) (b : Bool) : (s.setGranBad p b).readData = s.readData := rfl
@[simp] theorem setGranBad_readBytes (s : State) (p : Place) (b : Bool) : (s.setGranBad p b).readBytes = s.readBytes := rfl
@[simp] theorem setGranBad_readPoison (s : State) (p : Place) (b : Bool) : (s.setGranBad p b).readPoison = s.readPoison := rfl
@[simp] theorem setGranBad_engines (s : State) (p : Place) (b : Bool) : (s.setGranBad p b).engines = s.engines := rfl
@[simp] theorem setGranBad_cores (s : State) (p : Place) (b : Bool) : (s.setGranBad p b).cores = s.cores := rfl
@[simp] theorem setGranBad_stackTab (s : State) (p : Place) (b : Bool) : (s.setGranBad p b).stackTab = s.stackTab := rfl
@[simp] theorem setGranBad_chans (s : State) (p : Place) (b : Bool) : (s.setGranBad p b).chans = s.chans := rfl
@[simp] theorem setGranBad_sealer (s : State) (p : Place) (b : Bool) : (s.setGranBad p b).sealer = s.sealer := rfl
@[simp] theorem setGranBad_ports (s : State) (p : Place) (b : Bool) : (s.setGranBad p b).ports = s.ports := rfl
@[simp] theorem setGranBad_disc (s : State) (p : Place) (b : Bool) : (s.setGranBad p b).disc = s.disc := rfl
@[simp] theorem setGranBad_ingot (s : State) (p : Place) (b : Bool) : (s.setGranBad p b).ingot = s.ingot := rfl
@[simp] theorem setGranBad_elog (s : State) (p : Place) (b : Bool) : (s.setGranBad p b).elog = s.elog := rfl
@[simp] theorem setGranBad_trig (s : State) (p : Place) (b : Bool) : (s.setGranBad p b).trig = s.trig := rfl
@[simp] theorem setGranBad_inService (s : State) (p : Place) (b : Bool) : (s.setGranBad p b).inService = s.inService := rfl
@[simp] theorem setGranBad_quench (s : State) (p : Place) (b : Bool) : (s.setGranBad p b).quench = s.quench := rfl
@[simp] theorem setGranBad_sensors (s : State) (p : Place) (b : Bool) : (s.setGranBad p b).sensors = s.sensors := rfl
@[simp] theorem setGranBad_input (s : State) (p : Place) (b : Bool) : (s.setGranBad p b).input = s.input := rfl
@[simp] theorem setGranBad_links (s : State) (p : Place) (b : Bool) : (s.setGranBad p b).links = s.links := rfl
@[simp] theorem setGranBad_light (s : State) (p : Place) (b : Bool) : (s.setGranBad p b).light = s.light := rfl
@[simp] theorem setGranBad_clock (s : State) (p : Place) (b : Bool) : (s.setGranBad p b).clock = s.clock := rfl
@[simp] theorem setGranBad_mons (s : State) (p : Place) (b : Bool) : (s.setGranBad p b).mons = s.mons := rfl
@[simp] theorem setGranBad_hub (s : State) (p : Place) (b : Bool) : (s.setGranBad p b).hub = s.hub := rfl
@[simp] theorem setGranBad_boot (s : State) (p : Place) (b : Bool) : (s.setGranBad p b).boot = s.boot := rfl
@[simp] theorem setGranBad_tier2Lost (s : State) (p : Place) (b : Bool) : (s.setGranBad p b).tier2Lost = s.tier2Lost := rfl
@[simp] theorem setGranBad_tier2Stopped (s : State) (p : Place) (b : Bool) : (s.setGranBad p b).tier2Stopped = s.tier2Stopped := rfl

/-! ### setMem writes mem and nothing else -/

@[simp] theorem setMem_pending (s : State) (a : Nat) (b : Byte) : (s.setMem a b).pending = s.pending := rfl
@[simp] theorem setMem_time (s : State) (a : Nat) (b : Byte) : (s.setMem a b).time = s.time := rfl
@[simp] theorem setMem_frac (s : State) (a : Nat) (b : Byte) : (s.setMem a b).frac = s.frac := rfl
@[simp] theorem setMem_fresh (s : State) (a : Nat) (b : Byte) : (s.setMem a b).fresh = s.fresh := rfl
@[simp] theorem setMem_regs (s : State) (a : Nat) (b : Byte) : (s.setMem a b).regs = s.regs := rfl
@[simp] theorem setMem_linePoison (s : State) (a : Nat) (b : Byte) : (s.setMem a b).linePoison = s.linePoison := rfl
@[simp] theorem setMem_dram (s : State) (a : Nat) (b : Byte) : (s.setMem a b).dram = s.dram := rfl
@[simp] theorem setMem_granPoison (s : State) (a : Nat) (b : Byte) : (s.setMem a b).granPoison = s.granPoison := rfl
@[simp] theorem setMem_packed (s : State) (a : Nat) (b : Byte) : (s.setMem a b).packed = s.packed := rfl
@[simp] theorem setMem_published (s : State) (a : Nat) (b : Byte) : (s.setMem a b).published = s.published := rfl
@[simp] theorem setMem_publishing (s : State) (a : Nat) (b : Byte) : (s.setMem a b).publishing = s.publishing := rfl
@[simp] theorem setMem_repair (s : State) (a : Nat) (b : Byte) : (s.setMem a b).repair = s.repair := rfl
@[simp] theorem setMem_readData (s : State) (a : Nat) (b : Byte) : (s.setMem a b).readData = s.readData := rfl
@[simp] theorem setMem_readBytes (s : State) (a : Nat) (b : Byte) : (s.setMem a b).readBytes = s.readBytes := rfl
@[simp] theorem setMem_readPoison (s : State) (a : Nat) (b : Byte) : (s.setMem a b).readPoison = s.readPoison := rfl
@[simp] theorem setMem_engines (s : State) (a : Nat) (b : Byte) : (s.setMem a b).engines = s.engines := rfl
@[simp] theorem setMem_cores (s : State) (a : Nat) (b : Byte) : (s.setMem a b).cores = s.cores := rfl
@[simp] theorem setMem_stackTab (s : State) (a : Nat) (b : Byte) : (s.setMem a b).stackTab = s.stackTab := rfl
@[simp] theorem setMem_chans (s : State) (a : Nat) (b : Byte) : (s.setMem a b).chans = s.chans := rfl
@[simp] theorem setMem_sealer (s : State) (a : Nat) (b : Byte) : (s.setMem a b).sealer = s.sealer := rfl
@[simp] theorem setMem_ports (s : State) (a : Nat) (b : Byte) : (s.setMem a b).ports = s.ports := rfl
@[simp] theorem setMem_disc (s : State) (a : Nat) (b : Byte) : (s.setMem a b).disc = s.disc := rfl
@[simp] theorem setMem_ingot (s : State) (a : Nat) (b : Byte) : (s.setMem a b).ingot = s.ingot := rfl
@[simp] theorem setMem_elog (s : State) (a : Nat) (b : Byte) : (s.setMem a b).elog = s.elog := rfl
@[simp] theorem setMem_trig (s : State) (a : Nat) (b : Byte) : (s.setMem a b).trig = s.trig := rfl
@[simp] theorem setMem_inService (s : State) (a : Nat) (b : Byte) : (s.setMem a b).inService = s.inService := rfl
@[simp] theorem setMem_quench (s : State) (a : Nat) (b : Byte) : (s.setMem a b).quench = s.quench := rfl
@[simp] theorem setMem_sensors (s : State) (a : Nat) (b : Byte) : (s.setMem a b).sensors = s.sensors := rfl
@[simp] theorem setMem_input (s : State) (a : Nat) (b : Byte) : (s.setMem a b).input = s.input := rfl
@[simp] theorem setMem_links (s : State) (a : Nat) (b : Byte) : (s.setMem a b).links = s.links := rfl
@[simp] theorem setMem_light (s : State) (a : Nat) (b : Byte) : (s.setMem a b).light = s.light := rfl
@[simp] theorem setMem_clock (s : State) (a : Nat) (b : Byte) : (s.setMem a b).clock = s.clock := rfl
@[simp] theorem setMem_mons (s : State) (a : Nat) (b : Byte) : (s.setMem a b).mons = s.mons := rfl
@[simp] theorem setMem_hub (s : State) (a : Nat) (b : Byte) : (s.setMem a b).hub = s.hub := rfl
@[simp] theorem setMem_boot (s : State) (a : Nat) (b : Byte) : (s.setMem a b).boot = s.boot := rfl
@[simp] theorem setMem_tier2Lost (s : State) (a : Nat) (b : Byte) : (s.setMem a b).tier2Lost = s.tier2Lost := rfl
@[simp] theorem setMem_tier2Stopped (s : State) (a : Nat) (b : Byte) : (s.setMem a b).tier2Stopped = s.tier2Stopped := rfl

end Sys2Proof.Machine.State
end

