-- ==== Sys2Proof/Laws/Ops.lean ====
section
/-! SUPPORT. The laws of registers and fields, of the state's parts, of byte memory, and what latching interrupt edges
can do. -/

namespace Sys2Proof.Machine

/-! ### Fields of a word -/

/-- A field lies within a register word. -/
def Field.ok (f : Field) : Bool := decide (f.lo ≤ f.hi) && decide (f.hi < 64)

theorem Field.bit_mask (f : Field) (i : Nat) :
    f.mask.getLsbD i = (decide (i < 64) && decide (f.lo ≤ i) && decide (i < f.lo + f.width)) := by
  unfold Field.mask
  rw [BitVec.getLsbD_ofNat, ← Nat.shiftLeft_eq, Nat.testBit_shiftLeft, Nat.testBit_two_pow_sub_one]
  by_cases h1 : i < 64 <;> by_cases h2 : f.lo ≤ i <;> simp [h1, h2]
  omega

/-- A bit of a word after one field was written: the value's bit inside the field, the old bit outside it. -/
theorem Field.bit_set (f : Field) (w : Word) (v i : Nat) :
    (f.set w v).getLsbD i =
      if f.lo ≤ i ∧ i < f.lo + f.width ∧ i < 64 then v.testBit (i - f.lo) else w.getLsbD i := by
  unfold Field.set
  simp only [BitVec.getLsbD_or, BitVec.getLsbD_and, BitVec.getLsbD_not, BitVec.getLsbD_shiftLeft, Field.bit_mask,
    BitVec.getLsbD_ofNat]
  by_cases h1 : i < 64
  · by_cases h2 : f.lo ≤ i
    · by_cases h3 : i < f.lo + f.width
      · simp [h1, h2, h3, show ¬ i < f.lo by omega, show i - f.lo < 64 by omega]
      · simp [h1, h2, h3]
    · simp [h1, h2]
  · simp [h1, BitVec.getLsbD_of_ge w i (by omega)]

theorem Field.testBit_get (f : Field) (w : Word) (i : Nat) :
    (f.get w).testBit i = (decide (i < f.width) && w.getLsbD (f.lo + i)) := by
  unfold Field.get
  rw [Nat.testBit_mod_two_pow, Nat.testBit_shiftRight]; rfl

/-- A field reads what was written to it, cut to its width. -/
theorem Field.get_set (f : Field) (w : Word) (v : Nat) (h : f.ok = true) : f.get (f.set w v) = v % 2 ^ f.width := by
  simp [Field.ok] at h
  apply Nat.eq_of_testBit_eq; intro i
  rw [Field.testBit_get, Field.bit_set, Nat.testBit_mod_two_pow]
  have : f.width = f.hi + 1 - f.lo := rfl
  by_cases hi : i < f.width
  · simp [hi, show f.lo + i < 64 by omega]
  · simp [hi]

/-- A field reads as before when a disjoint field of the register is written. -/
theorem Field.get_set_of_disjoint (f g : Field) (w : Word) (v : Nat) (hg : f.hi < g.lo ∨ g.hi < f.lo) :
    f.get (g.set w v) = f.get w := by
  have hf' : f.width = f.hi + 1 - f.lo := rfl
  have hg' : g.width = g.hi + 1 - g.lo := rfl
  apply Nat.eq_of_testBit_eq; intro i
  rw [Field.testBit_get, Field.testBit_get, Field.bit_set]
  by_cases hi : i < f.width
  · rw [if_neg]; omega
  · simp [hi]

theorem Field.get_lt (f : Field) (w : Word) : f.get w < 2 ^ f.width := Nat.mod_lt _ (Nat.two_pow_pos _)

/-! ### Registers -/

namespace State

@[simp] theorem getR_putR (s : State) (k k' : RegKey) (v : Word) :
    (s.putR k v).getR k' = if k = k' then v else s.getR k' := Tab.get_put ..

theorem getR_putR_same (s : State) (k : RegKey) (v : Word) : (s.putR k v).getR k = v := by simp

theorem getR_setF (s : State) (f : Field) (i j v : Nat) (k : RegKey) :
    (s.setF f i j v).getR k = if f.key i j = k then f.set (s.getR k) v else s.getR k := by
  unfold setF; rw [getR_putR]; split
  · rename_i h; rw [h]
  · rfl

/-- A field reads what was written to it. -/
theorem getF_setF_same (s : State) (f : Field) (i j v : Nat) (h : f.ok = true) :
    (s.setF f i j v).getF f i j = v % 2 ^ f.width := by
  unfold getF; rw [getR_setF, if_pos rfl, Field.get_set _ _ _ h]

/-- Another register's fields read as before. -/
theorem getF_setF_of_key (s : State) (f g : Field) (i j i' j' v : Nat) (h : g.key i' j' ≠ f.key i j) :
    (s.setF g i' j' v).getF f i j = s.getF f i j := by
  unfold getF; rw [getR_setF, if_neg h]

/-- A disjoint field of the same or another register reads as before. -/
theorem getF_setF_of_disjoint (s : State) (f g : Field) (i j i' j' v : Nat)
    (h : f.hi < g.lo ∨ g.hi < f.lo) : (s.setF g i' j' v).getF f i j = s.getF f i j := by
  unfold getF; rw [getR_setF]; split
  · exact Field.get_set_of_disjoint _ _ _ _ h
  · rfl

theorem getF_setF_of_reg (s : State) (f g : Field) (i j i' j' v : Nat) (h : g.reg ≠ f.reg) :
    (s.setF g i' j' v).getF f i j = s.getF f i j :=
  getF_setF_of_key _ _ _ _ _ _ _ _ (fun e => h (congrArg RegKey.name e))

theorem getR_setF_of_reg (s : State) (g : Field) (i j v : Nat) (k : RegKey) (h : k.name ≠ g.reg) :
    (s.setF g i j v).getR k = s.getR k := by
  rw [getR_setF, if_neg]; rintro rfl; exact h rfl

theorem addF_eq (s : State) (f : Field) (i j n : Nat) :
    s.addF f i j n = s.setF f i j (min (s.getF f i j + n) (2 ^ f.width - 1)) := rfl

theorem wrapF_eq (s : State) (f : Field) (i j : Nat) : s.wrapF f i j = s.setF f i j (s.getF f i j + 1) := rfl

/-- A counter reads its count raised by `n`, held at all ones. -/
theorem getF_addF_same (s : State) (f : Field) (i j n : Nat) (h : f.ok = true) :
    (s.addF f i j n).getF f i j = min (s.getF f i j + n) (2 ^ f.width - 1) := by
  rw [addF_eq, getF_setF_same _ _ _ _ _ h, Nat.mod_eq_of_lt]
  have := Nat.two_pow_pos f.width
  omega

/-! ### Reads that a write elsewhere leaves alone -/

@[simp] theorem getR_setEngine (s : State) (d0 : Nat) (x : Engine) (k : RegKey) : (s.setEngine d0 x).getR k = s.getR k := rfl
@[simp] theorem getF_setEngine (s : State) (d0 : Nat) (x : Engine) (f : Field) (i j : Nat) : (s.setEngine d0 x).getF f i j = s.getF f i j := rfl
@[simp] theorem flag_setEngine (s : State) (d0 : Nat) (x : Engine) (f : Field) (i j : Nat) : (s.setEngine d0 x).flag f i j = s.flag f i j := rfl
@[simp] theorem getR_setCore (s : State) (k0 : Nat) (x : CoreSt) (k : RegKey) : (s.setCore k0 x).getR k = s.getR k := rfl
@[simp] theorem getF_setCore (s : State) (k0 : Nat) (x : CoreSt) (f : Field) (i j : Nat) : (s.setCore k0 x).getF f i j = s.getF f i j := rfl
@[simp] theorem flag_setCore (s : State) (k0 : Nat) (x : CoreSt) (f : Field) (i j : Nat) : (s.setCore k0 x).flag f i j = s.flag f i j := rfl
@[simp] theorem getR_setStack (s : State) (k0 : Nat) (x : StackSt) (k : RegKey) : (s.setStack k0 x).getR k = s.getR k := rfl
@[simp] theorem getF_setStack (s : State) (k0 : Nat) (x : StackSt) (f : Field) (i j : Nat) : (s.setStack k0 x).getF f i j = s.getF f i j := rfl
@[simp] theorem flag_setStack (s : State) (k0 : Nat) (x : StackSt) (f : Field) (i j : Nat) : (s.setStack k0 x).flag f i j = s.flag f i j := rfl
@[simp] theorem getR_setPageVer (s : State) (k0 p0 : Nat) (x : PageVer) (k : RegKey) : (s.setPageVer k0 p0 x).getR k = s.getR k := rfl
@[simp] theorem getF_setPageVer (s : State) (k0 p0 : Nat) (x : PageVer) (f : Field) (i j : Nat) : (s.setPageVer k0 p0 x).getF f i j = s.getF f i j := rfl
@[simp] theorem flag_setPageVer (s : State) (k0 p0 : Nat) (x : PageVer) (f : Field) (i j : Nat) : (s.setPageVer k0 p0 x).flag f i j = s.flag f i j := rfl
@[simp] theorem getR_setChan (s : State) (d0 c0 : Nat) (x : ChanSt) (k : RegKey) : (s.setChan d0 c0 x).getR k = s.getR k := rfl
@[simp] theorem getF_setChan (s : State) (d0 c0 : Nat) (x : ChanSt) (f : Field) (i j : Nat) : (s.setChan d0 c0 x).getF f i j = s.getF f i j := rfl
@[simp] theorem flag_setChan (s : State) (d0 c0 : Nat) (x : ChanSt) (f : Field) (i j : Nat) : (s.setChan d0 c0 x).flag f i j = s.flag f i j := rfl
@[simp] theorem getR_setPort (s : State) (p0 : Nat) (x : PortSt) (k : RegKey) : (s.setPort p0 x).getR k = s.getR k := rfl
@[simp] theorem getF_setPort (s : State) (p0 : Nat) (x : PortSt) (f : Field) (i j : Nat) : (s.setPort p0 x).getF f i j = s.getF f i j := rfl
@[simp] theorem flag_setPort (s : State) (p0 : Nat) (x : PortSt) (f : Field) (i j : Nat) : (s.setPort p0 x).flag f i j = s.flag f i j := rfl
@[simp] theorem getR_setQuench (s : State) (d0 : Nat) (x : QuenchSt) (k : RegKey) : (s.setQuench d0 x).getR k = s.getR k := rfl
@[simp] theorem getF_setQuench (s : State) (d0 : Nat) (x : QuenchSt) (f : Field) (i j : Nat) : (s.setQuench d0 x).getF f i j = s.getF f i j := rfl
@[simp] theorem flag_setQuench (s : State) (d0 : Nat) (x : QuenchSt) (f : Field) (i j : Nat) : (s.setQuench d0 x).flag f i j = s.flag f i j := rfl
@[simp] theorem getR_setSensor (s : State) (d0 i0 : Nat) (x : SensorSt) (k : RegKey) : (s.setSensor d0 i0 x).getR k = s.getR k := rfl
@[simp] theorem getF_setSensor (s : State) (d0 i0 : Nat) (x : SensorSt) (f : Field) (i j : Nat) : (s.setSensor d0 i0 x).getF f i j = s.getF f i j := rfl
@[simp] theorem flag_setSensor (s : State) (d0 i0 : Nat) (x : SensorSt) (f : Field) (i j : Nat) : (s.setSensor d0 i0 x).flag f i j = s.flag f i j := rfl
@[simp] theorem getR_setDram (s : State) (p0 : Place) (b : Byte) (k : RegKey) : (s.setDram p0 b).getR k = s.getR k := rfl
@[simp] theorem getF_setDram (s : State) (p0 : Place) (b : Byte) (f : Field) (i j : Nat) : (s.setDram p0 b).getF f i j = s.getF f i j := rfl
@[simp] theorem flag_setDram (s : State) (p0 : Place) (b : Byte) (f : Field) (i j : Nat) : (s.setDram p0 b).flag f i j = s.flag f i j := rfl
@[simp] theorem getR_setGranBad (s : State) (p0 : Place) (b : Bool) (k : RegKey) : (s.setGranBad p0 b).getR k = s.getR k := rfl
@[simp] theorem getF_setGranBad (s : State) (p0 : Place) (b : Bool) (f : Field) (i j : Nat) : (s.setGranBad p0 b).getF f i j = s.getF f i j := rfl
@[simp] theorem flag_setGranBad (s : State) (p0 : Place) (b : Bool) (f : Field) (i j : Nat) : (s.setGranBad p0 b).flag f i j = s.flag f i j := rfl
@[simp] theorem getR_setMem (s : State) (a0 : Nat) (b : Byte) (k : RegKey) : (s.setMem a0 b).getR k = s.getR k := rfl
@[simp] theorem getF_setMem (s : State) (a0 : Nat) (b : Byte) (f : Field) (i j : Nat) : (s.setMem a0 b).getF f i j = s.getF f i j := rfl
@[simp] theorem flag_setMem (s : State) (a0 : Nat) (b : Byte) (f : Field) (i j : Nat) : (s.setMem a0 b).flag f i j = s.flag f i j := rfl

/-! ### A part read after it was written -/

@[simp] theorem engine_setEngine (s : State) (d : Nat) (d' : Nat) (v : Engine) :
    (s.setEngine d v).engine d' = if d = d' then v else s.engine d' := Tab.getN_putN ..

@[simp] theorem core_setCore (s : State) (k : Nat) (k' : Nat) (v : CoreSt) :
    (s.setCore k v).core k' = if k = k' then v else s.core k' := Tab.getN_putN ..

@[simp] theorem stack_setStack (s : State) (k : Nat) (k' : Nat) (v : StackSt) :
    (s.setStack k v).stack k' = if k = k' then v else s.stack k' := Tab.getN_putN ..

@[simp] theorem port_setPort (s : State) (k : Nat) (k' : Nat) (v : PortSt) :
    (s.setPort k v).port k' = if k = k' then v else s.port k' := Tab.getN_putN ..

@[simp] theorem quenchOf_setQuench (s : State) (k : Nat) (k' : Nat) (v : QuenchSt) :
    (s.setQuench k v).quenchOf k' = if k = k' then v else s.quenchOf k' := Tab.getN_putN ..

theorem chan_setChan (s : State) (d c d' c' : Nat) (v : ChanSt) :
    (s.setChan d c v).chan d' c' = if 16 * d + c = 16 * d' + c' then v else s.chan d' c' := Tab.getN_putN ..

theorem chan_setChan_same (s : State) (d c : Nat) (v : ChanSt) : (s.setChan d c v).chan d c = v := by
  simp [chan_setChan]

theorem sensorOf_setSensor (s : State) (d i d' i' : Nat) (v : SensorSt) :
    (s.setSensor d i v).sensorOf d' i' = if 64 * d + i = 64 * d' + i' then v else s.sensorOf d' i' := Tab.getN_putN ..

@[simp] theorem dramByte_setDram (s : State) (p q : Place) (b : Byte) :
    (s.setDram p b).dramByte q = if p.addr = q.addr then b else s.dramByte q := Tab.getN_putN ..

/-! ### What latching interrupt edges can do (R406) -/

theorem foldl_pend (l : List (Nat × Nat)) (t : State) :
    l.foldl (fun u x => u.pend x.1 x.2) t = { t with regs := (l.foldl (fun u x => u.pend x.1 x.2) t).regs } := by
  induction l generalizing t with
  | nil => rfl
  | cons x l ih => rw [List.foldl_cons, ih]; rfl

theorem getR_foldl_pend (l : List (Nat × Nat)) (t : State) (k : RegKey) (h : k.name ≠ .HIC_PEND) :
    (l.foldl (fun u x => u.pend x.1 x.2) t).getR k = t.getR k := by
  induction l generalizing t with
  | nil => rfl
  | cons x l ih =>
    rw [List.foldl_cons, ih]
    simp only [pend, getR_putR]; rw [if_neg]; rintro rfl; exact h rfl

theorem bit_foldl_pend (l : List (Nat × Nat)) (t : State) (g i : Nat) (hi : i < 64) :
    ((l.foldl (fun u x => u.pend x.1 x.2) t).getR ⟨.HIC_PEND, 0, g⟩).getLsbD i =
      ((t.getR ⟨.HIC_PEND, 0, g⟩).getLsbD i || decide ((g, i) ∈ l)) := by
  induction l generalizing t with
  | nil => simp
  | cons x l ih =>
    rw [List.foldl_cons, ih]
    obtain ⟨a, b⟩ := x
    simp only [pend, getR_putR]
    by_cases hg : a = g
    · subst hg
      rw [if_pos rfl, BitVec.getLsbD_or, BitVec.getLsbD_shiftLeft]
      by_cases hb : b = i
      · subst hb; simp [hi]
      · have : (1#64).getLsbD (i - b) = false ∨ i < b := by
          by_cases h : i < b
          · exact .inr h
          · left; simp; omega
        rcases this with h | h <;> simp [h, hi, Ne.symm hb]
    · rw [if_neg (by simp [hg])]; simp [Ne.symm hg]

/-- Latching changes nothing but registers. -/
theorem latchEdges_eq (s t : State) : s.latchEdges t = { t with regs := (s.latchEdges t).regs } := foldl_pend ..

/-- Latching changes no register but HIC_PEND. -/
theorem getR_latchEdges (s t : State) (k : RegKey) (h : k.name ≠ .HIC_PEND) :
    (s.latchEdges t).getR k = t.getR k := getR_foldl_pend _ _ _ h

theorem getF_latchEdges (s t : State) (f : Field) (i j : Nat) (h : f.reg ≠ .HIC_PEND) :
    (s.latchEdges t).getF f i j = t.getF f i j := by
  unfold getF; rw [getR_latchEdges]; exact h

theorem flag_latchEdges (s t : State) (f : Field) (i j : Nat) (h : f.reg ≠ .HIC_PEND) :
    (s.latchEdges t).flag f i j = t.flag f i j := by
  unfold flag; rw [getF_latchEdges _ _ _ _ _ h]

/-- A pending bit after latching: set before, or the rising edge of a listed source (R406). -/
theorem bit_latchEdges (s t : State) (g i : Nat) (hi : i < 64) :
    ((s.latchEdges t).getR ⟨.HIC_PEND, 0, g⟩).getLsbD i =
      ((t.getR ⟨.HIC_PEND, 0, g⟩).getLsbD i ||
        decide ((g, i) ∈ levelSources ∧ s.level g i = false ∧ t.level g i = true)) := by
  unfold latchEdges
  rw [bit_foldl_pend _ _ _ _ hi]
  congr 1
  simp [List.mem_filter]

@[simp] theorem latchEdges_pending (s t : State) : (s.latchEdges t).pending = t.pending := by rw [latchEdges_eq]
@[simp] theorem latchEdges_time (s t : State) : (s.latchEdges t).time = t.time := by rw [latchEdges_eq]
@[simp] theorem latchEdges_frac (s t : State) : (s.latchEdges t).frac = t.frac := by rw [latchEdges_eq]
@[simp] theorem latchEdges_fresh (s t : State) : (s.latchEdges t).fresh = t.fresh := by rw [latchEdges_eq]
@[simp] theorem latchEdges_mem (s t : State) : (s.latchEdges t).mem = t.mem := by rw [latchEdges_eq]
@[simp] theorem latchEdges_linePoison (s t : State) : (s.latchEdges t).linePoison = t.linePoison := by rw [latchEdges_eq]
@[simp] theorem latchEdges_dram (s t : State) : (s.latchEdges t).dram = t.dram := by rw [latchEdges_eq]
@[simp] theorem latchEdges_granPoison (s t : State) : (s.latchEdges t).granPoison = t.granPoison := by rw [latchEdges_eq]
@[simp] theorem latchEdges_packed (s t : State) : (s.latchEdges t).packed = t.packed := by rw [latchEdges_eq]
@[simp] theorem latchEdges_published (s t : State) : (s.latchEdges t).published = t.published := by rw [latchEdges_eq]
@[simp] theorem latchEdges_publishing (s t : State) : (s.latchEdges t).publishing = t.publishing := by rw [latchEdges_eq]
@[simp] theorem latchEdges_repair (s t : State) : (s.latchEdges t).repair = t.repair := by rw [latchEdges_eq]
@[simp] theorem latchEdges_readData (s t : State) : (s.latchEdges t).readData = t.readData := by rw [latchEdges_eq]
@[simp] theorem latchEdges_readBytes (s t : State) : (s.latchEdges t).readBytes = t.readBytes := by rw [latchEdges_eq]
@[simp] theorem latchEdges_readPoison (s t : State) : (s.latchEdges t).readPoison = t.readPoison := by rw [latchEdges_eq]
@[simp] theorem latchEdges_engines (s t : State) : (s.latchEdges t).engines = t.engines := by rw [latchEdges_eq]
@[simp] theorem latchEdges_cores (s t : State) : (s.latchEdges t).cores = t.cores := by rw [latchEdges_eq]
@[simp] theorem latchEdges_stackTab (s t : State) : (s.latchEdges t).stackTab = t.stackTab := by rw [latchEdges_eq]
@[simp] theorem latchEdges_chans (s t : State) : (s.latchEdges t).chans = t.chans := by rw [latchEdges_eq]
@[simp] theorem latchEdges_sealer (s t : State) : (s.latchEdges t).sealer = t.sealer := by rw [latchEdges_eq]
@[simp] theorem latchEdges_ports (s t : State) : (s.latchEdges t).ports = t.ports := by rw [latchEdges_eq]
@[simp] theorem latchEdges_disc (s t : State) : (s.latchEdges t).disc = t.disc := by rw [latchEdges_eq]
@[simp] theorem latchEdges_ingot (s t : State) : (s.latchEdges t).ingot = t.ingot := by rw [latchEdges_eq]
@[simp] theorem latchEdges_elog (s t : State) : (s.latchEdges t).elog = t.elog := by rw [latchEdges_eq]
@[simp] theorem latchEdges_trig (s t : State) : (s.latchEdges t).trig = t.trig := by rw [latchEdges_eq]
@[simp] theorem latchEdges_inService (s t : State) : (s.latchEdges t).inService = t.inService := by rw [latchEdges_eq]
@[simp] theorem latchEdges_quench (s t : State) : (s.latchEdges t).quench = t.quench := by rw [latchEdges_eq]
@[simp] theorem latchEdges_sensors (s t : State) : (s.latchEdges t).sensors = t.sensors := by rw [latchEdges_eq]
@[simp] theorem latchEdges_input (s t : State) : (s.latchEdges t).input = t.input := by rw [latchEdges_eq]
@[simp] theorem latchEdges_links (s t : State) : (s.latchEdges t).links = t.links := by rw [latchEdges_eq]
@[simp] theorem latchEdges_light (s t : State) : (s.latchEdges t).light = t.light := by rw [latchEdges_eq]
@[simp] theorem latchEdges_clock (s t : State) : (s.latchEdges t).clock = t.clock := by rw [latchEdges_eq]
@[simp] theorem latchEdges_mons (s t : State) : (s.latchEdges t).mons = t.mons := by rw [latchEdges_eq]
@[simp] theorem latchEdges_hub (s t : State) : (s.latchEdges t).hub = t.hub := by rw [latchEdges_eq]
@[simp] theorem latchEdges_boot (s t : State) : (s.latchEdges t).boot = t.boot := by rw [latchEdges_eq]
@[simp] theorem latchEdges_tier2Lost (s t : State) : (s.latchEdges t).tier2Lost = t.tier2Lost := by rw [latchEdges_eq]
@[simp] theorem latchEdges_tier2Stopped (s t : State) : (s.latchEdges t).tier2Stopped = t.tier2Stopped := by rw [latchEdges_eq]

end State

end Sys2Proof.Machine
end

