-- ==== Sys2Proof/Safety.lean ====
section
/-! DEFINITION. The terms in which claims are stated: what a command leaves alone, and the canonical form of the
state's tables. -/

namespace Sys2Proof.Machine

/-- Every register but those of `W` reads as before, and no pending bit is lost: a rising interrupt level may set one
whatever the command is (R406). -/
def Kept (W : RegKey → Prop) (s t : State) : Prop :=
  (∀ k, ¬ W k → k.name ≠ .HIC_PEND → t.getR k = s.getR k) ∧
  (∀ k, k.name = .HIC_PEND → t.getR k &&& s.getR k = s.getR k)

/-- Nothing but the registers of `W` changes: no memory, no queue, no other part of the state. -/
def OnlyRegs (W : RegKey → Prop) (s t : State) : Prop := t = { s with regs := t.regs } ∧ Kept W s t

/-- A register that no record delivery writes. -/
def NotLog (k : RegKey) : Prop := k.name ≠ .HIC_ELOG_PROD ∧ k.name ≠ .HIC_ELOG_DROP ∧ k.name ≠ .HIC_MGMT_STATUS

/-- `t` is `s` but for what delivering error records may change (R374, R375, R415): stored bytes, the log, the failure
count, the free-value counter and the log's own registers. -/
def Logged (s t : State) : Prop :=
  (∃ f r i e m l d g k, t = { s with fresh := f, regs := r, ingot := i, elog := e, mem := m, linePoison := l, dram := d,
                                       granPoison := g, stackTab := k }) ∧
  (∀ k, NotLog k → t.getR k = s.getR k)

/-- Every byte of the package address space reads as before. -/
def SameBytes (s t : State) : Prop := ∀ a, t.readByte a = s.readByte a

/-- The canonical form of memory: addresses strictly rising, and no cell at what an unlisted address reads as. -/
def Memory.wf (m : List Host.Cell) : Bool := Tab.wf natLt (fun _ => State.memDefault) m

/-- The state in one canonical form: memory and every top-level table sorted by key without repeats, no entry equal to
what an unlisted key reads as, so that equal contents are equal data. -/
def State.canonical (s : State) : Bool :=
  Tab.wf RegKey.lt RegKey.reset s.regs &&
  Memory.wf s.mem &&
  Memory.wf s.dram &&
  Memory.wf s.packed &&
  Tab.wf natLt (fun _ => false) s.linePoison &&
  Tab.wf natLt (fun _ => false) s.granPoison &&
  Tab.wf natLt (fun _ => false) s.inService &&
  Tab.wf natLt repairDefault s.repair &&
  Tab.wf natLt (fun _ => ({} : Engine)) s.engines &&
  Tab.wf natLt (fun _ => ({} : CoreSt)) s.cores &&
  Tab.wf natLt (fun _ => ({} : StackSt)) s.stackTab &&
  Tab.wf natLt (fun _ => ({} : ChanSt)) s.chans &&
  Tab.wf natLt (fun _ => ({} : PortSt)) s.ports &&
  Tab.wf natLt (fun _ => ({} : QuenchSt)) s.quench &&
  Tab.wf natLt (fun _ => ({} : SensorSt)) s.sensors

end Sys2Proof.Machine
end

