-- ==== Sys2Proof/Laws/Frame.lean ====
section
/-! SUPPORT. How frames compose: one lemma per register update for `Kept` and `OnlyRegs`, that latching keeps both, and
that interrupt levels do not look at the controller's own registers. -/

namespace Sys2Proof.Machine

variable {W : RegKey → Prop} {s u : State}

theorem Kept.refl (W : RegKey → Prop) (s : State) : Kept W s s := ⟨fun _ _ _ => rfl, fun _ _ => BitVec.and_self⟩

theorem Kept.putR (h : Kept W s u) (k : RegKey) (v : Word) (hk : W k) (hn : k.name ≠ .HIC_PEND) :
    Kept W s (u.putR k v) := by
  refine ⟨fun k' h1 h2 => ?_, fun k' h1 => ?_⟩
  · rw [State.getR_putR, if_neg (by rintro rfl; exact h1 hk)]; exact h.1 k' h1 h2
  · rw [State.getR_putR, if_neg (by rintro rfl; exact hn h1)]; exact h.2 k' h1

theorem Kept.pend (h : Kept W s u) (g i : Nat) : Kept W s (u.pend g i) := by
  refine ⟨fun k' h1 h2 => ?_, fun k' h1 => ?_⟩
  · unfold State.pend; rw [State.getR_putR, if_neg (by rintro rfl; exact h2 rfl)]; exact h.1 k' h1 h2
  · unfold State.pend; rw [State.getR_putR]; split
    · rename_i he; subst he
      have := h.2 _ h1
      rw [BitVec.and_or_distrib_right, this]
      ext j hj; simp
    · exact h.2 k' h1

theorem Kept.trans_regs {v : State} (h : Kept W s u) (hv : v.regs = u.regs) : Kept W s v := by
  have e : ∀ k, v.getR k = u.getR k := fun k => by unfold State.getR; rw [hv]
  exact ⟨fun k a b => (e k).trans (h.1 k a b), fun k a => (congrArg (· &&& _) (e k)).trans (h.2 k a)⟩

theorem Kept.mono {W' : RegKey → Prop} (h : Kept W s u) (hw : ∀ k, W k → W' k) : Kept W' s u :=
  ⟨fun k a b => h.1 k (fun c => a (hw k c)) b, h.2⟩

theorem Kept.foldl_pend (l : List (Nat × Nat)) (h : Kept W s u) :
    Kept W s (l.foldl (fun u x => u.pend x.1 x.2) u) := by
  induction l generalizing u with
  | nil => exact h
  | cons x l ih => exact ih (h.pend x.1 x.2)

/-- Latching keeps a frame (R406). -/
theorem Kept.latch (h : Kept W s u) (r : State) : Kept W s (r.latchEdges u) := h.foldl_pend _

/-- Nothing but registers differs, with the new registers named. -/
theorem rest_iff : u = { s with regs := u.regs } ↔ ∃ r, u = { s with regs := r } :=
  ⟨fun h => ⟨_, h⟩, fun ⟨_, h⟩ => by rw [h]⟩

theorem rest_step {v : State} (h : u = { s with regs := u.regs }) (hv : ∃ r, v = { u with regs := r }) :
    v = { s with regs := v.regs } := by
  obtain ⟨r, rfl⟩ := rest_iff.mp h
  obtain ⟨r', rfl⟩ := hv
  rfl

theorem OnlyRegs.refl (W : RegKey → Prop) (s : State) : OnlyRegs W s s := ⟨rfl, Kept.refl W s⟩

theorem OnlyRegs.putR (h : OnlyRegs W s u) (k : RegKey) (v : Word) (hk : W k) (hn : k.name ≠ .HIC_PEND) :
    OnlyRegs W s (u.putR k v) := ⟨rest_step h.1 ⟨_, rfl⟩, h.2.putR k v hk hn⟩

theorem OnlyRegs.setF (h : OnlyRegs W s u) (f : Field) (i j v : Nat) (hk : W (f.key i j)) (hn : f.reg ≠ .HIC_PEND) :
    OnlyRegs W s (u.setF f i j v) := h.putR _ _ hk hn

theorem OnlyRegs.addF (h : OnlyRegs W s u) (f : Field) (i j v : Nat) (hk : W (f.key i j)) (hn : f.reg ≠ .HIC_PEND) :
    OnlyRegs W s (u.addF f i j v) := h.putR _ _ hk hn

theorem OnlyRegs.wrapF (h : OnlyRegs W s u) (f : Field) (i j : Nat) (hk : W (f.key i j)) (hn : f.reg ≠ .HIC_PEND) :
    OnlyRegs W s (u.wrapF f i j) := h.putR _ _ hk hn

theorem OnlyRegs.pulse (h : OnlyRegs W s u) (g i : Nat) : OnlyRegs W s (u.pulse g i) :=
  ⟨rest_step h.1 ⟨_, rfl⟩, h.2.pend g i⟩

theorem OnlyRegs.latch (h : OnlyRegs W s u) (r : State) : OnlyRegs W s (r.latchEdges u) :=
  ⟨rest_step h.1 ⟨_, State.latchEdges_eq r u⟩, h.2.latch r⟩

theorem OnlyRegs.mono {W' : RegKey → Prop} (h : OnlyRegs W s u) (hw : ∀ k, W k → W' k) : OnlyRegs W' s u :=
  ⟨h.1, h.2.mono hw⟩

theorem OnlyRegs.foldl {α : Type} (l : List α) (f : State → α → State)
    (hf : ∀ u x, OnlyRegs W s u → OnlyRegs W s (f u x)) (h : OnlyRegs W s u) : OnlyRegs W s (l.foldl f u) := by
  induction l generalizing u with
  | nil => exact h
  | cons x l ih => exact ih (hf u x h)

/-! ### Interrupt levels look at no pending bit -/

theorem getF_congr {t : State} (h : ∀ k, k.name ≠ .HIC_PEND → t.getR k = s.getR k) (f : Field) (i j : Nat)
    (hf : f.reg ≠ .HIC_PEND) : t.getF f i j = s.getF f i j := by
  unfold State.getF; rw [h]; exact hf

theorem flag_congr {t : State} (h : ∀ k, k.name ≠ .HIC_PEND → t.getR k = s.getR k) (f : Field) (i j : Nat)
    (hf : f.reg ≠ .HIC_PEND) : t.flag f i j = s.flag f i j := by
  unfold State.flag; rw [getF_congr h f i j hf]

/-- A level is decided by the registers but HIC_PEND, the graph engines and the error log. -/
theorem level_congr {t : State} (h : ∀ k, k.name ≠ .HIC_PEND → t.getR k = s.getR k) (he : t.engines = s.engines)
    (hl : t.elog = s.elog) (g i : Nat) : t.level g i = s.level g i := by
  have e : ∀ d, t.engine d = s.engine d := fun d => by unfold State.engine; rw [he]
  unfold State.level State.monReady State.slotState State.ringSize State.alertAsserted State.ringUsed
  simp (disch := decide) only [flag_congr h, getF_congr h, e, hl, h]

/-- Where no level changed, latching changes nothing. -/
theorem latch_none (h : ∀ g i, u.level g i = s.level g i) : s.latchEdges u = u := by
  unfold State.latchEdges
  rw [List.filter_eq_nil_iff.mpr]
  · rfl
  · rintro ⟨g, i⟩ _; simp [h]

end Sys2Proof.Machine
end

