-- ==== Sys2Proof/Laws/Records.lean ====
section
/-! SUPPORT. What storing bytes and delivering an error record can do: each is said once, and the other parts of the state
are as before by one lemma each. -/

namespace Sys2Proof.Machine

/-- `t` is `s` but for bytes stored: pools, scratchpads, poison marks, stacks and DRAM. -/
def Stored (s t : State) : Prop :=
  ∃ m l d g k, t = { s with mem := m, linePoison := l, dram := d, granPoison := g, stackTab := k }

theorem Stored.refl (s : State) : Stored s s := ⟨_, _, _, _, _, rfl⟩

theorem Stored.trans {s t u : State} (h : Stored s t) (h2 : Stored t u) : Stored s u := by
  obtain ⟨_, _, _, _, _, rfl⟩ := h
  obtain ⟨_, _, _, _, _, rfl⟩ := h2
  exact ⟨_, _, _, _, _, rfl⟩

theorem Stored.foldl {α : Type} (l : List α) (f : State → α → State) (hf : ∀ u x, Stored u (f u x)) (s : State) :
    Stored s (l.foldl f s) := by
  induction l generalizing s with
  | nil => exact Stored.refl s
  | cons x l ih => exact (hf s x).trans (ih _)

theorem stored_setMem (s : State) (a : Nat) (b : Byte) : Stored s (s.setMem a b) := ⟨_, _, _, _, _, rfl⟩
theorem stored_setDram (s : State) (p : Place) (b : Byte) : Stored s (s.setDram p b) := ⟨_, _, _, _, _, rfl⟩
theorem stored_setGranBad (s : State) (p : Place) (b : Bool) : Stored s (s.setGranBad p b) := ⟨_, _, _, _, _, rfl⟩
theorem stored_setStack (s : State) (k : Nat) (x : StackSt) : Stored s (s.setStack k x) := ⟨_, _, _, _, _, rfl⟩

theorem stored_storeLineByte (line : Nat) (s : State) (x : Nat × Option (Byte × Option Nat)) :
    Stored s (State.storeLineByte line s x) := by
  unfold State.storeLineByte; split
  · exact stored_setDram ..
  · exact Stored.refl s

theorem stored_clearGran (line : Nat) (b : Tab Nat (Option (Byte × Option Nat))) (s : State) (g : Nat) :
    Stored s (State.clearGran line b s g) := by
  unfold State.clearGran; split
  · split
    · exact stored_setGranBad ..
    · exact Stored.refl s
  · exact Stored.refl s

theorem stored_markGran (line : Nat) (s : State) (g : Nat) : Stored s (State.markGran line s g) := by
  unfold State.markGran; split
  · exact stored_setGranBad ..
  · exact Stored.refl s

theorem stored_storeLine (s : State) (l : WcbLine) : Stored s (s.storeLine l) := by
  unfold State.storeLine
  exact ((Stored.foldl _ _ (stored_storeLineByte _) s).trans (Stored.foldl _ _ (stored_clearGran _ _) _)).trans
    (Stored.foldl _ _ (stored_markGran _) _)

theorem stored_writeBack (s : State) (ms : Nat) (l : WcbLine) : Stored s (s.writeBack ms l) :=
  (stored_storeLine s l).trans (stored_setStack ..)

theorem stored_flushStack (s : State) (ms : Nat) : Stored s (s.flushStack ms) :=
  Stored.foldl _ _ (fun u l => stored_writeBack u ms l) s

theorem stored_wcbEnter (s : State) (ms a : Nat) (data : List Byte) (e : Option Nat) (p : List Nat) :
    Stored s (s.wcbEnter ms a data e p) := by
  unfold State.wcbEnter
  extract_lets st
  split
  · exact stored_setStack ..
  · rename_i s1 st1 _
    have h1 : Stored s s1 := by
      show Stored s (match st.wcb with
        | l :: _ => if 256 ≤ st.wcb.length then s.writeBack ms l else s
        | [] => s)
      split
      · split
        · exact stored_writeBack ..
        · exact Stored.refl s
      · exact Stored.refl s
    exact h1.trans (stored_setStack ..)

theorem stored_storeLocal (s : State) (a : Nat) (data : List Byte) : Stored s (s.storeLocal a data) := by
  unfold State.storeLocal
  extract_lets s1
  have h1 : Stored s s1 := Stored.foldl _ _ (fun u i => stored_setMem ..) s
  split
  · exact h1.trans ⟨_, _, _, _, _, rfl⟩
  · exact h1

theorem stored_storeRaw (s : State) (a : Nat) (data : List Byte) (e : Option Nat) : Stored s (s.storeRaw a data e) := by
  unfold State.storeRaw; split
  · exact Stored.refl s
  · split
    · split
      · split
        · exact Stored.refl s
        · exact stored_wcbEnter ..
      · exact Stored.refl s
    · exact stored_storeLocal ..

/-- Storing bytes changes memory, its poison and the stacks, and nothing else. -/
theorem stored_storeAll (s : State) (a : Nat) (data : List Byte) (e : Option Nat) : Stored s (s.storeAll a data e) :=
  Stored.foldl _ _ (fun u (l : Nat × List Byte) => stored_storeRaw u l.1 l.2 e) s

theorem Logged.refl (s : State) : Logged s s := ⟨⟨_, _, _, _, _, _, _, _, _, rfl⟩, fun _ _ => rfl⟩

theorem Logged.trans {s t u : State} (h : Logged s t) (h2 : Logged t u) : Logged s u := by
  obtain ⟨⟨_, _, _, _, _, _, _, _, _, rfl⟩, h⟩ := h
  obtain ⟨⟨_, _, _, _, _, _, _, _, _, rfl⟩, h2⟩ := h2
  exact ⟨⟨_, _, _, _, _, _, _, _, _, rfl⟩, fun k hk => (h2 k hk).trans (h k hk)⟩

theorem Stored.getR {s t : State} (h : Stored s t) (k : RegKey) : t.getR k = s.getR k := by
  obtain ⟨_, _, _, _, _, rfl⟩ := h; rfl

theorem Stored.logged {s t : State} (h : Stored s t) : Logged s t := by
  refine ⟨?_, fun k _ => h.getR k⟩
  obtain ⟨_, _, _, _, _, rfl⟩ := h
  exact ⟨_, _, _, _, _, _, _, _, _, rfl⟩

theorem logged_setF (s : State) (f : Field) (i j v : Nat) (hf : ∀ k : RegKey, k.name = f.reg → ¬ NotLog k) :
    Logged s (s.setF f i j v) :=
  ⟨⟨_, _, _, _, _, _, _, _, _, rfl⟩, fun k hk => State.getR_setF_of_reg _ _ _ _ _ _ (fun h => hf k h hk)⟩

theorem logged_elog (s : State) (e : ErrLog) : Logged s { s with elog := e } :=
  ⟨⟨_, _, _, _, _, _, _, _, _, rfl⟩, fun _ _ => rfl⟩

theorem logged_ringPut (s : State) (r : ErrRec) : Logged s (s.ringPut r) := by
  unfold State.ringPut
  extract_lets r1 e0 s1 prod s2 s3
  have h1 : Logged s s1 := logged_elog ..
  have h2 : Logged s s2 := h1.trans (stored_storeAll ..).logged
  have h3 : Logged s s3 := h2.trans (logged_setF _ _ _ _ _ (by rintro k h ⟨a, b, c⟩; exact a h))
  split
  · exact h3.trans (logged_elog ..)
  · exact h3

theorem logged_dropRec (s : State) (v : Nat) : Logged s (s.dropRec v) := by
  unfold State.dropRec
  extract_lets f s1
  have hf : f.reg = .HIC_ELOG_DROP := by
    show (if v = sevFailed then HIC_ELOG_DROP_FAILED else if v = sevSuspect then HIC_ELOG_DROP_SUSPECT
      else if v = sevDegraded then HIC_ELOG_DROP_DEGRADED else HIC_ELOG_DROP_INFO).reg = _
    split; · rfl
    split; · rfl
    split <;> rfl
  have h1 : Logged s s1 := logged_setF _ _ _ _ _ (by rintro k h ⟨a, b, c⟩; exact b (h.trans hf))
  exact h1.trans (logged_elog ..)

theorem logged_hubPut (s : State) (r : ErrRec) : Logged s (s.hubPut r) := logged_elog ..

theorem logged_ringDeliver (s : State) (r : ErrRec) : Logged s (s.ringDeliver r) := by
  unfold State.ringDeliver
  split
  · split
    · exact logged_hubPut ..
    split
    · exact logged_dropRec ..
    split
    · exact ((logged_elog ..).trans (logged_dropRec ..)).trans (logged_hubPut ..)
    · exact logged_dropRec ..
  split
  · exact logged_ringPut ..
  split
  · exact logged_dropRec ..
  split
  · exact logged_hubPut ..
  · exact logged_dropRec ..

theorem logged_streamDeliver (s : State) (r : ErrRec) (a : Bool) : Logged s (s.streamDeliver r a) := by
  unfold State.streamDeliver
  split
  · exact Logged.refl s
  split
  · exact logged_elog ..
  · extract_lets spool e0 s1
    have h1 : Logged s s1 := logged_elog ..
    exact h1.trans (logged_setF _ _ _ _ _ (by rintro k h ⟨a, b, c⟩; exact c h))

/-- Delivering a record changes only the log, its registers, stored bytes, the failure count and the free-value counter. -/
theorem logged_record (s : State) (a : RecArg) : Logged s (s.record a) := by
  unfold State.record
  extract_lets t rail r e0 s1 s2
  have h1 : Logged s s1 := ⟨⟨_, _, _, _, _, _, _, _, _, rfl⟩, fun _ _ => rfl⟩
  have h2 : Logged s s2 := by
    show Logged s (if a.sev = sevFailed then s1.countFailure else s1)
    split
    · exact h1.trans ⟨⟨_, _, _, _, _, _, _, _, _, rfl⟩, fun _ _ => rfl⟩
    · exact h1
  exact (h2.trans (logged_ringDeliver ..)).trans (logged_streamDeliver ..)

theorem getR_record (s : State) (a : RecArg) (k : RegKey) (h : NotLog k) : (s.record a).getR k = s.getR k :=
  (logged_record s a).2 k h

theorem getF_record (s : State) (a : RecArg) (f : Field) (i j : Nat) (h : NotLog (f.key i j)) :
    (s.record a).getF f i j = s.getF f i j := by
  unfold State.getF; rw [getR_record _ _ _ h]

@[simp] theorem State.record_pending (s : State) (a : RecArg) : (s.record a).pending = s.pending := by
  obtain ⟨⟨_, _, _, _, _, _, _, _, _, h⟩, -⟩ := logged_record s a; rw [h]
@[simp] theorem State.record_time (s : State) (a : RecArg) : (s.record a).time = s.time := by
  obtain ⟨⟨_, _, _, _, _, _, _, _, _, h⟩, -⟩ := logged_record s a; rw [h]
@[simp] theorem State.record_frac (s : State) (a : RecArg) : (s.record a).frac = s.frac := by
  obtain ⟨⟨_, _, _, _, _, _, _, _, _, h⟩, -⟩ := logged_record s a; rw [h]
@[simp] theorem State.record_packed (s : State) (a : RecArg) : (s.record a).packed = s.packed := by
  obtain ⟨⟨_, _, _, _, _, _, _, _, _, h⟩, -⟩ := logged_record s a; rw [h]
@[simp] theorem State.record_published (s : State) (a : RecArg) : (s.record a).published = s.published := by
  obtain ⟨⟨_, _, _, _, _, _, _, _, _, h⟩, -⟩ := logged_record s a; rw [h]
@[simp] theorem State.record_publishing (s : State) (a : RecArg) : (s.record a).publishing = s.publishing := by
  obtain ⟨⟨_, _, _, _, _, _, _, _, _, h⟩, -⟩ := logged_record s a; rw [h]
@[simp] theorem State.record_repair (s : State) (a : RecArg) : (s.record a).repair = s.repair := by
  obtain ⟨⟨_, _, _, _, _, _, _, _, _, h⟩, -⟩ := logged_record s a; rw [h]
@[simp] theorem State.record_readData (s : State) (a : RecArg) : (s.record a).readData = s.readData := by
  obtain ⟨⟨_, _, _, _, _, _, _, _, _, h⟩, -⟩ := logged_record s a; rw [h]
@[simp] theorem State.record_readBytes (s : State) (a : RecArg) : (s.record a).readBytes = s.readBytes := by
  obtain ⟨⟨_, _, _, _, _, _, _, _, _, h⟩, -⟩ := logged_record s a; rw [h]
@[simp] theorem State.record_readPoison (s : State) (a : RecArg) : (s.record a).readPoison = s.readPoison := by
  obtain ⟨⟨_, _, _, _, _, _, _, _, _, h⟩, -⟩ := logged_record s a; rw [h]
@[simp] theorem State.record_engines (s : State) (a : RecArg) : (s.record a).engines = s.engines := by
  obtain ⟨⟨_, _, _, _, _, _, _, _, _, h⟩, -⟩ := logged_record s a; rw [h]
@[simp] theorem State.record_cores (s : State) (a : RecArg) : (s.record a).cores = s.cores := by
  obtain ⟨⟨_, _, _, _, _, _, _, _, _, h⟩, -⟩ := logged_record s a; rw [h]
@[simp] theorem State.record_chans (s : State) (a : RecArg) : (s.record a).chans = s.chans := by
  obtain ⟨⟨_, _, _, _, _, _, _, _, _, h⟩, -⟩ := logged_record s a; rw [h]
@[simp] theorem State.record_sealer (s : State) (a : RecArg) : (s.record a).sealer = s.sealer := by
  obtain ⟨⟨_, _, _, _, _, _, _, _, _, h⟩, -⟩ := logged_record s a; rw [h]
@[simp] theorem State.record_ports (s : State) (a : RecArg) : (s.record a).ports = s.ports := by
  obtain ⟨⟨_, _, _, _, _, _, _, _, _, h⟩, -⟩ := logged_record s a; rw [h]
@[simp] theorem State.record_disc (s : State) (a : RecArg) : (s.record a).disc = s.disc := by
  obtain ⟨⟨_, _, _, _, _, _, _, _, _, h⟩, -⟩ := logged_record s a; rw [h]
@[simp] theorem State.record_trig (s : State) (a : RecArg) : (s.record a).trig = s.trig := by
  obtain ⟨⟨_, _, _, _, _, _, _, _, _, h⟩, -⟩ := logged_record s a; rw [h]
@[simp] theorem State.record_inService (s : State) (a : RecArg) : (s.record a).inService = s.inService := by
  obtain ⟨⟨_, _, _, _, _, _, _, _, _, h⟩, -⟩ := logged_record s a; rw [h]
@[simp] theorem State.record_quench (s : State) (a : RecArg) : (s.record a).quench = s.quench := by
  obtain ⟨⟨_, _, _, _, _, _, _, _, _, h⟩, -⟩ := logged_record s a; rw [h]
@[simp] theorem State.record_sensors (s : State) (a : RecArg) : (s.record a).sensors = s.sensors := by
  obtain ⟨⟨_, _, _, _, _, _, _, _, _, h⟩, -⟩ := logged_record s a; rw [h]
@[simp] theorem State.record_input (s : State) (a : RecArg) : (s.record a).input = s.input := by
  obtain ⟨⟨_, _, _, _, _, _, _, _, _, h⟩, -⟩ := logged_record s a; rw [h]
@[simp] theorem State.record_links (s : State) (a : RecArg) : (s.record a).links = s.links := by
  obtain ⟨⟨_, _, _, _, _, _, _, _, _, h⟩, -⟩ := logged_record s a; rw [h]
@[simp] theorem State.record_light (s : State) (a : RecArg) : (s.record a).light = s.light := by
  obtain ⟨⟨_, _, _, _, _, _, _, _, _, h⟩, -⟩ := logged_record s a; rw [h]
@[simp] theorem State.record_clock (s : State) (a : RecArg) : (s.record a).clock = s.clock := by
  obtain ⟨⟨_, _, _, _, _, _, _, _, _, h⟩, -⟩ := logged_record s a; rw [h]
@[simp] theorem State.record_mons (s : State) (a : RecArg) : (s.record a).mons = s.mons := by
  obtain ⟨⟨_, _, _, _, _, _, _, _, _, h⟩, -⟩ := logged_record s a; rw [h]
@[simp] theorem State.record_hub (s : State) (a : RecArg) : (s.record a).hub = s.hub := by
  obtain ⟨⟨_, _, _, _, _, _, _, _, _, h⟩, -⟩ := logged_record s a; rw [h]
@[simp] theorem State.record_boot (s : State) (a : RecArg) : (s.record a).boot = s.boot := by
  obtain ⟨⟨_, _, _, _, _, _, _, _, _, h⟩, -⟩ := logged_record s a; rw [h]
@[simp] theorem State.record_tier2Lost (s : State) (a : RecArg) : (s.record a).tier2Lost = s.tier2Lost := by
  obtain ⟨⟨_, _, _, _, _, _, _, _, _, h⟩, -⟩ := logged_record s a; rw [h]
@[simp] theorem State.record_tier2Stopped (s : State) (a : RecArg) : (s.record a).tier2Stopped = s.tier2Stopped := by
  obtain ⟨⟨_, _, _, _, _, _, _, _, _, h⟩, -⟩ := logged_record s a; rw [h]
@[simp] theorem State.storeAll_pending (s : State) (a : Nat) (d : List Byte) (e : Option Nat) :
    (s.storeAll a d e).pending = s.pending := by
  obtain ⟨_, _, _, _, _, h⟩ := stored_storeAll s a d e; rw [h]
@[simp] theorem State.storeAll_time (s : State) (a : Nat) (d : List Byte) (e : Option Nat) :
    (s.storeAll a d e).time = s.time := by
  obtain ⟨_, _, _, _, _, h⟩ := stored_storeAll s a d e; rw [h]
@[simp] theorem State.storeAll_frac (s : State) (a : Nat) (d : List Byte) (e : Option Nat) :
    (s.storeAll a d e).frac = s.frac := by
  obtain ⟨_, _, _, _, _, h⟩ := stored_storeAll s a d e; rw [h]
@[simp] theorem State.storeAll_fresh (s : State) (a : Nat) (d : List Byte) (e : Option Nat) :
    (s.storeAll a d e).fresh = s.fresh := by
  obtain ⟨_, _, _, _, _, h⟩ := stored_storeAll s a d e; rw [h]
@[simp] theorem State.storeAll_regs (s : State) (a : Nat) (d : List Byte) (e : Option Nat) :
    (s.storeAll a d e).regs = s.regs := by
  obtain ⟨_, _, _, _, _, h⟩ := stored_storeAll s a d e; rw [h]
@[simp] theorem State.storeAll_packed (s : State) (a : Nat) (d : List Byte) (e : Option Nat) :
    (s.storeAll a d e).packed = s.packed := by
  obtain ⟨_, _, _, _, _, h⟩ := stored_storeAll s a d e; rw [h]
@[simp] theorem State.storeAll_published (s : State) (a : Nat) (d : List Byte) (e : Option Nat) :
    (s.storeAll a d e).published = s.published := by
  obtain ⟨_, _, _, _, _, h⟩ := stored_storeAll s a d e; rw [h]
@[simp] theorem State.storeAll_publishing (s : State) (a : Nat) (d : List Byte) (e : Option Nat) :
    (s.storeAll a d e).publishing = s.publishing := by
  obtain ⟨_, _, _, _, _, h⟩ := stored_storeAll s a d e; rw [h]
@[simp] theorem State.storeAll_repair (s : State) (a : Nat) (d : List Byte) (e : Option Nat) :
    (s.storeAll a d e).repair = s.repair := by
  obtain ⟨_, _, _, _, _, h⟩ := stored_storeAll s a d e; rw [h]
@[simp] theorem State.storeAll_readData (s : State) (a : Nat) (d : List Byte) (e : Option Nat) :
    (s.storeAll a d e).readData = s.readData := by
  obtain ⟨_, _, _, _, _, h⟩ := stored_storeAll s a d e; rw [h]
@[simp] theorem State.storeAll_readBytes (s : State) (a : Nat) (d : List Byte) (e : Option Nat) :
    (s.storeAll a d e).readBytes = s.readBytes := by
  obtain ⟨_, _, _, _, _, h⟩ := stored_storeAll s a d e; rw [h]
@[simp] theorem State.storeAll_readPoison (s : State) (a : Nat) (d : List Byte) (e : Option Nat) :
    (s.storeAll a d e).readPoison = s.readPoison := by
  obtain ⟨_, _, _, _, _, h⟩ := stored_storeAll s a d e; rw [h]
@[simp] theorem State.storeAll_engines (s : State) (a : Nat) (d : List Byte) (e : Option Nat) :
    (s.storeAll a d e).engines = s.engines := by
  obtain ⟨_, _, _, _, _, h⟩ := stored_storeAll s a d e; rw [h]
@[simp] theorem State.storeAll_cores (s : State) (a : Nat) (d : List Byte) (e : Option Nat) :
    (s.storeAll a d e).cores = s.cores := by
  obtain ⟨_, _, _, _, _, h⟩ := stored_storeAll s a d e; rw [h]
@[simp] theorem State.storeAll_chans (s : State) (a : Nat) (d : List Byte) (e : Option Nat) :
    (s.storeAll a d e).chans = s.chans := by
  obtain ⟨_, _, _, _, _, h⟩ := stored_storeAll s a d e; rw [h]
@[simp] theorem State.storeAll_sealer (s : State) (a : Nat) (d : List Byte) (e : Option Nat) :
    (s.storeAll a d e).sealer = s.sealer := by
  obtain ⟨_, _, _, _, _, h⟩ := stored_storeAll s a d e; rw [h]
@[simp] theorem State.storeAll_ports (s : State) (a : Nat) (d : List Byte) (e : Option Nat) :
    (s.storeAll a d e).ports = s.ports := by
  obtain ⟨_, _, _, _, _, h⟩ := stored_storeAll s a d e; rw [h]
@[simp] theorem State.storeAll_disc (s : State) (a : Nat) (d : List Byte) (e : Option Nat) :
    (s.storeAll a d e).disc = s.disc := by
  obtain ⟨_, _, _, _, _, h⟩ := stored_storeAll s a d e; rw [h]
@[simp] theorem State.storeAll_ingot (s : State) (a : Nat) (d : List Byte) (e : Option Nat) :
    (s.storeAll a d e).ingot = s.ingot := by
  obtain ⟨_, _, _, _, _, h⟩ := stored_storeAll s a d e; rw [h]
@[simp] theorem State.storeAll_elog (s : State) (a : Nat) (d : List Byte) (e : Option Nat) :
    (s.storeAll a d e).elog = s.elog := by
  obtain ⟨_, _, _, _, _, h⟩ := stored_storeAll s a d e; rw [h]
@[simp] theorem State.storeAll_trig (s : State) (a : Nat) (d : List Byte) (e : Option Nat) :
    (s.storeAll a d e).trig = s.trig := by
  obtain ⟨_, _, _, _, _, h⟩ := stored_storeAll s a d e; rw [h]
@[simp] theorem State.storeAll_inService (s : State) (a : Nat) (d : List Byte) (e : Option Nat) :
    (s.storeAll a d e).inService = s.inService := by
  obtain ⟨_, _, _, _, _, h⟩ := stored_storeAll s a d e; rw [h]
@[simp] theorem State.storeAll_quench (s : State) (a : Nat) (d : List Byte) (e : Option Nat) :
    (s.storeAll a d e).quench = s.quench := by
  obtain ⟨_, _, _, _, _, h⟩ := stored_storeAll s a d e; rw [h]
@[simp] theorem State.storeAll_sensors (s : State) (a : Nat) (d : List Byte) (e : Option Nat) :
    (s.storeAll a d e).sensors = s.sensors := by
  obtain ⟨_, _, _, _, _, h⟩ := stored_storeAll s a d e; rw [h]
@[simp] theorem State.storeAll_input (s : State) (a : Nat) (d : List Byte) (e : Option Nat) :
    (s.storeAll a d e).input = s.input := by
  obtain ⟨_, _, _, _, _, h⟩ := stored_storeAll s a d e; rw [h]
@[simp] theorem State.storeAll_links (s : State) (a : Nat) (d : List Byte) (e : Option Nat) :
    (s.storeAll a d e).links = s.links := by
  obtain ⟨_, _, _, _, _, h⟩ := stored_storeAll s a d e; rw [h]
@[simp] theorem State.storeAll_light (s : State) (a : Nat) (d : List Byte) (e : Option Nat) :
    (s.storeAll a d e).light = s.light := by
  obtain ⟨_, _, _, _, _, h⟩ := stored_storeAll s a d e; rw [h]
@[simp] theorem State.storeAll_clock (s : State) (a : Nat) (d : List Byte) (e : Option Nat) :
    (s.storeAll a d e).clock = s.clock := by
  obtain ⟨_, _, _, _, _, h⟩ := stored_storeAll s a d e; rw [h]
@[simp] theorem State.storeAll_mons (s : State) (a : Nat) (d : List Byte) (e : Option Nat) :
    (s.storeAll a d e).mons = s.mons := by
  obtain ⟨_, _, _, _, _, h⟩ := stored_storeAll s a d e; rw [h]
@[simp] theorem State.storeAll_hub (s : State) (a : Nat) (d : List Byte) (e : Option Nat) :
    (s.storeAll a d e).hub = s.hub := by
  obtain ⟨_, _, _, _, _, h⟩ := stored_storeAll s a d e; rw [h]
@[simp] theorem State.storeAll_boot (s : State) (a : Nat) (d : List Byte) (e : Option Nat) :
    (s.storeAll a d e).boot = s.boot := by
  obtain ⟨_, _, _, _, _, h⟩ := stored_storeAll s a d e; rw [h]
@[simp] theorem State.storeAll_tier2Lost (s : State) (a : Nat) (d : List Byte) (e : Option Nat) :
    (s.storeAll a d e).tier2Lost = s.tier2Lost := by
  obtain ⟨_, _, _, _, _, h⟩ := stored_storeAll s a d e; rw [h]
@[simp] theorem State.storeAll_tier2Stopped (s : State) (a : Nat) (d : List Byte) (e : Option Nat) :
    (s.storeAll a d e).tier2Stopped = s.tier2Stopped := by
  obtain ⟨_, _, _, _, _, h⟩ := stored_storeAll s a d e; rw [h]

end Sys2Proof.Machine
end

