-- ==== Sys2Proof/Certificates/Slice0/Obligations.lean ====
section
/-! DEFINITION. The statements for the provers: what the commands do and what they leave alone, rule by rule. -/

open Sys2Proof Sys2Proof.Machine

/-! ### The hub: interrupts, device time, the debug port -/

/-- R407: a claim answers, among the sources that target the core and are pending, unmasked and not in service, the one of
the highest priority and then the lowest number; it clears that source's pending bit, marks it in service and changes
nothing else. With no such source it answers VALID = 0. (That nothing is claimed while HIC_CTRL.EN is 0 is the model's
choice, log entry 18.)

R408: a completion ends the in-service state of the named source where it is in service and targets the core, and
sets the pending bit of every flag or condition source that targets the core, is high, not pending and not in service;
nothing else changes. -/
def Obligations.ClaimsAndCompletions : Prop :=
  (∀ (s : State) (c : Fin 16), s.flag HIC_CTRL_EN 0 0 = true →
    (∀ i, i < 1152 → s.claimable c i = true →
      (∀ j, j < 1152 → s.claimable c j = true →
        s.getF HIC_TARGET_PRIO 0 j < s.getF HIC_TARGET_PRIO 0 i ∨
          s.getF HIC_TARGET_PRIO 0 j = s.getF HIC_TARGET_PRIO 0 i ∧ i ≤ j) →
      ∃ t, exec (.hicClaim c) s = .next t ∧
        t = { s with regs := t.regs, inService := t.inService, readData := (1#64 <<< 63) ||| BitVec.ofNat 64 i } ∧
        (∀ j, Tab.getN false t.inService j = (decide (j = i) || Tab.getN false s.inService j)) ∧
        (∀ k, t.getR k = if k = ⟨.HIC_PEND, 0, i / 64⟩ then s.getR k &&& ~~~(1#64 <<< (i % 64)) else s.getR k)) ∧
    ((∀ i, i < 1152 → s.claimable c i = false) → exec (.hicClaim c) s = .next { s with readData := 0 })) ∧
  (∀ (s : State) (r : Requester) (c : Fin 16) (i : Nat),
    ∃ t, exec (.hicComplete r c i) s = .next t ∧ t = { s with regs := t.regs, inService := t.inService } ∧
      (∀ j, Tab.getN false t.inService j =
        (Tab.getN false s.inService j && !(decide (j = i) && decide (s.getF HIC_TARGET_CORE 0 i = c)))) ∧
      (∀ k, k.name ≠ .HIC_PEND → t.getR k = s.getR k) ∧
      (∀ g k, k < 64 → (t.getR ⟨.HIC_PEND, 0, g⟩).getLsbD k = ((s.getR ⟨.HIC_PEND, 0, g⟩).getLsbD k ||
        decide ((g, k) ∈ levelSources ∧ s.getF HIC_TARGET_CORE 0 (64 * g + k) = c ∧ s.level g k = true ∧
          Tab.getN false t.inService (64 * g + k) = false))))

/-- R406: on each rising edge of a level the controller sets the source's bit in HIC_PEND, whatever command raised it. -/
def Obligations.RisingEdgesSetPending : Prop :=
  ∀ (i : Instr) (s t : State), exec i s = .next t → ∀ x ∈ levelSources,
    s.level x.1 x.2 = false → t.level x.1 x.2 = true → (t.getR ⟨.HIC_PEND, 0, x.1⟩).getLsbD x.2 = true

/-- R424: what each TAP instruction answers; DBG_TRST_N resets the TAP alone. Nothing else changes. (BYPASS's one bit
reads 0 first, and the TAP reset selects IDCODE, as IEEE 1149.1 has them.)

R427: with graph-engine control unlocked, HALT, STEP and BREAK_EN set up one die's engine: HALTED is set at once where
no task of the die is dispatched, STEP lets one task of a halted engine go, and BREAK_EN names the task to stop before.
Nothing but that die's DBG_GE_CTRL and the engine's step mark changes. -/
def Obligations.TheDebugPortAnswersAndHalts : Prop :=
  (∀ s : State,
    exec .idcode s = .next { s with hub := { s.hub with ir := 0x01, reply := .word 0x1D740A5B } } ∧
    (∀ n : BitVec 128,
      n = ((s.getR ⟨.DBG_NONCE1, 0, 0⟩).setWidth 128 <<< 64) ||| (s.getR ⟨.DBG_NONCE0, 0, 0⟩).setWidth 128 →
      exec .dbgNonce s = .next { s with hub := { s.hub with ir := 0x10, reply := .nonce n } }) ∧
    (s.flag DBG_STATUS_UNLOCKED 0 0 = true → s.flag DBG_STATUS_SERVICE 0 0 = false →
      ∀ w, w = DBG_STATUS_REMAIN_S.set (s.getR ⟨.DBG_STATUS, 0, 0⟩) ((s.hub.unlockEnd - s.time) / 1000000000) →
        exec .dbgStatus s = .next { s with hub := { s.hub with ir := 0x13, reply := .word w } }) ∧
    (s.flag DBG_STATUS_UNLOCKED 0 0 = false →
      exec .dbgStatus s = .next { s with hub := { s.hub with ir := 0x13, reply := .word (s.getR ⟨.DBG_STATUS, 0, 0⟩) } }) ∧
    (∀ b bits, exec (.bypass (bits ++ [b])) s =
      .next { s with hub := { s.hub with ir := 0xFF, reply := .bits (false :: bits) } }) ∧
    exec .dbgTrstN s = .next { s with hub := { s.hub with ir := 0x01 } }) ∧
  (∀ (s : State) (d : Fin 4), s.hasScope 2 = true →
    (s.dispatchedOf d = [] → (s.engine d).stepping = false →
      exec (.halt .debug d true) s =
        .next (s.latchEdges ((s.setF DBG_GE_CTRL_HALT 0 d 1).setF DBG_GE_CTRL_HALTED 0 d 1))) ∧
    (s.dispatchedOf d ≠ [] →
      exec (.halt .debug d true) s = .next (s.latchEdges (s.setF DBG_GE_CTRL_HALT 0 d 1))) ∧
    exec (.halt .debug d false) s =
      .next (s.latchEdges ((s.setF DBG_GE_CTRL_HALT 0 d 0).setF DBG_GE_CTRL_HALTED 0 d 0)) ∧
    (s.flag DBG_GE_CTRL_HALTED 0 d = true →
      exec (.step .debug d) s =
        .next (s.latchEdges ((s.setEngine d { s.engine d with stepping := true }).setF DBG_GE_CTRL_HALTED 0 d 0))) ∧
    (∀ (on : Bool) (g : Fin 16) (n : BitVec 16),
      exec (.breakEn .debug d on g n) s =
        .next (s.latchEdges (((s.setF DBG_GE_CTRL_BREAK_EN 0 d on.toNat).setF DBG_GE_CTRL_G 0 d g).setF
          DBG_GE_CTRL_TASK 0 d n.toNat))))

/-- R425, R426: an unlock by a good token, whether it comes through DBG_UNLOCK or DEBUG_TOKEN, takes the token's scope and
lifetime, renews the nonce, and puts debug mode in force exactly with scope bit 3; a bad token changes only the nonce and
the log. Outside the log nothing else changes.

R425: LOCK from the management agent, and the end of the lifetime, end an unlock: nothing is unlocked, no scope is
left, debug mode is out of force. Profile D keeps its unlock (the model's reading, log entry 19), and LOCK from another
requester is refused. -/
def Obligations.UnlocksBeginAndEnd : Prop :=
  (∀ (s : State) (tok : Token) (i : Instr), (i = .dbgUnlock tok ∨ i = .debugToken true tok) →
    s.flag DBG_STATUS_SERVICE 0 0 = false →
    (s.tokenGood tok = true →
      ∃ t, exec i s = .next t ∧ t.flag DBG_STATUS_UNLOCKED 0 0 = true ∧
        t.getF DBG_STATUS_SCOPE 0 0 = tok.scope.toNat ∧
        t.hub.unlockEnd = s.time + tok.lifetime.toNat * 1000000000 ∧
        t.flag DBG_STATUS_DEBUG_MODE 0 0 = tok.scope.getLsbD 3 ∧
        t.nonce = Config.nonce (s.hub.nonces + 1) ∧ t.time = s.time ∧
        (∀ k, NotLog k → k.name ≠ .DBG_STATUS → k.name ≠ .DBG_NONCE0 → k.name ≠ .DBG_NONCE1 → k.name ≠ .HIC_PEND →
          t.getR k = s.getR k)) ∧
    (s.tokenGood tok = false →
      ∃ t, exec i s = .next t ∧ t.getR ⟨.DBG_STATUS, 0, 0⟩ = s.getR ⟨.DBG_STATUS, 0, 0⟩ ∧
        t.nonce = Config.nonce (s.hub.nonces + 1) ∧ t.hub.unlockEnd = s.hub.unlockEnd ∧
        (∀ k, NotLog k → k.name ≠ .DBG_NONCE0 → k.name ≠ .DBG_NONCE1 → k.name ≠ .HIC_PEND → t.getR k = s.getR k))) ∧
  (∀ (s : State) (r : Requester) (i : Instr), (i = .lock r ∨ i = .unlockExpiry) → s.isAgent r = true →
    s.flag DBG_STATUS_UNLOCKED 0 0 = true → s.flag DBG_STATUS_SERVICE 0 0 = false →
    ∃ t, exec i s = .next t ∧ t.flag DBG_STATUS_UNLOCKED 0 0 = false ∧ t.getF DBG_STATUS_SCOPE 0 0 = 0 ∧
      t.getF DBG_STATUS_REMAIN_S 0 0 = 0 ∧ t.flag DBG_STATUS_DEBUG_MODE 0 0 = false ∧ t.hub = s.hub ∧
      (∀ k, NotLog k → k.name ≠ .DBG_STATUS → k.name ≠ .HIC_PEND → t.getR k = s.getR k))

/-- R419: SET_IMMEDIATE steps device time to TIME_SET_NEXT at once, with STEPPED and record 0x0E06 of the old and new
times, and is ignored while PPS_EN is 1; SET_VALID is set and nothing else; R420: PPS_OUT is high for the first 100 ms of
each second of device time while PPS_OUT_EN is 1.

R419, R420: an accepted PPS edge (the first, or one 900 to 1,100 ms after the last) is measured against TIME_SET_NEXT
or the nearest second; below 1 ms it is slewed out, SET_VALID is consumed, the stamp is kept and HOLDOVER ends. Entering
holdover sets HOLDOVER, unlocks, makes the next edge a first one and writes record 0x0E05. (The trimmed rate itself is a
free value.)

R423: at a window's end the settings of MON_CFG and MON_SCALE come into force, and the bank of window n becomes the
snapshot at the start of window n + 2, with READY set and SEQ one up. Only that monitor's registers change. -/
def Obligations.DeviceTimeAndMonitorWindows : Prop :=
  (∀ (s : State) (r : Requester) (now : Nat), now = s.getF TIME_SET_NEXT_NS 0 0 →
    (s.flag TIME_CFG_PPS_EN 0 0 = false →
      ∃ m : Tab Nat MonSt, exec (.setImmediate r) s = .next (s.latchEdges
        (({ s with time := now, frac := 0, mons := m }.setF TIME_STATUS_STEPPED 0 0 1).hubRecord 0x0E06 sevInfo 9 0
          [s.time, now]))) ∧
    (s.flag TIME_CFG_PPS_EN 0 0 = true → exec (.setImmediate r) s = .next s) ∧
    exec (.setValid r) s = .next (s.latchEdges (s.setF TIME_CFG_SET_VALID 0 0 1)) ∧
    exec .ppsOutPulse s = .next { s with clock := { s.clock with
      ppsOut := s.flag TIME_CFG_PPS_OUT_EN 0 0 && decide (s.time % 1000000000 < 100000000) } }) ∧
  (∀ s : State,
    (∀ stamp e : Nat, s.flag TIME_CFG_PPS_EN 0 0 = true →
      (s.clock.first = true ∨ s.clock.lastAt + 900000000 ≤ stamp ∧ stamp ≤ s.clock.lastAt + 1100000000) →
      e = (if s.flag TIME_CFG_SET_VALID 0 0 then s.getF TIME_SET_NEXT_NS 0 0
        else (stamp + 500000000) / 1000000000 * 1000000000) →
      ((stamp : Int) - e).natAbs < 1000000 → stamp < 2 ^ 64 →
      ∃ t, exec (.ppsEdge stamp) s = .next t ∧ t.clock.slew = ((e : Int) - stamp) * 65536 ∧ t.clock.first = false ∧
        t.clock.lastAt = stamp ∧ t.time = s.time ∧ t.flag TIME_CFG_SET_VALID 0 0 = false ∧
        t.getF TIME_PPS_LAST_NS 0 0 = stamp ∧ t.flag TIME_STATUS_HOLDOVER 0 0 = false ∧
        t.flag TIME_STATUS_LOCKED 0 0 = decide (((stamp : Int) - e).natAbs < 1000) ∧
        (∀ k, k.name ≠ .TIME_CFG → k.name ≠ .TIME_STATUS → k.name ≠ .TIME_PPS_LAST → k.name ≠ .MON_STATUS →
          k.name ≠ .HIC_PEND → t.getR k = s.getR k) ∧ t.mem = s.mem ∧ t.dram = s.dram ∧ t.stackTab = s.stackTab) ∧
    (s.flag TIME_STATUS_HOLDOVER 0 0 = false →
      exec .ppsHoldover s = .next (s.latchEdges ((((({ s with clock := { s.clock with first := true } } : State).setF
        TIME_STATUS_HOLDOVER 0 0 1).setF TIME_STATUS_LOCKED 0 0 0).hubRecord 0x0E05 sevDegraded 9 0 []).pulse 4 16)))) ∧
  (∀ (s : State) (die : Fin 5) (m : Fin 64) (cur n : Nat) (b : MonBank),
    MON_CFG_EN.get (s.mon die m).cfg = 1 → cur = s.time / winNs (s.mon die m).cfg → 2 ≤ cur →
    b = (if cur % 2 = 0 then (s.mon die m).even else (s.mon die m).odd) → b.window = some n → n + 2 ≤ cur →
    ∃ t, exec (.monitorWindowEnd die m) s = .next t ∧
      (t.mon die m).cfg = s.getR ⟨.MON_CFG, die, m⟩ ∧ (t.mon die m).scale = s.getR ⟨.MON_SCALE, die, m⟩ ∧
      (if cur % 2 = 0 then (t.mon die m).even else (t.mon die m).odd) = {} ∧
      t.flag MON_STATUS_READY die m = true ∧ t.getF MON_STATUS_WINDOW die m = n % 2 ^ MON_STATUS_WINDOW.width ∧
      t.getF MON_STATUS_SEQ die m = (s.getF MON_STATUS_SEQ die m + 1) % 2 ^ MON_STATUS_SEQ.width ∧
      (∀ i : Fin 32, t.getF MON_BIN_COUNT die (32 * m + i) = Tab.getN 0 b.bins i % 2 ^ MON_BIN_COUNT.width) ∧
      t = { s with mons := t.mons, regs := t.regs } ∧
      Kept (fun k => k.inst = die ∧ ((k.name = .MON_STATUS ∨ k.name = .MON_RANGE ∨ k.name = .MON_COUNT) ∧ k.idx = m ∨
        k.name = .MON_BIN ∧ k.idx / 32 = m)) s t)

/-! ### The management links, PCIe and the Forge -/

/-- R416: what each authorised command of the management stream does: TRANSIT writes TRANSIT_PCT, PERMIT writes each
entry named, DEBUG_NONCE answers the nonce in force, PROFILE is a PROF_CMD of the agent; SERVICE_ENTER goes from READY
with no job to SERVICE (R383) and SERVICE_LEAVE leaves it. A command of no authorised collector changes nothing.

R417, R440: the sideband answers: MCTP control what it was asked, platform monitoring the input voltage, current and
power, the coolant inlet and outlet, the hottest die sample and the power state, SPDM the identity and, for measurements,
the measured registers. Each pulses the sideband's interrupt source and changes nothing else. -/
def Obligations.ManagementCommandsAnswer : Prop :=
  (∀ s : State,
    (∀ pct, exec (.transit true pct) s = .next (s.latchEdges (s.setF PORT_MOD_JOB_TRANSIT_PCT 0 0 pct))) ∧
    (∀ (e : Fin 64) (w : Word), exec (.permit true [(e, w)]) s = .next (s.latchEdges
      ((s.setF PORT_MOD_PERMIT_VALID 0 e (w.bits 63 63)).setF PORT_MOD_PERMIT_JOB 0 e (w.bits 15 0)))) ∧
    (s.getF PWR_STATUS_STATE 0 0 = 2 → s.getF PORT_MOD_JOB_JOB 0 0 = 0 →
      exec (.serviceEnter true) s = .next (s.latchEdges (s.setF PWR_STATUS_STATE 0 0 5))) ∧
    (s.getF PWR_STATUS_STATE 0 0 = 5 →
      exec (.serviceLeave true) s = .next (s.latchEdges (s.setF PWR_STATUS_STATE 0 0 2).restate)) ∧
    exec (.debugNonce true) s = .next { s with hub := { s.hub with reply := .nonce s.nonce } } ∧
    (∀ l reset x, exec (.profile true l reset x) s = .next (s.latchEdges (s.profCmd (.forge 0) l reset x))) ∧
    (∀ pct entries tok l reset x, ∀ i ∈ [Instr.transit false pct, .permit false entries, .serviceEnter false,
      .serviceLeave false, .debugNonce false, .debugToken false tok, .profile false l reset x], exec i s = .next s)) ∧
  (∀ (s : State) (r : State → Reply → State), (∀ u x, r u x = { u with hub := { u.hub with reply := x } }) →
    (∀ q, exec (.mctpControl q) s = .next (s.latchEdges ((r s (.mctp q)).pulse 4 20))) ∧
    exec .pldmMonitoring s = .next (s.latchEdges ((r s (.pldm (s.getF PWR_IN_VOLT 0 0) (s.getF PWR_IN_CURR 0 0)
      (s.getF PWR_IN_POWER 0 0) (s.getF THM_COOLANT_INLET 0 0) (s.getF THM_COOLANT_OUTLET 0 0) s.hottestDie
      (s.getF PWR_STATUS_STATE 0 0))).pulse 4 20)) ∧
    exec (.spdmRequest .certificates) s = .next (s.latchEdges
      ((r s (.spdm .certificates (s.getR ⟨.PORT_MOD_ID, 0, 0⟩) [])).pulse 4 20)) ∧
    (∀ m, m = [s.getR ⟨.BOOT_SLOT, 0, 0⟩, BitVec.ofNat 64 (s.boot.osSlot.getD 2),
        s.getR ⟨.PROF_STATUS, 0, 0⟩, s.getR ⟨.BOOT_CTR, 0, 0⟩, s.getR ⟨.BOOT_CTR, 0, 1⟩, s.getR ⟨.BOOT_CTR, 0, 2⟩, s.getR ⟨.BOOT_CTR, 0, 3⟩, s.getR ⟨.DBG_STATUS, 0, 0⟩] →
      exec (.spdmRequest .measurements) s = .next (s.latchEdges
        ((r s (.spdm .measurements (s.getR ⟨.PORT_MOD_ID, 0, 0⟩) m)).pulse 4 20))))

/-- R414, R415: the management port's state follows its link; while the collector cannot be reached the stream is down,
with record 0x0E0A at the first loss; on reconnection the spool goes out oldest first, with 0x0E0B where anything had been
dropped.

R403, R405: the lock of AGENT_MASK sets LOCK alone; a window's cycles by class are shown; the third overloaded window
in a row sets OVERLOAD with F2 paced and record 0x0E01; the hundredth without one ends both with record 0x0E02. -/
def Obligations.TheHubWatchesItsLinksAndForge : Prop :=
  (∀ s : State,
    (∀ fec : Fin 3, exec (.managementLinkChange true fec) s = .next (s.latchEdges
      (((s.setF HIC_MGMT_STATUS_LINK 0 0 1).setF HIC_MGMT_STATUS_FEC 0 0 fec).pulse 4 18)) ∧
      exec (.managementLinkChange false fec) s = .next (s.latchEdges
        (((s.setF HIC_MGMT_STATUS_LINK 0 0 0).setF HIC_MGMT_STATUS_FEC 0 0 0).pulse 4 18))) ∧
    (s.flag HIC_MGMT_STATUS_STREAM 0 0 = true →
      exec .collectorUnreachable s = .next (s.latchEdges
        ((s.setF HIC_MGMT_STATUS_STREAM 0 0 0).hubRecord 0x0E0A sevDegraded 8 0 []))) ∧
    (∀ (e : ErrLog) (u : State),
      e = { s.elog with stream := s.elog.stream ++ s.elog.spool, spool := [], spoolDropped := false } →
      u = (({ s with elog := e } : State).setF HIC_MGMT_STATUS_STREAM 0 0 1).setF HIC_MGMT_STATUS_SPOOL 0 0 0 →
      (s.elog.spoolDropped = false → exec .collectorReconnect s = .next (s.latchEdges u)) ∧
      (s.elog.spoolDropped = true →
        exec .collectorReconnect s = .next (s.latchEdges (u.hubRecord 0x0E0B sevDegraded 8 0 []))))) ∧
  (∀ (s : State) (r : Requester) (c0 c1 c2 c3 c4 : Nat) (u : State),
    u = ((((s.setF HIC_FORGE_CYC_COUNT 0 0 c0).setF HIC_FORGE_CYC_COUNT 0 1 c1).setF HIC_FORGE_CYC_COUNT 0 2 c2).setF
      HIC_FORGE_CYC_COUNT 0 3 c3).setF HIC_FORGE_CYC_COUNT 0 4 c4 →
    exec (.agentMaskLock r) s = .next (s.latchEdges (s.setF HIC_FORGE_CFG_LOCK 0 0 1)) ∧
    (s.flag HIC_FORGE_STATUS_OVERLOAD 0 0 = false → s.hub.overRun = 2 →
      exec (.forgeWindow [c0, c1, c2, c3, c4] true false) s = .next (s.latchEdges
        (((((({ u with hub := { s.hub with overRun := 3, clearRun := 0 } } : State).addF
          HIC_FORGE_STATUS_WINDOWS_OVER 0 0 1).setF HIC_FORGE_STATUS_OVERLOAD 0 0 1).setF ING_STATUS_PACED 0 0 1).hubRecord
          0x0E01 sevDegraded 8 0 [])))) ∧
    (s.flag HIC_FORGE_STATUS_OVERLOAD 0 0 = true → s.hub.clearRun = 99 →
      exec (.forgeWindow [c0, c1, c2, c3, c4] false false) s = .next (s.latchEdges
        (((({ u with hub := { s.hub with overRun := 0, clearRun := 100 } } : State).setF HIC_FORGE_STATUS_OVERLOAD 0 0
          0).setF ING_STATUS_PACED 0 0 0).hubRecord 0x0E02 sevInfo 8 0 []))) ∧
    (s.flag HIC_FORGE_STATUS_OVERLOAD 0 0 = false →
      exec (.forgeWindow [c0, c1, c2, c3, c4] false false) s = .next (s.latchEdges
        { u with hub := { s.hub with overRun := 0, clearRun := s.hub.clearRun + 1 } })))

/-- R412: a drive's DMA reaches only the Forge region and the ING_T2 ring: a write there stores its bytes, a read there
answers the bytes and their poison, and any other access is blocked, counted and recorded as 0x0E08.

R412, R413: a drive that fails is marked, its images count as lost, and the record is FAILED only when both have
failed; tier 2 then stops. A link that comes up shows its rate and width; one that goes down is recorded. -/
def Obligations.DrivesReachOnlyTheirWindows : Prop :=
  (∀ (s : State) (p : Fin 2) (a : Nat) (data : List Byte),
    ((0x0BC10000000 ≤ a ∧ a + data.length ≤ 0x0C000000000 ∨ s.inT2Ring a data.length = true) →
      exec (.dmaRequest p true a data) s = .next (s.latchEdges (s.storeAll a data none)) ∧
      ∀ b q, b = s.readBytesAt a data.length → q = (List.range data.length).map (fun i => s.readBad (a + i)) →
        exec (.dmaRequest p false a data) s = .next { s with readBytes := b, readPoison := q }) ∧
    (¬ (0x0BC10000000 ≤ a ∧ a + data.length ≤ 0x0C000000000) → s.inT2Ring a data.length = false → ∀ write,
      exec (.dmaRequest p write a data) s = .next (s.latchEdges
        ((s.addF HIC_PCIE_STATUS_DMA_BLOCKED 0 p 1).hubRecord 0x0E08 sevInfo 8 p [p, a])))) ∧
  (∀ (s : State) (p : Fin 2),
    (∀ (both : Bool) (u : State), u = s.setF HIC_PCIE_STATUS_FAILED 0 p 1 →
      both = (u.flag HIC_PCIE_STATUS_FAILED 0 0 && u.flag HIC_PCIE_STATUS_FAILED 0 1) →
      exec (.driveFail p) s = .next (s.latchEdges
        ((({ u with tier2Lost := true, tier2Stopped := s.tier2Stopped || both } : State).hubRecord 0x0E09
          (if both then sevFailed else sevDegraded) 8 p [p]).pulse 4 19))) ∧
    (∀ rate width, exec (.pcieLinkChange p false rate width) s = .next (s.latchEdges
      (((s.setF HIC_PCIE_STATUS_UP 0 p 0).hubRecord 0x0E08 sevDegraded 8 p [p]).pulse 4 19))) ∧
    (∀ rate width, s.flag HIC_PCIE_STATUS_UP 0 p = false →
      exec (.pcieLinkChange p true rate width) s = .next (s.latchEdges
        (((((s.setF HIC_PCIE_STATUS_UP 0 p 1).setF HIC_PCIE_STATUS_RATE 0 p rate).setF HIC_PCIE_STATUS_WIDTH 0 p width).setF
          HIC_PCIE_STATUS_PRESENT 0 p 1).pulse 4 19))))

/-! ### Register accesses -/

/-- R12, R13, R225: a register write takes each field under its access type: shown for THM_CFG, whose fields are all RW, and
TIME_STATUS, whose STEPPED and SPURIOUS are W1C and whose other fields are RO. A write that is not 8-byte aligned is not
performed and is recorded (0x0101), one to a domain in reset completes without effect and is recorded (0x0102), one to a
reserved offset is ignored; in these cases no register changes outside the log. -/
def Obligations.RegisterWritesFollowAccessTypes : Prop :=
  ∀ (s : State) (r : Requester) (a : Nat) (v : Word), r ≠ .debug → State.isRegAddr a = true →
    (a % 8 ≠ 0 → exec (.registerWrite r a v) s = .next (s.latchEdges (s.accessRecord 0x0101 r a))) ∧
    (a % 8 = 0 → s.inReset (dieOfAddr a) = true →
      exec (.registerWrite r a v) s = .next (s.latchEdges (s.accessRecord 0x0102 r a))) ∧
    (a % 8 = 0 → s.inReset (dieOfAddr a) = false → regAt a = none → exec (.registerWrite r a v) s = .next s) ∧
    (∀ d : Fin 4, a = dieReg d 0xD00100 → s.inReset d = false →
      ∃ t, exec (.registerWrite r a v) s = .next t ∧ OnlyRegs (· = ⟨.THM_CFG, d, 0⟩) s t ∧
        ∀ f ∈ fieldsOf .THM_CFG, t.getF f d 0 = f.get v) ∧
    (regAt a = some ⟨.TIME_STATUS, 0, 0⟩ → a % 8 = 0 → dieOfAddr a = 4 → a % 0x100000000 / 0x1000000 = 9 →
      ∃ t, exec (.registerWrite r a v) s = .next t ∧ OnlyRegs (· = ⟨.TIME_STATUS, 0, 0⟩) s t ∧
        t.flag TIME_STATUS_STEPPED 0 0 = (s.flag TIME_STATUS_STEPPED 0 0 && !v.bit 61) ∧
        t.flag TIME_STATUS_SPURIOUS 0 0 = (s.flag TIME_STATUS_SPURIOUS 0 0 && !v.bit 60) ∧
        ∀ f ∈ [TIME_STATUS_LOCKED, TIME_STATUS_HOLDOVER, TIME_STATUS_RATE, TIME_STATUS_OFFSET],
          t.getF f 0 0 = s.getF f 0 0)

/-- R19: an access to an address that names nothing completes without effect: a read answers zero, a write is dropped, and
record 0x0102 names the requester and the address. DBG_ACCESS answers zero and drops writes while no unlock covers it
(R424), and with one reads the word that stands at a mapped address. A REGWRITE task writes its registers in order, an
address of 0 skipped (R116), and then completes. -/
def Obligations.AccessesOutsideRegisters : Prop :=
  ∀ s : State,
    (∀ r a v, State.isRegAddr a = false → s.mapped a = false →
      exec (.unmappedAccess r a true v) s = .next (s.latchEdges (s.accessRecord 0x0102 r a)) ∧
      exec (.unmappedAccess r a false v) s =
        .next (s.latchEdges (({ s with readData := 0 } : State).accessRecord 0x0102 r a))) ∧
    (∀ (a : BitVec 44) (v : Word), s.hasScope 0 = false →
      exec (.dbgAccess true a v) s = .next { s with hub := { s.hub with ir := 0x12, reply := .none } } ∧
      exec (.dbgAccess false a v) s =
        .next { s with readData := 0, hub := { s.hub with ir := 0x12, reply := .word 0 } }) ∧
    (∀ (a : BitVec 44) (v w : Word), s.hasScope 0 = true → State.isRegAddr a.toNat = false → a.toNat % 8 = 0 →
      s.mapped a.toNat = true → w = s.readWord a.toNat →
      exec (.dbgAccess false a v) s =
        .next { s with readData := w, hub := { s.hub with ir := 0x12, reply := .word w } }) ∧
    (∀ (t : TaskId) (x : Task), s.running? t .regwrite = some x → x.rwAddr 0 ≠ 0 → x.rwAddr 1 = 0 →
      exec (.regwrite t) s = .next (s.latchEdges
        ((s.regWrite (.task t) (x.rwAddr 0) (BitVec.ofNat 64 (x.rwValue 0))).finish t)))

/-- R364, R403: the management agent sets and clears HIC_QUAR.Q with records 0x0C0B, FAILED, and 0x0C0C; from any other
Forge core Q keeps its value and the attempt is recorded as 0x0E0F.

R289, R444: JOB is accepted with no graph RUNNING: it is a job boundary, at which SERIAL starts again and both receive
slots empty; while a graph runs, or in quarantine with another value than 0, the write leaves JOB as it was and is
recorded as 0x0103. -/
def Obligations.TheAgentHoldsQuarantineAndJob : Prop :=
  (∀ (s : State) (c : Fin 16) (cause : BitVec 3),
    (s.isAgent (.forge c) = true → s.flag HIC_QUAR_Q 0 0 = false →
      ∃ u, exec (.quarantine (.forge c) cause) s =
          .next (s.latchEdges (u.hubRecord 0x0C0B sevFailed 5 0 [cause.toNat])) ∧
        OnlyRegs (· = ⟨.HIC_QUAR, 0, 0⟩) s u ∧ u.flag HIC_QUAR_Q 0 0 = true ∧ u.getF HIC_QUAR_CAUSE 0 0 = cause.toNat ∧
        u.getF HIC_QUAR_SINCE 0 0 = s.time / 16 % 2 ^ 60) ∧
    (s.isAgent (.forge c) = true → s.flag HIC_QUAR_Q 0 0 = true →
      ∃ u, exec (.unquarantine (.forge c)) s = .next (s.latchEdges (u.hubRecord 0x0C0C sevInfo 5 0 [])) ∧
        OnlyRegs (· = ⟨.HIC_QUAR, 0, 0⟩) s u ∧ u.flag HIC_QUAR_Q 0 0 = false) ∧
    (s.isAgent (.forge c) = false → s.flag HIC_QUAR_Q 0 0 = false →
      ∃ t, exec (.quarantine (.forge c) cause) s = .next t ∧ t.flag HIC_QUAR_Q 0 0 = false ∧
        t.elog.seq = (s.elog.seq + 1) % 2 ^ 32)) ∧
  (∀ (s : State) (c : Fin 16) (v : Word), s.isAgent (.forge c) = true →
    (s.anyRunning = false → s.getF PWR_STATUS_STATE 0 0 ≠ 5 → s.flag HIC_QUAR_Q 0 0 = false →
      s.flag PROF_STATUS_PENDING 0 0 = false → s.ingot.active = false →
      ∃ t, exec (.job (.forge c) v) s = .next t ∧ t.getF PORT_MOD_JOB_JOB 0 0 = PORT_MOD_JOB_JOB.get v ∧
        t.ingot.next = 0 ∧ t.getF ING_RX_STATE 0 0 = 0 ∧ t.getF ING_RX_STATE 0 1 = 0) ∧
    ((s.anyRunning = true ∨ s.flag HIC_QUAR_Q 0 0 = true ∧ PORT_MOD_JOB_JOB.get v ≠ 0) →
      ∃ u, exec (.job (.forge c) v) s = .next (s.latchEdges (u.refuseWrite (hubReg 2 0x30) v)) ∧
        OnlyRegs (· = ⟨.PORT_MOD_JOB, 0, 0⟩) s u ∧ u.getF PORT_MOD_JOB_JOB 0 0 = s.getF PORT_MOD_JOB_JOB 0 0))

/-- R374, R375: before the ring is in use a record is given the next SEQ and waits in the 64-entry hub buffer; with the
buffer full an INFO or DEGRADED record is dropped and counted by severity, and the next record delivered carries LOST. Each
keeps the event, severity, unit and syndrome it was reported with.

R375: when VALID is set with a ring of legal size and nothing in it, the records that waited in the hub buffer enter it,
all of them, and PROD counts them. -/
def Obligations.RecordsReachTheRing : Prop :=
  (∀ (s : State) (x : Report), s.flag HIC_ELOG_BASE_VALID 0 0 = false → s.elog.seq < 2 ^ 32 →
    (s.elog.hub.length < 64 →
      ∃ t r, exec (.errorRecord x) s = .next t ∧ t.elog.hub = s.elog.hub ++ [r] ∧ r.seq = s.elog.seq ∧
        r.event = x.event.toNat ∧ r.severity = x.severity.toNat ∧ r.unit = x.unit.toNat ∧ r.time = s.time ∧
        r.syndrome = x.syndrome ∧ r.job = s.getF PORT_MOD_JOB_JOB 0 0 ∧ t.elog.seq = (s.elog.seq + 1) % 2 ^ 32 ∧
        t.mem = s.mem ∧ t.dram = s.dram ∧ t.stackTab = s.stackTab) ∧
    (64 ≤ s.elog.hub.length → x.severity = 0 →
      ∃ t, exec (.errorRecord x) s = .next t ∧ t.elog.hub = s.elog.hub ∧ t.elog.lost = true ∧
        t.elog.seq = (s.elog.seq + 1) % 2 ^ 32 ∧
        t.getF HIC_ELOG_DROP_INFO 0 0 = min (s.getF HIC_ELOG_DROP_INFO 0 0 + 1) 65535)) ∧
  (∀ (s : State) (c : Fin 16) (v : Word), v.bit 63 = true → 10 ≤ HIC_ELOG_BASE_SIZE_LOG2.get v →
    HIC_ELOG_BASE_SIZE_LOG2.get v ≤ 20 → s.elog.hub.length ≤ 64 →
    s.getF HIC_ELOG_PROD_INDEX 0 0 = 0 → s.getF HIC_ELOG_CONS_INDEX 0 0 = 0 →
    ∃ t, exec (.elogEnable (.forge c) v) s = .next t ∧ t.flag HIC_ELOG_BASE_VALID 0 0 = true ∧
      t.getF HIC_ELOG_BASE_BASE 0 0 = HIC_ELOG_BASE_BASE.get v ∧ t.elog.hub = [] ∧
      t.getF HIC_ELOG_PROD_INDEX 0 0 = s.elog.hub.length)

/-! ### Start-up, the flash and profiles -/

/-- R431: a flash command of the agent starts while no other runs, BUSY is then set; a program or erase outside the areas
marked for the agent is refused with ERR and record 0x0F0B; another requester's is recorded as 0x0E0F (R403). The end of
an operation clears BUSY; a read stores the bytes in the buffer named, a failed program or erase sets ERR with 0x0F0D.

R436: the agent raises a counter to a larger value, with record 0x0F0C; counters never fall: any other write leaves
the counter as it was and is recorded as 0x0F0B. -/
def Obligations.FlashAndCounters : Prop :=
  (∀ (s : State) (c : Fin 16) (a : BitVec 27),
    (s.isAgent (.forge c) = true → s.flag BOOT_FLASH_CMD_BUSY 0 0 = false →
      ∀ n buf, n = s.getF BOOT_FLASH_BUF_LEN 0 0 + 1 → buf = s.getF BOOT_FLASH_BUF_ADDR 0 0 →
      (exec (.flashRead (.forge c) a) s = .next (s.latchEdges
        (({ s with boot := { s.boot with flashOp := some ⟨1, a.toNat, n, buf⟩ } } : State).setF BOOT_FLASH_CMD_BUSY 0 0 1))) ∧
      (0x1000000 ≤ a.toNat → a.toNat + n ≤ 0x3000000 →
        exec (.flashProgram (.forge c) a) s = .next (s.latchEdges
          (({ s with boot := { s.boot with flashOp := some ⟨2, a.toNat, n, buf⟩ } } : State).setF
            BOOT_FLASH_CMD_BUSY 0 0 1))) ∧
      (0x1000000 ≤ a.toNat → a.toNat < 0x5000000 → a.toNat % 65536 = 0 →
        exec (.flashErase (.forge c) a) s = .next (s.latchEdges
          (({ s with boot := { s.boot with flashOp := some ⟨3, a.toNat, 65536, buf⟩ } } : State).setF
            BOOT_FLASH_CMD_BUSY 0 0 1))) ∧
      (0x0080000 ≤ a.toNat → a.toNat < 0x1000000 → ∀ op, (op = (2, Instr.flashProgram (.forge c) a) ∨
        op = (3, Instr.flashErase (.forge c) a)) → exec op.2 s = .next (s.latchEdges
          ((s.setF BOOT_FLASH_CMD_ERR 0 0 1).hubRecord 0x0F0B sevInfo 12 0 [op.1, a.toNat])))) ∧
    (∀ f : FlashOp, s.boot.flashOp = some f → ∀ u : State,
      u = ({ s with boot := { s.boot with flashOp := none } } : State).setF BOOT_FLASH_CMD_BUSY 0 0 0 →
      (f.op = 1 → exec (.flashOpDone true) s = .next (s.latchEdges
        (u.storeAll f.buf ((List.range f.len).map fun i => s.flashByte (f.addr + i)) none))) ∧
      (f.op ≠ 1 → exec (.flashOpDone false) s = .next (s.latchEdges
        ((u.setF BOOT_FLASH_CMD_ERR 0 0 1).hubRecord 0x0F0D sevDegraded 12 0 [f.op, f.addr]))))) ∧
  (∀ (s : State) (r : Requester) (i : Fin 4) (v : Word),
    (s.isAgent r = true → s.getF BOOT_CTR_VALUE 0 i < v.toNat % 2 ^ 32 →
      (i = 3 → v.toNat % 2 ^ 32 ≤ s.boot.runningKey) →
      exec (.counterRaise r i v) s = .next (s.latchEdges
        ((s.setF BOOT_CTR_VALUE 0 i (v.toNat % 2 ^ 32)).hubRecord 0x0F0C sevInfo 12 i [i, v.toNat % 2 ^ 32]))) ∧
    ((s.isAgent r = false ∨ v.toNat % 2 ^ 32 ≤ s.getF BOOT_CTR_VALUE 0 i) →
      exec (.counterRaise r i v) s = .next (s.latchEdges (s.hubRecord 0x0F0B sevInfo 12 i [i, v.toNat % 2 ^ 32]))))

/-- R444: a profile command of the agent is pending until the job boundary, with or without RESET; one into or out of
profile D is refused with record 0x0F0B unless ALLOW_D is set; one of any other Forge core is recorded as 0x0E0F. -/
def Obligations.ProfileCommandsWait : Prop :=
  ∀ (s : State) (c : Fin 16) (l : Fin 4) (u : Bool → Option Profile → State),
    (∀ reset x, u reset x = ((({ s with boot := { s.boot with pendingProf := x.filter fun p => p.letter = l } } : State).setF
      PROF_STATUS_PENDING 0 0 1).setF PROF_STATUS_PENDING_PROF 0 0 l).setF PROF_STATUS_RESET_PENDING 0 0 reset.toNat) →
    (s.isAgent (.forge c) = true → l ≠ 3 → s.getF PROF_STATUS_ACTIVE 0 0 ≠ 3 →
      (∀ x, exec (.profileSwitch (.forge c) l x) s = .next (s.latchEdges (u false x))) ∧
      exec (.profileSwitchReset (.forge c) l) s = .next (s.latchEdges (u true none))) ∧
    (s.isAgent (.forge c) = true → s.boot.owner = none → l = 3 → ∀ x,
      exec (.profileSwitch (.forge c) l x) s = .next (s.latchEdges (s.hubRecord 0x0F0B sevInfo 12 0 [l.val]))) ∧
    (s.isAgent (.forge c) = false → ∀ x, ∃ t, exec (.profileSwitch (.forge c) l x) s = .next t ∧
      t.getR ⟨.PROF_STATUS, 0, 0⟩ = s.getR ⟨.PROF_STATUS, 0, 0⟩ ∧ t.boot = s.boot)

/-- R434, R435, R442: the boot ROM samples the profile pins, verifies the slot named by PREF and runs it when it is valid;
when only the other slot is valid it runs that one with record 0x0F01; when neither is, recovery begins with record 0x0F02
of severity FAILED.

R435, R437: the watchdog of a trial resets the package 300 s after phase 2 began where ready has not been reached, and
does nothing before; in recovery a valid component goes to slot A and the package is reset with a trial of three tries
(the reset's cause code is the model's choice, log entry 20); an invalid component changes neither flash nor header. -/
def Obligations.TheBootRomStartsOrRecovers : Prop :=
  (∀ (s : State) (pins : Fin 4) (a b : ImageCheck), s.getF BOOT_STATUS_PHASE 0 0 = 0 → s.input.off = false →
    s.flag PWR_PINS_RESET_N 0 0 = true → s.boot.commanded = none → s.header.trial = false → s.header.pref = 0 →
    ∃ t, exec (.bootRomStart pins a b) s = .next t ∧ t.getF BOOT_STATUS_PHASE 0 0 = 2 ∧ t.getF PROF_STATUS_PINS 0 0 = pins ∧
      t.getF PROF_STATUS_ACTIVE 0 0 = pins ∧ t.getF BOOT_SLOT_A_VALID 0 0 = (s.imageValid a).toNat ∧
      (s.imageValid a = true → t.getF BOOT_SLOT_ACTIVE 0 0 = 0 ∧ t.getF BOOT_SLOT_FW_SVN 0 0 = a.svn.toNat ∧
        t.elog = s.elog) ∧
      (s.imageValid a = false → s.imageValid b = true → t.getF BOOT_SLOT_ACTIVE 0 0 = 1 ∧
        t.getF BOOT_SLOT_FW_SVN 0 0 = b.svn.toNat ∧ t.flag BOOT_SLOT_FALLBACK 0 0 = true) ∧
      (s.imageValid a = false → s.imageValid b = false → t.flag BOOT_STATUS_RECOVERY 0 0 = true)) ∧
  (∀ s : State,
    (s.header.trial = true → s.flag BOOT_STATUS_READY 0 0 = false → s.boot.phase2At + 300000000000 ≤ s.time →
      exec .trialWatchdog s = .next (s.latchEdges (s.packageReset (s.getF BOOT_RST_STATUS_CAUSE 0 0)))) ∧
    (s.time < s.boot.phase2At + 300000000000 → exec .trialWatchdog s = .next s) ∧
    (∀ x image, s.flag BOOT_STATUS_RECOVERY 0 0 = true → s.imageValid x = true → s.boot.hdr0.seq < 2 ^ 32 - 1 →
      s.boot.hdr1.seq < 2 ^ 32 - 1 →
      ∃ t, exec (.firmwareUpdateComponent x image) s = .next t ∧ t.header.pref = 0 ∧ t.header.trial = true ∧
        t.header.tries = 3 ∧ t.pending = s.pending) ∧
    (∀ x image, s.flag BOOT_STATUS_RECOVERY 0 0 = true → s.imageValid x = false →
      ∃ t, exec (.firmwareUpdateComponent x image) s = .next t ∧ t.boot = s.boot))

/-- R445: a phase that has reached its end records the device time in BOOT_T and the next one begins: phases 2 and 8 at
their end, phase 4 when the rails are up, phase 5 at SEQ_DONE, phase 7 at LL_STATUS.READY, and not before.

R446: a phase over its bound (2 to 7 and 9) sets STOPPED with the FAILED record 0x0F08 naming the phase, and every
domain but the hub is held in reset.

R454, R456, R464: RESET_N's release is seen; a feed value is accepted after three equal readings, and one that differs
from the last sets FEED_CHG with record 0x1001, and the hallmarks tell it; a leak sets LEAK, LEAK_NOW and the zone with the FAILED record 0x1003. -/
def Obligations.StartupPhasesAndStraps : Prop :=
  (∀ (s : State) (x : PhaseResult) (p : Nat), s.flag BOOT_STATUS_STOPPED 0 0 = false →
    s.flag BOOT_STATUS_RECOVERY 0 0 = false → s.boot.held = false → s.getF BOOT_STATUS_PHASE 0 0 = p →
    ((p = 2 ∨ p = 8 ∨ p = 4 ∧ s.input.railPhase = 5 ∨ p = 5 ∧ s.flag BOOT_RST_STATUS_SEQ_DONE 0 0 = true ∨
        p = 7 ∧ s.flag LL_STATUS_READY 0 0 = true) →
      exec (.startupPhaseEnd x) s =
        .next (s.latchEdges ((s.setF BOOT_T_NS 0 p s.time).setF BOOT_STATUS_PHASE 0 0 (p + 1)))) ∧
    ((p = 4 ∧ s.input.railPhase ≠ 5 ∨ p = 5 ∧ s.flag BOOT_RST_STATUS_SEQ_DONE 0 0 = false ∨
        p = 7 ∧ s.flag LL_STATUS_READY 0 0 = false) → exec (.startupPhaseEnd x) s = .next s)) ∧
  (∀ s : State, s.flag BOOT_STATUS_STOPPED 0 0 = false →
    (2 ≤ s.getF BOOT_STATUS_PHASE 0 0 ∧ s.getF BOOT_STATUS_PHASE 0 0 ≤ 7 ∨ s.getF BOOT_STATUS_PHASE 0 0 = 9) →
    ∃ t, exec .startupPhaseTimeout s = .next t ∧ t.flag BOOT_STATUS_STOPPED 0 0 = true ∧
      t.elog.seq = (s.elog.seq + 1) % 2 ^ 32 ∧ (∀ i : Fin 18, i ≠ 4 → t.inReset i = true)) ∧
  (∀ s : State,
    exec .resetNRelease s = .next (s.latchEdges (s.setF PWR_PINS_RESET_N 0 0 1)) ∧
    (∀ v : BitVec 8, s.boot.feedReads = [v, v] → s.boot.feedSeen = true → s.getF PWR_PINS_FEED_ID 0 0 ≠ v.toNat →
      v ≠ 0xFF →
      ∃ u, exec (.feedIdSample v) s = .next (s.latchEdges
          ((u.hubRecord 0x1001 sevInfo 13 0 [s.getF PWR_PINS_FEED_ID 0 0, v.toNat]).tellHallmarks.lookFed false)) ∧
        Kept (· = ⟨.PWR_PINS, 0, 0⟩) s u ∧ u = { s with boot := { s.boot with feedReads := [v, v, v] }, regs := u.regs } ∧
        u.getF PWR_PINS_FEED_ID 0 0 = v.toNat ∧ u.getF PWR_PINS_FEED_PREV 0 0 = s.getF PWR_PINS_FEED_ID 0 0 ∧
        u.flag PWR_PINS_FEED_CHG 0 0 = true ∧ u.flag PWR_PINS_FEED_UNWIRED 0 0 = false) ∧
    (∀ v w : BitVec 8, s.boot.feedReads.head? = some w → v ≠ w →
      ∃ l, exec (.feedIdSample v) s =
        .next (s.latchEdges ({ s with boot := { s.boot with feedReads := l } } : State).tellHallmarks)) ∧
    (∀ (zone : Fin 4) (inlet outlet : BitVec 16),
      ∃ u, exec (.leakDetect zone inlet outlet) s = .next (s.latchEdges
          (u.hubRecord 0x1003 sevFailed 13 0 [zone.val, inlet.toNat, outlet.toNat])) ∧
        OnlyRegs (fun k => k = ⟨.THM_PLATE, 0, 0⟩ ∨ k = ⟨.THM_COOLANT, 0, 0⟩) s.markCause u ∧
        u.flag THM_PLATE_LEAK 0 0 = true ∧ u.flag THM_PLATE_LEAK_NOW 0 0 = true ∧ u.getF THM_PLATE_ZONE 0 0 = zone ∧
        u.getF THM_COOLANT_INLET 0 0 = inlet.toNat ∧ u.getF THM_COOLANT_OUTLET 0 0 = outlet.toNat))

/-! ### Power, leave and temperature -/

/-- R379, R380: with PWR_EN asserted and an input of 44 V the switch closes with limited inrush, and the end of the inrush
gives power good with only the hub's rails good and the package reset. OFF opens the switch and takes down every rail but
the 52 V input: on PWR_EN deasserted, above 59.0 V, or at the end of the hold-up. Below 40.0 V PWR_STATUS.PFAIL is set,
power good falls and the hold-up begins.

R378: a voltage warning sets its bit each time and is recorded once per excursion, the low one as an alert; the bits
clear when the input is back in the operating range. -/
def Obligations.TheInputVoltageIsWatched : Prop :=
  (∀ (s : State) (mv : Nat) (down : State → Prop),
    (∀ t, down t ↔ (t.input.switchClosed = false ∧ t.input.off = true ∧ t.input.powerGood = false ∧
      t.input.inrush = false ∧ t.input.holdUp = false ∧ ∀ i, i < 32 → i ≠ 18 → t.flag PWR_RAIL_GOOD 0 i = false)) →
    (44000 ≤ mv → s.input.switchClosed = false →
      ∀ u : State, u = { s.setF PWR_PINS_PWR_EN 0 0 1 with input := { s.input with switchClosed := true, inrush := true } } →
      exec (.pwrEnAssert mv) s = .next (s.latchEdges u)) ∧
    (44000 ≤ mv → s.input.switchClosed = false → s.flag PWR_PINS_PWR_EN 0 0 = true →
      exec (.inputReturn mv) s =
        .next { s with input := { s.input with switchClosed := true, inrush := true } }) ∧
    (mv < 44000 → exec (.inputReturn mv) s = .next s) ∧
    (s.input.inrush = true →
      ∃ t, exec .inrushDone s = .next t ∧ t.input.inrush = false ∧ t.input.off = false ∧ t.input.powerGood = true ∧
        (∀ i, i < 32 → t.flag PWR_RAIL_GOOD 0 i = decide (i ∈ [4, 19, 30, 31])) ∧
        t.getF BOOT_CLK_STATUS_LOST 0 0 = 0 ∧ t.getF BOOT_CLK_STATUS_ROOT_LOST 0 0 = 0 ∧ t.pending = s.pending) ∧
    (∃ t, exec .pwrEnDeassert s = .next t ∧ down t ∧ t.input.orderly = true ∧ t.flag PWR_PINS_PWR_EN 0 0 = false) ∧
    (59000 < mv → ∃ t, exec (.inputOvervoltage mv) s = .next t ∧ down t ∧ t.elog.seq = (s.elog.seq + 1) % 2 ^ 32) ∧
    (s.input.holdUp = true → ∃ t, exec .holdUpEnd s = .next t ∧ down t ∧
      t = { s with regs := t.regs, input := t.input } ∧ Kept (·.name = .PWR_RAIL) s t) ∧
    (∀ w, mv < 40000 → s.input.off = false →
      ∃ t, exec (.powerFail mv w) s = .next t ∧ t.flag PWR_STATUS_PFAIL 0 0 = true ∧ t.input.powerGood = false ∧
        t.input.holdUp = true)) ∧
  (∀ (s : State) (mv : Nat) (lo hi : State),
    lo = ({ s with input := { s.input with uvSaid := true } } : State).setF PWR_STATUS_UV_WARN 0 0 1 →
    hi = ({ s with input := { s.input with ovSaid := true } } : State).setF PWR_STATUS_OV_WARN 0 0 1 →
    (mv < 44000 → exec (.inputVoltageWarning mv) s = .next (s.latchEdges
      (if s.input.uvSaid then lo else lo.record
        { event := 0x0D01, sev := sevDegraded, unit := unitModule, sub := 18, alert := true,
          syn := Config.syndrome 0x0D01 [mv] }))) ∧
    (58000 ≤ mv → mv ≤ 59000 → exec (.inputVoltageWarning mv) s = .next (s.latchEdges
      (if s.input.ovSaid then hi else hi.record
        { event := 0x0D02, sev := sevDegraded, unit := unitModule, sub := 18, syn := Config.syndrome 0x0D02 [mv] }))) ∧
    (46000 ≤ mv → mv ≤ 58000 → ∃ t, exec (.inputWarningClear mv) s = .next t ∧
      t = { s with regs := t.regs, input := { s.input with uvSaid := false, ovSaid := false } } ∧
      Kept (· = ⟨.PWR_STATUS, 0, 0⟩) s t ∧ t.flag PWR_STATUS_UV_WARN 0 0 = false ∧ t.flag PWR_STATUS_OV_WARN 0 0 = false))

/-- R382: a bring-up phase that ends with its rails good starts the next one, a phase over its bound stops the start-up
with RAIL_FAULT and record 0x0D0A; a fault of a stack's rail holds that stack in reset, one of rail 19 or 30 takes the
module to OFF, and rail 18, the 52 V input, has no fault of its own.

R390, R474: at each period the rails, the input and the sums are shown, and each die out of reset gets the budget of
R390 (never below what it has granted), a new ramp base and its shares in W; R392: an input over IN_MAX_W sets OVERPOWER
with record 0x0D04 (its quench is stated above), one within it changes nothing. -/
def Obligations.RailsAndBudgets : Prop :=
  (∀ (s : State) (p : Nat), s.input.railPhase = p → 1 ≤ p → p ≤ 4 → s.input.railStopped = false →
    (∃ t, exec (.railPhaseEnd true) s = .next t ∧ t = { s with regs := t.regs, input := { s.input with railPhase := p + 1 } } ∧
      (∀ i, i < 32 → t.flag PWR_RAIL_GOOD 0 i = (s.flag PWR_RAIL_GOOD 0 i || (State.phaseRails p).contains i)) ∧
      Kept (fun k => k.name = .PWR_RAIL ∨ p = 4 ∧ k.name = .LC_STATUS) s t ∧
      ∀ i, i < 3 → p = 4 → s.flag LC_STATUS_PRESENT 0 i = true → s.flag LC_STATUS_LATCH 0 i = true →
        t.getF LC_STATUS_STATE 0 i = 1) ∧
    (∃ t, exec (.railPhaseEnd false) s = .next t ∧ t.input = { s.input with railStopped := true } ∧
      t.flag PWR_STATUS_RAIL_FAULT 0 0 = true ∧ (∀ i, t.getR ⟨.PWR_RAIL, 0, i⟩ = s.getR ⟨.PWR_RAIL, 0, i⟩)) ∧
    (∀ (r : Fin 32) (v c : Nat),
      (6 ≤ r.val → r.val < 18 → ∃ t, exec (.railFault r v c) s = .next t ∧ t.flag PWR_RAIL_GOOD 0 r = false ∧
        t.flag PWR_STATUS_RAIL_FAULT 0 0 = true ∧ t.inReset r = true ∧ t.getF PWR_RAIL_VOLT 0 r = v % 65536) ∧
      ((r.val = 19 ∨ r.val = 30) → ∃ t, exec (.railFault r v c) s = .next t ∧ t.input.off = true ∧
        t.flag PWR_STATUS_RAIL_FAULT 0 0 = true ∧ t.input.switchClosed = false) ∧
      (r.val = 18 → exec (.railFault r v c) s = .next s))) ∧
  (∀ (s : State) (rd : List RailReading),
    (∃ t, exec (.budgetPeriod rd) s = .next t ∧
      (∀ i x, i < 32 → rd[i]? = some x → t.getF PWR_RAIL_VOLT 0 i = x.volt.toNat ∧ t.getF PWR_RAIL_CURR 0 i = x.curr.toNat ∧
        t.getF PWR_RAIL_POWER 0 i = x.power.toNat ∧ t.flag PWR_RAIL_GOOD 0 i = x.good) ∧
      (∀ x, rd[18]? = some x → t.getF PWR_IN_POWER 0 0 = x.power.toNat) ∧
      t.getF PWR_OTHER_LL_W 0 0 = State.railWatts rd [5, 27, 28] % 4096 ∧
      t.getF PWR_OTHER_LASER_W 0 0 = State.railWatts rd [29] % 4096 ∧
      (∀ d : Fin 4, s.inReset d = false →
        t.getF PWR_LV_STATUS_BUDGET d 0 = s.budgetOf (s.availWatts rd) d % 65536 ∧
        s.granted d ≤ s.budgetOf (s.availWatts rd) d ∧ t.flag PWR_LV_STATUS_RAMPED d 0 = false ∧
        (t.engine d).g0 = s.granted d ∧ t.granted d = s.granted d ∧
        t.getF PWR_BUDGET_BUDGET_W 0 d =
          (s.getF PWR_LV_CFG_FLOOR_W d 0 + s.budgetOf (s.availWatts rd) d / 4) % 65536 ∧
        t.getF PWR_BUDGET_MEASURED_W 0 d = State.railWatts rd [d, 20 + d] % 65536)) ∧
    (∀ w, w ≤ s.getF PWR_CFG_IN_MAX_W 0 0 → exec (.inputOverpower w) s = .next s))

/-- R394: on a module cause every compute die that is not yet quenched is: no grant stands or is on its way, no core
holds tokens, its array runs at ÷10 and QUENCHED is shown; PWR_EN deasserted, a power fail, an input over IN_MAX_W and an
outlet at 60 °C are such causes. R393, R394: a sensor sample becomes TEMP, REF the lowest sample of the last RISE_US, and
a rise or temperature at its threshold quenches the sensor's own die.

R393, R394: a sample of a sensor becomes its TEMP, REF is the lowest of the samples of the last RISE_US, this one
among them; a rise or a temperature at its threshold quenches that die, and no other sensor and no other die changes. -/
def Obligations.QuenchCutsOnTemperature : Prop :=
  (∀ (s : State) (mv w : Nat) (inl outl : BitVec 16) (i : Instr), (∀ d < 4, s.flag THM_STATUS_QUENCHED d 0 = false) →
    (i = .pwrEnDeassert ∨ i = .powerFail mv w ∧ mv < 40000 ∧ s.input.off = false ∨
      i = .inputOverpower w ∧ s.getF PWR_CFG_IN_MAX_W 0 0 < w ∨ i = .coolantOutletHigh inl outl ∧ 960 ≤ outl.toInt) →
    ∃ t, exec i s = .next t ∧
      (∀ d < 4, t.flag THM_STATUS_QUENCHED d 0 = true ∧ t.flag THM_STATUS_C_MODULE d 0 = true ∧
        t.getF PWR_LV_STATUS_GRANTED d 0 = 0 ∧ (t.engine d).issued = [] ∧ (∀ p < 34, (t.coreAt d p).held = 0) ∧
        (t.getF BOOT_CLK_STATUS_ARRAY_HALF 0 0).testBit d = true ∧ (t.getF PWR_STATUS_QUENCHED 0 0).testBit d = true) ∧
      (∀ a, i = .inputOverpower a → t.flag PWR_STATUS_OVERPOWER 0 0 = true) ∧
      (∀ a b, i = .coolantOutletHigh a b → t.getF THM_COOLANT_INLET 0 0 = a.toNat ∧
        t.getF THM_COOLANT_OUTLET 0 0 = b.toNat ∧ t.getF THM_PLATE_RISE 0 0 = (b - a).toNat)) ∧
  (∀ (s : State) (d : Fin 4) (i : Fin 64) (v : BitVec 16), s.inReset d = false →
    (∀ x ∈ (s.sensorOf d i).samples, -32768 ≤ x.2 ∧ x.2 < 32768) →
    ∃ t, exec (.sensorSample d i v) s = .next t ∧ t.getF THM_SENSOR_TEMP d i = v.toNat ∧
      (t.sensorOf d i).samples = (s.time, v.toInt) ::
        (s.sensorOf d i).samples.filter (fun x => decide (s.time < x.1 + s.riseNs d)) ∧
      (∃ x ∈ (t.sensorOf d i).samples, sgn16 (t.getF THM_SENSOR_REF d i) = x.2 ∧
        ∀ y ∈ (t.sensorOf d i).samples, x.2 ≤ y.2) ∧
      (t.riseAt d i = true ∨ t.hotAt d i = true → t.flag THM_STATUS_QUENCHED d 0 = true) ∧
      (t.riseAt d i = false → t.hotAt d i = false →
        t.flag THM_STATUS_QUENCHED d 0 = s.flag THM_STATUS_QUENCHED d 0) ∧
      (∀ e j, ¬ (e = d.val ∧ j = i.val) → t.getR ⟨.THM_SENSOR, e, j⟩ = s.getR ⟨.THM_SENSOR, e, j⟩) ∧
      (∀ e, e ≠ d.val → t.getR ⟨.THM_STATUS, e, 0⟩ = s.getR ⟨.THM_STATUS, e, 0⟩))

/-- R395, R396: a quenched die that is not held resumes once every condition of R395 holds: QUENCHED and the causes clear,
the array leaves ÷10 and G is what the running tasks stand for; a held die stays until RELEASE. Writes to THM_CTRL clear
HELD, or the wait counter of R400. R398: an inlet above 40.0 °C is recorded as an alert, the plate keeps running. -/
def Obligations.QuenchEndsUnderR395 : Prop :=
  ∀ (s : State) (d : Fin 4) (r : Requester),
    (s.flag THM_STATUS_QUENCHED d 0 = true → s.flag THM_STATUS_HELD d 0 = false →
      (s.quenchOf d).since + s.getF THM_CFG_QMIN_US d 0 * 1000 ≤ s.time →
      (∀ i < 64, sgn16 (s.getF THM_SENSOR_TEMP d i) - sgn16 (s.getF THM_SENSOR_REF d i) < 80 ∧
        sgn16 (s.getF THM_SENSOR_TEMP d i) ≤ s.tMax d - 80) →
      (∀ j < 3, sgn16 (s.getF CRU_THERM_TEMP (3 * d + j) 0) < 1600) → s.moduleCause = false →
      ((s.quenchOf d).clearSince = 0 ∨ (s.quenchOf d).clearSince + 1000000 ≤ s.time) → s.runningTokens d ≤ s.ramp d →
      ∃ t, exec (.quenchExit d) s = .next t ∧ t.flag THM_STATUS_QUENCHED d 0 = false ∧
        t.flag THM_STATUS_C_RISE d 0 = false ∧ t.flag THM_STATUS_C_ABS d 0 = false ∧
        t.flag THM_STATUS_C_STACK d 0 = false ∧ t.flag THM_STATUS_C_MODULE d 0 = false ∧
        t.getF PWR_LV_STATUS_GRANTED d 0 = s.runningTokens d % 65536 ∧
        (t.getF BOOT_CLK_STATUS_ARRAY_HALF 0 0).testBit d = false) ∧
    (s.flag THM_STATUS_HELD d 0 = true → exec (.quenchExit d) s = .next s) ∧
    (s.inReset d = false →
      exec (.release r d) s = .next (s.latchEdges (s.setF THM_STATUS_HELD d 0 0)) ∧
      exec (.thmCntClr r d) s = .next (s.latchEdges (s.setF PWR_LV_WAIT_COUNT d 0 0))) ∧
    (s.inReset d = true →
      exec (.release r d) s = .next (s.latchEdges (s.accessRecord 0x0102 r (dieReg d 0xD00110))) ∧
      exec (.thmCntClr r d) s = .next (s.latchEdges (s.accessRecord 0x0102 r (dieReg d 0xD00110)))) ∧
    (∀ a b : BitVec 16, 640 < a.toInt →
      ∃ u, exec (.coolantInletHigh a b) s = .next (s.latchEdges (u.record
          { event := 0x0D09, sev := sevDegraded, unit := unitModule, alert := true,
            syn := Config.syndrome 0x0D09 [a.toNat, b.toNat] })) ∧
        OnlyRegs (fun k => k = ⟨.THM_COOLANT, 0, 0⟩ ∨ k = ⟨.THM_PLATE, 0, 0⟩) s.markCause u ∧
        u.getF THM_COOLANT_INLET 0 0 = a.toNat ∧ u.getF THM_COOLANT_OUTLET 0 0 = b.toNat ∧
        u.getF THM_PLATE_RISE 0 0 = (b - a).toNat)

/-- R385 to R388: the arbiter grants the head of the waiting requests, by priority and then age, when it fits the budget
and the ramp; else, while the head does not hold the queue, a later one that fits; a head that fails on the ramp alone
sets RAMPED. A grant counts at once and its task starts when it takes effect 40 µs later, its tokens on its core; a core's
tokens beyond its tasks' need are released when the hold ends. -/
def Obligations.LeaveIsGrantedInOrder : Prop :=
  ∀ (s : State) (d : Fin 4) (e : Engine), e = s.engine d → s.flag THM_STATUS_QUENCHED d 0 = false →
    s.flag PWR_STATUS_PFAIL 0 0 = false →
    (∀ h, h ∈ e.waitq → (∀ x ∈ e.waitq, x ≠ h → x.prio < h.prio ∨ x.prio = h.prio ∧ h.since < x.since) →
      (∀ g : LeaveReq, g ∈ e.waitq → s.fitsBudget d g.tokens = true → s.fitsRamp d g.tokens = true →
        (g = h ∨ e.waitq = [h, g] ∧ s.fitsBudget d h.tokens = false ∧ s.headLocked d h = false) →
        ∃ t, exec (.leaveGrant d) s = .next t ∧ (t.engine d).waitq = e.waitq.erase g ∧
          (t.engine d).issued = e.issued ++ [⟨g.task, g.tokens, g.core, g.since⟩] ∧
          t.getF PWR_LV_STATUS_GRANTED d 0 = s.granted d + g.tokens ∧
          Tab.getN [] t.light.notices d = Tab.getN [] s.light.notices d ++ [⟨g.tokens, s.time + 40000⟩] ∧
          (∀ d' : Fin 4, d' ≠ d → t.engine d' = s.engine d') ∧ t.mem = s.mem ∧ t.dram = s.dram ∧ t.elog = s.elog) ∧
      (s.fitsBudget d h.tokens = true → s.fitsRamp d h.tokens = false → s.headLocked d h = true →
        exec (.leaveGrant d) s = .next (s.latchEdges (s.setF PWR_LV_STATUS_RAMPED d 0 1)))) ∧
    (e.waitq ≠ [] → exec (.backfillExpiry d) s = .next (s.latchEdges (s.setEngine d { e with backfilled := true }))) ∧
    (∀ (x : Task) (n : TaskId) (g : Grant), n.d = d → g.task = n → e.issued = [g] → s.task? n = some x → g.core < 34 →
      ∃ t, exec (.grantTakesEffect n) s = .next t ∧ (t.engine d).issued = [] ∧
        t.task? n = some { x with started := true, startedAt := s.time } ∧
        (t.coreAt d g.core).held = (s.coreAt d g.core).held + g.tokens ∧
        t.getF PWR_LV_WAIT_COUNT d 0 = min (s.getF PWR_LV_WAIT_COUNT d 0 + (s.time - g.since) / 1000) (2 ^ 64 - 1) ∧
        t.getR ⟨.PWR_LV_STATUS, d, 0⟩ = s.getR ⟨.PWR_LV_STATUS, d, 0⟩) ∧
    (∀ p : Fin 34, s.inUse d p < (s.coreAt d p).held → (s.coreAt d p).held ≤ s.granted d →
      ∃ t, exec (.leaveHoldExpiry d p) s = .next t ∧ (t.coreAt d p).held = s.inUse d p ∧
        t.getF PWR_LV_STATUS_GRANTED d 0 + (s.coreAt d p).held = s.granted d + s.inUse d p ∧
        (∀ q, q ≠ p.val → t.coreAt d q = s.coreAt d q) ∧ t.engines = s.engines)

/-! ### Braze links, clocks and resets -/

/-- R216, R217: a flit that arrives whole and in bundle order is acknowledged and enters the NoC in edge-sequence order,
one that is ahead of its edge sequence waits; one that fails its CRC is discarded, counted, and a resend asked for. A
resend request sends again every flit of the replay buffer from the named one on. Only the named direction changes.

R218, R219, R221, R228: a bundle that trains carries traffic and the edge is up once none is left untrained; one that
fails training, or is retired by its bit in BRZ_CFG, leaves the active set at both ends of the edge, and the hub edge, or
an edge with more than two bundles retired, is then failed. The counters are cleared on command. -/
def Obligations.BrazeLinksDeliver : Prop :=
  (∀ (s : State) (d : Fin 4) (e : Fin 6) (far : Bool) (b : Fin 8) (f : Flit) (k : Nat) (x : BundleSt),
    k = linkKey d e far → x = s.bundle k b → s.bundleActive d e b = true →
    (far = true → (brazePeer d e).1 ≠ 1) →
    (f.bseq = x.expect →
      ∃ t, exec (.flitReceive d e far b true f) s = .next t ∧ t = { s with links := t.links } ∧
        (t.bundle k b).expect = f.bseq + 1 ∧ (t.bundle k b).asked = false ∧ (t.bundle k b).fails = 0 ∧
        (∀ y ∈ (t.bundle k b).replay, y.bseq ≠ f.bseq) ∧ (∀ k', k' ≠ k → t.link k' = s.link k') ∧
        ((s.link k).early = [] → f.eseq = (s.link k).expect →
          (t.link k).delivered = (s.link k).delivered ++ [f.payload] ∧ (t.link k).expect = f.eseq + 1) ∧
        ((s.link k).early = [] → f.eseq ≠ (s.link k).expect →
          (t.link k).delivered = (s.link k).delivered ∧ (t.link k).expect = (s.link k).expect ∧
            (t.link k).early = [f])) ∧
    (f.bseq ≠ x.expect → x.replay.any (fun y => y.bseq = f.bseq) = true →
      exec (.flitReceive d e far b true f) s = .next s) ∧
    (f.bseq = x.expect → x.fails + 1 < s.getF BRZ_CFG_PERSIST (State.brz d e) 0 →
      (s.link k).window ≠ s.time / 1000000 → 1 ≤ s.getF BRZ_CFG_RETIRE_THR (State.brz d e) 0 →
      ∃ t, exec (.flitReceive d e far b false f) s = .next t ∧ t = { s with links := t.links, regs := t.regs } ∧
        Kept (· = ⟨.BRZ_CRC_ERR, State.brz d e, b⟩) s t ∧
        t.getF BRZ_CRC_ERR_COUNT (State.brz d e) b =
          min (s.getF BRZ_CRC_ERR_COUNT (State.brz d e) b + 1) (2 ^ 64 - 1) ∧
        (t.bundle k b).asked = true ∧ (t.bundle k b).fails = x.fails + 1 ∧ (t.bundle k b).expect = x.expect ∧
        (t.link k).delivered = (s.link k).delivered ∧ ∀ k', k' ≠ k → t.link k' = s.link k') ∧
    (∀ (q : BitVec 8) (n : Nat),
      n = ((s.bundle (State.sentLink d e far) b).replay.dropWhile fun y => y.bseq ≠ q).length →
      exec (.resendRequest d e far b q) s =
        .next (s.latchEdges (s.addF BRZ_REPLAY_COUNT (State.brz d e) 0 n)))) ∧
  (∀ (s : State) (d : Fin 4) (e : Fin 6) (b : Fin 8) (r : Requester) (gone : State → Prop),
    b.val < bundlesOf e → s.bundleRetired d e b = false →
    (∀ t, gone t ↔ (∀ x ∈ edgeEnds d e,
      (t.getF BRZ_STATUS_RETIRED (State.brz x.1 x.2) 0).testBit b = true ∧
      (t.getF BRZ_STATUS_ACTIVE (State.brz x.1 x.2) 0).testBit b = false ∧
      (e.val = 0 → t.getF BRZ_STATUS_STATE (State.brz x.1 x.2) 0 = 3) ∧
      (∀ j < 8, j ≠ b.val → (t.getF BRZ_STATUS_RETIRED (State.brz x.1 x.2) 0).testBit j =
        (s.getF BRZ_STATUS_RETIRED (State.brz x.1 x.2) 0).testBit j))) →
    (s.inReset d = false → ∃ t, exec (.bundleRetire r d e (1#8 <<< b.val)) s = .next t ∧ gone t) ∧
    (s.getF BRZ_STATUS_STATE (State.brz d e) 0 = 1 →
      (∃ t, exec (.bundleTrainingEnd d e b false) s = .next t ∧ gone t ∧
        ∀ x ∈ edgeEnds d e, (t.getF BRZ_STATUS_TRAIN_FAIL (State.brz x.1 x.2) 0).testBit b = true) ∧
      (∃ t, exec (.bundleTrainingEnd d e b true) s = .next t ∧ t = { s with regs := t.regs } ∧
        Kept (fun k => ∃ x ∈ edgeEnds d e, k = ⟨.BRZ_STATUS, State.brz x.1 x.2, 0⟩) s t ∧
        (∀ x ∈ edgeEnds d e, (t.getF BRZ_STATUS_ACTIVE (State.brz x.1 x.2) 0).testBit b = true ∧
          (t.getF BRZ_STATUS_TRAIN_FAIL (State.brz x.1 x.2) 0).testBit b = false) ∧
        ((∀ j < bundlesOf e, j ≠ b.val → s.bundleRetired d e j = true ∨
            (s.getF BRZ_STATUS_ACTIVE (State.brz d e) 0).testBit j = true) →
          ∀ x ∈ edgeEnds d e, t.getF BRZ_STATUS_STATE (State.brz x.1 x.2) 0 = 2) ∧
        (∀ j < bundlesOf e, j ≠ b.val → s.bundleRetired d e j = false →
          (s.getF BRZ_STATUS_ACTIVE (State.brz d e) 0).testBit j = false →
          t.getF BRZ_STATUS_STATE (State.brz d e) 0 = 1))) ∧
    (s.inReset d = false → ∃ t, exec (.brzCntClr r d e) s = .next t ∧
      OnlyRegs (fun k => k.inst = State.brz d e ∧ (k.name = .BRZ_CRC_ERR ∨ k.name = .BRZ_REPLAY)) s t ∧
      (∀ j < 8, t.getF BRZ_CRC_ERR_COUNT (State.brz d e) j = 0) ∧ t.getF BRZ_REPLAY_COUNT (State.brz d e) 0 = 0))

/-- R226, R227: RESET_N asserted, the loss of the root PLL and a DOMAIN_RST of the hub reset the package: every register
but those the pins, the bays, the flash counters, the nonce and the loss bits hold reads its reset value, every unit and
all memory is empty, and BOOT_RST_STATUS.CAUSE names the cause. What waits in the queue still waits.

R224, R226, R227: a local PLL's loss holds that domain in reset and brings it up again; the sequencer goes from the
root PLL to the local ones and on through the domains, releasing those it brings up, and ends with SEQ_DONE; a PLL that
does not lock stops it; a DOMAIN_RST is refused while graphs run, and else holds the named domains. -/
def Obligations.ResetsAndTheSequencer : Prop :=
  (∀ (s : State) (i : Instr) (c : Nat),
    (i = .resetNAssert ∧ c = 1 ∨ i = .rootPllLoss ∧ c = 2 ∨
      c = 3 ∧ s.domainRstAllowed = true ∧ ∃ (r : Requester) (m : BitVec 18), m.getLsbD 4 = true ∧ i = .domainRst r m) →
    ∃ t, exec i s = .next t ∧ t.getF BOOT_RST_STATUS_CAUSE 0 0 = c ∧ t.pending = s.pending ∧ t.mem = [] ∧ t.dram = [] ∧
      t.engines = [] ∧ t.cores = [] ∧ t.stackTab = [] ∧ t.ports = [] ∧ t.chans = [] ∧ t.time = 0 ∧
      (∀ k, k.name ∉ [.BOOT_CTR, .PWR_PINS, .PWR_IN, .THM_PLATE, .BOOT_CLK_STATUS, .BOOT_RST_STATUS, .DBG_NONCE0,
        .DBG_NONCE1, .LC_STATUS, .HIC_PEND] → t.getR k = k.reset) ∧
      t.getF BOOT_CLK_STATUS_LOST 0 0 = s.getF BOOT_CLK_STATUS_LOST 0 0 ∧
      (i = .rootPllLoss → t.flag BOOT_CLK_STATUS_ROOT_LOST 0 0 = true) ∧
      (i = .resetNAssert → t.flag PWR_PINS_RESET_N 0 0 = false)) ∧
  (∀ (s : State),
    (∀ i : Fin 18, i.val ≠ 4 → (s.getF BOOT_CLK_STATUS_LOCK 0 0).testBit i = true →
      ∃ t, exec (.localPllLoss i) s = .next t ∧ t.inReset i = true ∧ t.getF BOOT_RST_STATUS_PHASE 0 0 = 2 ∧
        (t.getF BOOT_CLK_STATUS_LOCK 0 0).testBit i = false ∧ (t.getF BOOT_CLK_STATUS_LOST 0 0).testBit i = true ∧
        t.boot.seqMask = s.boot.seqMask ||| 2 ^ i.val ∧ t.flag BOOT_RST_STATUS_SEQ_DONE 0 0 = false) ∧
    (s.sequencing = false → exec .seqPhaseEnd s = .next s ∧
      exec (.seqGo .bootRom) s = .next (s.latchEdges
        (({ s with boot := { s.boot with seqMask := 2 ^ 18 - 1 } } : State).setF BOOT_RST_STATUS_PHASE 0 0 1))) ∧
    (∀ r : Requester, r ≠ .bootRom →
      exec (.seqGo r) s = .next (s.latchEdges (s.refuseWrite (hubReg 1 8) (1#64 <<< 63)))) ∧
    (∀ p, s.sequencing = true → s.getF BOOT_RST_STATUS_PHASE 0 0 = p →
      (p = 1 → ∃ t, exec .seqPhaseEnd s = .next t ∧ t.time = 0 ∧ t.flag BOOT_CLK_STATUS_ROOT_LOCK 0 0 = true ∧
        t.getF BOOT_RST_STATUS_PHASE 0 0 = 2 ∧
        t.getF BOOT_CLK_STATUS_LOCK 0 0 = s.getF BOOT_CLK_STATUS_LOCK 0 0 ||| 16) ∧
      (p = 2 → s.boot.seqMask = 2 ^ 18 - 1 → ∃ t, exec .seqPhaseEnd s = .next t ∧ t.getF BOOT_RST_STATUS_PHASE 0 0 = 3 ∧
        t.getF BOOT_CLK_STATUS_LOCK 0 0 = 2 ^ 18 - 1 ∧ ∀ i < 5, (t.getF BOOT_RST_STATUS_IN_RESET 0 0).testBit i = false) ∧
      (p = 3 → s.boot.seqMask = 2 ^ 18 - 1 → ∃ t, exec .seqPhaseEnd s = .next t ∧ t.getF BOOT_RST_STATUS_PHASE 0 0 = 4 ∧
        ∀ i, 6 ≤ i → i < 18 → (t.getF BOOT_RST_STATUS_IN_RESET 0 0).testBit i = false) ∧
      (p = 5 → ∃ t, exec .seqPhaseEnd s = .next t ∧ t.getF BOOT_RST_STATUS_PHASE 0 0 = 6 ∧
        t.flag BOOT_RST_STATUS_SEQ_DONE 0 0 = true ∧ t.getF LL_STATUS_START_PHASE 0 0 = 1 ∧ t.boot.seqMask = 0 ∧
        ∀ i < 3, s.flag LC_STATUS_PRESENT 0 i = true → t.getF LC_STATUS_STATE 0 i = 1) ∧
      (p ≤ 2 → exec .seqPhaseTimeout s = .next (s.latchEdges
        ((s.setF BOOT_RST_STATUS_STOPPED 0 0 1).hubRecord 0x0706 sevFailed 1 p [p])))) ∧
    (∀ (r : Requester) (m : BitVec 18), m ≠ 0 →
      (s.domainRstAllowed = false → exec (.domainRst r m) s = .next (s.latchEdges
        ((s.setF BOOT_RST_STATUS_REFUSED 0 0 1).hubRecord 0x0707 sevInfo 1 0 [m.toNat]))) ∧
      (s.domainRstAllowed = true → m.getLsbD 4 = false →
        ∃ t, exec (.domainRst r m) s = .next t ∧ t.getF BOOT_RST_STATUS_PHASE 0 0 = 2 ∧
          t.boot.seqMask = s.boot.seqMask ||| m.toNat ∧
          ∀ i : Fin 18, m.getLsbD i = true → t.inReset i = true ∧ (i.val < 4 → t.engine i = {}) ∧
            (6 ≤ i.val → t.stack (i.val - 6) = {}))))

/-! ### The graph engine -/

/-- R111, R112: SUBMIT of an idle slot queues its graph, which validates at once where none validates or waits; RETIRE
returns a slot that is DONE, REJECTED or CANCELLED to IDLE; any other doorbell is dropped with record 0x0401. R113, R125:
the oldest queued graph validates next, and a validation ends RUNNING with every task of the range loaded, or REJECTED
with the first error. -/
def Obligations.GraphsEnterThroughValidation : Prop :=
  ∀ (s : State) (r : Requester) (d : Fin 4) (g : Fin 16) (start count : Nat) (e : Engine), e = s.engine d →
    s.inReset d = false →
    (s.flag GE_CTRL_EN d 0 = true → s.slotState d g = 0 →
      ∃ t, exec (.submit r d g start count) s = .next t ∧ t = { s with regs := t.regs, engines := t.engines } ∧
        (t.graph d g).start = start % 65536 ∧ (t.graph d g).count = count % 131072 ∧ (t.graph d g).tasks = [] ∧
        (e.validating = none → e.submitted = [] →
          t.slotState d g = 2 ∧ (t.engine d).validating = some g.val ∧ (t.engine d).submitted = []) ∧
        ((e.validating ≠ none ∨ e.submitted ≠ []) →
          t.slotState d g = 1 ∧ (t.engine d).validating = e.validating ∧
            (t.engine d).submitted = e.submitted ++ [g.val]) ∧
        (∀ k, k ≠ g.val → t.graph d k = s.graph d k) ∧ Kept (· = ⟨.GE_GRAPH_STATUS, d, g⟩) s t) ∧
    (s.flag GE_CTRL_EN d 0 = true → 4 ≤ s.slotState d g →
      ∃ t, exec (.retire r d g) s = .next t ∧ t = { s with regs := t.regs, engines := t.engines } ∧
        t.graph d g = {} ∧ t.getR ⟨.GE_GRAPH_STATUS, d, g⟩ = 0 ∧ (∀ k, k ≠ g.val → t.graph d k = s.graph d k) ∧
        Kept (· = ⟨.GE_GRAPH_STATUS, d, g⟩) s t) ∧
    (∀ u : State, u = s.dieRecord 0x0401 sevInfo d g [State.requesterCode r, g] →
      (s.slotState d g ≠ 0 ∨ s.flag GE_CTRL_EN d 0 = false →
        exec (.submit r d g start count) s = .next (s.latchEdges u)) ∧
      (s.slotState d g < 4 ∨ s.flag GE_CTRL_EN d 0 = false → exec (.retire r d g) s = .next (s.latchEdges u))) ∧
    (∀ k l, e.validating = none → e.submitted = k :: l →
      exec (.validationStart d) s = .next (s.latchEdges
        ((s.setEngine d { e with validating := some k, submitted := l }).setF GE_GRAPH_STATUS_STATE d k 2))) ∧
    (e.validating = some g.val →
      (∀ n code, s.graphError d g = some (n, code) →
        ∃ t, exec (.validationEnd d) s = .next t ∧ t.slotState d g = 5 ∧ t.engine d = { e with validating := none } ∧
          t.getF GE_GRAPH_STATUS_ERR_CODE d g = code % 256 ∧ t.getF GE_GRAPH_STATUS_ERR_TASK d g = n % 65536) ∧
      (s.graphError d g = none →
        ∃ t, exec (.validationEnd d) s = .next t ∧ t.slotState d g = 3 ∧ (t.engine d).validating = none ∧
          (t.graph d g).tasks.map (·.idx) = (s.readGraph d g).map (·.idx) ∧
          t.getF GE_GRAPH_STATUS_REMAINING d g = (s.readGraph d g).length % 131072))

/-- R127, R128: the engine dispatches to a core the first ready task in the order that the core may take, and an engine
task that is next; a task that asks for no leave starts at once. A halted engine dispatches nothing, and halts instead
before the task BREAK_EN names (R427). R116, R120: a task whose work is done completes, its successors count one
predecessor less, and its graph ends once no task is left. R132: one record for a task past its quantum. -/
def Obligations.TasksAreDispatchedAndComplete : Prop :=
  ∀ s : State,
    (∀ (d : Fin 4) (c : Fin 32) (n : TaskId) (x : Task) (p : Nat), s.mayDispatch d = true →
      (s.picks d).find? (fun y => y.1 = c.val) = some (c.val, n, x) → s.physOf d c = some p → x.status = .waiting →
      (s.breaksAt n = false → x.kind ≠ .fused →
        ∃ t y, exec (.taskDispatch d (.core c)) s = .next t ∧ t.task? n = some y ∧ y.status = .dispatched ∧
          y.core = some p ∧ y.dispatchedAt = s.time ∧ (y.leave = 0 → y.started = true)) ∧
      (s.breaksAt n = true → ∃ t, exec (.taskDispatch d (.core c)) s = .next t ∧
        t.flag DBG_GE_CTRL_HALT 0 d = true ∧ t.engines = s.engines)) ∧
    (∀ (d : Fin 4) (u : DispatchUnit), s.mayDispatch d = false → exec (.taskDispatch d u) s = .next s) ∧
    (∀ (d : Fin 4) (n : TaskId) (x : Task), n.d = d → s.mayDispatch d = true → s.nextEngine n = true →
      s.breaksAt n = false → s.task? n = some x → x.channel = none → x.kind ≠ .fused →
      ∃ t y, exec (.taskDispatch d (.engine n)) s = .next t ∧ t.task? n = some y ∧ y.status = .dispatched ∧
        y.dispatchedAt = s.time ∧ (y.leave = 0 → y.started = true)) ∧
    (∀ (n : TaskId) (x : Task), s.task? n = some x → n.d < 4 → n.g < 16 → x.status = .dispatched →
      x.started = true → x.fin = true → x.stopAtYield = false → s.writeWaits n = false →
      ∃ t, exec (.taskComplete n) s = .next t ∧ (t.task? n).any (fun y => y.status = .completed) = true ∧
        (s.slotState n.d n.g = 3 → t.remaining n.d n.g = 0 → t.slotState n.d n.g = 4 ∨ t.slotState n.d n.g = 6) ∧
        (∀ i y, s.digestOn = false → x.succ = [i] → i ≠ n.idx → s.task? ⟨n.d, n.g, i⟩ = some y →
          (t.task? ⟨n.d, n.g, i⟩).any (fun z => z.pred = y.pred - 1) = true)) ∧
    (∀ (n : TaskId) (x : Task), s.task? n = some x →
      (x.status = .dispatched → x.started = true → x.overrun = false → x.kind.isCore = true →
        exec (.quantumOverrun n) s = .next (s.latchEdges ((s.setTask n { x with overrun := true }).dieRecord 0x0404
          sevInfo n.d 0 [n.g, n.idx] x.epoch (recTask n x)))) ∧
      (x.overrun = true → exec (.quantumOverrun n) s = .next s))

/-- R121 to R123: an increment raises a token of the runtime's modulo 2^32, and the system's tokens take none; a WAIT ends
once its token has reached the threshold as a signed difference, and consumes it where it says so; a local SIGNAL raises
its token, and one with no route left is recorded. R116: a FENCE ends with the buffers of its stacks empty. -/
def Obligations.TokensWaitsAndFences : Prop :=
  ∀ (s : State) (n : TaskId) (x : Task),
    (∀ (d : Fin 4) (k : Fin 4096) (inc : BitVec 16), k.val < 4032 → s.waitsOn d k = [] →
      exec (.tokenIncrement d k inc) s =
        .next (s.latchEdges (s.setF GE_TOKEN_COUNT d k (s.getF GE_TOKEN_COUNT d k + inc.toNat)))) ∧
    (∀ (d : Fin 4) (k : Fin 4096) (inc : BitVec 16), 4032 ≤ k.val → exec (.tokenIncrement d k inc) s = .next s) ∧
    (s.running? n .wait = some x → s.waitsOn n.d x.waToken = [(n, x)] → ∀ w : BitVec 32,
      w = BitVec.ofNat 32 (s.getF GE_TOKEN_COUNT n.d x.waToken) - BitVec.ofNat 32 x.waThreshold →
      (0 ≤ w.toInt → x.waConsume = false → exec (.wait n) s = .next (s.latchEdges (s.setTask n { x with fin := true }))) ∧
      (0 ≤ w.toInt → x.waConsume = true → exec (.wait n) s = .next (s.latchEdges
        ((s.setTask n { x with fin := true }).setF GE_TOKEN_COUNT n.d x.waToken w.toNat))) ∧
      (w.toInt < 0 → exec (.wait n) s = .next s)) ∧
    (s.running? n .signal = some x →
      (x.sgLocal = true → x.sgToken < 4032 → s.waitsOn x.sgDie x.sgToken = [] →
        ∃ t, exec (.signal n) s = .next t ∧ (t.task? n).any (fun y => y.fin) = true ∧
          t.getF GE_TOKEN_COUNT x.sgDie x.sgToken = (s.getF GE_TOKEN_COUNT x.sgDie x.sgToken + x.sgInc) % 2 ^ 32 ∧
          t = { s with regs := t.regs, engines := t.engines }) ∧
      (x.sgLocal = false → s.placed = false →
        exec (.signal n) s = .next (s.latchEdges ((s.finish n).dieRecord 0x0406 sevDegraded n.d 0
          [x.sgX * 65536 + x.sgY * 256 + x.sgZ, x.sgDie, x.sgToken] x.epoch (recTask n x))))) ∧
    (s.running? n .fence = some x →
      ∃ t, exec (.fence n) s = .next t ∧ (t.task? n).any (fun y => y.fin) = true ∧
        (∀ ms < 12, x.feMask.testBit ms = true → (t.stack ms).wcb = []) ∧
        (∀ ms < 12, x.feMask.testBit ms = false → t.stack ms = s.stack ms))

/-- R130: CANCEL marks its region busy and a task of it that runs on nothing is cancelled at once, its successors with it;
the bit clears when no task of the region is live. R133, R135: at a yield point a task whose core has asked for preemption
stops and waits for the same core, any other runs on. -/
def Obligations.CancelsAndYieldPoints : Prop :=
  ∀ (s : State) (r : Requester) (d : Fin 4) (k : Fin 256) (sel : Task → Bool), (∀ x, sel x = decide (x.region = k.val)) →
    (s.inReset d = false →
      ∃ t, exec (.cancel r d k) s = .next t ∧ t.regionBusy d k = true ∧
        (∀ (n : TaskId) (x : Task) (i : Nat) (y : Task), s.liveTasks d sel = [n] → s.task? n = some x → n.d = d →
          x.live = true → State.runsOn x = false → x.succ = [i] → i ≠ n.idx → s.task? ⟨n.d, n.g, i⟩ = some y →
          y.live = true → State.runsOn y = false → y.succ = [] →
          (t.task? n).any (fun z => z.status = .cancelled) = true ∧
            (t.task? ⟨n.d, n.g, i⟩).any (fun z => z.status = .cancelled) = true)) ∧
    (s.inReset d = true → exec (.cancel r d k) s = .next (s.latchEdges (s.accessRecord 0x0102 r (dieReg d 0x18)))) ∧
    (s.regionBusy d k = true → s.liveTasks d sel = [] →
      exec (.regionCancelDone d k) s = .next (s.latchEdges (s.setRegionBusy d k false))) ∧
    (s.liveTasks d sel ≠ [] → exec (.regionCancelDone d k) s = .next s) ∧
    (∀ (n : TaskId) (x : Task), s.task? n = some x → x.status = .dispatched → x.started = true → x.fin = false →
      x.yields = true → x.stopAtYield = false →
      (s.preempted n x = false → exec (.yieldPoint n) s = .next s) ∧
      (∀ p, s.preempted n x = true → x.core = some p → (s.coreAt n.d p).chain = none →
        ∃ t, exec (.yieldPoint n) s = .next t ∧
          t.task? n = some { x with status := .waiting, started := false })) ∧
    (∀ mask : BitVec 32, s.inReset d = false →
      (∃ t, exec (.coreHold r d mask) s = .next t ∧
        t = { s with regs := t.regs, cores := t.cores, light := t.light } ∧
        t.getF GE_CORE_HOLD_HOLD d 0 = s.getF GE_CORE_HOLD_HOLD d 0 ||| mask.toNat) ∧
      (∃ t, exec (.coreRelease r d mask) s = .next t ∧ t = { s with regs := t.regs, engines := t.engines } ∧
        Kept (· = ⟨.GE_CORE_HOLD, d, 0⟩) s t ∧
        ∀ c < 32, (t.forgeHeld d c = (s.forgeHeld d c && !mask.getLsbD c)) ∧
          (mask.getLsbD c = true → (t.schedOf d c).failedHold = false) ∧
          (mask.getLsbD c = false → t.schedOf d c = s.schedOf d c)))

/-- R134 to R136, R367, R368: a test falls due, holds its core, is asked for by preemption after the grace, begins on the
idle core and ends: a pass vouches for the epoch it began in and gives the core back, a failure holds the core, sets the
trigger's bit and is recorded. A TEST task begins its test on the core it names. -/
def Obligations.FieldTestsHoldTheirCore : Prop :=
  ∀ (s : State) (d : Fin 4) (c : Fin 32) (x : Sched), x = s.schedOf d c →
    (∀ k, s.flag GE_CTRL_TEST_EN d 0 = true → x.due = none → x.running = none → s.coreStateOf d c ≠ 3 →
      s.structuralBusy d = false →
      ∃ t, exec (.testDue d c k) s = .next t ∧
        t.schedOf d c = { x with due := some k, hold := x.hold || decide (k = .structural) } ∧
        ∀ c' : Fin 32, c' ≠ c → t.schedOf d c' = s.schedOf d c') ∧
    (x.due = some .knownAnswer → x.hold = false → x.running = none →
      ∃ t, exec (.kaGapExpiry d c) s = .next t ∧ t.schedOf d c = { x with hold := true }) ∧
    (x.due ≠ none → x.running = none →
      exec (.graceExpiry d c) s = .next (s.latchEdges (s.setSched d c { x with preempt := true }))) ∧
    (∀ k p, x.due = some k → s.physOf d c = some p → x.running = none → x.failedHold = false → x.hold = true →
      s.arrayIdle d p = true → s.flag DBG_GE_CTRL_HALT 0 d = false → s.widthless d p = false →
      ∃ t, exec (.testStart d c) s = .next t ∧ t = { s with regs := t.regs, engines := t.engines } ∧
        t.schedOf d c = { x with due := none, hold := true, running := some k, preempt := false,
                                 startEpoch := x.topEpoch, byTask := none } ∧
        (k = .knownAnswer → t.flag CORE_ARRAY_STATUS_KA_BUSY (d.val * 34 + p) 0 = true)) ∧
    (∀ (p : Fin 34) (k : TestKind) (o : TestOutcome), s.logicalOf d p = some c.val → x.running = some k →
      x.byTask = none → x.due = none →
      (State.outcomeBad k o = false →
        ∃ t, exec (.testEnd d p o) s = .next t ∧ (t.schedOf d c).running = none ∧
          (t.schedOf d c).failedHold = x.failedHold ∧
          (k = .knownAnswer → t.getF GE_TEST_LAST_KA_EPOCH d c = x.startEpoch % 2 ^ 32 ∧
            t.flag CORE_ARRAY_STATUS_KA_BUSY (d.val * 34 + p) 0 = false) ∧
          (k = .structural → t.getF GE_TEST_LAST_ST_EPOCH d c = x.startEpoch % 2 ^ 32)) ∧
      (State.outcomeBad k o = true →
        ∃ t, exec (.testEnd d p o) s = .next t ∧ (t.schedOf d c).running = none ∧
          (t.schedOf d c).failedHold = true ∧ t.flag HIC_TRIG_STATUS_TEST 0 0 = true ∧
          (k = .knownAnswer → t.getR ⟨.CORE_ARRAY_KAFAIL_LO, d.val * 34 + p, 0⟩ =
            s.getR ⟨.CORE_ARRAY_KAFAIL_LO, d.val * 34 + p, 0⟩ ||| o.failLo))) ∧
    (∀ (n : TaskId) (y : Task) (k : TestKind) (p : Nat), n.d = d → s.task? n = some y → y.kind = .test →
      y.teStructural = decide (k = .structural) → (List.range 32).find? y.elig.testBit = some c.val →
      s.physOf d c = some p → s.widthless d p = false → y.status = .dispatched → y.started = true → y.fin = false →
      x.running = none → ∀ i, i = (if k = .structural then Instr.testStructural n else .testKnownAnswer n) →
      ∃ t, exec i s = .next t ∧ (t.schedOf d c).running = some k ∧ (t.schedOf d c).byTask = some n ∧
        (t.schedOf d c).startEpoch = x.topEpoch)

/-- R83, R86: a step boundary that is due snapshots the live bank of its epoch's parity: the snapshot bank takes its words
under that epoch, SEQ counts, READY is set; SNAP_NOW takes the older bank and marks it FORCED; CLR_ALL clears both live
banks, the snapshot and its flags. -/
def Obligations.RangeStatisticsAreSnapshotPerStep : Prop :=
  ∀ (s : State) (d : Fin 4) (r : Requester), Tab.wf RegKey.lt RegKey.reset s.regs = true → s.inReset d = false →
    (∀ (p : Nat) (ep : Nat) (forced : Bool) (i : Instr), p < 2 →
      ((∃ e : BitVec 32, i = .stepBoundary d e ∧ s.boundaryDue d e.toNat = true ∧ p = e.toNat % 2 ∧ ep = e.toNat ∧
          forced = false) ∨
        (i = .snapNow r d ∧ forced = true ∧ s.flag (bankNonempty p) d 0 = true ∧ ep = s.getF (bankTag p) d 0 ∧
          s.flag (bankNonempty (1 - p)) d 0 = false)) →
      ∃ t, exec i s = .next t ∧ (∀ k, t.getR ⟨.GE_RSTAT_SLOT_SNAP, d, k⟩ = s.getR ⟨liveBank p, d, k⟩) ∧
        (∀ k, t.getR ⟨liveBank p, d, k⟩ = RegKey.reset ⟨liveBank p, d, k⟩) ∧
        (∀ k, t.getR ⟨liveBank (1 - p), d, k⟩ = s.getR ⟨liveBank (1 - p), d, k⟩) ∧
        t.getF GE_RSTAT_SNAP_EPOCH d 0 = ep ∧ t.flag GE_RSTAT_SNAP_READY d 0 = true ∧
        t.getF GE_RSTAT_SNAP_SEQ d 0 = (s.getF GE_RSTAT_SNAP_SEQ d 0 + 1) % 65536 ∧
        t.flag GE_RSTAT_SNAP_FORCED d 0 = forced ∧
        (s.flag GE_RSTAT_SNAP_READY d 0 = true → t.flag GE_RSTAT_SNAP_OVERRUN d 0 = true) ∧
        t.mem = s.mem ∧ t.dram = s.dram ∧ t.cores = s.cores) ∧
    (∃ t, exec (.clrAll r d) s = .next t ∧ t = { s with regs := t.regs } ∧
      (∀ k, ∀ n ∈ [RegName.GE_RSTAT_SLOT_SNAP, .GE_RSTAT_SLOT_LIVE0, .GE_RSTAT_SLOT_LIVE1],
        t.getR ⟨n, d, k⟩ = RegKey.reset ⟨n, d, k⟩) ∧
      (∀ p < 2, t.flag (bankNonempty p) d 0 = false) ∧ t.flag GE_RSTAT_SNAP_READY d 0 = false ∧
      t.flag GE_RSTAT_SNAP_MIXED d 0 = false ∧ t.flag GE_RSTAT_SNAP_OVERRUN d 0 = false)

/-! ### The matrix array, accumulators and fetch engines -/

/-- R45 to R47, R52, R109, R159: an APPLY on an idle array puts the written mask in force, its width shown, and retires the
core with more than 16 columns out; on a busy one it sets APPLY_ERR alone. RETIRE takes every width to 0; KA_START begins a
check on an idle core and is ignored on a busy one; the CNT_CLR bits clear their unit's counters and nothing else. A core
of a domain in reset takes none of them (R225).

R108: outside debug mode a read of ACC_DBG_DATA answers zero with record 0x0303; in it, the two entries at ENTRY (each
that holds an element of a bound tile), with the state of the tile that covers them. It changes no entry. -/
def Obligations.ArraysAndDebugReads : Prop :=
  (∀ (s : State) (r : Requester) (d : Fin 4) (c : Fin 34) (k : Nat) (m : BitVec 128), k = d.val * 34 + c.val →
    m = s.maskRegs d c →
    (s.inReset d = false →
      (s.arrayIdle d c = false →
        exec (.apply r d c) s = .next (s.latchEdges (s.setF CORE_ARRAY_STATUS_APPLY_ERR k 0 1)) ∧
        exec (.kaStart r d c) s = .next s) ∧
      (s.arrayIdle d c = true →
        exec (.kaStart r d c) s = .next (s.latchEdges (s.setF CORE_ARRAY_STATUS_KA_BUSY k 0 1))) ∧
      (s.arrayIdle d c = true → s.flag CORE_ARRAY_STATUS_RETIRED k 0 = false → s.logicalOf d c ≠ none →
        ∃ t, exec (.apply r d c) s = .next t ∧ (t.coreAt d c).mask = m ∧
          t.getF CORE_ARRAY_STATUS_BYPASS_COUNT k 0 = popMask m ∧
          (popMask m ≤ 16 → t.getR ⟨.CORE_ARRAY_WIDTH, k, 0⟩ = widthWord (128 - popMask m) ∧
            t.flag CORE_ARRAY_STATUS_RETIRED k 0 = false) ∧
          (16 < popMask m → t.getR ⟨.CORE_ARRAY_WIDTH, k, 0⟩ = 0 ∧ t.flag CORE_ARRAY_STATUS_RETIRED k 0 = true)) ∧
      (s.flag CORE_ARRAY_STATUS_RETIRED k 0 = false →
        ∃ t, exec (.coreArrayRetire r d c) s = .next t ∧ t.getR ⟨.CORE_ARRAY_WIDTH, k, 0⟩ = 0 ∧
          t.flag CORE_ARRAY_STATUS_RETIRED k 0 = true ∧ t.cores = s.cores) ∧
      (∃ t, exec (.arrayCntClr r d c) s = .next t ∧
        OnlyRegs (fun x => x.name ∈ State.arrayCounters ∧ x.inst = k ∧ x.idx = 0) s t ∧
        ∀ n ∈ State.arrayCounters, t.getR ⟨n, k, 0⟩ = 0) ∧
      exec (.accCntClr r d c) s = .next (s.latchEdges
        (((s.setF ACC_STATUS_ECC_CORR k 0 0).putR ⟨.OUT_CYC_BUSY, k, 0⟩ 0).putR ⟨.OUT_CYC_STALL, k, 0⟩ 0)) ∧
      (∃ t, exec (.feCntClr r d c) s = .next t ∧
        OnlyRegs (fun x => x.inst = k ∧ x.name ∈ [.FE_RD_BYTES, .FE_RD_REQ, .FE_RD_DISCARD, .FE_CYC_ENTRIES_FULL,
          .FE_CYC_SPACE, .FE_STG_FULL, .FE_STG_EMPTY]) s t ∧
        t.getR ⟨.FE_RD_BYTES, k, 0⟩ = 0 ∧ t.getR ⟨.FE_RD_REQ, k, 0⟩ = 0 ∧ t.getR ⟨.FE_RD_DISCARD, k, 0⟩ = 0 ∧
        ∀ j < 8, t.getR ⟨.FE_STG_FULL, k, j⟩ = 0 ∧ t.getR ⟨.FE_STG_EMPTY, k, j⟩ = 0)) ∧
    (s.inReset d = true → exec (.apply r d c) s = .next (s.latchEdges (s.accessRecord 0x0102 r (coreReg d c 0x2008))))) ∧
  (∀ (s : State) (r : Requester) (d : Fin 4) (c : Fin 34) (fixed err : Bool) (e : Nat), s.inReset d = false →
    e = s.getF ACC_DBG_ADDR_ENTRY (d.val * 34 + c) 0 →
    (s.flag DBG_STATUS_DEBUG_MODE 0 0 = false → ∃ t, exec (.accDbgRead r d c fixed err) s = .next t ∧ t.readData = 0 ∧
      t.cores = s.cores ∧ t.elog.seq = (s.elog.seq + 1) % 2 ^ 32) ∧
    (s.flag DBG_STATUS_DEBUG_MODE 0 0 = true → ∃ t, exec (.accDbgRead r d c fixed err) s = .next t ∧
      t = { s with fresh := t.fresh, regs := t.regs, readData := t.readData } ∧
      Kept (· = ⟨.ACC_DBG_FLAGS, d.val * 34 + c, 0⟩) s t ∧
      (s.entryDefined d c e = true → t.readData.toNat % 2 ^ 32 = (s.accAt d c e).toNat) ∧
      (s.entryDefined d c ((e + 1) % 131072) = true →
        t.readData.toNat / 2 ^ 32 = (s.accAt d c ((e + 1) % 131072)).toNat) ∧
      t.flag ACC_DBG_FLAGS_ECC_FIXED (d.val * 34 + c) 0 = fixed ∧ t.flag ACC_DBG_FLAGS_ECC_ERR (d.val * 34 + c) 0 = err ∧
      t.flag ACC_DBG_FLAGS_BOUND (d.val * 34 + c) 0 = (s.covering d c e).isSome))

/-- R33, R36, R38, R40, R94, R117: a shadow load takes the tile of the loader's next MATMUL, the swap makes it active, and
the tokens of the MATMUL then enter the foot in ascending order, each counted in flight on its tile; a MATMUL of rows all
masked adds nothing and is done. Nothing but registers, cores and the task changes.

R92 to R94: the hand-over of the token that entered first writes or adds its sums to its row of the tile, element by
element and for a pair by the compensated add, and counts one less in flight; a discarded one changes no entry. Every
other entry and core keeps its contents. -/
def Obligations.TilesPassAndAccumulate : Prop :=
  (∀ (s : State) (d : Fin 4) (p : Fin 34) (n : TaskId) (x : Task) (c : CoreSt), c = s.coreAt d p → n.d = d →
    (s.task? n = some x → x.core = some p.val → c.shadow.valid = false → (s.loadNext d p).any (fun y => y.1 = n) = true →
      s.mayFetch n x = true → s.fetched d p n x = true →
      ∃ t, exec (.shadowLoad n) s = .next t ∧ t = { s with regs := t.regs, cores := t.cores } ∧
        (t.coreAt d p).shadow = s.loadTile d p n x ∧ (t.coreAt d p).active = c.active ∧ (t.coreAt d p).acc = c.acc ∧
        t.flag CORE_ARRAY_STATUS_SHADOW_VALID (d.val * 34 + p) 0 = true) ∧
    (c.shadow.valid = true → s.activeBusy d p = false →
      ∃ t, exec (.tileSwap d p) s = .next t ∧ t = { s with regs := t.regs, cores := t.cores } ∧
        t.coreAt d p = { c with active := c.shadow, shadow := {} } ∧
        t.flag CORE_ARRAY_STATUS_SHADOW_VALID (d.val * 34 + p) 0 = false ∧
        t.getF CORE_ARRAY_TILES_COUNT (d.val * 34 + p) 0 =
          min (s.getF CORE_ARRAY_TILES_COUNT (d.val * 34 + p) 0 + 1) (2 ^ 64 - 1)) ∧
    (c.shadow.valid = false → exec (.tileSwap d p) s = .next s) ∧
    (s.running? n .matmul = some x → x.core = some p.val →
      (x.allMasked = true → x.mmAdd = true → exec (.matmul n) s = .next (s.latchEdges (s.finish n))) ∧
      (x.allMasked = false → x.mask = [] → State.serves c.active x = true → c.active.owner = some n →
        s.fetched d p n x = true →
        ∃ t, exec (.matmul n) s = .next t ∧
          t = { s with regs := t.regs, cores := t.cores, engines := t.engines } ∧
          (t.coreAt d p).foot = c.foot ++
            (List.range x.mmM).map (fun m => (s.passToken d p n x c.active x.mmTile m).1) ∧
          (t.coreAt d p).acc = c.acc ∧ (t.task? n).any (fun y => y.fin) = true ∧
          (t.coreAt d p).tiles = c.tiles.map fun b =>
            if b.g = n.g ∧ b.tile = x.mmTile then { b with inflight := b.inflight + x.mmM } else b))) ∧
  (∀ (s : State) (d : Fin 4) (p : Fin 34) (c : CoreSt) (h : Hand) (rest : List Hand) (b : Bound), c = s.coreAt d p →
    c.foot = h :: rest → c.tiles = [b] → b.g = h.task.g → b.tile = h.tile → b.releasing = false →
    ∃ t, exec (.handOver d p []) s = .next t ∧ t = { s with cores := t.cores } ∧ (t.coreAt d p).foot = rest ∧
      (t.coreAt d p).tiles = [{ b with inflight := b.inflight - 1 }] ∧
      (∀ q, q ≠ p.val → t.coreAt d q = s.coreAt d q) ∧
      (h.discard = true → (t.coreAt d p).acc = c.acc) ∧
      (h.discard = false → b.pair = false →
        (∀ n < b.n, t.accAt d p (b.entry h.m n) =
          if h.add then fadd (s.accAt d p (b.entry h.m n)) (h.sums.getD n 0) else h.sums.getD n 0) ∧
        (∀ i, (∀ n < b.n, i ≠ b.entry h.m n) → t.accAt d p i = s.accAt d p i)) ∧
      (h.discard = false → b.pair = true → ∀ n < b.n,
        (h.add = false → t.accAt d p (b.entry h.m n) = 0 ∧ t.accAt d p (b.entry h.m n + 1) = h.sums.getD n 0) ∧
        (h.add = true → ∀ y, y = pairAdd (s.accAt d p (b.entry h.m n + 1)) (s.accAt d p (b.entry h.m n)) (h.sums.getD n 0) →
          t.accAt d p (b.entry h.m n + 1) = y.1 ∧ t.accAt d p (b.entry h.m n) = y.2)))

/-- R95, R97, R98, R100 to R104: the port goes to its next task once no sum of its tile is in flight; a DRAIN then writes
each element after its stages, converted, to its place (shown for one FP32 element, in either mode); a SPILL writes the
tile's spill pairs row-major, and a RESUME reads them back. None of them changes a tile it reads. -/
def Obligations.PortTasksMoveTiles : Prop :=
  ∀ (s : State) (n : TaskId) (x : Task) (p : Nat) (b : Bound),
    (∀ (d : Fin 4) (q : Fin 34) (l : List TaskId) (y : Bound), n.d = d → p = q → (s.coreAt d p).port = n :: l →
      s.task? n = some x → x.tileOf = some b → y ∈ (s.coreAt d p).tiles → y.g = n.g → y.tile = b.tile →
      y.inflight = 0 → x.status = .dispatched → x.started = true → x.fin = false →
      exec (.accPortStart d q) s =
        .next (s.latchEdges (s.setCoreAt d p { s.coreAt d p with portGo := true }))) ∧
    (∀ (deriv : Bool) (i : Instr) (v : F32), s.onPort n .drain = some (x, p, b) → x.drDeriv = deriv →
      s.fetched n.d p n x = true → i = (if deriv then Instr.drainDerivative n [] else .drainForward n []) →
      x.extFlag = deriv → x.drSec = 0 → x.drFmt = 4 → x.drM = 1 → x.drN = 1 → b.m = 1 → b.n = 1 →
      x.drRows = 1 → x.drCols = 1 → x.drRow0 = 0 → x.drCol0 = 0 →
      v = (if deriv then s.gradValue n.d p n x b [] 0 0 else s.postValue n.d p n x b [] 0 0) →
      x.drDst % 64 = 0 → State.isPoolAddr x.drDst = true → s.mapped x.drDst = true →
      ∃ t, exec i s = .next t ∧ (t.task? n).any (fun y => y.fin) = true ∧ t.cores = s.cores ∧
        t.readBytesAt x.drDst 4 = toLe 4 (fp32.convert (Rounding.ofCode x.drRnd)
          (noise (s.getR ⟨.GE_NOISE_SEED, n.d, 0⟩) x.epoch x.tensor 0) (f32Val v)).1 ∧
        ∀ a, (a < x.drDst ∨ x.drDst + 4 ≤ a) → State.isPoolAddr a = true → t.readByte a = s.readByte a) ∧
    (s.onPort n .spill = some (x, p, b) → x.spBuf % 64 = 0 →
      (∀ i < 8 * b.m * b.n, State.isScratchAddr (x.spBuf + i) = true ∧ s.mapped (x.spBuf + i) = true) →
      ∃ t, exec (.spill n []) s = .next t ∧ (t.task? n).any (fun y => y.fin) = true ∧ t.cores = s.cores ∧
        t.readBytesAt x.spBuf (8 * b.m * b.n) =
          (List.range b.m).flatMap fun m => (List.range b.n).flatMap fun k => s.spillPair n.d p b [] m k) ∧
    (s.onPort n .resume = some (x, p, b) →
      ∃ t, exec (.resume n) s = .next t ∧ t = { s with cores := t.cores, engines := t.engines } ∧
        (t.task? n).any (fun y => y.fin) = true ∧
        ∀ k < b.m * b.n, ∀ lo hi : Nat, s.operandNat n.d p n (x.spBuf + 8 * k) 4 = (lo, false) →
          s.operandNat n.d p n (x.spBuf + 8 * k + 4) 4 = (hi, false) →
          (b.pair = true → t.accAt n.d p (b.base * 1024 + 2 * k) = BitVec.ofNat 32 lo ∧
            t.accAt n.d p (b.base * 1024 + 2 * k + 1) = BitVec.ofNat 32 hi) ∧
          (b.pair = false → t.accAt n.d p (b.base * 1024 + k) = fadd (BitVec.ofNat 32 hi) (BitVec.ofNat 32 lo)))

/-- R143, R147, R148: a fetch engine issues the next request of the first queued task that may read, one entry and its
bytes counted; its return stages the bytes, or, of a task that has gone, counts them as discarded.

R150 to R158: a VECTOR task runs its program and is done, its results free values; an item of a chain's stage moves the
stage's counters by one and a stage that may not take one waits; a chain of one stage and one item ends with it; and the
end of a stall run adds its cycles to the counter it names. -/
def Obligations.FetchesVectorsAndChains : Prop :=
  (∀ (s : State) (d : Fin 4) (p : Fin 34) (c : CoreSt) (k : Nat), c = s.coreAt d p → k = d.val * 34 + p →
    (∀ (n : TaskId) (x : Task) (r : Reservation) (ls : List Nat), c.runAhead = [n] → s.task? n = some x → c.resv = [r] →
      r.task = n → r.todo ≠ [] → s.mayFetch n x = true →
      ls = requestLines (s.flag FE_CFG_MERGE_EN k 0) r.todo →
      s.entriesUsed d p + (64 * ls.length + 255) / 256 ≤ 384 →
      ∃ t, exec (.fetchReadIssue d p) s = .next t ∧ t = { s with regs := t.regs, cores := t.cores } ∧
        t.getF FE_RD_REQ_COUNT k 0 = min (s.getF FE_RD_REQ_COUNT k 0 + 1) (2 ^ 64 - 1) ∧
        t.getF FE_RD_BYTES_COUNT k 0 = min (s.getF FE_RD_BYTES_COUNT k 0 + 64 * ls.length) (2 ^ 64 - 1) ∧
        (t.coreAt d p).resv = [{ r with todo := r.todo.drop ls.length }] ∧
        (t.coreAt d p).entries.map (fun e => (e.task, e.addr, e.len)) =
          c.entries.map (fun e => (e.task, e.addr, e.len)) ++ [(n, 64 * ls.headD 0, 64 * ls.length)]) ∧
    (∀ (e : FetchEntry) (i : Fin 384), c.entries[i.val]? = some e →
      (∀ r : Reservation, e.discard = false → e.len = 64 → s.anyBad e.addr 64 = false → c.resv = [r] → r.task = e.task →
        ∃ t, exec (.fetchReadReturn d p i []) s = .next t ∧ t = { s with cores := t.cores, mons := t.mons } ∧
          (t.coreAt d p).entries = c.entries.eraseIdx i ∧
          ∃ r', (t.coreAt d p).resv = [r'] ∧
            ∀ j < 64, Tab.getN none r'.have_ (e.addr + j) = some (s.readByte (e.addr + j), false)) ∧
      (e.discard = true → e.len = 64 → s.anyBad e.addr 64 = false →
        ∃ t, exec (.fetchReadReturn d p i []) s = .next t ∧ (t.coreAt d p).entries = c.entries.eraseIdx i ∧
          t.getF FE_RD_DISCARD_COUNT k 0 = min (s.getF FE_RD_DISCARD_COUNT k 0 + 64) (2 ^ 64 - 1)))) ∧
  (∀ (s : State) (n : TaskId) (x : Task) (p : Nat),
    (s.running? n .vector = some x → x.core = some p →
      ∃ t, exec (.vector n) s = .next t ∧ (t.task? n).any (fun y => y.fin) = true ∧ t.cores = s.cores ∧
        s.fresh < t.fresh) ∧
    (∀ (y : Chain), s.running? n .fused = some x → x.core = some p → (s.coreAt n.d p).chain = some y → y.task = n →
      (∀ j : Fin 8, State.stageMay y (x.fuStages - 1) j = false → exec (.stageItem n j) s = .next s) ∧
      (∀ j : Fin 8, State.stageMay y (x.fuStages - 1) j = true → (s.stageTask n.d x j).kind = .vector →
        ∃ t, exec (.stageItem n j) s = .next t ∧ (t.coreAt n.d p).chain = some (State.stageDone y j)) ∧
      (∀ z : StageRt, y.stages = [z] → z.done = 0 → y.items = 1 → y.draining = false → x.fuStages = 1 → x.fuItems = 1 →
        (s.stageTask n.d x 0).kind = .vector →
        ∃ t, exec (.fused n) s = .next t ∧ (t.task? n).any (fun y => y.fin) = true) ∧
      (∀ (j : Fin 8) (cy : Nat) (z : StageRt), y.stages[j.val]? = some z → z.done < y.items →
        (∃ m : Tab Nat MonSt, exec (.stageStallEnd n j true cy) s = .next (s.latchEdges
          ({ s with mons := m }.addF FE_STG_FULL_COUNT (n.d * 34 + p) j cy))) ∧
        ∃ m : Tab Nat MonSt, exec (.stageStallEnd n j false cy) s = .next (s.latchEdges
          ({ s with mons := m }.addF FE_STG_EMPTY_COUNT (n.d * 34 + p) j cy)))))

/-! ### Crucible stacks and COPY -/

/-- R180, R181, R187, R188, R221: a read of a stack answers the line as every reader sees it with the poison of its bytes,
and zeros with a record where nothing is mapped; a write into a plain region is seen at once and changes no other byte; a
line written back leaves the buffer for DRAM; FLUSH empties the buffer; a scrub counts what its granule's ECC finds. -/
def Obligations.StacksReadAndWrite : Prop :=
  ∀ (s : State) (r : Requester) (ms : Fin 12),
    (∀ a e, a % 64 = 0 → s.findRegion a = some e → s.mapped a = true → s.unreachable (s.locate e a).stack = false →
      exec (.stackRead r a .clean .clean) s = .next
        { s with readBytes := s.readBytesAt a 64, readPoison := (List.range 64).map fun i => s.readBad (a + i) }) ∧
    (∀ a, a % 64 = 0 → s.findRegion a = none → exec (.stackRead r a .clean .clean) s = .next (s.latchEdges
      { s.accessRecord 0x0102 r a with
        readBytes := List.replicate 64 0, readPoison := List.replicate 64 false })) ∧
    (∀ (w : WriteReq) (e : Nat), w.data ≠ [] → w.addr % 64 + w.data.length ≤ 64 → w.poison = [] → s.findRegion w.addr = some e →
      (∀ i < w.data.length, s.findRegion (w.addr + i) = some e ∧ s.mapped (w.addr + i) = true) →
      (s.region e).comp = 0 → (s.region e).ver = false → State.isStackAddr (w.addr + 64) = true →
      s.unreachable (s.locate e w.addr).stack = false →
      (s.stack (s.locate e w.addr).stack).wcb.length < 256 →
      (∀ i < 64, (s.locate e (w.addr / 64 * 64 + i)).stack = (s.locate e w.addr).stack) →
      ∃ t, exec (.stackWrite w) s = .next t ∧ t = { s with stackTab := t.stackTab } ∧
        (∀ i < w.data.length, t.readByte (w.addr + i) = w.data.getD i 0) ∧
        (∀ a, (a < w.addr ∨ w.addr + w.data.length ≤ a) → t.readByte a = s.readByte a)) ∧
    (∀ l rest, (s.stack ms).wcb = l :: rest →
      ∃ t, exec (.wcbLineWriteback ms) s = .next t ∧
        t = { s with dram := t.dram, granPoison := t.granPoison, stackTab := t.stackTab } ∧
        (t.stack ms).wcb = (l :: rest).filter (fun x => decide (x.line ≠ l.line)) ∧
        (∀ o b ep e, l.bytes = [(o, some (b, ep))] → s.findRegion (l.line * 64 + o) = some e →
          t.dramByte (s.locate e (l.line * 64 + o)) = b)) ∧
    ((s.stack ms).wcb = [] → exec (.wcbLineWriteback ms) s = .next s) ∧
    (s.inReset (6 + ms) = false →
      (∃ t, exec (.flush r ms) s = .next t ∧
        t = { s with dram := t.dram, granPoison := t.granPoison, stackTab := t.stackTab } ∧ (t.stack ms).wcb = [] ∧
        ∀ m, m ≠ ms.val → t.stack m = s.stack m) ∧
      exec (.cruCntClr r ms) s = .next (s.latchEdges
        (((s.setF CRU_ECC_CORR ms 0 0).setF CRU_ECC_UNCORR ms 0 0).setF CRU_STATUS_COMP_LOST ms 0 0))) ∧
    (∀ (ch : Fin 32) (g : Fin 524288) (n : Fin 128),
      (exec (.scrub ms ch g n .clean) s = .next s) ∧
      (s.flag CRU_CTRL_SCRUB_EN ms 0 = false → ∀ e, exec (.scrub ms ch g n e) s = .next s) ∧
      (s.flag CRU_CTRL_SCRUB_EN ms 0 = true →
        (∃ t, exec (.scrub ms ch g n .corrected) s = .next t ∧
          t.getF CRU_ECC_CORR ms 0 = min (s.getF CRU_ECC_CORR ms 0 + 1) (2 ^ 32 - 1) ∧ t.flag CRU_ECC_LAST_VALID ms 0 = true) ∧
        (∃ t, exec (.scrub ms ch g n .uncorrectable) s = .next t ∧
          t.getF CRU_ECC_UNCORR ms 0 = min (s.getF CRU_ECC_UNCORR ms 0 + 1) 65535 ∧
          t.granBad (granPlace ms ch g n) = true))) ∧
    (∀ (ch : Fin 32) (b : Fin 64), exec (.refresh ms ch b) s =
      .next (s.setStack ms { s.stack ms with refreshed := (s.stack ms).refreshed + 1 }))

/-- R186: a publication is refused while a graph runs or an entry breaks a rule, the code and the entry shown; else the
draft is on its way, and reaches every stack when it is done. R211: a temperature moves the stack's state at the thresholds
of R211, and 105 °C quenches the owning die. R212: a margining run starts where the profile or service allows it, and
reports its errors. -/
def Obligations.RegionTablesTemperatureMargining : Prop :=
  ∀ (s : State) (r : Requester) (ms : Fin 12),
    (s.inReset 6 = false → s.flag CRU_STATUS_RT_PENDING 0 0 = false →
      (s.anyRunning = true → ∃ u, OnlyRegs (· = ⟨.CRU_STATUS, 0, 0⟩) s u ∧ u.getF CRU_STATUS_RT_ERR 0 0 = 6 ∧
        exec (.rtPublish r) s = .next (s.latchEdges (u.refuseWrite (stackReg 0 0 0) (s.getR ⟨.CRU_CTRL, 0, 0⟩ ||| 1#64)))) ∧
      (∀ l, l = (List.range 64).map (fun e => Region.of (s.draftEntry e).1 (s.draftEntry e).2) → s.anyRunning = false →
        (∀ e < 64, s.entryCode l e (l.getD e (Region.of 0 0)) = 0) →
        ∃ t d, exec (.rtPublish r) s = .next t ∧ t = { s with regs := t.regs, publishing := some d } ∧
          (∀ e < 64, Tab.getN (0, 0) d e = s.draftEntry e) ∧ Kept (· = ⟨.CRU_STATUS, 0, 0⟩) s t ∧
          t.flag CRU_STATUS_RT_PENDING 0 0 = true ∧ t.getF CRU_STATUS_RT_ERR 0 0 = 0)) ∧
    (∀ d, s.publishing = some d → ∃ t, exec .rtPublishDone s = .next t ∧
      t = { s with regs := t.regs, published := d, publishing := none } ∧ t.flag CRU_STATUS_RT_PENDING 0 0 = false ∧
      (∀ m < 12, t.flag CRU_STATUS_RT_VALID m 0 = true) ∧ Kept (·.name = .CRU_STATUS) s t) ∧
    (∀ (v : BitVec 16) (old : Nat), old = s.getF CRU_THERM_STATE ms 0 →
      ∃ t, exec (.stackThermalChange ms v) s = .next t ∧ t.getF CRU_THERM_TEMP ms 0 = v.toNat ∧
        t.getF CRU_THERM_STATE ms 0 = State.thermState old v.toInt ∧
        (∀ m, m ≠ ms.val → t.getR ⟨.CRU_THERM, m, 0⟩ = s.getR ⟨.CRU_THERM, m, 0⟩) ∧
        (old < 2 → 1520 ≤ v.toInt → v.toInt < 1680 →
          t.getF PWR_LV_STATUS_BUDGET (ms.val / 3) 0 = s.granted (ms.val / 3)) ∧
        (old < 3 → 1680 ≤ v.toInt → t.flag THM_STATUS_QUENCHED (ms.val / 3) 0 = true ∧
          t.flag THM_STATUS_C_STACK (ms.val / 3) 0 = true) ∧
        (State.thermState old v.toInt < 3 →
          ∀ d, t.getR ⟨.THM_STATUS, d, 0⟩ = s.getR ⟨.THM_STATUS, d, 0⟩)) ∧
    (∀ v : Word, s.inReset (6 + ms) = false →
      (s.mayMargin = false ∨ s.marginEdgeWorn ms v = true →
        exec (.go r ms v) s = .next (s.latchEdges (s.stackRecord 0x060C sevInfo ms 4 0 [v.toNat]))) ∧
      (s.mayMargin = true → s.marginEdgeWorn ms v = false → (s.stack ms).margining = none →
        ∃ t, exec (.go r ms v) s = .next t ∧ t = { s with regs := t.regs, stackTab := t.stackTab } ∧
          t.stack ms = { s.stack ms with margining := some (v.bits 62 48) } ∧
          t.flag CRU_MARGIN_RESULT_DONE ms 0 = false ∧
          Kept (fun k => k = ⟨.CRU_MARGIN_CTRL, ms, 0⟩ ∨ k = ⟨.CRU_MARGIN_RESULT, ms, 0⟩ ∨
            v.bit 62 = true ∧ k = ⟨.BRZ_STATUS, State.brz (ms.val / 3) (3 + ms.val % 3), 0⟩) s t ∧
          (v.bit 62 = true → v.bits 55 48 < 8 → s.getF BRZ_STATUS_STATE (State.brz (ms.val / 3) (3 + ms.val % 3)) 0 = 2 →
            s.bundleRetired (ms.val / 3) (3 + ms.val % 3) (v.bits 55 48) = false →
            (t.getF BRZ_STATUS_MARGIN (State.brz (ms.val / 3) (3 + ms.val % 3)) 0).testBit (v.bits 55 48) = true ∧
            (t.getF BRZ_STATUS_ACTIVE (State.brz (ms.val / 3) (3 + ms.val % 3)) 0).testBit (v.bits 55 48) = false))) ∧
    (∀ (n : BitVec 48) (m : Nat) (u : State), (s.stack ms).margining = some m →
      u = s.setStack ms { s.stack ms with margining := none } →
      exec (.marginDone ms n) s = .next (s.latchEdges
        (((if m.testBit 14 then u.marginBundle ms (m % 256) false else u).setF CRU_MARGIN_RESULT_ERRORS ms 0 n.toNat).setF
          CRU_MARGIN_RESULT_DONE ms 0 1)))

/-- R205, R208: a first-touch copy ends with the page in the new frame, holding the bytes of the old one, which is retained
under its tag with its pin; a wait for a frame first abandons the pins and then forces the oldest tag's commit. R193 to
R195: a context is created with nothing applied; a contribution in its turn is applied, one ahead of it is parked, one of
an addition that fails its residue check is applied and recorded with FAIL for its epoch (R360); an unreachable stack takes
none (R221). -/
def Obligations.VersionsAndContexts : Prop :=
  ∀ (s : State) (ms : Fin 12),
    (∀ (c : FtCopy) (rest : List FtCopy) (v : PageVer), (s.stack ms).copies = c :: rest → (s.stack ms).waiting = [] →
      (s.stack ms).wcb = [] → v = s.pageVer ms c.page → s.canonical = true →
      ∃ t, exec (.firstTouchCopyDone ms [] []) s = .next t ∧ (t.stack ms).copies = rest ∧
        t.pageVer ms c.page =
          { cur := c.frame, vep := max v.vep c.epoch, pin := none, retained := v.retained ++ [⟨v.cur, v.vep, v.pin⟩] } ∧
        (v.cur < 32768 → c.frame < 32768 → v.cur ≠ c.frame → ∀ ch < 32, ∀ k < 16, ∀ o < 4096,
          t.dramByte ⟨ms, ch, 16 * c.frame + k, o⟩ = s.dramByte ⟨ms, ch, 16 * v.cur + k, o⟩)) ∧
    ((s.stack ms).copies = [] → exec (.firstTouchCopyDone ms [] []) s = .next s) ∧
    (s.flag CRU_VER_STATUS_WAITING ms 0 = true → (s.stack ms).waitStage = 0 →
      ∃ t, exec (.pinsAbandoned ms) s = .next t ∧ t.flag CRU_VER_STATUS_ABANDONED ms 0 = true) ∧
    (s.flag CRU_VER_STATUS_WAITING ms 0 = false →
      exec (.pinsAbandoned ms) s = .next s ∧ exec (.forcedCommit ms) s = .next s) ∧
    (∀ p (v : PageVer) (x : Retained), s.flag CRU_VER_STATUS_WAITING ms 0 = true → (s.stack ms).waitStage = 1 →
      (s.stack ms).ver = [(p, some v)] → v.retained = [x] →
      ∃ t, exec (.forcedCommit ms) s = .next t ∧ t.flag CRU_VER_STATUS_FORCED ms 0 = true ∧
        t.getF CRU_VER_STATUS_FORCED_EPOCH ms 0 = (x.tag + 1) % 2 ^ 32) ∧
    (∀ (c : Fin 256) (x : RowSetup), s.rowAllowed x.dst = true → s.flag CRU_ROW_CFG_VALID ms c = false →
      ∃ t, exec (.rowContextCreate ms c x) s = .next t ∧ t = { s with regs := t.regs, stackTab := t.stackTab } ∧
        Kept (fun k => k.inst = ms.val ∧ k.idx = c.val ∧ k.name ∈ [.CRU_ROW_DST, .CRU_ROW_CFG, .CRU_ROW_PARK,
          .CRU_ROW_STATE]) s t ∧
        t.flag CRU_ROW_CFG_VALID ms c = true ∧ t.getF CRU_ROW_DST_DST ms c = x.dst % 2 ^ 44 ∧
        t.getF CRU_ROW_DST_LEN_G ms c = x.lenG % 2 ^ 20 ∧ t.getF CRU_ROW_CFG_NCONTRIB ms c = x.ncontrib % 4096 ∧
        t.flag CRU_ROW_CFG_INIT ms c = x.overwrite ∧ t.getR ⟨.CRU_ROW_STATE, ms, c⟩ = 0 ∧
        t.rowOf ms c = { owner := some x.owner, origin := x.dst, inMem := true }) ∧
    (∀ (c : Fin 256) (q k : Nat) (leaf : Bool) (data : List Byte) (x : RowCtx), x = s.rowOf ms c →
      s.unreachable ms = false → s.flag CRU_ROW_CFG_VALID ms c = true → q < s.getF CRU_ROW_DST_LEN_G ms c →
      k < s.getF CRU_ROW_CFG_NCONTRIB ms c →
      (k = Tab.getN 0 x.next q → s.rowOverwrites ms c k = false → x.owner.bind s.task? = none →
        ∀ (i : Nat) (v : F32), i < data.length / State.rowWidth (s.getF CRU_ROW_CFG_FMT ms c) →
          ∃ ch, exec (.rowChunkArrive ms c q k leaf data [(i, v)]) s = .next (s.latchEdges
            ((s.rowArrive ms c q k leaf data [(i, v)]).residueFail ms 1 ch [c] (s.rowEpoch x) none))) ∧
      (k = Tab.getN 0 x.next q → x.parked = [] →
        ∃ t, exec (.rowChunkArrive ms c q k leaf data) s = .next t ∧ Tab.getN 0 (t.rowOf ms c).next q = k + 1 ∧
          (k + 1 = s.getF CRU_ROW_CFG_NCONTRIB ms c → t.getF CRU_ROW_STATE_DONE ms c =
            min (s.getF CRU_ROW_STATE_DONE ms c + 1) (2 ^ 20 - 1))) ∧
      (Tab.getN 0 x.next q < k → x.parked = [] → 0 < s.getF CRU_ROW_PARK_PARK_SLOTS ms c →
        ∃ t, exec (.rowChunkArrive ms c q k leaf data) s = .next t ∧
          (t.rowOf ms c).parked = [⟨q, k, 0, data.length, leaf, data⟩] ∧ t.getF CRU_ROW_STATE_PARKED ms c = 1 ∧
          Tab.getN 0 (t.rowOf ms c).next q = Tab.getN 0 x.next q) ∧
      (k < Tab.getN 0 x.next q → exec (.rowChunkArrive ms c q k leaf data) s = .next s)) ∧
    (∀ (c : Fin 256) (q k : Nat) (leaf : Bool) (data : List Byte), s.unreachable ms = true →
      exec (.rowChunkArrive ms c q k leaf data) s = .next s)

/-- R201: each micro-operation of an update program does its operation on the element in hand and the program goes on to the
next word, with nothing else changed; a word that is not the program's next does nothing. ST converts, counts and writes;
END takes up the next element with every register at +0. A result that fails its residue check is written, recorded and makes
the epoch FAIL (R360). -/
def Obligations.MicroOperationsCompute : Prop :=
  ∀ (s : State) (ms : Fin 12) (u : UpdRun), (s.stack ms).upd = some u → u.ended = false → s.streamsOk ms u = true →
    u.pc + 1 < 32 →
    (∀ (d : Fin 16) (a b c : Fin 32) (i : Instr) (m : Micro) (v : F32), s.nextMicro ms u = some (some m) →
      (i, m, v) ∈ [
        (Instr.add ms d a b, Micro.add d a b, fadd (u.src a) (u.src b)),
        (.sub ms d a b, .sub d a b, fsub (u.src a) (u.src b)),
        (.mul ms d a b, .mul d a b, fmul (u.src a) (u.src b)),
        (.fma ms d a b c, .fma d a b c, ffma (u.src a) (u.src b) (u.src c)),
        (.div ms d a b, .div d a b, fdiv (u.src a) (u.src b)),
        (.sqrt ms d a, .sqrt d a, fsqrt (u.src a)),
        (.max ms d a b, .max d a b, fmax (u.src a) (u.src b)),
        (.min ms d a b, .min d a b, fmin (u.src a) (u.src b)),
        (.abs ms d a, .abs d a, fabs (u.src a)),
        (.sgn ms d a, .sgn d a, fsgn (u.src a)),
        (.neg ms d a, .neg d a, fneg (u.src a)),
        (.sel ms d a b c, .sel d a b c, if fpos (u.src a) then u.src b else u.src c)] →
      exec i s = .next (s.setUpd ms { u.dst d v with pc := u.pc + 1 })) ∧
    (∀ (d : Fin 16) (a b c : Fin 32) (y : BitVec 32) (i : Instr) (m : Micro), s.nextMicro ms u = some (some m) →
      (i, m) ∈ [
        (Instr.add ms d a b (some y), Micro.add d a b), (.sub ms d a b (some y), .sub d a b),
        (.mul ms d a b (some y), .mul d a b), (.fma ms d a b c (some y), .fma d a b c),
        (.div ms d a b (some y), .div d a b), (.sqrt ms d a (some y), .sqrt d a)] →
      exec i s = .next (s.latchEdges ((s.setUpd ms { u.dst d y with pc := u.pc + 1 }).updFault ms u u.streams.head?
        (s.updEpoch u)))) ∧
    (s.nextMicro ms u = some (some .nop) → exec (.nop ms) s = .next (s.setUpd ms { u with pc := u.pc + 1 })) ∧
    (s.nextMicro ms u ≠ some (some .nop) → exec (.nop ms) s = .next s) ∧
    (∀ (d : Fin 16) (k : Fin 8) (p : PStream) (v : F32), s.nextMicro ms u = some (some (.ld d k)) →
      u.streams[k.val]? = some p → s.engineBad (p.addr + u.i * State.streamWidth p) = false →
      v = f32Of (((elemFmt p.fmt).getD fp32).decode (s.streamCode u p)) →
      exec (.ld ms d k) s = .next (s.setUpd ms { u.dst d v with pc := u.pc + 1 })) ∧
    (∀ (a : Fin 32) (k : Fin 8) (p : PStream), s.nextMicro ms u = some (some (.st a k)) → u.streams[k.val]? = some p →
      exec (.st ms a k) s = .next (s.latchEdges ((s.storeTo ms u p (u.src a)).setUpd ms { u with pc := u.pc + 1 }))) ∧
    (∀ (p : PStream) (ps : List PStream) (j : Nat), s.nextMicro ms u = some (some .end_) → u.streams = p :: ps →
      s.nextElem ms p (u.i + 1) u.length = some j →
      exec (.endProgram ms) s = .next (s.latchEdges ((s.addF CRU_UPD_STATUS_DONE ms 0 1).setUpd ms
        { s.digestElem ms u with i := j, pc := 0, f := List.replicate 16 0 })))

/-- R200 to R203: a MOVE copies its lines, and is done; each update program, shipped or loaded, runs over the elements of
its range, and the COPY is done with every unit idle (shown for a range of one element). -/
def Obligations.CopiesMoveAndUpdate : Prop :=
  ∀ (s : State) (n : TaskId) (x : Task), s.running? n .copy = some x →
    (x.cpProgram = false → x.cpLength % 64 = 0 → x.cpSrc % 64 = 0 → x.cpDst % 64 = 0 →
      (∀ i < x.cpLength, State.isPoolAddr (x.cpSrc + i) = true ∧ s.mapped (x.cpSrc + i) = true ∧
        s.readBad (x.cpSrc + i) = false ∧ State.isPoolAddr (x.cpDst + i) = true ∧ s.mapped (x.cpDst + i) = true) →
      (x.cpSrc + x.cpLength ≤ x.cpDst ∨ x.cpDst + x.cpLength ≤ x.cpSrc) →
      ∃ t, exec (.move n []) s = .next t ∧ (t.task? n).any (fun y => y.fin) = true ∧
        t = { s with mem := t.mem, linePoison := t.linePoison, engines := t.engines } ∧
        (∀ i < x.cpLength, t.readByte (x.cpDst + i) = s.readByte (x.cpSrc + i)) ∧
        (∀ a, (a < x.cpDst ∨ x.cpDst + x.cpLength ≤ a) → t.readByte a = s.readByte a)) ∧
    (∀ (i : Instr), x.cpProgram = true → x.cpStreams ≠ 0 → x.cpLength = 1 → (∀ ms < 12, (s.stack ms).upd = none) →
      (x.cpProg = 1 ∧ i = .sgdWithMomentum n ∨ x.cpProg = 2 ∧ i = .adamw n ∨ x.cpProg = 3 ∧ i = .signMomentum n ∨
        x.cpProg = 4 ∧ i = .digestOnly n ∨ 0x10 ≤ x.cpProg ∧ x.cpProg < 0x14 ∧ i = .programMemorySlot n) →
      ∃ t, exec i s = .next t ∧ (t.task? n).any (fun y => y.fin) = true ∧ ∀ ms < 12, (t.stack ms).upd = none)

/-! ### Collectives, transfers and frames -/

/-- R291, R296, R297, R302 to R305, R319: a collective whose dispatch checks find a code fails with it. Else the die opens
the streams of the operation on its channel, takes the step's carrier if it seals, and the work is carried on from there:
the ring streams of a reduction or gather (the own shard of one in place being there already), one stream to each member
in a PERMUTE, whose own part it copies, and in an ALL_TO_ALL one stream and a count frame to each. -/
def Obligations.CollectivesOpenTheirStreams : Prop :=
  ∀ (s : State) (n : TaskId) (x : Task) (g : Geo) (i : Instr) (c : Nat) (v : State) (ch : ChanSt)
    (opened : ChanSt → State → Prop),
    s.task? n = some x → x.kind = .collective → x.started = true → x.status = .dispatched → x.fin = false →
    c = x.coChan → (s.chan n.d c).task = some n → (s.chan n.d c).begun = false → g = s.geoOf x →
    (x.coOp, i) ∈ [(1, Instr.allReduce n), (2, .reduceScatter n), (3, .allGather n), (4, .broadcast n), (5, .allToAll n),
      (6, .permute n)] →
    v = s.takeCarrier n x → ch = { v.chan n.d c with begun := true } →
    (∀ y w, opened y w ↔ (w = { v with chans := w.chans } ∧ w.chan n.d c = y ∧
      ∀ d' c', 16 * d' + c' ≠ 16 * n.d + c → w.chan d' c' = v.chan d' c')) →
    (∀ k, s.collCheck x g = some k → exec i s = .next (s.latchEdges (s.failTask n k))) ∧
    (s.collCheck x g = none →
      (x.coOp ≤ 2 → ∃ w, opened { ch with tx := v.ringTx x g n.d, rx := v.ringRx x g n.d } w ∧
        exec i s = .next (s.latchEdges (w.advance x))) ∧
      ((x.coOp = 3 ∨ x.coOp = 4) → x.coDigSrc = false → x.coSrc = x.coDst →
        ∃ w, opened { ch with
            tx := v.ringTx x g n.d, rx := v.ringRx x g n.d
            done := ch.done ++ if x.coOp = 3 ∨ g.self = x.coRoot then
              ((cutAll (g.ext.getD g.self (0, 0)).1 (g.ext.getD g.self (0, 0)).2).filter fun p =>
                decide (v.addrDie (x.coDst + p.1) = n.d)).map fun p => (4, p.1) else [] } w ∧
          exec i s = .next (s.latchEdges (w.advance x))) ∧
      (x.coOp = 5 → (g.count ≠ 1 ∨ n.d ≠ State.foldDie x) → ch.early = [] → x.coDigSrc = false →
        ∃ w u : State, opened { ch with tx := v.allToAllTx x g n.d } w ∧
          (∀ d' c', u.chan d' c' = w.chan d' c') ∧
          u = { ((List.range g.count).filter fun j => decide (j ≠ g.self) && decide (w.allToAllDie x j = n.d)).foldl
            (fun s j => s.sendCount x n.d j) w with chans := u.chans } ∧
          exec i s = .next (s.latchEdges (u.advance x))) ∧
      (x.coOp = 6 → x.coDigSrc = false → ∀ f e o, f = (v.extentsAt x x.coAux g.count).getD g.self (0, 0) →
        e = g.ext.getD g.self (0, 0) → o = State.overlapOf e f →
        ∃ w, opened { ch with tx := v.permuteTx x g n.d, rx := v.permuteRx x g n.d } w ∧
          ∀ u, u = w.copyOwn x n n.d (x.coSrc + (o.1 - e.1)) (x.coDst + (o.1 - f.1)) o.2 →
            (u.chan n.d c).task = some n → exec i s = .next (s.latchEdges (u.advance x))))

/-- R308, R309, R310, R311: a collective of one die with nothing outstanding completes, its result record written. A SEND
waits for its RECV's credit and shows it; a RECV grants its first credit. A remote transfer of up to 4 KiB asks with one
RWRITE, carrying the bytes, or one RREAD. A channel that has stalled fails its task with code 7. A cleared engine counts
from 0. -/
def Obligations.TransfersBeginAndEnd : Prop :=
  ∀ (s : State) (n : TaskId) (x : Task) (c : Nat) (ch : ChanSt), s.task? n = some x → x.channel = some c →
    ch = s.chan n.d c → ch.task = some n → x.started = true → x.status = .dispatched → x.fin = false →
    (x.kind = .collective → s.collDone x = true → s.groupOf x = [(n.d, n, x)] → x.coSeal = false →
      (∀ k, s.totalOf x k = none) → (x.coResult = 0 ∨ (State.isPoolAddr x.coResult = true ∧ s.mapped x.coResult = true ∧
        x.coResult % 64 = 0)) →
      ∃ t, exec (.collectiveComplete n) s = .next t ∧ (t.task? n).any (fun y => y.fin) = true ∧ t.cores = s.cores ∧
        t.chans = s.chans ∧ (x.coResult = 0 → t.mem = s.mem) ∧
        (x.coResult ≠ 0 → t.readBytesAt x.coResult 64 = s.resultBytes x ∧
          ∀ a, (a < x.coResult ∨ x.coResult + 64 ≤ a) → State.isPoolAddr a = true → t.readByte a = s.readByte a)) ∧
    (ch.progress = true → exec (.stall n) s = .next (s.latchEdges (s.failTask n 7))) ∧
    (ch.progress = false → exec (.stall n) s = .next s) ∧
    (ch.begun = false → ∀ p, p = State.srPeer x →
      (x.kind = .send → x.srMode = 0 → ch.since = none →
        ∃ t, exec (.sendStream n) s = .next t ∧ t = { s with regs := t.regs, chans := t.chans } ∧
          Kept (· = ⟨.COL_STATUS, n.d, 0⟩) s t ∧
          t.getF COL_STATUS_WAITING n.d 0 = (s.getF COL_STATUS_WAITING n.d 0 ||| 2 ^ c) % 65536 ∧
          t.chan n.d c = { ch with
            begun := true, since := some s.time
            tx := [{ stage := 0, dst := p, dstDie := x.srDie, chunks := State.streamOf x }] } ∧
          ∀ d' c', 16 * d' + c' ≠ 16 * n.d + c → t.chan d' c' = s.chan d' c') ∧
      (x.kind = .recv → x.srMode = 0 →
        exec (.recvStream n) s = .next (s.latchEdges ((s.setChan n.d c { ch with
            begun := true
            rx := [{ stage := 0, src := p, srcDie := x.srDie, chunks := State.streamOf x, given := s.creditOf n.d }] }).sendCredit
          n.d c x.epoch 0 p x.srDie none (s.creditOf n.d)))) ∧
      (x.srMode = 1 → 0 < x.srLength → x.srLength ≤ 4096 → ∀ w,
        w = s.setChan n.d c { ch with begun := true, todo := [(x.srRemote, x.srLength)] } →
        (x.kind = .send → exec (.sendRemote n) s = .next (s.latchEdges (w.send (w.frameTo p x.srDie 1 n.d x.epoch 0x21 0
          (BitVec.ofNat 64 (c * 2 ^ 44 + x.srRemote)) (w.readBytesAt x.srLocal x.srLength))))) ∧
        (x.kind = .recv → exec (.recvRemote n) s = .next (s.latchEdges (w.send (w.frameTo p x.srDie 1 n.d x.epoch 0x22 0
          (BitVec.ofNat 64 (x.srLength * 2 ^ 48 + c * 2 ^ 44 + x.srRemote)) [])))))) ∧
    (∀ (r : Requester) (d : Fin 4), s.inReset d = false →
      ∃ t, exec (.colCntClr r d) s = .next t ∧
        OnlyRegs (fun k => k.inst = d.val ∧ k.name ∈ [.AS_CHECKS, .AS_MISMATCH, .COL_CHAN]) s t ∧
        t.getF AS_CHECKS_COUNT d 0 = 0 ∧ t.getF AS_MISMATCH_COUNT d 0 = 0 ∧
        ∀ j < 16, t.getF COL_CHAN_DISCARDED d j = 0)

/-- R262, R263, R265, R266, R271, R275, R276: what a port does with a frame that has come. One that fails its CRC is counted
and asks for a resend once; one out of sequence is dropped; one in sequence to this module with its job is delivered and
counted by lane. A frame whose row a command is not changes nothing. -/
def Obligations.PortsDeliverInSequence : Prop :=
  ∀ (s : State) (p : Fin 6) (f : Frame) (i : Instr), 2 ≤ s.linkState p → s.linkState p ≤ 4 →
    (i, f.kind) ∈ [(Instr.coll p f, 0x10), (.collCredit p f, 0x11), (.senddata p f, 0x12), (.signalFrame p f, 0x20),
      (.rwrite p f, 0x21), (.rread p f, 0x22), (.rresp p f, 0x23)] →
    (f.crc = .bad → (s.port p).nakSent = true →
      exec i s = .next (s.latchEdges (s.addF PORT_IL_CRC_ERR_COUNT p 0 1))) ∧
    (f.crc = .stomped → exec i s = .next s) ∧
    (f.crc = .good → f.seq ≠ (s.port p).expect → exec i s = .next s) ∧
    (f.crc = .good → f.seq = (s.port p).expect → illFormed f = false → s.placed = true → s.linkState p = 3 →
      f.dst = s.here → f.job = s.getF PORT_MOD_JOB_JOB 0 0 → f.job ≠ 0 → (s.port p).replay = [] → (s.port p).txq = [] →
      f.credVl = 7 → s.arrivalClass p f < 5 →
      ∃ u, s.hop p f = (u, some f) ∧ u = { s with ports := u.ports, regs := u.regs } ∧
        (∀ k, k ≠ ⟨.PORT_IL_RX_BYTES, p, s.arrivalClass p f⟩ → u.getR k = s.getR k) ∧
        u.getF PORT_IL_RX_BYTES_COUNT p (s.arrivalClass p f) =
          min (s.getF PORT_IL_RX_BYTES_COUNT p (s.arrivalClass p f) + f.wire) (2 ^ 64 - 1) ∧
        (u.port p).expect = (f.seq + 1) % 2 ^ 20 ∧ (u.port p).nakSent = false ∧
        Tab.getN 0 (u.port p).owed (s.arrivalClass p f) = Tab.getN 0 (s.port p).owed (s.arrivalClass p f) + f.units ∧
        ∀ q, q ≠ p.val → u.port q = s.port q)

/-- R122, R303, R306, R307, R309, R310, R311, R313: what a delivered frame does. A collective's frame with no begun task on
its channel is counted as discarded, a count frame kept; a chunk with a right digest is counted and entered, and the work is
carried on; a grant adds to its stream. A transfer's length is taken, its credits sent on; a frame of the wrong source is
discarded. RWRITE is performed and answered, RREAD answered with the bytes, RRESP ends its piece; SIGNAL adds to its token. -/
def Obligations.DeliveredFramesAct : Prop :=
  ∀ (s u : State) (p : Fin 6) (f : Frame) (d c : Nat), s.hop p f = (u, some f) → d = f.dstDie → c = f.flags / 16 →
    (f.kind = 0x20 → exec (.signalFrame p f) s = .next (s.latchEdges
      (u.tokenIncrement (f.dstDie % 4) (Config.signalToken f.w3) (Config.signalInc f.w3)))) ∧
    (u.chanTask d c = none →
      (f.kind = 0x10 → f.flags / 4 % 4 = 0 → exec (.coll p f) s = .next (s.latchEdges
        (u.setChan d c { u.chan d c with early := (u.chan d c).early ++ [f] }))) ∧
      (∀ i, (i, f.kind) ∈ [(Instr.collCredit p f, 0x11), (.senddata p f, 0x12)] ∨
          (i = .coll p f ∧ f.kind = 0x10 ∧ f.flags / 4 % 4 ≠ 0) →
        exec i s = .next (s.latchEdges (u.addF COL_CHAN_DISCARDED d c 1)))) ∧
    (∀ (n : TaskId) (x : Task), u.chanTask d c = some (n, x) →
      (∀ (y : RxStream) (k : Chunk) (w : State), f.kind = 0x10 → x.kind = .collective → u.carries? x = false → x.coChan = c →
        f.flags / 4 % 4 = y.stage → y.stage ≠ 0 → y.src = f.src → y.srcDie = f.srcDie → (u.chan d c).rx = [y] →
        (u.chan d c).task = some n →
        y.chunks[y.next]? = some k → y.bad = false → k.len ≠ 0 → u.chunkDigest x k.off f.payload = f.w3.bits 60 0 →
        w = (((u.addF AS_CHECKS_COUNT d 0 1).setRxStream d c 0 { y with
          next := y.next + 1, bad := false, ended := decide (y.next + 1 = y.chunks.length) }).enterChunk x n
            (u.geoOf x) d k f) →
        (w.chan d c).task = some n → exec (.coll p f) s = .next (s.latchEdges (w.advance x))) ∧
      (∀ y : TxStream, f.kind = 0x11 → (u.chan d c).tx = [y] → y.stage = f.flags / 4 % 4 → y.dst = f.src →
        y.dstDie = f.srcDie → f.w3.bit 63 = false → f.w3.bits 42 27 ≠ 0 → ∀ w, w = u.setChan d c { u.chan d c with
          tx := [{ y with grant := y.grant + f.w3.bits 42 27 }], progress := true } →
        exec (.collCredit p f) s = .next (s.latchEdges (if x.kind = .send then w.pumpSendTask n x else w.advance x))) ∧
      (∀ y : RxStream, f.kind = 0x12 → x.kind = .recv → (u.chan d c).rx = [y] →
        (y.src ≠ f.src → exec (.senddata p f) s = .next (s.latchEdges (u.addF COL_CHAN_DISCARDED d c 1))) ∧
        (y.src = f.src → y.srcDie = f.srcDie → (u.chan d c).length = none → f.w3.bits 39 0 = x.srLength →
          exec (.senddata p f) s = .next (s.latchEdges (u.setChan d c { u.chan d c with
            length := some x.srLength, progress := true }))))) ∧
    (∀ a, a = f.w3.bits 43 0 →
      (f.kind = 0x21 → State.isPoolAddr a = true → u.mapped a = true → a % 64 + f.payload.length ≤ 64 → f.payload ≠ [] →
        exec (.rwrite p f) s = .next (s.latchEdges
          ((u.storeLocal a f.payload).send ((u.storeLocal a f.payload).frameTo f.src f.srcDie 1 d f.epoch 0x23 0 f.w3 [])))) ∧
      (f.kind = 0x22 → exec (.rread p f) s = .next (s.latchEdges
        (u.send (u.frameTo f.src f.srcDie 1 d f.epoch 0x23 0 f.w3 (u.readBytesAt a (min 4096 (f.w3.bits 60 48))))))) ∧
      (∀ b, f.kind = 0x23 → b = f.w3.bits 47 44 →
        (u.chanTask d b = none → exec (.rresp p f) s = .next (s.latchEdges (u.addF COL_CHAN_DISCARDED d b 1))) ∧
        (∀ n x l, u.chanTask d b = some (n, x) → x.kind = .send → n.d = d → (u.chan d b).todo = [(a, l)] →
          (u.chan d b).body = none → u.task? n = some x → x.status = .dispatched →
          ∃ t, exec (.rresp p f) s = .next t ∧ (t.chan d b).todo = [] ∧ (t.task? n).any (fun y => y.fin) = true ∧
            t.mem = u.mem ∧ t.cores = u.cores ∧ t.ports = u.ports)))

/-! ### Seal and retract -/

/-- R318 to R321, R325, R358, R362: a verdict frame of a SEALED step is ignored, one of the round at hand kept until the
round begins, and taken once it runs. The lowest unsealed step whose own and job-wide verdicts are GOOD is sealed: tokens
4032 pass it with a pulse; COMMIT brings tokens 4033 up to 4032. GOOD closes the holds of the Forge and of a trigger, ROUND
begins the next round of a step with no carrier, HOLD holds, and a dual-check hold ends with its step. -/
def Obligations.StepsAreSealedAndCommitted : Prop :=
  ∀ s : State,
    (∀ (p : Fin 6) (f : Frame) (u : State) (v : StepVerdict), s.hop p f = (u, some f) → f.kind = 0x24 →
      f.w3.bits 63 62 = 0 → v = u.stepOf f.epoch →
      (u.isSealed f.epoch = true → exec (.seal p f) s = .next (s.latchEdges u)) ∧
      (u.isSealed f.epoch = false → State.frameRound f = v.round → v.axis = none → v.jobWide = none →
        exec (.seal p f) s = .next (s.latchEdges (u.setStep { v with early := v.early ++ [f] }))) ∧
      (∀ a, u.isSealed f.epoch = false → State.frameRound f = v.round → v.axis = some a → a ≤ State.frameAxis f →
        exec (.seal p f) s = .next (s.latchEdges
          (State.runRound 4 u { v with early := v.early ++ [f] } (u.axesLeft v))))) ∧
    (∀ (v : StepVerdict) (rest : List StepVerdict), s.sealer.steps = v :: rest →
      (v.jobWide = some 0 → v.own = 0 → ∃ t, exec .sealVerdict s = .next t ∧
        t = { s with regs := t.regs, sealer := { s.sealer with steps := rest } } ∧
        Kept (fun k => k = ⟨.COL_SEAL_STATE, 0, 0⟩ ∨ (k.name = .GE_TOKEN ∧ k.inst < 4 ∧ k.idx = 4032)) s t ∧
        (∀ d < 4, t.getF GE_TOKEN_COUNT d 4032 = (v.epoch + 1) % 2 ^ 32) ∧
        (t.getR ⟨.HIC_PEND, 0, 4⟩).getLsbD 1 = true) ∧
      ((v.jobWide ≠ some 0 ∨ v.own ≠ 0) → exec .sealVerdict s = .next s)) ∧
    (s.sealer.steps = [] → exec .sealVerdict s = .next s) ∧
    (s.getF GE_TOKEN_COUNT 0 4033 < s.getF GE_TOKEN_COUNT 0 4032 → ∃ t, exec .commit s = .next t ∧
      ∀ d < 4, t.getF GE_TOKEN_COUNT d 4033 = s.getF GE_TOKEN_COUNT 0 4032) ∧
    (s.getF GE_TOKEN_COUNT 0 4032 ≤ s.getF GE_TOKEN_COUNT 0 4033 → exec .commit s = .next s) ∧
    (∀ (e : BitVec 32) (r : Requester) (v : StepVerdict), v = s.stepOf e.toNat →
      (v.carrierDone = true → s.isSealed e.toNat = false →
        exec (.sealTimeout e) s = .next (s.latchEdges (s.failStep e.toNat 4 none))) ∧
      (v.carrierDone = false → exec (.sealTimeout e) s = .next s) ∧
      (s.twinsOpen e.toNat = true → exec (.checkGood r e) s = .next (s.latchEdges
        (s.refuseWrite (hubReg 3 0x10) (BitVec.ofNat 64 (e.toNat * 2 ^ 32))))) ∧
      (s.twinsOpen e.toNat = false → s.isSealed e.toNat = false →
        (v.sentHold = false → exec (.checkGood r e) s = .next (s.latchEdges
          (s.setStep { v with forgeHold := false, trigHold := false }))) ∧
        (v.carrier = none → s.roundAxes (v.round + 1) = [] → ∀ w : StepVerdict,
          w = { v with forgeHold := false, trigHold := false, carrierDone := true, round := (v.round + 1) % 16, combined := 0,
                       axis := none, got := [], ends := []
                       early := v.early.filter fun f => State.frameRound f = (v.round + 1) % 16 } →
          exec (.sealRoundStart r e) s = .next (s.latchEdges (s.setStep { w with jobWide := some w.own })))) ∧
      (s.isSealed e.toNat = false →
        exec (.checkHold r e 0) s = .next (s.latchEdges (s.setStep { v with forgeHold := true }))) ∧
      (∃ t, exec (.checkHold r e 1) s = .next t ∧ t.flag HIC_TRIG_STATUS_RSTAT 0 0 = true) ∧
      (∃ t, exec (.checkHold r e 2) s = .next t ∧ t.flag HIC_TRIG_STATUS_NORM 0 0 = true) ∧
      (v.dualHold = true → v.sentHold = false → s.ingot.boundary.any (fun b => decide (e.toNat ≤ b)) = true →
        (∀ d < 4, (∀ y ∈ (s.engine d).unmatched, y.1 ≠ e.toNat) ∧ (∀ y ∈ s.tasksOf d, y.2.epoch ≠ e.toNat)) →
        exec (.dualHoldRelease e) s = .next (s.latchEdges (s.setStep { v with dualHold := false }))) ∧
      (v.dualHold = false → exec (.dualHoldRelease e) s = .next s))

/-- R131, R322, R323: a retract, from a frame or from a FAIL before GOOD was sent, is latched with its epoch, reason and
suspect, and is in progress until no task of its steps is live; one covered by an earlier retract, or of a SEALED step, does
nothing more. After GOOD a FAIL is only recorded.

R355: an announced primary record is compared with the pending entry of its twin: equal digests count one check and
leave neither pending; a record that is not there leaves the entry pending. Nothing announced for no twin changes nothing. -/
def Obligations.RetractsAndTwins : Prop :=
  (∀ s : State,
    (∀ (i : Instr) (u : State) (e reason die xyz : Nat),
      ((∃ p f, i = .retract p f ∧ s.hop p f = (u, some f) ∧ f.kind = 0x24 ∧ f.w3.bits 63 62 = 1 ∧ e = f.epoch ∧
          reason = f.w3.bits 53 50 ∧ die = f.w3.bits 26 24 ∧ xyz = f.w3.bits 23 0) ∨
        (∃ (r : Requester) (b : BitVec 32) (c : BitVec 3) (m : BitVec 24), i = .checkFail r b c m ∧ e = b.toNat ∧
          u = s.setStep { s.stepOf e with failed := true } ∧ reason = 2 ∧ die = c.toNat ∧ xyz = m.toNat ∧
          s.isSealed e = false ∧ (s.stepOf e).sentGood = false)) →
      (u.retractNew e = false → exec i s = .next (s.latchEdges u)) ∧
      (u.retractNew e = true → ∃ t, exec i s = .next t ∧ t.sealer.retracting = some e ∧ t.sealer.lastRetract = some e ∧
        (∀ v ∈ t.sealer.steps, v.epoch < e) ∧ t.flag COL_RETRACT_VALID 0 0 = true ∧
        t.getF COL_RETRACT_EPOCH 0 0 = e ∧ t.getF COL_RETRACT_REASON 0 0 = reason ∧
        t.getF COL_RETRACT_SUSPECT_DIE 0 0 = die ∧ t.getF COL_RETRACT_SUSPECT 0 0 = xyz ∧
        t.flag COL_SEAL_STATE_RETRACTING 0 0 = true ∧ t.flag COL_SEAL_STATE_RETRACT_DONE 0 0 = false)) ∧
    (∀ (r : Requester) (e : BitVec 32) (c : BitVec 3) (m : BitVec 24),
      (s.isSealed e.toNat = true ∨ (s.stepOf e.toNat).sentGood = true) →
      ∃ t u, exec (.checkFail r e c m) s = .next t ∧ t = s.latchEdges u ∧ Logged s u ∧
        u.elog.seq = (s.elog.seq + 1) % 2 ^ 32) ∧
    (s.sealer.retracting = none → exec .retractDone s = .next s) ∧
    (∀ e, s.sealer.retracting = some e →
      ((∃ d < 4, s.liveTasks d (fun x => decide (e ≤ x.epoch)) ≠ []) → exec .retractDone s = .next s) ∧
      ((∀ d < 4, s.liveTasks d (fun x => decide (e ≤ x.epoch)) = []) → ∃ t, exec .retractDone s = .next t ∧
        t = { s with regs := t.regs, stackTab := t.stackTab, sealer := { s.sealer with retracting := none } } ∧
        Kept (· = ⟨.COL_SEAL_STATE, 0, 0⟩) s t ∧ (∀ ms < 12, t.stack ms = { s.stack ms with retract := none }) ∧
        t.flag COL_SEAL_STATE_RETRACTING 0 0 = false ∧ t.flag COL_SEAL_STATE_RETRACT_DONE 0 0 = true))) ∧
  (∀ (s : State) (d : Fin 4) (g : Fin 16) (b : BitVec 16) (e : BitVec 32) (y : TwinEntry) (k : Nat),
    (s.twinDies d = [] → exec (.primaryAnnounce d g b e) s = .next s) ∧
    (s.twinDies d = [k] → (s.engine k).twins = [y] → y.g = g.val → y.idx = b.toNat → y.epoch = e.toNat →
      (∀ core, s.primaryRecord k y = some (y.digest, core) →
        ∃ t, exec (.primaryAnnounce d g b e) s = .next t ∧ t = { s with regs := t.regs, engines := t.engines } ∧
          Kept (· = ⟨.AS_DUAL_CNT, k, 0⟩) s t ∧ (t.engine k).twins = [] ∧
          t.getF AS_DUAL_CNT_CHECKS k 0 = min (s.getF AS_DUAL_CNT_CHECKS k 0 + 1) (2 ^ 32 - 1) ∧
          (e.toNat, g.val, b.toNat) ∉ (t.engine d).unmatched) ∧
      (s.primaryRecord k y = none → ∃ t, exec (.primaryAnnounce d g b e) s = .next t ∧
        t = { s with engines := t.engines } ∧ ∀ j, t.engine j = s.engine j)))

/-! ### Links, hallmarks, discovery and gossip -/

/-- R263, R266 to R268, R277: an enabled link with 12 lanes aligns: it stands at 2 with the whole credit of each class and sends
its hallmark. CTRL frees what its ACK covers and returns credit; a NAK or a timeout resends the replay buffer, RETRY_MAX
times, and then the link is lost: down, its buffers discarded, its neighbour gone, and counted. An ill-formed CTRL is
dropped (R263). -/
def Obligations.LinksAlignRetryAndGoDown : Prop :=
  ∀ (s : State) (p : Fin 6) (x : PortSt), x = s.port p →
    (s.flag PORT_IL_CFG_EN p 0 = true → s.linkState p < 2 → 12 ≤ s.activeLanes p → x.badSig = false → ∀ w,
      w = ((s.setPort p { known := x.known, dropSec := x.dropSec, credit := fullCredit, txq := x.txq }).setF
        PORT_STATUS_LOS p 0 0).setF PORT_IL_STATUS_STATE p 0 2 →
      exec (.linkAlign p) s = .next (s.latchEdges (w.sendHallmark p))) ∧
    ((s.flag PORT_IL_CFG_EN p 0 = false ∨ 2 ≤ s.linkState p ∨ s.activeLanes p < 12 ∨ x.badSig = true) →
      exec (.linkAlign p) s = .next s) ∧
    (s.linkState p < 2 → exec (.linkLost p) s = .next s) ∧
    (2 ≤ s.linkState p → s.linkState p ≤ 4 →
      exec (.hallmarkPeriodic p) s = .next (s.latchEdges (s.sendHallmark p)) ∧
      (x.replay = [] → x.txq = [] → s.flag PORT_MOD_CFG_DISC_EN 0 0 = false → ∃ t, exec (.linkLost p) s = .next t ∧
        t.linkState p = (if s.flag PORT_IL_CFG_EN p 0 then 0 else 5) ∧ t.getR ⟨.PORT_IL_NEIGH, p, 0⟩ = 0 ∧
        t.getR ⟨.PORT_IL_NEIGH_INFO, p, 0⟩ = 0 ∧ t.port p = { known := x.known, dropSec := x.dropSec, badSig := x.badSig } ∧
        t.getF PORT_IL_LINKDOWN_COUNT p 0 = min (s.getF PORT_IL_LINKDOWN_COUNT p 0 + 1) (2 ^ 64 - 1) ∧
        (∀ q, q ≠ p.val → t.port q = s.port q) ∧ (∀ y ∈ t.ingot.pages, y.ok1 = false → y.read = false)) ∧
      (∀ (a b : List Frame) (g f : Frame), x.replay = a ++ g :: b → (∀ y ∈ a, y.seq ≠ g.seq) → f.crc = .good →
        illFormed f = false → x.txq = [] → f.credVl = 7 →
        (f.kind = 0 → f.ack = g.seq → ∃ t, exec (.ctrl p f) s = .next t ∧
          t = { s with ports := t.ports, regs := t.regs, mons := t.mons } ∧ Kept (· = ⟨.PORT_IL_STATUS, p, 0⟩) s t ∧
          (t.port p).replay = b ∧ (t.port p).resends = 0 ∧ (t.port p).credit = x.credit ∧
          t.getF PORT_IL_STATUS_TX_UNACK p 0 = b.length % 2 ^ 20 ∧ ∀ q, q ≠ p.val → t.port q = s.port q) ∧
        (∀ i, (i = .nak p f ∧ f.kind = 1 ∧ f.w3.bits 19 0 = g.seq ∧ ∀ y ∈ x.replay, y.seq ≠ f.ack) ∨
            (i = .ackTimeout p ∧ a = []) →
          (x.resends < max 1 (s.getF PORT_IL_CFG_RETRY_MAX p 0) → ∃ t, exec i s = .next t ∧
            t = { s with ports := t.ports, regs := t.regs } ∧ Kept (· = ⟨.PORT_IL_RETRY, p, 0⟩) s t ∧
            t.port p = { x with resends := x.resends + 1 } ∧
            t.getF PORT_IL_RETRY_COUNT p 0 = min (s.getF PORT_IL_RETRY_COUNT p 0 + (b.length + 1)) (2 ^ 64 - 1)) ∧
          (i = .ackTimeout p → max 1 (s.getF PORT_IL_CFG_RETRY_MAX p 0) ≤ x.resends → exec i s = exec (.linkLost p) s))) ∧
      (∀ f : Frame, f.crc = .good → f.kind = 0 → illFormed f = false → x.replay = [] → x.txq = [] → f.credVl < 6 →
        ∃ t, exec (.ctrl p f) s = .next t ∧ t = { s with ports := t.ports } ∧
          Tab.getN 0 (t.port p).credit f.credVl = Tab.getN 0 x.credit f.credVl + f.cred ∧
          (∀ c, c ≠ f.credVl → Tab.getN 0 (t.port p).credit c = Tab.getN 0 x.credit c) ∧
          (t.port p).replay = [] ∧ ∀ q, q ≠ p.val → t.port q = s.port q) ∧
      (∀ f : Frame, f.crc = .good → f.kind = 0 → illFormed f = true →
        exec (.ctrl p f) s = .next (s.latchEdges (s.dropFrame p)))) ∧
    (x.replay = [] → exec (.ackTimeout p) s = .next s)

/-- R277, R278, R288, R439: a hallmark of an identity with no key here makes this module send its chain; one whose signature
fails holds the link down; one that verifies on an aligned link brings the neighbour up with its identity, port and feed. A
chain is kept piece by piece; whole and good it gives the key of its identity. A held link may be retried.

R332, R334, R342: a newer record of another module is stored, one held as new is not; each hour the own record goes out
with the next sequence and the seconds up of the window are kept; records not refreshed for three windows expire, the own
one never. -/
def Obligations.NeighboursAreVerifiedAndGossip : Prop :=
  (∀ (s u : State) (p : Fin 6) (f : Frame) (x : PortSt), s.hop p f = (u, some f) → x = u.port p →
    (∀ h, f.kind = 2 → h = Hallmark.ofBytes f.payload →
      (u.knows h.identity = false → ∀ ok, exec (.hallmark p f ok) s = .next (s.latchEdges (u.sendChain p))) ∧
      (u.knows h.identity = true → u.verified p = false → ∃ t, exec (.hallmark p f false) s = .next t ∧
        t.flag PORT_IL_STATUS_BADSIG p 0 = true ∧ t.linkState p = 0 ∧ (t.port p).badSig = true ∧ (t.port p).replay = [] ∧
        t.elog.seq = (u.elog.seq + 1) % 2 ^ 32) ∧
      (u.knows h.identity = true → u.linkState p = 2 → ∃ t, exec (.hallmark p f true) s = .next t ∧
        t.linkState p = 3 ∧ t.getF PORT_IL_NEIGH_ID p 0 = h.identity % 2 ^ 64 ∧ t.getF PORT_IL_STATUS_NPORT p 0 = h.port % 8 ∧
        t.getF PORT_IL_NEIGH_INFO_FEED p 0 = h.feed % 256 ∧ (t.port p).peer = some h)) ∧
    (f.kind = 3 → ∀ l, l = (if f.w3.bits 15 0 = 0 then [] else x.certs) ++ [f.payload] →
      (l.length < f.w3.bits 31 16 → ∀ o, exec (.cert p f o) s = .next (s.latchEdges (u.setPort p { x with certs := l }))) ∧
      (f.w3.bits 31 16 ≤ l.length →
        (∀ id : BitVec 64, exec (.cert p f (some id)) s =
          .next (s.latchEdges (u.setPort p { x with known := x.known ++ [id.toNat], certs := [] }))) ∧
        exec (.cert p f none) s = .next (s.latchEdges (u.badSignature p)))) ∧
    ((s.port p).badSig = true →
      exec (.badsigRetry p) s = .next (s.latchEdges (s.setPort p { s.port p with badSig := false }))) ∧
    ((s.port p).badSig = false → exec (.badsigRetry p) s = .next s)) ∧
  (∀ s : State,
    (∀ (u : State) (p : Fin 6) (f : Frame) (x : Nat × Gossip), s.hop p f = (u, some f) → f.kind = 4 → f.payload.length = 32 →
      x = gossipOf f.payload u.hourNow → x.1 ≠ u.identity →
      (∀ g, u.gossipGet x.1 = some g → g.seq < x.2.seq → ∃ t, exec (.gossip p f) s = .next t ∧ t.gossipGet x.1 = some x.2 ∧
        ∀ i, i ≠ x.1 → i ≠ u.identity → t.gossipGet i = u.gossipGet i) ∧
      (u.gossipGet x.1 = none → u.ingot.gossip.length < 16384 →
        ∃ t, exec (.gossip p f) s = .next t ∧ t.gossipGet x.1 = some x.2) ∧
      (∀ g, u.gossipGet x.1 = some g → x.2.seq ≤ g.seq → ∃ t, exec (.gossip p f) s = .next t ∧
        t.gossipGet x.1 = some g)) ∧
    (∃ t g, exec .gossipHour s = .next t ∧ t.gossipGet s.identity = some g ∧ g.seq = (s.ingot.seq + 1) % 2 ^ 32 ∧
      g.coord = s.here ∧ t.ingot.seq = g.seq ∧ t.ingot.upMark = s.time ∧
      ∀ i, i ≠ s.identity → t.gossipGet i = s.gossipGet i) ∧
    (∃ t, exec .gossipExpiry s = .next t ∧
      (∀ e ∈ t.ingot.gossip, e.1 ≠ s.identity → ∃ g, e.2 = some g ∧ s.hourNow < g.hour + 3) ∧
      (∀ e ∈ s.ingot.gossip, e.1 ≠ s.identity → (∃ g, e.2 = some g ∧ s.hourNow < g.hour + 3) → e ∈ t.ingot.gossip)))

/-- R278 to R283: DISC_EN written 1 begins a generation; its phases end in order, each looked at again: 2 to 3, 3 to 4 with
a claim, 4 to 5 once the extents have settled, and 5 publishes coordinates and shape, valid from there, with a pulse. -/
def Obligations.DiscoveryPublishesCoordinates : Prop :=
  ∀ (s : State) (r : Requester),
    (s.mayAccess r = true → s.inReset 4 = false → s.flag PORT_MOD_CFG_DISC_EN 0 0 = false →
      ∃ t, exec (.discoveryStart r) s = .next t ∧ t.flag PORT_MOD_CFG_DISC_EN 0 0 = true ∧
        t.getF PORT_MOD_DISC_GEN 0 0 = (s.getF PORT_MOD_DISC_GEN 0 0 + 1) % 2 ^ 32 ∧
        t.getF PORT_MOD_DISC_PHASE 0 0 = 2 ∧ t.placed = false) ∧
    (∀ n, n = s.getF PORT_MOD_DISC_PHASE 0 0 →
      (n = 2 → exec .discoverySettle s = .next (s.latchEdges (s.setPhase 3).lookDisc)) ∧
      (n = 3 → s.disc.claim.isSome = true → exec .discoverySettle s = .next (s.latchEdges (s.setPhase 4).lookDisc)) ∧
      (n = 3 → s.disc.claim = none → exec .discoverySettle s = .next s) ∧
      (n = 4 → s.extentsSettled = true →
        exec .discoverySettle s = .next (s.latchEdges ((s.setPhase 5).checkLinks).lookDisc)) ∧
      (n = 4 → s.extentsSettled = false → exec .discoverySettle s = .next s) ∧
      (n = 5 → ∃ t, exec .discoverySettle s = .next t ∧ t.placed = true ∧ t.getF PORT_MOD_DISC_PHASE 0 0 = 6 ∧
        t.getF PORT_MOD_COORD_X 0 0 = s.finalAt 0 (s.disc.at_.getD 0 0) % 256 ∧
        t.getF PORT_MOD_COORD_Y 0 0 = s.finalAt 1 (s.disc.at_.getD 1 0) % 256 ∧
        t.getF PORT_MOD_COORD_Z 0 0 = s.finalAt 2 (s.disc.at_.getD 2 0) % 256 ∧
        t.getF PORT_MOD_COORD_LX_M1 0 0 = (s.finalLen 0 - 1) % 256 ∧
        t.flag PORT_MOD_COORD_CLOSED_X 0 0 = s.disc.closed.getD 0 false ∧
        t.getF PORT_MOD_ORIGIN_ID 0 0 = s.disc.candidate % 2 ^ 64 ∧ (t.getR ⟨.HIC_PEND, 0, 4⟩).getLsbD 0 = true) ∧
      (n < 2 ∨ 5 < n → exec .discoverySettle s = .next s))

/-! ### Ingots -/

/-- R330, R331, R335 to R337, R341, R351: a step boundary that is due is noted; where an ingot is scheduled it begins with
its serial, its pages pinned and none of them read, unless one is in progress, which is recorded as skipped. The copy reader
reads a stack's next page, digests it and puts it in a free ring slot where a tier-2 copy is due; a slot handed back counts.
An abort, or a partner with no route, voids it. -/
def Obligations.IngotsBeginReadAndVoid : Prop :=
  ∀ (s : State) (voided : Nat → State → Prop),
    (∀ c t, voided c t ↔ (t.ingot.active = false ∧ t.ingot.pages = [] ∧ t.flag ING_STATUS_VOID 0 0 = true ∧
      t.getF ING_STATUS_VOID_CAUSE 0 0 = c ∧ t.getF ING_STATUS_STATE 0 0 = 0)) →
    (∀ (e : BitVec 32) (n : Nat) (l : List IngPage), n = s.ingot.next →
      l = (List.range 12).flatMap (s.stackPages e.toNat) →
      (s.moduleBoundaryDue e.toNat = false → exec (.ingotBoundary e) s = .next s) ∧
      (s.moduleBoundaryDue e.toNat = true →
        (s.scheduled e.toNat = false → exec (.ingotBoundary e) s =
          .next (s.latchEdges { s with ingot := { s.ingot with boundary := some e.toNat } })) ∧
        (s.scheduled e.toNat = true → s.ingot.active = true → ∃ t, exec (.ingotBoundary e) s = .next t ∧
          t.flag ING_STATUS_SKIPPED 0 0 = true ∧ t.ingot.next = n + 1 ∧ t.ingot.boundary = some e.toNat ∧
          t.ingot.pages = s.ingot.pages ∧ t.elog.seq = (s.elog.seq + 1) % 2 ^ 32) ∧
        (s.scheduled e.toNat = true → s.ingot.active = false → l ≠ [] → ∃ t, exec (.ingotBoundary e) s = .next t ∧
          t.ingot.active = true ∧ t.ingot.epoch = e.toNat ∧ t.ingot.serial = n ∧ t.ingot.next = n + 1 ∧
          t.ingot.pages = l ∧ t.ingot.slot = s.pickSlot ∧ t.ingot.tier2 = s.toTier2 n ∧
          t.getF ING_STATUS_STATE 0 0 = 1 ∧ t.getF ING_STATUS_SERIAL 0 0 = n % 2 ^ 16))) ∧
    (∀ (ms : Fin 12) (i : Nat) (x y : IngPage) (bs : List Byte), s.ingot.active = true → s.tier1 = false →
      s.nextPage ms = some (i, x) → bs = (s.flushPage ms x.page).frameBytes ms x.frame →
      y = { x with read := true, digest := digBytes (s.stackKey ms s.ingot.epoch) 0 bs } →
      (∃ z ∈ s.ingot.pages.set i y, z.read = false) →
      (s.ingot.tier2 = false → ∃ t, exec (.ingotPageRead ms) s = .next t ∧ t.ingot.pages = s.ingot.pages.set i y ∧
        t.cores = s.cores ∧ t.mem = s.mem) ∧
      (∀ k, s.ingot.tier2 = true → x.ok2 = false → x.slot = none → s.freeSlot = some k →
        ∃ t, exec (.ingotPageRead ms) s = .next t ∧ t.ingot.pages = s.ingot.pages.set i { y with slot := some k } ∧
          t.getF ING_T2_FORGE 0 0 = (s.getF ING_T2_FORGE 0 0 ||| 2 ^ k) % 256) ∧
      (s.ingot.tier2 = true → x.ok2 = false → x.slot = none → s.freeSlot = none → exec (.ingotPageRead ms) s = .next s)) ∧
    (∀ ms, s.ingot.active = false → exec (.ingotPageRead ms) s = .next s) ∧
    (∀ r : Requester, (s.ingot.active = true → ∃ t, exec (.ingotAbort r) s = .next t ∧ voided 5 t) ∧
      (s.ingot.active = false → exec (.ingotAbort r) s = .next s) ∧
      exec (.hand r 0) s = .next s ∧
      (∀ (k : Fin 8) (l m : List IngPage) (x : IngPage), (s.getF ING_T2_FORGE 0 0).testBit k = true →
        s.getF ING_STATUS_STATE 0 0 = 1 → s.ingot.pages = l ++ x :: m → x.slot = some k.val → x.ok1 = false → s.tier1 = true →
        s.ingot.complete1 = false →
        (∀ z ∈ l ++ m, z.slot ≠ some k.val) → ∃ t, exec (.hand r (1#8 <<< k.val)) s = .next t ∧
          t.ingot.pages = l ++ { x with slot := none, ok2 := true } :: m ∧
          t.getF ING_PROGRESS_T2_DONE 0 0 = (s.getF ING_PROGRESS_T2_DONE 0 0 + 1) % 2 ^ 19 ∧
          (t.getF ING_T2_FORGE 0 0).testBit k = false) ∧
      (∃ t, exec (.ingCntClr r) s = .next t ∧ OnlyRegs (fun k => k.name = .ING_RD ∧ k.inst = 0 ∧ k.idx < 12) s t ∧
        ∀ ms < 12, t.getF ING_RD_LATE 0 ms = 0 ∧ t.getF ING_RD_WAIT_US 0 ms = 0 ∧
          t.getF ING_RD_PINNED 0 ms = s.getF ING_RD_PINNED 0 ms)) ∧
    (∀ b, b = (s.ingot.active && s.tier1 && !s.ingot.complete1 && !s.reachable (s.getF ING_PARTNER_OUT 0 0)) →
      (b = true → ∃ t, exec .ingotRouteTimeout s = .next t ∧ voided 3 t) ∧
      (b = false → exec .ingotRouteTimeout s = .next s))

/-- R338, R339, R341: of the partner's answers for a page that was sent, PAGE_OK counts it and marks it acknowledged, PAGE_BAD
sends it again and voids the ingot at the third; COMPLETE, with everything sent, ends the tier-1 copy, and REFUSED voids the
ingot. Answers that are not for the ingot in progress do nothing. -/
def Obligations.PartnersAnswerPages : Prop :=
  ∀ (s u : State) (p : Fin 6) (f : Frame) (voided : Nat → State → Prop), s.hop p f = (u, some f) → f.kind = 0x31 →
    u.getF ING_STATUS_STATE 0 0 ≠ 3 →
    (∀ c t, voided c t ↔ (t.ingot.active = false ∧ t.ingot.pages = [] ∧ t.flag ING_STATUS_VOID 0 0 = true ∧
      t.getF ING_STATUS_VOID_CAUSE 0 0 = c ∧ t.getF ING_STATUS_STATE 0 0 = 0)) →
    (∀ i, (i, f.w3.bits 63 61) ∈ [(Instr.pageOk p f, 0), (.pageBad p f, 1), (.complete p f, 2), (.refused p f, 3)] →
      u.ackOurs f = false → exec i s = .next (s.latchEdges u)) ∧
    (u.ackOurs f = true →
      (∀ (k : Nat) (x : IngPage), k = f.w3.bits 50 32 → u.ingot.pages[k]? = some x → x.read = true → x.ok1 = false →
        u.ingot.complete1 = false →
        (f.w3.bits 63 61 = 0 → (∃ z ∈ u.ingot.pages.set k { x with ok1 := true }, z.ok1 = false) →
          ∃ t, exec (.pageOk p f) s = .next t ∧ t.ingot.pages = u.ingot.pages.set k { x with ok1 := true } ∧
            t.getF ING_PROGRESS_T1_DONE 0 0 = (u.getF ING_PROGRESS_T1_DONE 0 0 + 1) % 2 ^ 19) ∧
        (f.w3.bits 63 61 = 1 →
          (x.bad < 2 → ∀ w : State,
            w = { u with ingot := { u.ingot with pages := u.ingot.pages.set k { x with bad := x.bad + 1 } } } →
            exec (.pageBad p f) s = .next (s.latchEdges (w.sendPage (w.getF ING_PARTNER_OUT 0 0) u.ingot.epoch u.ingot.slot k
              u.ingot.serial (x.stack / 3) x.digest fun c => w.frameChunk x.stack x.frame c))) ∧
          (2 ≤ x.bad → ∃ t, exec (.pageBad p f) s = .next t ∧ voided 4 t))) ∧
      (f.w3.bits 63 61 = 2 → u.ingot.sentAll = true → ∀ w : State,
        w = { u with ingot := { u.ingot with complete1 := true } } →
        (w.copied = true → u.getF GE_TOKEN_COUNT 0 4033 ≤ u.ingot.epoch →
          exec (.complete p f) s = .next (s.latchEdges (w.setF ING_STATUS_STATE 0 0 2))) ∧
        (w.copied = false → exec (.complete p f) s = .next (s.latchEdges w))) ∧
      (f.w3.bits 63 61 = 3 → ∃ t, exec (.refused p f) s = .next t ∧ voided 3 t))

/-- R331, R338, R341, R347: a frame a receive slot may not take is answered REFUSED. One of the image being received is
written at its place: a page chunk enters the page's digest, PAGE_END answers by the digest it carries, a header or manifest
piece is kept. CLOSE with all-ones index keeps the partner's step-log record; ABORT of the image empties the slot. -/
def Obligations.ReceiveSlotsTakeImages : Prop :=
  ∀ (s u : State) (p : Fin 6) (f : Frame) (k i : Nat) (x : Image), s.hop p f = (u, some f) → f.kind = 0x30 →
    u.getF ING_STATUS_STATE 0 0 ≠ 3 → k = f.w3.bits 60 60 → i = f.w3.bits 50 32 → x = u.rxImage k →
    (u.rxAllows f = false → ∀ r,
      (r, f.w3.bits 63 61) ∈ [(Instr.page p f, 0), (.pageEnd p f, 1), (.manifest p f, 2)] →
      exec r s = .next (s.latchEdges (u.answerIngot f 3 i))) ∧
    (u.rxAllows f = true → u.getF ING_RX_STATE 0 k ≠ 0 → x.serial = f.w3.bits 31 0 → x.epoch = f.epoch →
      (∀ w c, f.w3.bits 63 61 = 0 → c = f.w3.bits 59 51 →
        w = u.writePlain (u.rxBase k + imageBase x.count + i * pageBytes + c * 4096) f.payload none 0 none →
        exec (.page p f) s = .next (s.latchEdges (w.setRx k { x with
          sums := Tab.putN 0 x.sums i ((Tab.getN 0 x.sums i + digBytes (digKey w.jobSeed f.epoch) (c * 4096) f.payload) % digP) }))) ∧
      (∀ ok : Bool, f.w3.bits 63 61 = 1 → ok = decide (Tab.getN 0 x.sums i = ofLe f.payload % 2 ^ 61) →
        exec (.pageEnd p f) s = .next (s.latchEdges ((u.setRx k { x with
          sums := Tab.putN 0 x.sums i 0, good := Tab.putN false x.good i ok }).answerIngot f (if ok then 0 else 1) i))) ∧
      (∀ (y : Image) (w : State), f.w3.bits 63 61 = 2 → 1 ≤ i →
        y = { x with manifest := Tab.putN none x.manifest i (some f.payload) } →
        w = u.writePlain (u.rxBase k + 4096 * i) f.payload none 0 none →
        ((x.checked = true ∨ w.manifestGood y = false) → exec (.manifest p f) s = .next (s.latchEdges (w.setRx k y))) ∧
        (x.checked = false → w.manifestGood y = true → exec (.manifest p f) s = .next (s.latchEdges
          (((w.setRx k { y with checked := true }).rxState k).answerIngot f 2 0))))) ∧
    (f.w3.bits 63 61 = 3 →
      (i = 2 ^ 19 - 1 → f.src = u.getF ING_PARTNER_IN 0 0 → exec (.close p f) s = .next (s.latchEdges
        { u with ingot := { u.ingot with partnerLog := u.ingot.partnerLog ++ [f.payload] } })) ∧
      (i ≠ 2 ^ 19 - 1 → exec (.close p f) s = .next (s.latchEdges u))) ∧
    (∀ (v : State) (g : Frame), s.hop p g = (v, some g) → g.kind = 0x31 → g.w3.bits 63 61 = 4 →
      v.flag ING_PARTNER_IN_VALID 0 0 = true → g.src = v.getF ING_PARTNER_IN 0 0 →
      ∀ j, j = g.w3.bits 60 60 → (v.rxImage j).serial = g.w3.bits 31 0 →
      ∃ t, exec (.abort p g) s = .next t ∧ t.rxImage j = {} ∧ t.getF ING_RX_STATE 0 j = 0 ∧ t.mem = v.mem)

/-- R349: RESTORE with a graph running is refused; else the restore state is entered, and the image asked for from the
partner's slot, or the whole ring given to the Forge. A RESTORE_REQ for a complete image of the member it names is served,
header, manifest and pages in order; any other is answered REFUSED. -/
def Obligations.RestoresAskAndServe : Prop :=
  ∀ (s : State) (r : Requester),
    (s.anyRunning = true → exec (.restore r) s = .next (s.latchEdges (s.refuseWrite (hubReg 4 0) 4))) ∧
    (s.anyRunning = false → ∀ e, e = s.getF ING_RESTORE_EPOCH 0 0 → ∃ t, exec (.restore r) s = .next t ∧
      t.getF ING_STATUS_STATE 0 0 = 3 ∧ t.getF ING_PROGRESS_T1_DONE 0 0 = 0 ∧ t.getF ING_PROGRESS_T2_DONE 0 0 = 0 ∧
      t.ingot.restore = { epoch := e } ∧
      t.ingot.restored = (if s.ingot.restore.epoch = e then s.ingot.restored else []) ∧
      (s.getF ING_RESTORE_SRC 0 0 ≠ 0 →
        t.getF ING_T2_FORGE 0 0 = (2 ^ (s.getF ING_T2_SLOTS_M1 0 0 + 1) - 1) % 256) ∧
      (s.getF ING_RESTORE_SRC 0 0 = 0 → s.placed = false →
        t.disc.waiting = s.disc.waiting ++ [s.frameTo (s.getF ING_RESTORE_PEER 0 0) 4 4 4 e 0x31 0
          (State.ingTag 5 (s.getF ING_RESTORE_SLOT 0 0) 0 0 0) (toLe 8 (s.getF ING_MEMBERS_SELF 0 0))])) ∧
    (∀ (u : State) (p : Fin 6) (f : Frame) (k : Nat) (x : Image), s.hop p f = (u, some f) → f.kind = 0x31 →
      f.w3.bits 63 61 = 5 → k = f.w3.bits 60 60 → x = u.rxImage k →
      ((x.header = none ∨ u.getF ING_RX_STATE 0 k ≠ 3) →
        exec (.restoreReq p f) s = .next (s.latchEdges (u.answerIngot f 3 0))) ∧
      (∀ (h man : List Byte) (l : List (List Byte)) (w : State), x.header = some h → u.getF ING_RX_STATE 0 k = 3 →
        leAt h 26 2 = ofLe (f.payload.take 8) % 2 ^ 14 →
        man = (List.range ((16 * x.count + 4095) / 4096)).flatMap (fun i => (Tab.getN none x.manifest (i + 1)).getD []) →
        l = State.groupsOf 4096 (man.length + 1) man →
        w = (List.range l.length).foldl (fun s i =>
            s.sendIngot f.src 4 x.epoch 0x30 (State.ingTag 2 k 0 (i + 1) x.serial) (l.getD i []))
          (u.sendIngot f.src 4 x.epoch 0x30 (State.ingTag 2 k 0 0 x.serial) h) →
        exec (.restoreReq p f) s = .next (s.latchEdges ((List.range x.count).foldl (fun s i =>
          s.sendPage f.src x.epoch k i x.serial 4 (leAt man (16 * i + 8) 8) fun c =>
            s.readBytesAt (u.rxBase k + imageBase x.count + i * pageBytes + 4096 * c) 4096) w))))

/-! ### The light layer -/

/-- R236, R241 to R245: a die-ring slot goes to an urgent requester first, else to a requester, in rotation. A locked ring
takes its loop's readings; one that unlocks searches, its port holding or its die-ring lane out of use; the search ends
locked and counted, in the sweep, or failed. A ring that must be covered stops holding. The notices of a die become
trajectories of its heaters. -/
def Obligations.RingsLockAndRelock : Prop :=
  ∀ (s : State),
    (∀ (l : Fin 8) (req urg : BitVec 5) (prev : Option Nat), prev = Tab.getN none s.light.ringOwner l →
      (((s.switchOf 1).phase ≠ 0 ∨ (s.getF LL_STATUS_DR_ACTIVE 0 0).testBit l = false ∨ (req = 0 ∧ urg = 0)) →
        exec (.dieRingSlot l req urg) s = .next s) ∧
      ((s.switchOf 1).phase = 0 → (s.getF LL_STATUS_DR_ACTIVE 0 0).testBit l = true → (req ≠ 0 ∨ urg ≠ 0) →
        ∃ d < 5, (if urg = 0 then req else urg).getLsbD d = true ∧
          (if urg = 0 then State.nextOwner prev req else State.nextOwner prev urg) = some d ∧
          exec (.dieRingSlot l req urg) s =
            .next { s with light := { s.light with ringOwner := Tab.putN none s.light.ringOwner l (some d) } })) ∧
    (∀ (x : RingReading), (s.getF LL_RING_STATE 0 x.ring ≠ 2 → exec (.ringLoopUpdate [x]) s = .next s) ∧
      (s.getF LL_RING_STATE 0 x.ring = 2 → ∃ t, exec (.ringLoopUpdate [x]) s = .next t ∧
        (t.ring x.ring) = { s.ring x.ring with lockIn := x.lockIn.toNat } ∧
        t.getF LL_RING_DETUNE 0 x.ring = x.detune.toNat ∧ t.getF LL_RING_STATE 0 x.ring = 2 ∧
        (s.flag LL_CTRL_FF_EN 0 0 = false → t.getF LL_RING_HEATER 0 x.ring = x.lockIn.toNat) ∧
        ∀ m, m ≠ x.ring.val → t.ring m = s.ring m)) ∧
    (∀ (n : Fin 294) (r : RingSt), r = s.ring n →
      (s.getF LL_RING_STATE 0 n ≠ 2 → exec (.ringUnlock n) s = .next s) ∧
      (s.getF LL_RING_STATE 0 n = 2 → ∃ t, exec (.ringUnlock n) s = .next t ∧ t.getF LL_RING_STATE 0 n = 3 ∧
        t.ring n = { r with relock := 1, cover := false } ∧
        (n.val < 204 → t.flag PORT_STATUS_HOLD (n / 34) 0 = true) ∧
        (204 ≤ n.val → Tab.getN false s.light.ringFailed (ringLane n) = false →
          (t.getF LL_STATUS_DR_ACTIVE 0 0).testBit (ringLane n) = false)) ∧
      (r.relock ≠ 1 → r.relock ≠ 2 → ∀ b, exec (.relockSearchEnd n b) s = .next s) ∧
      ((r.relock = 1 ∨ r.relock = 2) → ∃ t, exec (.relockSearchEnd n true) s = .next t ∧
        t.getF LL_RING_STATE 0 n = 2 ∧ t.ring n = { r with relock := 0, cover := false } ∧
        t.getF LL_RING_RELOCKS 0 n = min (s.getF LL_RING_RELOCKS 0 n + 1) (2 ^ 16 - 1) ∧
        t.elog.seq = (s.elog.seq + 1) % 2 ^ 32) ∧
      (r.relock = 1 → exec (.relockSearchEnd n false) s = .next (s.latchEdges
        ((s.setF LL_RING_STATE 0 n 1).setRing n { r with relock := 2 }).showUnlocked)) ∧
      (r.relock = 2 → ∃ t, exec (.relockSearchEnd n false) s = .next t ∧ t.getF LL_RING_STATE 0 n = 3 ∧
        t.ring n = { r with relock := 3 } ∧ (t.getR ⟨.HIC_PEND, 0, 5⟩).getLsbD 4 = true) ∧
      (n.val < 204 → (r.relock = 1 ∨ r.relock = 2) → r.cover = false →
        ∃ t, exec (.ringCoverTimeout n) s = .next t ∧ t.ring n = { r with cover := true }) ∧
      ((204 ≤ n.val ∨ (r.relock ≠ 1 ∧ r.relock ≠ 2) ∨ r.cover = true) → exec (.ringCoverTimeout n) s = .next s)) ∧
    (∀ (d : Fin 4) (l : List Notice), l = Tab.getN [] s.light.notices d →
      (l = [] → exec (.heaterFeedForward d) s = .next s) ∧
      (l ≠ [] → ∃ t, exec (.heaterFeedForward d) s = .next t ∧ Tab.getN [] t.light.notices d = [] ∧
        Tab.getN [] t.light.trajectories d = Tab.getN [] s.light.trajectories d ++ l ∧ t.light.rings = s.light.rings))

/-- R246 to R249, R258: a slot announces the next lane of the rotation, or only moves on; the phases take the spare, hand
over and calibrate; a pass keeps the lane's margin and settings, a failed check is counted and made again once, and an
announcement not answered is skipped. A job of higher rank takes the spare; a dark lane comes up with 3.5 dB. -/
def Obligations.LanesCalibrateInRotation : Prop :=
  ∀ (s : State),
    (∀ (f : Fin 7) (c : CalSt) (x : LaneSet) (m : BitVec 16), c = s.cal f →
      (s.rotates f = false → exec (.calibrationSlot f) s = .next s) ∧
      (s.rotates f = true →
        (s.mayCalibrate f c.next = false → exec (.calibrationSlot f) s =
          .next (s.latchEdges (s.setCal f { c with next := (c.next + 1) % State.calLanes f }))) ∧
        (s.mayCalibrate f c.next = true → exec (.calibrationSlot f) s =
          .next (s.latchEdges (s.setCal f { c with
            next := (c.next + 1) % State.calLanes f, lane := c.next, second := false
            phase := if c.next + 1 = State.calLanes f then 3 else 1 })))) ∧
      (c.phase = 1 → exec (.announceTimeout f) s = .next (s.latchEdges (s.setCal f { c with phase := 0 }))) ∧
      (c.phase ≠ 1 → exec (.announceTimeout f) s = .next s) ∧
      (∀ ok, (c.phase = 0 ∨ 4 < c.phase) → exec (.calibrationPhaseEnd f ok x m) s = .next s) ∧
      (∀ ok, f.val < 6 → c.phase = 1 → exec (.calibrationPhaseEnd f ok x m) s = .next (s.latchEdges
        (((s.setCal f { c with phase := 2 }).setF PORT_STATUS_SPARE_USE f 0 1).setF PORT_STATUS_SPARE_FOR f 0 c.lane))) ∧
      (∀ ok, f.val < 6 → c.phase = 2 → exec (.calibrationPhaseEnd f ok x m) s = .next (s.latchEdges
        ((s.setCal f { c with phase := 3 }).setF PORT_LANE_STATE f c.lane 3))) ∧
      (f.val < 6 → c.phase = 3 → c.second = false → c.lane < 16 →
        (200 ≤ m.toInt → ∃ t, exec (.calibrationPhaseEnd f true x m) s = .next t ∧ (t.cal f).phase = 4 ∧
          Tab.getN {} (t.cal f).settings c.lane = x ∧ Tab.getN none (t.cal f).passedAt c.lane = some s.time ∧
          t.getF PORT_LANE_MARGIN f c.lane = m.toNat) ∧
        (∀ ok, (ok = false ∨ m.toInt < 200) → exec (.calibrationPhaseEnd f ok x m) s = .next (s.latchEdges
          ((s.addF PORT_LANE_CAL_FAILS f c.lane 1).setCal f { c with second := true })))) ∧
      (∀ ok, f.val < 6 → c.phase = 4 → ∃ t, exec (.calibrationPhaseEnd f ok x m) s = .next t ∧ (t.cal f).phase = 0 ∧
        t.getF PORT_STATUS_SPARE_USE f 0 = 0 ∧
        (s.getF PORT_STATUS_SPARE_FOR f 0 < 16 → t.getF PORT_LANE_STATE f (s.getF PORT_STATUS_SPARE_FOR f 0) = 1)) ∧
      (∀ (l : Fin 16) (perm : Bool) (use cur : Nat), f.val < 6 → use = (if perm then 3 else 2) →
        cur = s.getF PORT_STATUS_SPARE_USE f 0 →
        ((cur = 0 ∨ use ≤ cur) → exec (.sparePreempt f l perm) s = .next s) ∧
        (0 < cur → cur < use → s.spareUp f = true → ∃ t, exec (.sparePreempt f l perm) s = .next t ∧
          t.getF PORT_STATUS_SPARE_USE f 0 = use ∧ t.getF PORT_STATUS_SPARE_FOR f 0 = l ∧
          t.getF PORT_LANE_STATE f l = 2 ∧ (perm = true → (t.getF PORT_STATUS_FAILED f 0).testBit l = true)))) ∧
    (∀ (p : Fin 6) (l : Fin 17) (lit : Bool) (x : LaneSet) (m : BitVec 16) (b : Bool),
      b = (s.flag LL_STATUS_READY 0 0 && decide (s.getF PORT_LANE_STATE p l = 0) &&
        !(s.getF PORT_STATUS_FAILED p 0).testBit l && lit) →
      (b = false → exec (.darkLaneCalibrationRetry p l lit x m) s = .next s) ∧
      (b = true → ∃ t, exec (.darkLaneCalibrationRetry p l lit x m) s = .next t ∧
        t.getF PORT_LANE_MARGIN p l = m.toNat ∧
        (350 ≤ m.toInt → t.getF PORT_LANE_STATE p l = 1 ∧ Tab.getN {} (t.cal p).settings l = x ∧
          (l.val < 16 → (t.getF PORT_STATUS_ACTIVE p 0).testBit l = true)) ∧
        (m.toInt < 350 → t.getF PORT_LANE_STATE p l = 0 ∧ t.cal p = s.cal p ∧
          t.elog.seq = (s.elog.seq + 1) % 2 ^ 32)))

/-- R251, R257 to R259: an inserted cartridge warms up, its baseline kept if it has been in the bay before; at grid lock it
is commissioned against a baseline at hand, else at its reading, every line within 1.0 dB, and otherwise not used. The
phases of the start-up end in order; one that fails stops it with a record. CNT_CLR clears the relock counters.

R239, R250 to R252, R267: the far readings of a port are shown, the first with a neighbour kept as its baseline. The
stage readings are shown each second; a loss not reported before is recorded, and latched where none was. Loss of signal is
flagged and takes the link down. -/
def Obligations.LightStartsAndLossIsLocated : Prop :=
  (∀ (s : State) (placed rejected : Fin 3 → State → Prop),
    (∀ i t, placed i t ↔ ((t.cart i).locked = true ∧ (t.cart i).commissioned = true ∧
      t.getF LC_STATUS_STATE 0 i = if (s.lcServes i).isSome then 3 else 2)) →
    (∀ i t, rejected i t ↔ ((t.cart i).rejected = true ∧ t.getF LC_STATUS_STATE 0 i = 0 ∧
      t.elog.seq = (s.elog.seq + 1) % 2 ^ 32)) →
    (∀ (i : Fin 3) (c : CartSt), c = s.cart i →
      (∀ serial : BitVec 32, ∃ t, exec (.cartridgeInsert i serial) s = .next t ∧ t.flag LC_STATUS_PRESENT 0 i = true ∧
        t.flag LC_STATUS_LATCH 0 i = true ∧ t.getF LC_STATUS_SERIAL 0 i = serial.toNat ∧ t.getF LC_STATUS_STATE 0 i = 1 ∧
        (s.getF LC_STATUS_SERIAL 0 i = serial.toNat → (t.cart i).base = c.base) ∧
        (s.getF LC_STATUS_SERIAL 0 i ≠ serial.toNat → (t.cart i).base = none) ∧ (t.cart i).locked = false) ∧
      (∀ (l o : List (BitVec 16)),
        (s.getF LC_STATUS_STATE 0 i = 1 → c.locked = false →
          (s.cartBase i = none → exec (.gridLock i l) s = .next (s.latchEdges (s.setCart i { c with locked := true }))) ∧
          (∀ b, s.cartBase i = some b → State.withinDb b l = true →
            ∃ t, exec (.gridLock i l) s = .next t ∧ placed i t ∧ (t.cart i).base = some b) ∧
          (∀ b, s.cartBase i = some b → State.withinDb b l = false →
            ∃ t, exec (.gridLock i l) s = .next t ∧ rejected i t) ∧
          (∃ t, exec (.gridLockTimeout i) s = .next t ∧ rejected i t)) ∧
        ((s.getF LC_STATUS_STATE 0 i ≠ 1 ∨ c.locked = true) →
          exec (.gridLock i l) s = .next s ∧ exec (.gridLockTimeout i) s = .next s) ∧
        (c.locked = true → c.commissioned = false → c.rejected = false →
          (State.withinDb (List.replicate 17 1300#16) l = true →
            ∃ t, exec (.cartridgeCommissioning i l o) s = .next t ∧ placed i t ∧ (t.cart i).base = some l ∧
              (t.cart i).offsets = o) ∧
          (State.withinDb (List.replicate 17 1300#16) l = false →
            ∃ t, exec (.cartridgeCommissioning i l o) s = .next t ∧ rejected i t)) ∧
        ((c.locked = false ∨ c.commissioned = true ∨ c.rejected = true) →
          exec (.cartridgeCommissioning i l o) s = .next s))) ∧
    (∀ (n : Nat) (fits : List (BitVec 64)) (lanes : List LanePass), n = s.getF LL_STATUS_START_PHASE 0 0 →
      ((n = 0 ∨ 5 < n ∨ s.flag LL_STATUS_STOPPED 0 0 = true) →
        ∀ ok, exec (.llStartPhaseEnd ok fits lanes) s = .next s) ∧
      (1 ≤ n → n ≤ 5 → s.flag LL_STATUS_STOPPED 0 0 = false →
        exec (.llStartPhaseEnd false fits lanes) s = .next (s.latchEdges
          ((s.setF LL_STATUS_STOPPED 0 0 1).lightRecord 0x080C sevFailed 0 n [n])) ∧
        ∃ t, exec (.llStartPhaseEnd true fits lanes) s = .next t ∧ t.getF LL_STATUS_START_PHASE 0 0 = n + 1 ∧
          (n = 1 → ∀ k < 294, t.getF LL_RING_STATE 0 k = 1) ∧
          (n = 3 → t.getF LL_STATUS_DR_ACTIVE 0 0 = 0xFF ∧ ∀ k < 294, t.getF LL_RING_STATE 0 k = 2) ∧
          (n = 4 → t.flag LL_STATUS_FF_VALID 0 0 = true ∧ ∀ d < 4, t.flag LL_FF_VALID 0 d = true ∧
            t.getF LL_FF_TAU_US 0 d = LL_FF_TAU_US.get (fits.getD d 0)) ∧
          (n = 5 → t.flag LL_STATUS_READY 0 0 = true))) ∧
    (∀ r : Requester, s.inReset 5 = false → ∃ t, exec (.llCntClr r) s = .next t ∧
      OnlyRegs (fun k => k.name = .LL_RING ∧ k.inst = 0 ∧ k.idx < 294) s t ∧
      ∀ k < 294, t.getF LL_RING_RELOCKS 0 k = 0 ∧ t.getF LL_RING_STATE 0 k = s.getF LL_RING_STATE 0 k)) ∧
  (∀ (s : State) (p : Fin 6),
    (exec (.lossOfSignal p) s = .next (s.latchEdges ((s.setF PORT_STATUS_LOS p 0 1).linkLost p))) ∧
    (s.linkState p < 2 → exec (.lossOfSignal p) s = .next (s.latchEdges (s.setF PORT_STATUS_LOS p 0 1))) ∧
    (∀ (r : List (BitVec 16)) (id far : Nat), id = s.getF PORT_IL_NEIGH_ID p 0 → far = s.getF PORT_IL_STATUS_NPORT p 0 →
      ∃ t, exec (.farReadings p r) s = .next t ∧ t = { s with regs := t.regs, light := t.light } ∧
        Kept (fun k => k.name = .PORT_MON ∧ k.inst = p.val ∧ k.idx < 17) s t ∧
        (∀ l < 17, t.getF PORT_MON_R_FAR_DBM p l = (r.getD l 0).toNat ∧
          t.getF PORT_MON_S_DBM p l = s.getF PORT_MON_S_DBM p l) ∧
        (id ≠ 0 → (∀ b ∈ s.light.farBase, ¬(b.1 = p.val ∧ b.2.1 = id ∧ b.2.2.1 = far)) →
          t.light.farBase = s.light.farBase ++ [(p.val, id, far, r)]) ∧
        (id = 0 → t.light = s.light)) ∧
    (∀ (x : LossReadings) (u : State), u = (s.showReadings x).offerMargins →
      (∀ q < 6, u.getF PORT_MON_F_F_DBM q 0 = (x.f.getD q 0).toNat ∧
        ∀ l < 17, u.getF PORT_MON_S_DBM q l = ((x.s.getD q []).getD l 0).toNat ∧
          u.getF PORT_MON_M_DBM q l = ((x.m.getD q []).getD l 0).toNat ∧
          u.getF PORT_MON_R_DBM q l = ((x.r.getD q []).getD l 0).toNat) ∧
      (s.flag LL_CTRL_LOC_EN 0 0 = false → exec (.lossLocation x) s = .next (s.latchEdges u)) ∧
      (∀ e, s.flag LL_CTRL_LOC_EN 0 0 = true → u.findLosses x = [e] → Tab.getN 0 s.light.reported e.1 = 0 →
        ∃ t, exec (.lossLocation x) s = .next t ∧ Tab.getN 0 t.light.reported e.1 = e.2.2.2.2.toNat ∧
          t.elog.seq = (s.elog.seq + 1) % 2 ^ 32 ∧ t.flag LL_LOSS_VALID 0 0 = true ∧
          (s.flag LL_LOSS_VALID 0 0 = false → t.getF LL_LOSS_STAGE 0 0 = e.2.1 % 8 ∧
            t.getF LL_LOSS_PORT 0 0 = e.2.2.1 % 8 ∧ t.getF LL_LOSS_LINE 0 0 = e.2.2.2.1 % 32 ∧
            t.getF LL_LOSS_EXCESS 0 0 = min e.2.2.2.2.toNat 65535))))

/-- R253 to R257: a cartridge's lines are compared with its baseline, the worst shown, and tarnish and hard latched at their
thresholds. Its light goes with a dropout or its latch; with no LC2 free its group is dark. LC2 is asked to take a group, at
once or at a boundary, where it is lit and free; a waiting switchover starts at the boundary or its timeout; the phases end
in order, the source moving at the second. -/
def Obligations.LaserLightSwitchesOver : Prop :=
  ∀ (s : State) (started : Nat → Nat → State → Prop),
    (∀ g dst t, started g dst t ↔ ((t.switchOf g) = { phase := 1, dest := dst } ∧
      ∀ p ∈ groupPorts g, t.flag PORT_STATUS_HOLD p 0 = true)) →
    (∀ (i : Fin 3) (l : List (List (BitVec 16))) (b : List (BitVec 16)), (s.cart i).base = some b →
      s.flag LC_STATUS_PRESENT 0 i = true → (s.cart i).commissioned = true → (∀ j < 3, j ≠ i.val → (s.cart j).base = none) →
      ∃ t, exec (.laserCompare l) s = .next t ∧ t.getF LC_STATUS_WORST_LINE 0 i = (worstDrop b (l.getD i [])).1 % 32 ∧
        t.getF LC_STATUS_WORST_DB 0 i = (max 0 (worstDrop b (l.getD i [])).2).toNat % 65536 ∧
        (s.tarnishDb ≤ (worstDrop b (l.getD i [])).2 → t.flag LC_STATUS_TARNISH 0 i = true) ∧
        (((s.getF LC_CFG_HARD_DB 0 0 * 10 : Nat) : Int) ≤ (worstDrop b (l.getD i [])).2 →
          t.flag LC_STATUS_HARD 0 i = true)) ∧
    (∀ (i : Fin 3),
      (s.flag LC_STATUS_PRESENT 0 i = false → exec (.dropout i) s = .next s) ∧
      (s.flag LC_STATUS_PRESENT 0 i = true → ∃ t, exec (.dropout i) s = .next t ∧ t.getF LC_STATUS_STATE 0 i = 0 ∧
        t.flag LC_STATUS_HARD 0 i = true ∧ t.cart i = { s.cart i with locked := false, commissioned := false } ∧
        (s.lcServes i = some 0 → i.val < 2 → s.lc2Free = false → t.getF LC_ROUTE_A_SRC 0 0 = 3)) ∧
      (s.flag LC_STATUS_LATCH 0 i = false → exec (.latchRelease i) s = .next s) ∧
      (s.flag LC_STATUS_LATCH 0 i = true → ∃ t, exec (.latchRelease i) s = .next t ∧
        t.flag LC_STATUS_LATCH 0 i = false ∧ t.getF LC_STATUS_STATE 0 i = 0 ∧
        t.cart i = { s.cart i with locked := false, commissioned := false } ∧
        (s.lcServes i = none → t.elog = s.elog ∧ t.light.switch = s.light.switch))) ∧
    (∀ (b : Bool) (g : Nat) (x : SwitchSt), g = groupOfBool b → x = s.switchOf g →
      (x.waiting = none → exec (.boundaryTimeout b) s = .next s) ∧
      (∀ dst, x.waiting = some dst → x.phase = 0 → ∃ t, exec (.boundaryTimeout b) s = .next t ∧ started g dst t) ∧
      (s.boundaryNow g = true → exec (.collectiveBoundary b) s = exec (.boundaryTimeout b) s) ∧
      (s.boundaryNow g = false → exec (.collectiveBoundary b) s = .next s) ∧
      (x.phase = 0 → exec (.switchoverPhaseEnd b) s = .next s) ∧
      (x.phase = 1 → exec (.switchoverPhaseEnd b) s = .next (s.latchEdges (s.setSwitch g { x with phase := 2 }))) ∧
      (x.phase = 2 → x.dest < 3 → ∃ t, exec (.switchoverPhaseEnd b) s = .next t ∧ (t.switchOf g) = { x with phase := 3 } ∧
        t.getF (if g = 0 then LC_ROUTE_A_SRC else LC_ROUTE_B_SRC) 0 0 = x.dest ∧ t.getF LC_STATUS_STATE 0 x.dest = 3) ∧
      (x.phase = 3 → exec (.switchoverPhaseEnd b) s = .next (s.latchEdges (s.setSwitch g { x with phase := 4 }))) ∧
      (x.phase = 4 → ∃ t, exec (.switchoverPhaseEnd b) s = .next t ∧ (t.switchOf g) = { waiting := x.waiting } ∧
        ((∀ n < 204, (s.ring n).relock = 0) → ∀ p ∈ groupPorts g, t.flag PORT_STATUS_HOLD p 0 = false)) ∧
      (x.phase = 3 → x.overrun = false → exec (.relockOverrun b) s = .next (s.latchEdges
        ((s.setSwitch g { x with overrun := true }).lightRecord 0x0809 sevDegraded 1 g [g]))) ∧
      ((x.phase ≠ 3 ∨ x.overrun = true) → exec (.relockOverrun b) s = .next s)) ∧
    (s.inReset 5 = false → ∀ r : Requester,
      (∀ (g cmd : Nat) (i : Bool → Instr), (g, cmd, i) ∈ [(0, 1, Instr.groupAToLc2 r), (1, 2, Instr.groupBToLc2 r)] →
        (∀ b, s.lcServes 2 = some g → exec (i b) s = .next s) ∧
        (s.lcServes 2 ≠ some g → s.lc2Free = true →
          (∃ t, exec (i true) s = .next t ∧ (t.switchOf g) = { s.switchOf g with waiting := some 2 } ∧
            t.flag LC_ROUTE_PENDING 0 0 = true) ∧
          ((s.switchOf g).phase = 0 → ∃ t, exec (i false) s = .next t ∧ started g 2 t)) ∧
        (s.lcServes 2 ≠ some g → s.lc2Free = false → ∀ b, exec (i b) s = .next (s.latchEdges
          (s.refuseWrite (lightReg 1 8) (BitVec.ofNat 64 (cmd * 64 + if b then 32 else 0)))))) ∧
      (∀ g, s.lcServes 2 = some g → s.getF LC_STATUS_STATE 0 g = 2 →
        (∃ t, exec (.returnLc2ToStandby r true) s = .next t ∧ (t.switchOf g) = { s.switchOf g with waiting := some g }) ∧
        ((s.switchOf g).phase = 0 → ∃ t, exec (.returnLc2ToStandby r false) s = .next t ∧ started g g t)) ∧
      (s.lcServes 2 = none → 2 ≤ s.getF LC_STATUS_STATE 0 2 → ∀ b, exec (.returnLc2ToStandby r b) s = .next s))

/-! ### The machine -/

/-- A step with a command at the front of the queue is that command's meaning on the state with the queue's rest. (The queue
is the model's own, log entry 1.) -/
def Obligations.StepRunsTheFrontCommand : Prop :=
  ∀ (s : State) (c : Instr) (q : List Instr), step { s with pending := c :: q } = exec c { s with pending := q }

/-- R418, R419: device time on a step with nothing waiting, which is one timer tick (the model's choice, log entry 2): it
stands while the root PLL is not locked; locked, it runs 10 ns a tick while no offset is left to slew and the rate is 0, and an
offset is worked off by no more than 100 ppm. Nothing but the clock changes. -/
def Obligations.IdleStepsRunTheClock : Prop :=
  ∀ s : State, s.pending = [] →
    (s.flag BOOT_CLK_STATUS_ROOT_LOCK 0 0 = false → step s = .next s) ∧
    (s.flag BOOT_CLK_STATUS_ROOT_LOCK 0 0 = true → s.getF TIME_STATUS_RATE 0 0 = 0 → 0 ≤ s.clock.rem →
      s.clock.rem < 10000000 → s.frac < 65536 →
      (s.clock.slew = 0 → step s = .next { s with time := s.time + 10 }) ∧
      (∃ t, step s = .next t ∧ t = { s with time := t.time, frac := t.frac, clock := t.clock } ∧ t.frac < 65536 ∧
        t.clock.slew.natAbs ≤ s.clock.slew.natAbs ∧ (s.clock.slew.natAbs - t.clock.slew.natAbs ≤ 65) ∧
        (t.time : Int) * 65536 + t.frac + t.clock.slew = (s.time : Int) * 65536 + s.frac + 655360 + s.clock.slew))

/-- R12, R225, R418: right after reset nothing waits, every register reads the value of the register tables, every domain
but the hub is in reset, device time is 0, and the state is in canonical form. (A register the tables give no reset value, and
what unwritten memory reads as, hold the model's values, log entries 3 to 6.) -/
def Obligations.ResetLeavesTheTables : Prop :=
  State.reset.pending = [] ∧ State.reset.time = 0 ∧ (∀ k, State.reset.getR k = RegKey.reset k) ∧
    (∀ i < 18, State.reset.inReset i = decide (i ≠ 4)) ∧ State.reset.canonical = true ∧
    State.reset.getF COL_CFG_CREDIT_CHUNKS 0 0 = 64 ∧ State.reset.getF PORT_IL_CFG_RETRY_MAX 0 0 = 64

/-- Every command of the table completes: its meaning answers a next state from every state, with no fault and no
refusal, whatever its operands. -/
def Obligations.EveryCommandAnswersANextState : Prop :=
  ∀ (c : Instr) (s : State), ∃ t, exec c s = .next t

/-- Every step keeps the canonical form: registers, memory, poison marks and every top-level table stay sorted by key
without repeats, and list nothing equal to what an unlisted key reads as, so that equal contents stay equal data. -/
def Obligations.EveryStepKeepsTheCanonicalForm : Prop :=
  ∀ s t : State, s.canonical = true → step s = .next t → t.canonical = true
end

