-- ==== Sys2Proof/Laws/Memory.lean ====
section
/-! SUPPORT. The canonical form: the order of register keys, one lemma per part of the state that a setter replaces, and
that every operation on memory, poison marks and buffers keeps it. -/

namespace Sys2Proof.Machine

/-! ### The order of register keys -/

theorem RegName.ctorIdx_inj (a b : RegName) (h : a.ctorIdx = b.ctorIdx) : a = b := by
  rw [← RegName.ofNat_ctorIdx a, ← RegName.ofNat_ctorIdx b, h]

theorem RegKey.lt_trans (a b c : RegKey) (h1 : RegKey.lt a b = true) (h2 : RegKey.lt b c = true) :
    RegKey.lt a c = true := by
  unfold RegKey.lt at *
  repeat' split at *
  all_goals simp only [decide_eq_true_eq] at *
  all_goals omega

theorem RegKey.lt_total (a b : RegKey) (h : a ≠ b) : RegKey.lt a b = true ∨ RegKey.lt b a = true := by
  by_cases h1 : a.name.ctorIdx = b.name.ctorIdx
  · by_cases h2 : a.inst = b.inst
    · have h3 : a.idx ≠ b.idx := fun h3 => h (by
      have hn := RegName.ctorIdx_inj _ _ h1; cases a; cases b; simp only at *; subst hn h2 h3; rfl)
      simp only [RegKey.lt, h1, h2, if_true, decide_eq_true_eq]; omega
    · simp only [RegKey.lt, h1, h2, Ne.symm h2, if_true, if_false, decide_eq_true_eq]; omega
  · simp only [RegKey.lt, h1, Ne.symm h1, if_false, decide_eq_true_eq]; omega

/-! ### Tables -/

theorem Tab.wf_filter {κ α : Type} [DecidableEq α] (lt : κ → κ → Bool) (d : κ → α) (t : Tab κ α) (p : κ × α → Bool)
    (h : Tab.wf lt d t = true) : Tab.wf lt d (t.filter p) = true := by
  induction t with
  | nil => rfl
  | cons e t ih =>
    simp only [Tab.wf, Bool.and_eq_true, List.all_eq_true] at h
    rw [List.filter_cons]
    split
    · simp only [Tab.wf, Bool.and_eq_true, List.all_eq_true, List.mem_filter]
      exact ⟨⟨h.1.1, fun x hx => h.1.2 x hx.1⟩, ih h.2⟩
    · exact ih h.2

theorem Tab.wf_foldl {κ α β : Type} [DecidableEq α] (lt : κ → κ → Bool) (d : κ → α) (f : Tab κ α → β → Tab κ α)
    (hf : ∀ t x, Tab.wf lt d t = true → Tab.wf lt d (f t x) = true) (l : List β) (t : Tab κ α)
    (h : Tab.wf lt d t = true) : Tab.wf lt d (l.foldl f t) = true := by
  induction l generalizing t with
  | nil => exact h
  | cons x l ih => exact ih _ (hf _ _ h)

/-- A write to memory keeps its canonical form. -/
theorem Memory.wf_put (m : List Host.Cell) (a : Nat) (b : Byte) (h : Memory.wf m = true) :
    Memory.wf (Tab.putN State.memDefault m a b) = true := Tab.wf_putN _ _ _ _ h

/-! ### The state's parts -/

/-- The canonical form, part by part. -/
structure Canon (s : State) : Prop where
  regs : Tab.wf RegKey.lt RegKey.reset s.regs = true
  mem : Memory.wf s.mem = true
  dram : Memory.wf s.dram = true
  packed : Memory.wf s.packed = true
  linePoison : Tab.wf natLt (fun _ => false) s.linePoison = true
  granPoison : Tab.wf natLt (fun _ => false) s.granPoison = true
  inService : Tab.wf natLt (fun _ => false) s.inService = true
  repair : Tab.wf natLt repairDefault s.repair = true
  engines : Tab.wf natLt (fun _ => ({} : Engine)) s.engines = true
  cores : Tab.wf natLt (fun _ => ({} : CoreSt)) s.cores = true
  stackTab : Tab.wf natLt (fun _ => ({} : StackSt)) s.stackTab = true
  chans : Tab.wf natLt (fun _ => ({} : ChanSt)) s.chans = true
  ports : Tab.wf natLt (fun _ => ({} : PortSt)) s.ports = true
  quench : Tab.wf natLt (fun _ => ({} : QuenchSt)) s.quench = true
  sensors : Tab.wf natLt (fun _ => ({} : SensorSt)) s.sensors = true

theorem canonical_iff (s : State) : s.canonical = true ↔ Canon s := by
  simp only [State.canonical, Bool.and_eq_true]
  constructor
  · rintro ⟨⟨⟨⟨⟨⟨⟨⟨⟨⟨⟨⟨⟨⟨a, b⟩, c⟩, d⟩, e⟩, f⟩, g⟩, h⟩, i⟩, j⟩, k⟩, l⟩, m⟩, n⟩, o⟩
    exact ⟨a, b, c, d, e, f, g, h, i, j, k, l, m, n, o⟩
  · rintro ⟨a, b, c, d, e, f, g, h, i, j, k, l, m, n, o⟩
    exact ⟨⟨⟨⟨⟨⟨⟨⟨⟨⟨⟨⟨⟨⟨a, b⟩, c⟩, d⟩, e⟩, f⟩, g⟩, h⟩, i⟩, j⟩, k⟩, l⟩, m⟩, n⟩, o⟩

namespace Canon

variable {s : State}

theorem putR (h : Canon s) (k : RegKey) (v : Word) : Canon (s.putR k v) :=
  { h with regs := Tab.wf_put _ RegKey.lt_trans RegKey.lt_total _ _ _ _ h.regs }
theorem setF (h : Canon s) (f : Field) (i j v : Nat) : Canon (s.setF f i j v) := h.putR _ _
theorem addF (h : Canon s) (f : Field) (i j v : Nat) : Canon (s.addF f i j v) := h.setF _ _ _ _
theorem wrapF (h : Canon s) (f : Field) (i j : Nat) : Canon (s.wrapF f i j) := h.setF _ _ _ _
theorem pend (h : Canon s) (g i : Nat) : Canon (s.pend g i) := h.putR _ _
theorem setEngine (h : Canon s) (d : Nat) (x : Engine) : Canon (s.setEngine d x) :=
  { h with engines := Tab.wf_putN _ _ _ _ h.engines }
theorem setCore (h : Canon s) (k : Nat) (x : CoreSt) : Canon (s.setCore k x) :=
  { h with cores := Tab.wf_putN _ _ _ _ h.cores }
theorem setStack (h : Canon s) (k : Nat) (x : StackSt) : Canon (s.setStack k x) :=
  { h with stackTab := Tab.wf_putN _ _ _ _ h.stackTab }
theorem setChan (h : Canon s) (d c : Nat) (x : ChanSt) : Canon (s.setChan d c x) :=
  { h with chans := Tab.wf_putN _ _ _ _ h.chans }
theorem setPort (h : Canon s) (p : Nat) (x : PortSt) : Canon (s.setPort p x) :=
  { h with ports := Tab.wf_putN _ _ _ _ h.ports }
theorem setQuench (h : Canon s) (d : Nat) (x : QuenchSt) : Canon (s.setQuench d x) :=
  { h with quench := Tab.wf_putN _ _ _ _ h.quench }
theorem setSensor (h : Canon s) (d i : Nat) (x : SensorSt) : Canon (s.setSensor d i x) :=
  { h with sensors := Tab.wf_putN _ _ _ _ h.sensors }
theorem draw (h : Canon s) : Canon s.draw.2 := { h with }

theorem foldl {α : Type} (f : State → α → State) (hf : ∀ u x, Canon u → Canon (f u x)) (l : List α) (h : Canon s) :
    Canon (l.foldl f s) := by
  induction l generalizing s with
  | nil => exact h
  | cons x l ih => exact ih (hf _ _ h)

/-! ### Memory, poison and the buffers -/

theorem setMem (h : Canon s) (a : Nat) (b : Byte) : Canon (s.setMem a b) := { h with mem := Memory.wf_put _ _ _ h.mem }
theorem setDram (h : Canon s) (p : Place) (b : Byte) : Canon (s.setDram p b) :=
  { h with dram := Memory.wf_put _ _ _ h.dram }
theorem setGranBad (h : Canon s) (p : Place) (b : Bool) : Canon (s.setGranBad p b) :=
  { h with granPoison := Tab.wf_putN _ _ _ _ h.granPoison }
theorem markLine (h : Canon s) (k : Nat) (b : Bool) : Canon { s with linePoison := Tab.putN false s.linePoison k b } :=
  { h with linePoison := Tab.wf_putN _ _ _ _ h.linePoison }

theorem storeLineByte (h : Canon s) (line : Nat) (x : Nat × Option (Byte × Option Nat)) :
    Canon (State.storeLineByte line s x) := by
  unfold State.storeLineByte; split
  · exact h.setDram _ _
  · exact h

theorem clearGran (h : Canon s) (line : Nat) (b : Tab Nat (Option (Byte × Option Nat))) (g : Nat) :
    Canon (State.clearGran line b s g) := by
  unfold State.clearGran; split
  · split
    · exact h.setGranBad _ _
    · exact h
  · exact h

theorem markGran (h : Canon s) (line g : Nat) : Canon (State.markGran line s g) := by
  unfold State.markGran; split
  · exact h.setGranBad _ _
  · exact h

theorem storeLine (h : Canon s) (l : WcbLine) : Canon (s.storeLine l) := by
  unfold State.storeLine
  exact foldl _ (fun _ _ h => h.markGran _ _) _ (foldl _ (fun _ _ h => h.clearGran _ _ _) _
    (foldl _ (fun _ _ h => h.storeLineByte _ _) _ h))

theorem writeBack (h : Canon s) (ms : Nat) (l : WcbLine) : Canon (s.writeBack ms l) := (h.storeLine l).setStack _ _

theorem flushStack (h : Canon s) (ms : Nat) : Canon (s.flushStack ms) := foldl _ (fun _ _ h => h.writeBack _ _) _ h
theorem flushPage (h : Canon s) (ms p : Nat) : Canon (s.flushPage ms p) := foldl _ (fun _ _ h => h.writeBack _ _) _ h

theorem wcbEnter (h : Canon s) (ms a : Nat) (data : List Byte) (e : Option Nat) (p : List Nat) :
    Canon (s.wcbEnter ms a data e p) := by
  unfold State.wcbEnter
  extract_lets st
  split
  · exact h.setStack _ _
  · rename_i s1 st1 _
    have h1 : Canon s1 := by
      show Canon (match st.wcb with
        | l :: _ => if 256 ≤ st.wcb.length then s.writeBack ms l else s
        | [] => s)
      split
      · split
        · exact h.writeBack _ _
        · exact h
      · exact h
    exact h1.setStack _ _

theorem storeLocal (h : Canon s) (a : Nat) (data : List Byte) : Canon (s.storeLocal a data) := by
  unfold State.storeLocal
  extract_lets s1
  have h1 : Canon s1 := foldl _ (fun _ _ h => h.setMem _ _) _ h
  split
  · exact h1.markLine _ _
  · exact h1

theorem storeRaw (h : Canon s) (a : Nat) (data : List Byte) (e : Option Nat) : Canon (s.storeRaw a data e) := by
  unfold State.storeRaw; split
  · exact h
  · split
    · split
      · split
        · exact h
        · exact h.wcbEnter _ _ _ _ _
      · exact h
    · exact h.storeLocal _ _

theorem storeAll (h : Canon s) (a : Nat) (data : List Byte) (e : Option Nat) : Canon (s.storeAll a data e) :=
  foldl _ (fun _ _ h => h.storeRaw _ _ _) _ h

theorem pokeDram (h : Canon s) (e a : Nat) (b : Byte) : Canon (s.pokeDram e a b) := (h.setDram _ _).setGranBad _ _

theorem markPacked (h : Canon s) (w : WriteReq) : Canon (s.markPacked w) :=
  foldl _ (fun _ _ h => h.markLine _ _) _ h

theorem setPageVer (h : Canon s) (ms p : Nat) (v : PageVer) : Canon (s.setPageVer ms p v) := h.setStack _ _
theorem putComp (h : Canon s) (ms g : Nat) (x : CompEntry) : Canon (s.putComp ms g x) := h.setStack _ _

theorem copyFrame (h : Canon s) (ms f g : Nat) : Canon (s.copyFrame ms f g) :=
  { h with
    dram := Tab.wf_foldl _ _ _ (fun _ _ ht => Tab.wf_putN _ _ _ _ ht) _ _ (Tab.wf_filter _ _ _ _ h.dram)
    granPoison := Tab.wf_foldl _ _ _ (fun _ _ ht => Tab.wf_putN _ _ _ _ ht) _ _ (Tab.wf_filter _ _ _ _ h.granPoison) }

theorem clearBank (h : Canon s) (d : Nat) (r : RegName) : Canon (s.clearBank d r) :=
  { h with regs := Tab.wf_filter _ _ _ _ h.regs }

/-! ### Interrupts, records and the free-value counter -/

theorem latchEdges (u : State) (hu : Canon u) : Canon (s.latchEdges u) := foldl _ (fun _ _ h => h.pend _ _) _ hu

theorem resample (h : Canon s) (c : Nat) : Canon (s.resample c) := foldl _ (fun _ _ h => h.pend _ _) _ h

theorem setElog (h : Canon s) (x : ErrLog) : Canon { s with elog := x } := { h with }
theorem setFresh (h : Canon s) (n : Nat) (x : ErrLog) : Canon { s with fresh := n, elog := x } := { h with }

theorem ringPut (h : Canon s) (r : ErrRec) : Canon (s.ringPut r) := by
  have key (u : State) (h : Canon u) : Canon
      (if r.severity = sevFailed then
        { u with elog := { u.elog with failedAt := u.elog.failedAt ++ [s.getF HIC_ELOG_PROD_INDEX 0 0] } } else u) := by
    split
    · exact h.setElog _
    · exact h
  exact key _ (((h.setElog _).storeAll _ _ _).wrapF _ _ _)

theorem drainHub (n : Nat) (h : Canon s) : Canon (State.drainHub n s) := by
  induction n generalizing s with
  | zero => exact h
  | succ n ih =>
    rw [State.drainHub]
    split
    · exact h
    · split
      · exact ih ((h.setElog _).ringPut _)
      · exact h

theorem dropRec (h : Canon s) (sev : Nat) : Canon (s.dropRec sev) := (h.addF _ _ _ _).setElog _
theorem hubPut (h : Canon s) (r : ErrRec) : Canon (s.hubPut r) := h.setElog _

theorem ringDeliver (h : Canon s) (r : ErrRec) : Canon (s.ringDeliver r) := by
  unfold State.ringDeliver
  split
  · split
    · exact h.hubPut _
    · split
      · exact h.dropRec _
      · split
        · exact ((h.setElog _).dropRec _).hubPut _
        · exact h.dropRec _
  · split
    · exact h.ringPut _
    · split
      · exact h.dropRec _
      · split
        · exact h.hubPut _
        · exact h.dropRec _

theorem streamDeliver (h : Canon s) (r : ErrRec) (alert : Bool) : Canon (s.streamDeliver r alert) := by
  unfold State.streamDeliver
  split
  · exact h
  · split
    · exact h.setElog _
    · exact (h.setElog _).setF _ _ _ _

theorem countFailure (h : Canon s) : Canon s.countFailure := { h with }

theorem record (h : Canon s) (a : RecArg) : Canon (s.record a) := by
  have key (u : State) (h : Canon u) : Canon (if a.sev = sevFailed then u.countFailure else u) := by
    split
    · exact h.countFailure
    · exact h
  exact ((key _ (h.setFresh _ _)).ringDeliver _).streamDeliver _ _

theorem atReg (h : Canon s) (r : Requester) (a : Nat) (u : State) (hu : Canon u) : Canon (s.atReg r a u) := by
  unfold State.atReg
  split
  · exact h.record _
  · exact hu

end Canon

end Sys2Proof.Machine
end

