-- ==== Sys2Proof/WellFormed.lean ====
section
/-! DEFINITION. Which commands are well formed: every operand in the range its place in the spec gives it. A command's
meaning is total whether or not it is; a sender sends well-formed ones. -/

namespace Sys2Proof

/-- Package addresses have 44 bits (R14). -/
def addrOk (a : Nat) : Bool := decide (a < 2 ^ 44)

/-- A 32-byte granule of a page or read (R180): its index within 2 MiB. -/
def granOk (g : Nat) : Bool := decide (g < 65536)

/-- A reading of each of the 17 lines of a comb (R231, R250). -/
def linesOk (l : List (BitVec 16)) : Bool := decide (l.length = 17)

/-- An input voltage in mV within the field of PWR_IN (R401). -/
def mvOk (mv : Nat) : Bool := decide (mv < 655360)

def TaskId.ok (t : TaskId) : Bool := decide (t.d < 4) && decide (t.g < 16) && decide (t.idx < 65536)

def Requester.ok : Requester → Bool
  | .forge _ => true
  | .debug => true
  | .task t => t.ok
  | .bootRom => true

def DispatchUnit.ok : DispatchUnit → Bool
  | .core _ => true
  | .engine t => t.ok

/-- An accumulator entry (R87). -/
def EntryEcc.ok (e : EntryEcc) : Bool := decide (e.entry < 131072)

/-- A conversion's statistic slot and format (R72, R192). -/
def ConvTag.ok (c : ConvTag) : Bool := decide (c.slot < 256) && decide (c.fmt < 16)

/-- A write request lies within one 64-byte line (R187). -/
def WriteReq.ok (w : WriteReq) : Bool :=
  addrOk w.addr && decide (0 < w.data.length) && decide (w.addr % 64 + w.data.length ≤ 64) &&
  w.epoch.all (fun e => decide (e < 2 ^ 32)) && decide (w.tensor < 65536) && w.conv.all ConvTag.ok &&
  w.owner.all TaskId.ok && w.poison.all fun g => decide (g < 2)

/-- The fields of a reduce-on-write context (R213). -/
def RowSetup.ok (x : RowSetup) : Bool :=
  addrOk x.dst && decide (x.fmt < 16) && decide (x.slot < 256) && decide (x.ncontrib < 256) && decide (x.tensor < 65536) &&
  addrOk x.park && x.owner.ok

/-- A frame carries at most 4 KiB (R261, R264). -/
def Frame.ok (f : Frame) : Bool := decide (f.payload.length ≤ 4096)

/-- A flit carries 500 bytes of payload (R215). -/
def Flit.ok (f : Flit) : Bool := decide (f.payload.length ≤ 500)

/-- A lane's settings (R237, R238). -/
def LaneSet.ok (x : LaneSet) : Bool := decide (x.table.length ≤ 64) && decide (x.taps.length ≤ 15)

/-- One second's readings (R250): three cartridges, six ports. -/
def LossReadings.ok (x : LossReadings) : Bool :=
  decide (x.l.length = 3) && decide (x.s.length = 6) && decide (x.m.length = 6) && decide (x.f.length = 6) &&
  decide (x.r.length = 6) && (x.l ++ x.s ++ x.m ++ x.r).all linesOk

/-- A profile's fields (R443). -/
def Profile.ok (x : Profile) : Bool :=
  decide (x.pLim < 65536) && decide (x.dieCap < 65536) && decide (x.ramp < 65536) && decide (x.agentMask < 65536) &&
  decide (x.margining < 3)

def Residue.ok (x : Residue) : Bool := decide (x.elem < 2 ^ 44) && decide (x.op < 32)

def PhaseResult.ok (x : PhaseResult) : Bool := x.profile.all Profile.ok && x.light.all LossReadings.ok

/-- Is a command well formed? -/
def Instr.wf : Instr → Bool
  | .registerWrite r a _ => r.ok && addrOk a
  | .unmappedAccess r a _ _ => r.ok && addrOk a
  | .submit r _ _ start count => r.ok && decide (start < 65536) && decide (count < 131072)
  | .retire r _ _ => r.ok
  | .validationStart _ => true
  | .validationEnd _ => true
  | .taskDispatch _ u => u.ok
  | .taskComplete t => t.ok
  | .cancel r _ _ => r.ok
  | .regionCancelDone _ _ => true
  | .quantumOverrun t => t.ok
  | .yieldPoint t => t.ok
  | .testDue _ _ _ => true
  | .kaGapExpiry _ _ => true
  | .graceExpiry _ _ => true
  | .testStart _ _ => true
  | .testEnd _ _ _ => true
  | .coreHold r _ _ => r.ok
  | .coreRelease r _ _ => r.ok
  | .matmul t => t.ok
  | .shadowLoad t => t.ok
  | .tileSwap _ _ => true
  | .handOver _ _ ecc => ecc.all EntryEcc.ok
  | .vector t => t.ok
  | .drainForward t ecc => t.ok && ecc.all EntryEcc.ok
  | .drainDerivative t ecc => t.ok && ecc.all EntryEcc.ok
  | .accPortStart _ _ => true
  | .spill t ecc => t.ok && ecc.all EntryEcc.ok
  | .resume t => t.ok
  | .move t bad => t.ok && bad.all addrOk
  | .sgdWithMomentum t faults => t.ok && faults.all Residue.ok
  | .adamw t faults => t.ok && faults.all Residue.ok
  | .signMomentum t faults => t.ok && faults.all Residue.ok
  | .digestOnly t => t.ok
  | .programMemorySlot t faults => t.ok && faults.all Residue.ok
  | .nop _ => true
  | .ld _ _ _ => true
  | .st _ _ _ => true
  | .add _ _ _ _ _ => true
  | .sub _ _ _ _ _ => true
  | .mul _ _ _ _ _ => true
  | .fma _ _ _ _ _ _ => true
  | .div _ _ _ _ _ => true
  | .sqrt _ _ _ _ => true
  | .max _ _ _ _ => true
  | .min _ _ _ _ => true
  | .abs _ _ _ => true
  | .sgn _ _ _ => true
  | .neg _ _ _ => true
  | .sel _ _ _ _ _ => true
  | .endProgram _ => true
  | .allReduce t => t.ok
  | .reduceScatter t => t.ok
  | .allGather t => t.ok
  | .broadcast t => t.ok
  | .allToAll t => t.ok
  | .permute t => t.ok
  | .collectiveComplete t => t.ok
  | .stall t => t.ok
  | .sendStream t => t.ok
  | .sendRemote t => t.ok
  | .recvStream t => t.ok
  | .recvRemote t => t.ok
  | .fused t => t.ok
  | .stageItem t _ => t.ok
  | .stageStallEnd t _ _ _ => t.ok
  | .signal t => t.ok
  | .tokenIncrement _ _ _ => true
  | .wait t => t.ok
  | .fence t => t.ok
  | .regwrite t => t.ok
  | .testKnownAnswer t => t.ok
  | .testStructural t => t.ok
  | .apply r _ _ => r.ok
  | .coreArrayRetire r _ _ => r.ok
  | .kaStart r _ _ => r.ok
  | .arrayCntClr r _ _ => r.ok
  | .accDbgRead r _ _ _ _ => r.ok
  | .accCntClr r _ _ => r.ok
  | .stepBoundary _ _ => true
  | .snapNow r _ => r.ok
  | .clrAll r _ => r.ok
  | .fetchReadIssue _ _ => true
  | .fetchReadReturn _ _ _ bad => bad.all granOk
  | .feCntClr r _ _ => r.ok
  | .stackRead r a _ _ => r.ok && addrOk a
  | .stackWrite w => w.ok
  | .wcbLineWriteback _ => true
  | .flush r _ => r.ok
  | .firstTouchCopyDone _ corr bad => corr.all granOk && bad.all granOk
  | .pinsAbandoned _ => true
  | .forcedCommit _ => true
  | .scrub _ _ _ _ _ => true
  | .refresh _ _ _ => true
  | .rtPublish r => r.ok
  | .rtPublishDone => true
  | .cruCntClr r _ => r.ok
  | .rowContextCreate _ _ x => x.ok
  | .rowChunkArrive _ _ q k _ data faults =>
    decide (q < 65536) && decide (k < 256) && decide (data.length ≤ 4096) && faults.all fun x => decide (x.1 < 2048)
  | .stackThermalChange _ _ => true
  | .go r _ _ => r.ok
  | .marginDone _ _ => true
  | .flitReceive _ _ _ _ _ f => f.ok
  | .resendRequest _ _ _ _ _ => true
  | .bundleTrainingEnd _ _ _ _ => true
  | .bundleRetire r _ _ _ => r.ok
  | .brzCntClr r _ _ => r.ok
  | .localPllLoss _ => true
  | .rootPllLoss => true
  | .seqGo r => r.ok
  | .seqPhaseEnd => true
  | .seqPhaseTimeout => true
  | .domainRst r _ => r.ok
  | .resetNAssert => true
  | .dieRingSlot _ _ _ => true
  | .ringLoopUpdate rd => decide (rd.length ≤ 294)
  | .ringUnlock _ => true
  | .relockSearchEnd _ _ => true
  | .ringCoverTimeout _ => true
  | .heaterFeedForward _ => true
  | .lossOfSignal _ => true
  | .calibrationSlot _ => true
  | .calibrationPhaseEnd _ _ x _ => x.ok
  | .announceTimeout _ => true
  | .sparePreempt _ _ _ => true
  | .farReadings _ r => decide (r.length = 17)
  | .lossLocation x => x.ok
  | .laserCompare l => decide (l.length = 3) && l.all linesOk
  | .dropout _ => true
  | .latchRelease _ => true
  | .collectiveBoundary _ => true
  | .boundaryTimeout _ => true
  | .switchoverPhaseEnd _ => true
  | .groupAToLc2 r _ => r.ok
  | .groupBToLc2 r _ => r.ok
  | .returnLc2ToStandby r _ => r.ok
  | .cartridgeInsert _ _ => true
  | .gridLock _ l => linesOk l
  | .llStartPhaseEnd _ fits lanes => decide (fits.length ≤ 6) && lanes.all fun l => l.settings.ok
  | .llCntClr r => r.ok
  | .linkAlign _ => true
  | .ctrl _ f => f.ok
  | .nak _ f => f.ok
  | .ackTimeout _ => true
  | .linkLost _ => true
  | .hallmark _ f _ => f.ok
  | .hallmarkPeriodic _ => true
  | .cert _ f _ => f.ok
  | .badsigRetry _ => true
  | .discoveryStart r => r.ok
  | .discoverySettle => true
  | .gossip _ f => f.ok
  | .gossipHour => true
  | .gossipExpiry => true
  | .coll _ f => f.ok
  | .collCredit _ f => f.ok
  | .senddata _ f => f.ok
  | .signalFrame _ f => f.ok
  | .rwrite _ f => f.ok
  | .rread _ f => f.ok
  | .rresp _ f => f.ok
  | .seal _ f => f.ok
  | .retract _ f => f.ok
  | .retractDone => true
  | .sealVerdict => true
  | .commit => true
  | .sealTimeout _ => true
  | .checkGood r _ => r.ok
  | .checkHold r _ _ => r.ok
  | .checkFail r _ _ _ => r.ok
  | .sealRoundStart r _ => r.ok
  | .colCntClr r _ => r.ok
  | .ingotBoundary _ => true
  | .ingotPageRead _ => true
  | .page _ f => f.ok
  | .pageEnd _ f => f.ok
  | .manifest _ f => f.ok
  | .close _ f => f.ok
  | .pageOk _ f => f.ok
  | .pageBad _ f => f.ok
  | .complete _ f => f.ok
  | .refused _ f => f.ok
  | .abort _ f => f.ok
  | .restoreReq _ f => f.ok
  | .ingotRouteTimeout => true
  | .hand r _ => r.ok
  | .ingotAbort r => r.ok
  | .restore r => r.ok
  | .ingCntClr r => r.ok
  | .primaryAnnounce _ _ _ _ => true
  | .dualHoldRelease _ => true
  | .quarantine r _ => r.ok
  | .unquarantine r => r.ok
  | .errorRecord _ => true
  | .elogEnable r _ => r.ok
  | .pwrEnAssert mv => mvOk mv
  | .inrushDone => true
  | .pwrEnDeassert => true
  | .inputOvervoltage mv => mvOk mv
  | .inputVoltageWarning mv => mvOk mv
  | .inputWarningClear mv => mvOk mv
  | .powerFail mv _ => mvOk mv
  | .railPhaseEnd _ => true
  | .railFault _ v c => decide (v < 65536) && decide (c < 65536)
  | .budgetPeriod rd => decide (rd.length ≤ 32)
  | .leaveGrant _ => true
  | .grantTakesEffect t => t.ok
  | .backfillExpiry _ => true
  | .leaveHoldExpiry _ _ => true
  | .inputOverpower _ => true
  | .sensorSample _ _ _ => true
  | .quenchExit _ => true
  | .release r _ => r.ok
  | .thmCntClr r _ => r.ok
  | .coolantInletHigh _ _ => true
  | .hicClaim _ => true
  | .hicComplete r _ source => r.ok && decide (source < 18 * 64)
  | .agentMaskLock r => r.ok
  | .forgeWindow cycles _ _ => decide (cycles.length ≤ 16)
  | .dmaRequest _ _ a data => addrOk a && decide (data.length ≤ 4096)
  | .driveFail _ => true
  | .collectorUnreachable => true
  | .collectorReconnect => true
  | .transit _ pct => decide (pct ≤ 100)
  | .permit _ entries => entries.all fun e => decide (e.1 < 64)
  | .serviceEnter _ => true
  | .serviceLeave _ => true
  | .profile _ _ _ x => x.all Profile.ok
  | .debugNonce _ => true
  | .debugToken _ _ => true
  | .mctpControl _ => true
  | .pldmMonitoring => true
  | .spdmRequest _ => true
  | .ppsEdge _ => true
  | .ppsHoldover => true
  | .setImmediate r => r.ok
  | .setValid r => r.ok
  | .monitorWindowEnd _ _ => true
  | .idcode => true
  | .dbgNonce => true
  | .dbgUnlock _ => true
  | .dbgAccess _ _ _ => true
  | .dbgStatus => true
  | .bypass _ => true
  | .lock r => r.ok
  | .unlockExpiry => true
  | .halt r _ _ => r.ok
  | .step r _ => r.ok
  | .breakEn r _ _ _ _ => r.ok
  | .bootRomStart _ _ _ => true
  | .trialWatchdog => true
  | .firmwareUpdateComponent _ image => decide (image.length ≤ 2 ^ 27)
  | .flashRead r _ => r.ok
  | .flashProgram r _ => r.ok
  | .flashErase r _ => r.ok
  | .flashOpDone _ => true
  | .counterRaise r _ _ => r.ok
  | .profileSwitch r _ x => r.ok && x.all Profile.ok
  | .profileSwitchReset r _ => r.ok
  | .job r _ => r.ok
  | .startupPhaseEnd x => x.ok
  | .startupPhaseTimeout => true
  | .feedIdSample _ => true
  | .leakDetect _ _ _ => true
  | .resetNRelease => true
  | .inputReturn mv => mvOk mv
  | .holdUpEnd => true
  | .coolantOutletHigh _ _ => true
  | .gridLockTimeout _ => true
  | .cartridgeCommissioning _ l offsets => linesOk l && decide (offsets.length ≤ 294)
  | .relockOverrun _ => true
  | .darkLaneCalibrationRetry _ _ _ x _ => x.ok
  | .ppsOutPulse => true
  | .pcieLinkChange _ _ rate width => decide (rate < 8) && decide (width ≤ 16)
  | .managementLinkChange _ _ => true
  | .dbgTrstN => true

end Sys2Proof
end

