-- ==== Sys2Proof/Tests/Slice0.lean ====
section
/-! SUPPORT. Tests of the model: ill-formed commands that the check refuses, worked values of the spec, and for every
statement with hypotheses a state and operands that meet them, clause by clause. -/

namespace Sys2Proof.Tests

-- The checks run one after another: in parallel their stacks would fill the memory a compile may use.
set_option Elab.async false

open Sys2Proof Sys2Proof.Machine

/-! ### Well-formed commands -/

/-- Task 1 of slot 0 of die 0, and one whose die does not exist. -/
def n0 : TaskId := ⟨0, 0, 1⟩
def nBad : TaskId := ⟨4, 0, 0⟩

def fr (n : Nat) : Frame := ⟨0, 0, 0, 0, List.replicate n 0, .good⟩
def line17 : List (BitVec 16) := List.replicate 17 0
def read0 : LossReadings :=
  { l := List.replicate 3 line17, s := List.replicate 6 line17, m := List.replicate 6 line17, f := List.replicate 6 0,
    r := List.replicate 6 line17 }
def write0 : WriteReq := ⟨0x1000, [1, 2], some 7, 3, none, none, []⟩
def row0 : RowSetup := ⟨0x1000, 1, 4, false, false, false, false, 0, 2, 0, 1, 0x2000, n0⟩

/-- Well-formed commands of every shape of operand pass the check. -/
theorem test_well_formed_pass :
    ∀ i ∈ [Instr.registerWrite .debug (2 ^ 44 - 1) 0, .submit (.task n0) 3 15 65535 131071, .matmul n0, .spill n0 [⟨131071, true⟩],
      .stackWrite write0, .rowContextCreate 11 255 row0, .rowChunkArrive 0 0 65535 255 true [] [(2047, 0)], .sgdWithMomentum n0 [⟨11, 2 ^ 44 - 1, 31, 0⟩], .coll 5 (fr 4096),
      .flitReceive 3 5 true 7 true ⟨0, 0, List.replicate 500 0⟩, .lossLocation read0, .gridLock 2 line17,
      .farReadings 0 line17, .laserCompare [line17, line17, line17], .pwrEnAssert 655359, .transit true 100,
      .permit true [((63 : Fin 64), 0)], .hicComplete .debug 15 1151, .pcieLinkChange 1 true 7 16,
      .dmaRequest 0 false 0 [], .fetchReadReturn 0 0 0 [65535], .profileSwitch .debug 0 (some (builtinProfile 0)),
      .startupPhaseEnd {}, .railFault 18 65535 65535, .budgetPeriod [], .forgeWindow [] true false,
      .cartridgeCommissioning 0 line17 [], .ringLoopUpdate [], .llStartPhaseEnd true [] [], .firmwareUpdateComponent ⟨true, true, true, 0, 0, 0⟩ [],
      .taskDispatch 0 (.engine n0), .move n0 [0]], i.wf = true := by
  decide +kernel

/-- Each check refuses a command that is ill formed in that one point. -/
theorem test_ill_formed_refused :
    ∀ i ∈ [Instr.registerWrite .debug (2 ^ 44) 0, .registerWrite (.task nBad) 0 0, .unmappedAccess .debug (2 ^ 44) true 0,
      .submit .debug 0 0 65536 1, .submit .debug 0 0 0 131072, .submit (.task nBad) 0 0 0 1,
      .matmul nBad, .matmul ⟨0, 16, 0⟩, .matmul ⟨0, 0, 65536⟩, .taskDispatch 0 (.engine nBad),
      .spill n0 [⟨131072, true⟩], .handOver 0 0 [⟨131072, true⟩], .move n0 [2 ^ 44],
      .stackWrite { write0 with addr := 2 ^ 44 }, .stackWrite { write0 with data := [] },
      .stackWrite { write0 with addr := 0x103F }, .stackWrite { write0 with epoch := some (2 ^ 32) },
      .stackWrite { write0 with tensor := 65536 }, .stackWrite { write0 with conv := some ⟨256, 0, 0⟩ },
      .stackWrite { write0 with conv := some ⟨0, 16, 0⟩ }, .stackWrite { write0 with owner := some nBad },
      .stackWrite { write0 with poison := [2] },
      .rowContextCreate 0 0 { row0 with dst := 2 ^ 44 }, .rowContextCreate 0 0 { row0 with fmt := 16 },
      .rowContextCreate 0 0 { row0 with slot := 256 }, .rowContextCreate 0 0 { row0 with ncontrib := 256 },
      .rowContextCreate 0 0 { row0 with tensor := 65536 }, .rowContextCreate 0 0 { row0 with park := 2 ^ 44 },
      .rowContextCreate 0 0 { row0 with owner := nBad },
      .rowChunkArrive 0 0 65536 0 true [], .rowChunkArrive 0 0 0 256 true [],
      .rowChunkArrive 0 0 0 0 true (List.replicate 4097 0), .rowChunkArrive 0 0 0 0 true [] [(2048, 0)],
      .adamw n0 [⟨0, 2 ^ 44, 0, 0⟩], .signMomentum n0 [⟨0, 0, 32, 0⟩], .coll 0 (fr 4097),
      .flitReceive 0 0 true 0 true ⟨0, 0, List.replicate 501 0⟩,
      .lossLocation { read0 with l := [] }, .lossLocation { read0 with s := [] }, .lossLocation { read0 with m := [] },
      .lossLocation { read0 with f := [] }, .lossLocation { read0 with r := [] },
      .lossLocation { read0 with l := List.replicate 3 [] }, .gridLock 0 [], .farReadings 0 [], .laserCompare [line17],
      .laserCompare [[], [], []], .calibrationPhaseEnd 0 true { table := List.replicate 65 0 } 0,
      .calibrationPhaseEnd 0 true { taps := List.replicate 16 0 } 0,
      .pwrEnAssert 655360, .transit true 101, .hicComplete .debug 0 1152, .pcieLinkChange 0 true 8 0,
      .pcieLinkChange 0 true 0 17, .dmaRequest 0 true (2 ^ 44) [], .dmaRequest 0 true 0 (List.replicate 4097 0),
      .fetchReadReturn 0 0 0 [65536], .profileSwitch .debug 0 (some { builtinProfile 0 with pLim := 65536 }),
      .profileSwitch .debug 0 (some { builtinProfile 0 with dieCap := 65536 }),
      .profileSwitch .debug 0 (some { builtinProfile 0 with ramp := 65536 }),
      .profileSwitch .debug 0 (some { builtinProfile 0 with agentMask := 65536 }),
      .profileSwitch .debug 0 (some { builtinProfile 0 with margining := 3 }),
      .startupPhaseEnd { light := some { read0 with l := [] } }, .railFault 18 65536 0, .railFault 18 0 65536,
      .budgetPeriod (List.replicate 33 ⟨0, 0, 0, true⟩), .forgeWindow (List.replicate 17 0) true false,
      .cartridgeCommissioning 0 [] [], .cartridgeCommissioning 0 line17 (List.replicate 295 0),
      .ringLoopUpdate (List.replicate 295 ⟨0, 0, 0⟩), .llStartPhaseEnd true (List.replicate 7 0) [],
      .firstTouchCopyDone 0 [65536] [], .firstTouchCopyDone 0 [] [65536]], i.wf = false := by
  decide +kernel

/-- The table gives its rows no bits, so no word spells a command. -/
theorem test_no_word_spells_a_command : decodeTableWord 32 0x12345678 = none := by decide

/-! ### States that meet the hypotheses of the statements, by statement -/

/-- The machine with every domain out of reset. -/
def up : State := State.reset.setF BOOT_RST_STATUS_IN_RESET 0 0 0

/-- What a command answers. -/
def out (i : Instr) (s : State) : State :=
  match exec i s with
  | .next t => t
  | _ => s

/-- Source `i` targeting core `c` at priority `p`, pending and unmasked. -/
def source (s : State) (i c p : Nat) : State :=
  (((s.setF HIC_TARGET_CORE 0 i c).setF HIC_TARGET_PRIO 0 i p).putR ⟨.HIC_PEND, 0, i / 64⟩ (1#64 <<< (i % 64))).putR
    ⟨.HIC_MASK, 0, i / 64⟩ (1#64 <<< (i % 64))

/-- The controller enabled, with the last source of all and source 70 at one priority. -/
def wClaim : State := source (source (up.setF HIC_CTRL_EN 0 0 1) 1151 15 5) 70 15 5

theorem witness_ClaimsAndCompletions :
    (wClaim.flag HIC_CTRL_EN 0 0 = true ∧ wClaim.claimable 15 70 = true ∧
      ∀ j, j < 1152 → wClaim.claimable 15 j = true →
        wClaim.getF HIC_TARGET_PRIO 0 j < wClaim.getF HIC_TARGET_PRIO 0 70 ∨
          wClaim.getF HIC_TARGET_PRIO 0 j = wClaim.getF HIC_TARGET_PRIO 0 70 ∧ 70 ≤ j) ∧
    (wClaim.flag HIC_CTRL_EN 0 0 = true ∧ ∀ i, i < 1152 → wClaim.claimable 3 i = false) := by
  decide +kernel

/-- The lowest number wins at equal priority, and the claim clears its pending bit and no other (R407). -/
theorem test_claim_takes_the_lowest :
    (out (.hicClaim 15) wClaim).readData = 0x8000000000000046 ∧
      (out (.hicClaim 15) wClaim).getR ⟨.HIC_PEND, 0, 1⟩ = 0 ∧
      (out (.hicClaim 15) wClaim).getR ⟨.HIC_PEND, 0, 17⟩ = 0x8000000000000000 := by
  decide +kernel

theorem witness_RisingEdgesSetPending :
    (∃ t, exec (.leakDetect 0 0 0) up = .next t) ∧ (4, 22) ∈ levelSources ∧ up.level 4 22 = false ∧
      (out (.leakDetect 0 0 0) up).level 4 22 = true := by
  refine ⟨⟨_, rfl⟩, ?_⟩
  decide +kernel

/-- The leak's level, as it rises, sets pending bit 22 of group 4 (R406, R466). -/
theorem test_leak_sets_pending : ((out (.leakDetect 0 0 0) up).getR ⟨.HIC_PEND, 0, 4⟩).getLsbD 22 = true := by
  decide +kernel

/-- Debug control unlocked with the scopes of `m`. -/
def unlocked (m : Nat) : State := (up.setF DBG_STATUS_UNLOCKED 0 0 1).setF DBG_STATUS_SCOPE 0 0 m

/-- A task of one word 0, dispatched and started. -/
def task (i : Nat) (w : List Word) : Task := { idx := i, w := w, status := .dispatched, started := true }

/-- One graph in slot 0 of die 0, running, with the tasks given. -/
def graphOf (s : State) (ts : List Task) : State :=
  (s.setEngine 0 { s.engine 0 with graphs := [(0, { start := 0, count := ts.length, tasks := ts })] }).setF
    GE_GRAPH_STATUS_STATE 0 0 3

theorem witness_TheDebugPortAnswersAndHalts :
    ((unlocked 0).flag DBG_STATUS_UNLOCKED 0 0 = true ∧ (unlocked 0).flag DBG_STATUS_SERVICE 0 0 = false) ∧
    up.flag DBG_STATUS_UNLOCKED 0 0 = false ∧
    ((unlocked 4).hasScope 2 = true ∧ (unlocked 4).dispatchedOf 0 = [] ∧ ((unlocked 4).engine 0).stepping = false) ∧
    ((graphOf (unlocked 4) [task 0 []]).hasScope 2 = true ∧ (graphOf (unlocked 4) [task 0 []]).dispatchedOf 0 ≠ []) ∧
    (((unlocked 4).setF DBG_GE_CTRL_HALTED 0 3 1).hasScope 2 = true ∧
      ((unlocked 4).setF DBG_GE_CTRL_HALTED 0 3 1).flag DBG_GE_CTRL_HALTED 0 3 = true) := by
  decide +kernel

/-- An owner with a debug key. -/
def wOwned : State := { up with boot := { up.boot with owner := some ⟨1, true, true⟩ } }

/-- Tokens for the state `wOwned`, one good and one whose signature fails. -/
def goodToken : Token := ⟨0xF, wOwned.getR ⟨.PORT_MOD_ID, 0, 0⟩, wOwned.nonce, 60, true, true⟩
def badToken : Token := { goodToken with signatureOk := false }

theorem witness_UnlocksBeginAndEnd :
    (wOwned.flag DBG_STATUS_SERVICE 0 0 = false ∧ wOwned.tokenGood goodToken = true) ∧
    wOwned.tokenGood badToken = false ∧
    ((unlocked 15).isAgent (.forge 0) = true ∧ (unlocked 15).flag DBG_STATUS_UNLOCKED 0 0 = true ∧
      (unlocked 15).flag DBG_STATUS_SERVICE 0 0 = false) := by
  refine ⟨⟨by decide +kernel, ?_⟩, by decide +kernel⟩
  simp [State.tokenGood, goodToken, wOwned]

/-- Device time under PPS, with the edge before last second's end. -/
def wPps (first : Bool) : State :=
  { up.setF TIME_CFG_PPS_EN 0 0 1 with time := 5000000000, clock := { up.clock with first := first, lastAt := 4000000000 } }

/-- Monitor 63 of the hub enabled with its widest field values, in window 2, the bank of window 0 full. -/
def wMon : State :=
  { up with time := 2000000000,
            mons := [(4 * 64 + 63, { cfg := MON_CFG_EN.set 0xF4240 1, even := { window := some 0, lo := 1, hi := 9, count := 2, bins := [(31, 2)] } })] }

theorem witness_DeviceTimeAndMonitorWindows :
    (up.setF TIME_CFG_PPS_EN 0 0 0).flag TIME_CFG_PPS_EN 0 0 = false ∧ (wPps true).flag TIME_CFG_PPS_EN 0 0 = true ∧
    ((wPps true).clock.first = true ∧ (5000999999 + 500000000) / 1000000000 * 1000000000 = 5000000000 ∧
      ((5000999999 : Nat) : Int) - 5000000000 = 999999) ∧
    ((wPps false).clock.lastAt + 900000000 ≤ 5000000000 ∧ 5000000000 ≤ (wPps false).clock.lastAt + 1100000000) ∧
    up.flag TIME_STATUS_HOLDOVER 0 0 = false ∧
    (MON_CFG_EN.get (wMon.mon 4 63).cfg = 1 ∧ wMon.time / winNs (wMon.mon 4 63).cfg = 2 ∧
      (wMon.mon 4 63).even.window = some 0) := by
  decide +kernel

/-- A word from values at bit positions. -/
def wd (l : List (Nat × Nat)) : Word := l.foldl (fun a x => a + BitVec.ofNat 64 (x.2 * 2 ^ x.1)) 0

theorem witness_ManagementCommandsAnswer :
    (∃ r : State → Reply → State, ∀ u x, r u x = { u with hub := { u.hub with reply := x } }) ∧
    ((up.setF PWR_STATUS_STATE 0 0 2).getF PWR_STATUS_STATE 0 0 = 2 ∧ (up.setF PWR_STATUS_STATE 0 0 2).getF PORT_MOD_JOB_JOB 0 0 = 0) ∧
    (up.setF PWR_STATUS_STATE 0 0 5).getF PWR_STATUS_STATE 0 0 = 5 := by
  refine ⟨⟨_, fun _ _ => rfl⟩, ?_⟩
  decide +kernel

/-- A record that waits in the spool. -/
def wSpool (dropped : Bool) : State := { up with elog := { up.elog with spoolDropped := dropped } }

/-- Forge windows counted so far. -/
def wForge (runs clear : Nat) : State := { up with hub := { up.hub with overRun := runs, clearRun := clear } }

theorem witness_TheHubWatchesItsLinksAndForge :
    (up.setF HIC_MGMT_STATUS_STREAM 0 0 1).flag HIC_MGMT_STATUS_STREAM 0 0 = true ∧
    (wSpool false).elog.spoolDropped = false ∧ (wSpool true).elog.spoolDropped = true ∧
    ((wForge 2 0).flag HIC_FORGE_STATUS_OVERLOAD 0 0 = false ∧ (wForge 2 0).hub.overRun = 2) ∧
    (((wForge 3 99).setF HIC_FORGE_STATUS_OVERLOAD 0 0 1).flag HIC_FORGE_STATUS_OVERLOAD 0 0 = true ∧
      (wForge 3 99).hub.clearRun = 99) := by
  decide +kernel

/-- The tier-2 ring at 2 MiB, one slot. -/
def wRing : State := (up.setF ING_T2_BASE 0 0 1).setF ING_T2_VALID 0 0 1

theorem witness_DrivesReachOnlyTheirWindows :
    (0x0BC10000000 ≤ 0x0BFFFFFFFFF ∧ 0x0BFFFFFFFFF + [0xAB#8].length ≤ 0x0C000000000) ∧
    (wRing.inT2Ring 0x200000 0x1000 = true ∧ wRing.inT2Ring 0x40FFFF 1 = true) ∧
    (¬ (0x0BC10000000 ≤ 0x0BFFFFFFFFF ∧ 0x0BFFFFFFFFF + [0xAB#8, 0].length ≤ 0x0C000000000) ∧
      wRing.inT2Ring 0x0BFFFFFFFFF 2 = false ∧ wRing.inT2Ring 0x1FFFFF 1 = false ∧ wRing.inT2Ring 0x410000 1 = false) ∧
    up.flag HIC_PCIE_STATUS_UP 0 1 = false := by
  decide +kernel

theorem witness_RegisterWritesFollowAccessTypes :
    (Requester.forge 3 ≠ .debug ∧ State.isRegAddr 0xF0000D00104 = true ∧ 0xF0000D00104 % 8 ≠ 0) ∧
    (State.isRegAddr 0xF0000D00100 = true ∧ 0xF0000D00100 % 8 = 0 ∧ State.reset.inReset (dieOfAddr 0xF0000D00100) = true) ∧
    (State.isRegAddr 0xF11FFFFFFF8 = true ∧ 0xF11FFFFFFF8 % 8 = 0 ∧ up.inReset (dieOfAddr 0xF11FFFFFFF8) = false ∧
      regAt 0xF11FFFFFFF8 = none) ∧
    (0xF0300D00100 = dieReg (3 : Fin 4) 0xD00100 ∧ up.inReset (3 : Fin 4) = false) ∧
    (∃ a, a = hubReg 9 0x20 ∧ regAt a = some ⟨.TIME_STATUS, 0, 0⟩ ∧ a % 8 = 0 ∧ dieOfAddr a = 4 ∧ a % 0x100000000 / 0x1000000 = 9 ∧
      State.isRegAddr a = true ∧ up.inReset (dieOfAddr a) = false) := by
  refine ⟨by decide +kernel, by decide +kernel, by decide +kernel, by decide +kernel, _, rfl, ?_⟩
  decide +kernel

/-- A running REGWRITE of die 0: one register, the second address 0. -/
def xWrite : Task := task 1 [wd [(60, 14)], 0, 0, 0, wd [(0, 0xF0000D00100), (44, 7)], 0, 0, 0]

theorem witness_AccessesOutsideRegisters :
    (State.isRegAddr (2 ^ 44 - 1) = false ∧ up.mapped (2 ^ 44 - 1) = false) ∧
    up.hasScope 0 = false ∧
    ((unlocked 1).hasScope 0 = true ∧ State.isRegAddr (0x1001FFFFFF8#44).toNat = false ∧ (0x1001FFFFFF8#44).toNat % 8 = 0 ∧
      (unlocked 1).mapped (0x1001FFFFFF8#44).toNat = true) ∧
    ((graphOf up [xWrite]).running? n0 .regwrite = some xWrite ∧ xWrite.rwAddr 0 ≠ 0 ∧ xWrite.rwAddr 1 = 0) := by
  decide +kernel

/-- A graph runs in slot 0 of die 0. -/
def wRunning : State := graphOf up [task 1 []]

theorem witness_TheAgentHoldsQuarantineAndJob :
    (up.isAgent (.forge 1) = true ∧ up.flag HIC_QUAR_Q 0 0 = false) ∧
    (up.setF HIC_QUAR_Q 0 0 1).flag HIC_QUAR_Q 0 0 = true ∧
    (up.isAgent (.forge 2) = false ∧ up.flag HIC_QUAR_Q 0 0 = false) ∧
    (up.anyRunning = false ∧ up.getF PWR_STATUS_STATE 0 0 ≠ 5 ∧ up.flag PROF_STATUS_PENDING 0 0 = false ∧ up.ingot.active = false) ∧
    wRunning.anyRunning = true ∧ PORT_MOD_JOB_JOB.get 0xFFFF ≠ 0 := by
  decide +kernel

/-- A report, and the hub buffer with `k` records. -/
def report (sev : BitVec 2) : Report := ⟨0x0901, sev, 9, 0, none, 0, none, 0, false⟩
def rec0 : ErrRec := ⟨0, 0, 0, false, false, none, 0, 0, 0, 0, 0, 0, none, 0, 0, 0, 0, 0, 0⟩
def wBuffer (k : Nat) : State := { up with elog := { up.elog with seq := 2 ^ 32 - 1, hub := List.replicate k rec0 } }

theorem witness_RecordsReachTheRing :
    ((wBuffer 63).flag HIC_ELOG_BASE_VALID 0 0 = false ∧ (wBuffer 63).elog.seq < 2 ^ 32 ∧ (wBuffer 63).elog.hub.length < 64) ∧
    ((wBuffer 64).elog.seq < 2 ^ 32 ∧ 64 ≤ (wBuffer 64).elog.hub.length ∧ (report 0).severity = 0) ∧
    (∃ v : Word, v = HIC_ELOG_BASE_SIZE_LOG2.set (1#64 <<< 63) 10 ∧ v.bit 63 = true ∧ 10 ≤ HIC_ELOG_BASE_SIZE_LOG2.get v ∧
      HIC_ELOG_BASE_SIZE_LOG2.get v ≤ 20 ∧ (wBuffer 64).elog.hub.length ≤ 64 ∧
      (wBuffer 64).getF HIC_ELOG_PROD_INDEX 0 0 = 0 ∧ (wBuffer 64).getF HIC_ELOG_CONS_INDEX 0 0 = 0) := by
  refine ⟨by decide +kernel, by decide +kernel, _, rfl, ?_⟩
  decide +kernel

/-- A flash operation in progress. -/
def wFlash (op : Nat) : State := { up with boot := { up.boot with flashOp := some ⟨op, 0x1000000, 64, 0x10000000000⟩ } }

def wKey (k : Nat) : State := { up with boot := { up.boot with runningKey := k } }

theorem witness_FlashAndCounters :
    (up.isAgent (.forge 0) = true ∧ up.flag BOOT_FLASH_CMD_BUSY 0 0 = false) ∧
    (0x1000000 ≤ (0x2FFFFFF#27).toNat ∧ (0x2FFFFFF#27).toNat + (up.getF BOOT_FLASH_BUF_LEN 0 0 + 1) ≤ 0x3000000) ∧
    (0x1000000 ≤ (0x4FF0000#27).toNat ∧ (0x4FF0000#27).toNat < 0x5000000 ∧ (0x4FF0000#27).toNat % 65536 = 0) ∧
    (0x0080000 ≤ (0x0FFFFFF#27).toNat ∧ (0x0FFFFFF#27).toNat < 0x1000000) ∧
    (wFlash 1).boot.flashOp = some ⟨1, 0x1000000, 64, 0x10000000000⟩ ∧
    (wFlash 2).boot.flashOp = some ⟨2, 0x1000000, 64, 0x10000000000⟩ ∧
    (up.getF BOOT_CTR_VALUE 0 2 < (0xFFFFFFFF#64).toNat % 2 ^ 32 ∧
      up.getF BOOT_CTR_VALUE 0 3 < (1#64).toNat % 2 ^ 32 ∧ (1#64).toNat % 2 ^ 32 ≤ (wKey 1).boot.runningKey) ∧
    (0#64).toNat % 2 ^ 32 ≤ up.getF BOOT_CTR_VALUE 0 0 := by
  decide +kernel

theorem witness_ProfileCommandsWait :
    (∃ u : Bool → Option Profile → State, ∀ reset x, u reset x = ((({ up with boot := { up.boot with pendingProf := x.filter fun p =>
        p.letter = 2 } } : State).setF PROF_STATUS_PENDING 0 0 1).setF PROF_STATUS_PENDING_PROF 0 0 2).setF
          PROF_STATUS_RESET_PENDING 0 0 reset.toNat) ∧
    (up.isAgent (.forge 0) = true ∧ (2 : Fin 4) ≠ 3 ∧ up.getF PROF_STATUS_ACTIVE 0 0 ≠ 3) ∧
    up.boot.owner = none ∧ up.isAgent (.forge 15) = false := by
  refine ⟨⟨_, fun _ _ => rfl⟩, ?_⟩
  decide +kernel

/-! ### Start-up, power and temperature -/

def goodImage : ImageCheck := ⟨true, true, true, 7, 0, 0⟩
def badImage : ImageCheck := { goodImage with slhOk := false }

/-- The hub's boot ROM about to start: before phase 1, RESET_N released, slot A preferred. -/
def wBoot : State :=
  { up.setF PWR_PINS_RESET_N 0 0 1 with boot := { up.boot with hdr0 := { valid := true, seq := 1, pref := 0 } } }

/-- A trial of slot A, in phase 2 since 1 s. -/
def wTrial (t : Nat) : State :=
  { up with time := t, boot := { up.boot with phase2At := 1000000000, hdr0 := { valid := true, seq := 1, pref := 0, trial := true, tries := 3 } } }

def wRecovery : State := up.setF BOOT_STATUS_RECOVERY 0 0 1

theorem witness_TheBootRomStartsOrRecovers :
    (wBoot.getF BOOT_STATUS_PHASE 0 0 = 0 ∧ wBoot.input.off = false ∧ wBoot.flag PWR_PINS_RESET_N 0 0 = true ∧
      wBoot.boot.commanded = none ∧ wBoot.header.trial = false ∧ wBoot.header.pref = 0) ∧
    (wBoot.imageValid goodImage = true ∧ wBoot.imageValid badImage = false) ∧
    ((wTrial 301000000000).header.trial = true ∧ (wTrial 301000000000).flag BOOT_STATUS_READY 0 0 = false ∧
      (wTrial 301000000000).boot.phase2At + 300000000000 ≤ (wTrial 301000000000).time) ∧
    (wTrial 300999999999).time < (wTrial 300999999999).boot.phase2At + 300000000000 ∧
    (wRecovery.flag BOOT_STATUS_RECOVERY 0 0 = true ∧ wRecovery.imageValid goodImage = true ∧
      wRecovery.boot.hdr0.seq < 2 ^ 32 - 1 ∧ wRecovery.boot.hdr1.seq < 2 ^ 32 - 1) ∧
    wRecovery.imageValid badImage = false := by
  decide +kernel

/-- The start-up in phase `p`, the rails in phase `q`. -/
def wPhase (p q : Nat) : State :=
  { up.setF BOOT_STATUS_PHASE 0 0 p with input := { up.input with railPhase := q } }

/-- The feed pins read twice as `v`. -/
def wFeed (v : BitVec 8) : State := { up with boot := { up.boot with feedReads := [v, v], feedSeen := true } }

theorem witness_StartupPhasesAndStraps :
    ((wPhase 2 0).flag BOOT_STATUS_STOPPED 0 0 = false ∧ (wPhase 2 0).flag BOOT_STATUS_RECOVERY 0 0 = false ∧
      (wPhase 2 0).boot.held = false ∧ (wPhase 2 0).getF BOOT_STATUS_PHASE 0 0 = 2) ∧
    ((wPhase 4 5).getF BOOT_STATUS_PHASE 0 0 = 4 ∧ (wPhase 4 5).input.railPhase = 5) ∧
    ((wPhase 4 4).getF BOOT_STATUS_PHASE 0 0 = 4 ∧ (wPhase 4 4).input.railPhase ≠ 5) ∧
    (((wPhase 5 5).setF BOOT_RST_STATUS_SEQ_DONE 0 0 1).getF BOOT_STATUS_PHASE 0 0 = 5 ∧
      ((wPhase 5 5).setF BOOT_RST_STATUS_SEQ_DONE 0 0 1).flag BOOT_RST_STATUS_SEQ_DONE 0 0 = true ∧
      (wPhase 5 5).flag BOOT_RST_STATUS_SEQ_DONE 0 0 = false) ∧
    (((wPhase 7 5).setF LL_STATUS_READY 0 0 1).getF BOOT_STATUS_PHASE 0 0 = 7 ∧
      ((wPhase 7 5).setF LL_STATUS_READY 0 0 1).flag LL_STATUS_READY 0 0 = true ∧ (wPhase 7 5).flag LL_STATUS_READY 0 0 = false) ∧
    (wPhase 8 5).getF BOOT_STATUS_PHASE 0 0 = 8 ∧
    ((wPhase 9 5).flag BOOT_STATUS_STOPPED 0 0 = false ∧ (wPhase 9 5).getF BOOT_STATUS_PHASE 0 0 = 9) ∧
    ((wFeed 0xFE).boot.feedReads = [0xFE, 0xFE] ∧ (wFeed 0xFE).boot.feedSeen = true ∧
      (wFeed 0xFE).getF PWR_PINS_FEED_ID 0 0 ≠ (0xFE#8).toNat ∧ (0xFE#8) ≠ 0xFF) ∧
    ((wFeed 0xFE).boot.feedReads.head? = some 0xFE ∧ (3#8) ≠ 0xFE) := by
  decide +kernel

def wInput (f : InputSt → InputSt) : State := { up with input := f up.input }

theorem witness_TheInputVoltageIsWatched :
    (∃ down : State → Prop, ∀ t, down t ↔ (t.input.switchClosed = false ∧ t.input.off = true ∧ t.input.powerGood = false ∧
      t.input.inrush = false ∧ t.input.holdUp = false ∧ ∀ i, i < 32 → i ≠ 18 → t.flag PWR_RAIL_GOOD 0 i = false)) ∧
    ((wInput fun x => { x with switchClosed := false }).input.switchClosed = false ∧ 44000 ≤ 44000) ∧
    ((wInput fun x => { x with switchClosed := false }).setF PWR_PINS_PWR_EN 0 0 1).flag PWR_PINS_PWR_EN 0 0 = true ∧
    43999 < 44000 ∧ (wInput fun x => { x with inrush := true }).input.inrush = true ∧ 59000 < 59001 ∧
    (wInput fun x => { x with holdUp := true }).input.holdUp = true ∧ (39999 < 40000 ∧ up.input.off = false) ∧
    (58000 ≤ 58000 ∧ 59000 ≤ 59000 ∧ 46000 ≤ 46000) := by
  refine ⟨⟨_, fun _ => Iff.rfl⟩, ?_⟩
  decide +kernel

theorem witness_RailsAndBudgets :
    ((wPhase 0 1).input.railPhase = 1 ∧ (wPhase 0 1).input.railStopped = false) ∧
    ((wPhase 0 4).input.railPhase = 4 ∧ (wPhase 0 4).input.railStopped = false) ∧
    (6 ≤ (17 : Fin 32).val ∧ (17 : Fin 32).val < 18) ∧
    (([⟨1, 2, 3, true⟩] : List RailReading)[0]? = some ⟨1, 2, 3, true⟩) ∧
    ((List.replicate 19 (⟨1, 2, 3, true⟩ : RailReading))[18]? = some ⟨1, 2, 3, true⟩) ∧
    up.inReset 3 = false ∧ up.getF PWR_CFG_IN_MAX_W 0 0 ≤ up.getF PWR_CFG_IN_MAX_W 0 0 ∧
    ((up.setF LC_STATUS_PRESENT 0 2 1).setF LC_STATUS_LATCH 0 2 1).flag LC_STATUS_PRESENT 0 2 = true := by
  decide +kernel

theorem witness_QuenchCutsOnTemperature :
    ((∀ d < 4, up.flag THM_STATUS_QUENCHED d 0 = false) ∧ up.input.off = false ∧ 39999 < 40000 ∧
      up.getF PWR_CFG_IN_MAX_W 0 0 < up.getF PWR_CFG_IN_MAX_W 0 0 + 1 ∧ 960 ≤ (960#16).toInt) ∧
    (up.inReset (3 : Fin 4) = false ∧ (∀ x ∈ (up.sensorOf 3 63).samples, -32768 ≤ x.2 ∧ x.2 < 32768) ∧
      (out (.sensorSample 3 63 1760) up).hotAt 3 63 = true ∧ (out (.sensorSample 3 63 800) up).hotAt 3 63 = false) := by
  decide +kernel

/-- Die 3 quenched, its sensors and stacks cool, the minimum time over. -/
def wQuenched : State :=
  { (up.setF THM_STATUS_QUENCHED 3 0 1).setF PWR_PINS_PWR_EN 0 0 1 with
    time := 10000000000, quench := [(3, { since := 1 })] }

theorem witness_QuenchEndsUnderR395 :
    (wQuenched.flag THM_STATUS_QUENCHED 3 0 = true ∧ wQuenched.flag THM_STATUS_HELD 3 0 = false ∧
      (wQuenched.quenchOf 3).since + wQuenched.getF THM_CFG_QMIN_US 3 0 * 1000 ≤ wQuenched.time ∧
      (∀ i < 64, sgn16 (wQuenched.getF THM_SENSOR_TEMP 3 i) - sgn16 (wQuenched.getF THM_SENSOR_REF 3 i) < 80 ∧
        sgn16 (wQuenched.getF THM_SENSOR_TEMP 3 i) ≤ wQuenched.tMax 3 - 80) ∧
      (∀ j < 3, sgn16 (wQuenched.getF CRU_THERM_TEMP (3 * 3 + j) 0) < 1600) ∧ wQuenched.moduleCause = false ∧
      (wQuenched.quenchOf 3).clearSince = 0 ∧ wQuenched.runningTokens 3 ≤ wQuenched.ramp 3) ∧
    (up.setF THM_STATUS_HELD 0 0 1).flag THM_STATUS_HELD 0 0 = true ∧
    (up.inReset (0 : Fin 4) = false ∧ State.reset.inReset (0 : Fin 4) = true) ∧ 640 < (641#16).toInt := by
  decide +kernel

/-- Two requests wait in the arbiter of die 2, the second of higher priority; `b` tokens of budget and `r` of ramp. -/
def req (p tok since : Nat) : LeaveReq := ⟨⟨2, 0, p⟩, tok, p, 0, since, p⟩
def wLeave (b r : Nat) : State :=
  ((up.setEngine 2 { up.engine 2 with waitq := [req 1 8 0, req 5 80 1] }).setF PWR_LV_STATUS_BUDGET 2 0 b).setF PWR_LV_CFG_RAMP 2 0 r
def wLeave2 (b : Nat) : State :=
  (up.setEngine 2 { up.engine 2 with waitq := [req 5 80 1, req 1 8 0] }).setF PWR_LV_STATUS_BUDGET 2 0 b
def wGrant : State :=
  { graphOf up [task 1 []] with engines := [(0, { (graphOf up [task 1 []]).engine 0 with issued := [⟨n0, 80, 33, 0⟩] })] }
def wHold : State := (up.setCore (2 * 34 + 33) { up.core 0 with held := 80 }).setF PWR_LV_STATUS_GRANTED 2 0 80

theorem witness_LeaveIsGrantedInOrder :
    ((wLeave 80 80).flag THM_STATUS_QUENCHED 2 0 = false ∧ (wLeave 80 80).flag PWR_STATUS_PFAIL 0 0 = false ∧
      (∃ h, h = req 5 80 1 ∧ h ∈ ((wLeave 80 80).engine 2).waitq ∧
        (∀ x ∈ ((wLeave 80 80).engine 2).waitq, x ≠ h → x.prio < h.prio ∨ x.prio = h.prio ∧ h.since < x.since) ∧
        (wLeave 80 80).fitsBudget 2 h.tokens = true ∧ (wLeave 80 80).fitsRamp 2 h.tokens = true)) ∧
    (∃ h g, h = req 5 80 1 ∧ g = req 1 8 0 ∧ ((wLeave2 8).engine 2).waitq = [h, g] ∧ (wLeave2 8).fitsBudget 2 h.tokens = false ∧
      (wLeave2 8).fitsBudget 2 g.tokens = true ∧ (wLeave2 8).fitsRamp 2 g.tokens = true ∧ (wLeave2 8).headLocked 2 h = false) ∧
    (∃ s : State, s = { wLeave 80 79 with time := 1000000000000 } ∧ s.fitsBudget 2 80 = true ∧ s.fitsRamp 2 80 = false ∧
      s.headLocked 2 (req 5 80 1) = true) ∧
    (wGrant.flag THM_STATUS_QUENCHED 0 0 = false ∧ (wGrant.engine 0).issued = [⟨n0, 80, 33, 0⟩] ∧
      (wGrant.task? n0).isSome = true) ∧
    (wHold.inUse 2 33 < (wHold.coreAt 2 33).held ∧ (wHold.coreAt 2 33).held ≤ wHold.granted 2) := by
  refine ⟨⟨by decide +kernel, by decide +kernel, _, rfl, by decide +kernel⟩, ⟨_, _, rfl, rfl, by decide +kernel⟩,
    ⟨_, rfl, by decide +kernel⟩, ?_⟩
  decide +kernel

/-! ### Braze, resets, the graph engine -/

/-- The first edge between dies 0 and 1 up with its eight bundles. -/
def wEdge : State := (up.setF BRZ_STATUS_STATE (State.brz 0 1) 0 2).setF BRZ_STATUS_ACTIVE (State.brz 0 1) 0 0xFF
def flit0 : Flit := ⟨0, 0, [1]⟩
def flitLate : Flit := ⟨0xFF, 0, [2]⟩
def flitAhead : Flit := ⟨0, 1, [3]⟩
def wReplay : State := { wEdge with links := [(linkKey 0 1 false, { bundles := [(7, { replay := [flitLate] })] })] }
/-- A later millisecond, the retirement threshold and persistence at their widest. -/
def wLateEdge : State :=
  { (wEdge.setF BRZ_CFG_PERSIST (State.brz 0 1) 0 3).setF BRZ_CFG_RETIRE_THR (State.brz 0 1) 0 1 with time := 5000000 }

theorem witness_BrazeLinksDeliver :
    (wEdge.bundleActive (0 : Fin 4) (1 : Fin 6) (7 : Fin 8) = true ∧ flit0.bseq = (wEdge.bundle (linkKey 0 1 false) 7).expect ∧
      (wEdge.link (linkKey 0 1 false)).early = [] ∧ flit0.eseq = (wEdge.link (linkKey 0 1 false)).expect) ∧
    (flitAhead.bseq = (wEdge.bundle (linkKey 0 1 false) 7).expect ∧ flitAhead.eseq ≠ (wEdge.link (linkKey 0 1 false)).expect) ∧
    (flitLate.bseq ≠ (wReplay.bundle (linkKey 0 1 false) 7).expect ∧
      (wReplay.bundle (linkKey 0 1 false) 7).replay.any (fun y => y.bseq = flitLate.bseq) = true ∧
      wReplay.bundleActive (0 : Fin 4) (1 : Fin 6) (7 : Fin 8) = true) ∧
    (wLateEdge.bundleActive (0 : Fin 4) (1 : Fin 6) (7 : Fin 8) = true ∧
      (wLateEdge.bundle (linkKey 0 1 false) 7).fails + 1 < wLateEdge.getF BRZ_CFG_PERSIST (State.brz 0 1) 0 ∧
      (wLateEdge.link (linkKey 0 1 false)).window ≠ wLateEdge.time / 1000000 ∧ 1 ≤ wLateEdge.getF BRZ_CFG_RETIRE_THR (State.brz 0 1) 0) ∧
    ((7 : Fin 8).val < bundlesOf (1 : Fin 6) ∧ wEdge.bundleRetired 0 1 7 = false ∧ wEdge.inReset (0 : Fin 4) = false) ∧
    ((0 : Fin 8).val < bundlesOf (0 : Fin 6) ∧ (up.setF BRZ_STATUS_STATE (State.brz 0 0) 0 1).bundleRetired 0 0 0 = false ∧
      (up.setF BRZ_STATUS_STATE (State.brz 0 0) 0 1).getF BRZ_STATUS_STATE (State.brz 0 0) 0 = 1 ∧
      ∀ j < bundlesOf (0 : Fin 6), j ≠ (0 : Fin 8).val → False) := by
  decide +kernel

/-- The power-on sequence in phase `p` over every domain. -/
def wSeq (p : Nat) : State :=
  { State.reset.setF BOOT_RST_STATUS_PHASE 0 0 p with boot := { State.reset.boot with seqMask := 2 ^ 18 - 1 } }
def wReady : State := up.setF PWR_STATUS_STATE 0 0 2

theorem witness_ResetsAndTheSequencer :
    (wReady.domainRstAllowed = true ∧ (0x10#18).getLsbD 4 = true) ∧
    (((17 : Fin 18).val ≠ 4) ∧ ((up.setF BOOT_CLK_STATUS_LOCK 0 0 0x20000).getF BOOT_CLK_STATUS_LOCK 0 0).testBit 17 = true) ∧
    State.reset.sequencing = false ∧ Requester.debug ≠ .bootRom ∧
    (∀ p, p < 6 → 1 ≤ p → (wSeq p).sequencing = true ∧ (wSeq p).getF BOOT_RST_STATUS_PHASE 0 0 = p ∧
      (wSeq p).boot.seqMask = 2 ^ 18 - 1) ∧
    ((wSeq 5).setF LC_STATUS_PRESENT 0 2 1).flag LC_STATUS_PRESENT 0 2 = true ∧
    ((0x20000#18) ≠ 0 ∧ wRunning.domainRstAllowed = false ∧ (0x20000#18).getLsbD 4 = false) := by
  decide +kernel

/-- The bytes of a descriptor. -/
def descriptor (l : List Word) : List Byte := l.flatMap fun w => toLe 8 w.toNat

/-- Slot 15 of die 0 validating one task, a WAIT of token 0. -/
def wValidating (l : List Word) : State :=
  let s := (up.storeAll 0x10000000000 (descriptor l) none).setF GE_GRAPH_STATUS_STATE 0 15 2
  s.setEngine 0 { s.engine 0 with graphs := [(15, { start := 0, count := 1, tasks := [] })], validating := some 15 }

/-- The graph region of die 0 at the start of its pool. -/
def wRegion : State := up.setF GE_GRAPH_BASE_BASE 0 0 0x20000
def wValid (l : List Word) : State := { wValidating l with regs := ((wValidating l).setF GE_GRAPH_BASE_BASE 0 0 0x20000).regs }
def xWait : List Word := [wd [(60, 12)], 0, 0, 0, 0, 0, 0, 0]

/-- A die's engine enabled. -/
def enabled (d : Nat) (s : State) : State := s.setF GE_CTRL_EN d 0 1

theorem witness_GraphsEnterThroughValidation :
    ((enabled 3 up).inReset (3 : Fin 4) = false ∧ (enabled 3 up).flag GE_CTRL_EN 3 0 = true ∧ (enabled 3 up).slotState 3 15 = 0 ∧
      ((enabled 3 up).engine 3).validating = none ∧ ((enabled 3 up).engine 3).submitted = []) ∧
    ((enabled 0 (wValid xWait)).flag GE_CTRL_EN 0 0 = true ∧ (enabled 0 (wValid xWait)).slotState 0 14 = 0 ∧
      ((enabled 0 (wValid xWait)).engine 0).validating ≠ none) ∧
    ((enabled 0 (up.setF GE_GRAPH_STATUS_STATE 0 2 4)).flag GE_CTRL_EN 0 0 = true ∧ 4 ≤ (up.setF GE_GRAPH_STATUS_STATE 0 2 4).slotState 0 2) ∧
    ((up.setF GE_GRAPH_STATUS_STATE 0 2 3).slotState 0 2 ≠ 0 ∧ (up.setF GE_GRAPH_STATUS_STATE 0 2 3).slotState 0 2 < 4) ∧
    up.flag GE_CTRL_EN 0 0 = false ∧
    (∃ e : Engine, e = (up.setEngine 0 { up.engine 0 with submitted := [5, 6] }).engine 0 ∧ e.validating = none ∧
      e.submitted = 5 :: [6]) ∧
    (((wValid xWait).engine 0).validating = some 15 ∧ (wValid xWait).graphError 0 15 = none) ∧
    (((wValid [0]).engine 0).validating = some 15 ∧ (wValid [0]).graphError 0 15 = some (0, 1)) := by
  refine ⟨by decide +kernel, by decide +kernel, by decide +kernel, by decide +kernel, by decide +kernel,
    ⟨_, rfl, by decide +kernel⟩, ?_⟩
  decide +kernel

/-- A waiting task of a kind, with the eligible cores given. -/
def ready (i k e : Nat) : Task := { idx := i, w := [wd [(60, k)], BitVec.ofNat 64 e, 0, 0] }
/-- A VECTOR task ready in a running graph that core 31 alone may take. -/
def wReadyCore : State := graphOf up [ready 1 2 0x80000000]
def wReadyEngine : State := graphOf up [ready 1 13 0]
/-- Task 1 done, task 2 its only successor. -/
def wDone : State := graphOf up [{ task 1 [wd [(60, 13)]] with fin := true, succ := [2] }, { ready 2 13 0 with pred := 1 }]
/-- A core task that has run past its quantum, said or not. -/
def wOver (said : Bool) : State := graphOf up [{ task 1 [wd [(60, 2)]] with overrun := said }]

theorem witness_TasksAreDispatchedAndComplete :
    (wReadyCore.mayDispatch 0 = true ∧
      (wReadyCore.picks 0).find? (fun y => y.1 = (31 : Fin 32).val) = some (31, n0, ready 1 2 0x80000000) ∧
      wReadyCore.physOf 0 31 = some 31 ∧ (ready 1 2 0x80000000).status = .waiting ∧ wReadyCore.breaksAt n0 = false ∧
      (ready 1 2 0x80000000).kind ≠ .fused) ∧
    ((((wReadyCore.setF DBG_GE_CTRL_BREAK_EN 0 0 1).setF DBG_GE_CTRL_TASK 0 0 1).picks 0).find? (fun y => y.1 = 31) =
        some (31, n0, ready 1 2 0x80000000) ∧
      ((wReadyCore.setF DBG_GE_CTRL_BREAK_EN 0 0 1).setF DBG_GE_CTRL_TASK 0 0 1).breaksAt n0 = true) ∧
    (wReadyCore.setF DBG_GE_CTRL_HALT 0 0 1).mayDispatch 0 = false ∧
    (n0.d = (0 : Fin 4).val ∧ wReadyEngine.mayDispatch 0 = true ∧ wReadyEngine.nextEngine n0 = true ∧
      wReadyEngine.breaksAt n0 = false ∧ wReadyEngine.task? n0 = some (ready 1 13 0) ∧ (ready 1 13 0).channel = none ∧
      (ready 1 13 0).kind ≠ .fused) ∧
    ((wDone.task? n0).any (fun x => x.status = .dispatched && x.started && x.fin && !x.stopAtYield && x.succ == [2]) = true ∧
      wDone.writeWaits n0 = false ∧ wDone.slotState n0.d n0.g = 3 ∧ wDone.digestOn = false ∧ (wDone.task? ⟨0, 0, 2⟩).isSome = true) ∧
    (((wOver false).task? n0).any (fun x => x.status = .dispatched && x.started && !x.overrun && x.kind.isCore) = true) ∧
    (((wOver true).task? n0).any (fun x => x.overrun) = true) := by
  decide +kernel

/-- A WAIT of token 4031, one of threshold `h`, with or without CONSUME. -/
def xWaits (h c : Nat) : Task := task 1 [wd [(60, 12)], 0, 0, 0, wd [(0, 4031), (12, c), (13, h)], 0, 0, 0]
def xSignal (local_ tok : Nat) : Task := task 1 [wd [(60, 11)], 0, 0, 0, wd [(0, local_), (25, 3), (28, tok), (40, 65535)], 0, 0, 0]
def xFence : Task := task 1 [wd [(60, 13)], 0, 0, 0, 0x801, 0, 0, 0]

theorem witness_TokensWaitsAndFences :
    ((4031 : Fin 4096).val < 4032 ∧ up.waitsOn 3 4031 = []) ∧ 4032 ≤ (4032 : Fin 4096).val ∧
    ((graphOf up [xWaits 0 0]).running? n0 .wait = some (xWaits 0 0) ∧
      (graphOf up [xWaits 0 0]).waitsOn 0 (xWaits 0 0).waToken = [(n0, xWaits 0 0)] ∧
      0 ≤ (BitVec.ofNat 32 ((graphOf up [xWaits 0 0]).getF GE_TOKEN_COUNT 0 4031) - BitVec.ofNat 32 (xWaits 0 0).waThreshold).toInt ∧
      (xWaits 0 0).waConsume = false) ∧
    ((graphOf up [xWaits 0x80000001 1]).running? n0 .wait = some (xWaits 0x80000001 1) ∧ (xWaits 0x80000001 1).waConsume = true ∧
      (BitVec.ofNat 32 0 - BitVec.ofNat 32 (xWaits 0x80000001 1).waThreshold).toInt = 2147483647) ∧
    ((graphOf up [xWaits 1 0]).running? n0 .wait = some (xWaits 1 0) ∧
      (BitVec.ofNat 32 0 - BitVec.ofNat 32 (xWaits 1 0).waThreshold).toInt < 0) ∧
    ((graphOf up [xSignal 1 4031]).running? n0 .signal = some (xSignal 1 4031) ∧ (xSignal 1 4031).sgLocal = true ∧
      (xSignal 1 4031).sgToken < 4032 ∧ (graphOf up [xSignal 1 4031]).waitsOn (xSignal 1 4031).sgDie (xSignal 1 4031).sgToken = []) ∧
    ((graphOf up [xSignal 0 5]).running? n0 .signal = some (xSignal 0 5) ∧ (xSignal 0 5).sgLocal = false ∧
      (graphOf up [xSignal 0 5]).placed = false) ∧
    ((graphOf up [xFence]).running? n0 .fence = some xFence ∧ xFence.feMask.testBit 11 = true ∧ xFence.feMask.testBit 1 = false) := by
  decide +kernel

/-- Region 255: a waiting task and its successor; a task at a yield point, its core asking for preemption or not. -/
def inRegion (t : Task) (k : Nat) : Task := { t with w := (t.word 0 ||| wd [(44, 255), (43, 1), (60, k)]) :: t.w.drop 1 }
def wCancel : State := graphOf up [{ inRegion (ready 1 13 0) 13 with succ := [2] }, { ready 2 13 0 with pred := 1 }]
def xYield : Task := inRegion { task 1 [0] with core := some 31 } 2
def wYield (p : Bool) : State :=
  let s := graphOf up [xYield]
  s.setEngine 0 { s.engine 0 with sched := [(31, { hold := true, preempt := p })] }

theorem witness_CancelsAndYieldPoints :
    (∃ sel : Task → Bool, (∀ x, sel x = decide (x.region = (255 : Fin 256).val)) ∧ up.inReset (0 : Fin 4) = false ∧
      wCancel.liveTasks 0 sel = [n0] ∧ (wCancel.task? n0).any (fun x => x.live && !State.runsOn x && x.succ == [2]) = true ∧
      (wCancel.task? ⟨0, 0, 2⟩).any (fun y => y.live && !State.runsOn y && y.succ == []) = true ∧
      (up.setRegionBusy 0 255 true).regionBusy 0 255 = true ∧ (up.setRegionBusy 0 255 true).liveTasks 0 sel = [] ∧
      wCancel.liveTasks 0 sel ≠ []) ∧
    State.reset.inReset (0 : Fin 4) = true ∧
    ((wYield false).task? n0 = some xYield ∧ xYield.status = .dispatched ∧ xYield.started = true ∧ xYield.fin = false ∧
      xYield.yields = true ∧ xYield.stopAtYield = false ∧ (wYield false).preempted n0 xYield = false) ∧
    ((wYield true).preempted n0 xYield = true ∧ xYield.core = some 31 ∧ ((wYield true).coreAt 0 31).chain = none) := by
  refine ⟨⟨_, fun _ => rfl, by decide +kernel⟩, ?_⟩
  decide +kernel

/-- Core 31 of die 0 under its test schedule. -/
def wSched (s : State) (x : Sched) : State := s.setEngine 0 { s.engine 0 with sched := [(31, x)] }
def outcome (lo : Word) : TestOutcome := ⟨lo, 0, false, 0, 0⟩
def xTest : Task := task 1 [wd [(60, 15)], 0x80000000, 0, 0, 0, 0, 0, 0]

theorem witness_FieldTestsHoldTheirCore :
    ((up.setF GE_CTRL_TEST_EN 0 0 1).flag GE_CTRL_TEST_EN 0 0 = true ∧ (up.schedOf 0 31).due = none ∧ (up.schedOf 0 31).running = none ∧
      up.coreStateOf 0 31 ≠ 3 ∧ up.structuralBusy 0 = false) ∧
    (∃ x : Sched, x = { due := some .knownAnswer } ∧ (wSched up x).schedOf 0 31 = x ∧ x.hold = false ∧ x.running = none) ∧
    (∃ x : Sched, x = { due := some .structural, hold := true } ∧ (wSched up x).schedOf 0 31 = x ∧ x.hold = true ∧ x.due ≠ none ∧
      x.running = none ∧ (wSched up x).physOf 0 31 = some 31 ∧ x.failedHold = false ∧ (wSched up x).arrayIdle 0 31 = true ∧
      (wSched up x).flag DBG_GE_CTRL_HALT 0 0 = false ∧ (wSched up x).widthless 0 31 = false) ∧
    (∃ x : Sched, x = { running := some .knownAnswer } ∧ (wSched up x).schedOf 0 31 = x ∧ (wSched up x).logicalOf 0 31 = some 31 ∧
      x.byTask = none ∧ x.due = none ∧ State.outcomeBad .knownAnswer (outcome 0) = false ∧
      State.outcomeBad .knownAnswer (outcome (1#64 <<< 63)) = true) ∧
    (n0.d = (0 : Fin 4).val ∧ (graphOf up [xTest]).task? n0 = some xTest ∧ xTest.kind = .test ∧ xTest.teStructural = false ∧
      (List.range 32).find? xTest.elig.testBit = some 31 ∧ (graphOf up [xTest]).physOf 0 31 = some 31 ∧
      (graphOf up [xTest]).widthless 0 31 = false ∧ xTest.status = .dispatched ∧ xTest.started = true ∧ xTest.fin = false ∧
      ((graphOf up [xTest]).schedOf 0 31).running = none) := by
  refine ⟨by decide +kernel, ⟨_, rfl, by decide +kernel⟩, ⟨_, rfl, by decide +kernel⟩, ⟨_, rfl, by decide +kernel⟩, ?_⟩
  decide +kernel

/-- Die 3 past epoch 2^32 - 2, the odd bank full and the even one empty. -/
def wStep : State :=
  (up.setEngine 3 { up.engine 3 with top := 2 ^ 32 }).setF (bankNonempty 0) 3 0 1

theorem witness_RangeStatisticsAreSnapshotPerStep :
    (Tab.wf RegKey.lt RegKey.reset wStep.regs = true ∧ wStep.inReset (3 : Fin 4) = false ∧
      wStep.boundaryDue 3 (0xFFFFFFFE#32).toNat = true) ∧
    (wStep.flag (bankNonempty 0) 3 0 = true ∧ wStep.flag (bankNonempty (1 - 0)) 3 0 = false) := by
  decide +kernel

/-! ### The array, accumulators and fetch engines -/

/-- The scratchpad of core 31 of die 0. -/
def sp31 : Nat := 0x20007C00000

/-- The last two entries of core 31 bound as a pair. -/
def wDefined : State := up.setCoreAt 0 31 { up.coreAt 0 31 with tiles := [{ g := 0, tile := 0, base := 127, m := 1, n := 512, pair := true }] }

theorem witness_ArraysAndDebugReads :
    (up.inReset (3 : Fin 4) = false ∧ ((up.setF CORE_ARRAY_STATUS_KA_BUSY (3 * 34 + 33) 0 1).arrayIdle 3 33 = false)) ∧
    (up.arrayIdle 0 31 = true ∧ up.flag CORE_ARRAY_STATUS_RETIRED 31 0 = false ∧ up.logicalOf 0 31 ≠ none) ∧
    (popMask (up.maskRegs 0 31) ≤ 16 ∧ 16 < popMask ((up.putR ⟨.CORE_ARRAY_COLMASK_HI, 31, 0⟩ 0xFFFF800000000000).maskRegs 0 31)) ∧
    State.reset.inReset (0 : Fin 4) = true ∧ up.flag DBG_STATUS_DEBUG_MODE 0 0 = false ∧
    (up.setF DBG_STATUS_DEBUG_MODE 0 0 1).flag DBG_STATUS_DEBUG_MODE 0 0 = true ∧
    (wDefined.entryDefined 0 31 131070 = true ∧ wDefined.entryDefined 0 31 ((131070 + 1) % 131072) = true) := by
  decide +kernel

/-- A one-element MATMUL of core 31 on operands in its own scratchpad; `a` adds to the tile. -/
def xMatmul (a : Nat) : Task :=
  { task 1 [wd [(60, 1)], 0x80000000, 1, 0, wd [(56, 4), (0, sp31)], wd [(60, 4), (0, sp31 + 64)], wd [(63, a), (50, 4095), (43, 127)], 0]
      with core := some 31 }
def wMatmul : State :=
  let s := graphOf up [xMatmul 0]
  s.setCoreAt 0 31 { s.coreAt 0 31 with
    runAhead := [n0], tiles := [{ g := 0, tile := 4095, base := 127, m := 1, n := 1, pair := false }] }
def tile0 : WTile := { wMatmul.loadTile 0 31 n0 (xMatmul 0) with owner := some n0 }
def wLoaded : State := wMatmul.setCoreAt 0 31 { wMatmul.coreAt 0 31 with shadow := tile0 }
def wActive : State := wMatmul.setCoreAt 0 31 { wMatmul.coreAt 0 31 with active := tile0 }
def xMasked : Task :=
  { xMatmul 1 with w := wd [(60, 1), (42, 1)] :: (xMatmul 1).w.drop 1, ext := [0, 0, BitVec.ofNat 64 sp31], mask := [(1, false)] }
def hand (a d : Bool) : Hand := ⟨n0, 4095, 0, [0x3F800000], a, d⟩
def wFoot (pair : Bool) (h : Hand) : State :=
  up.setCoreAt 3 33 { up.coreAt 3 33 with
    foot := [h], tiles := [{ g := 0, tile := 4095, base := 126, m := 1, n := 1, pair := pair, inflight := 1 }] }

theorem witness_TilesPassAndAccumulate :
    (n0.d = (0 : Fin 4).val ∧ wMatmul.task? n0 = some (xMatmul 0) ∧ (xMatmul 0).core = some 31 ∧
      (wMatmul.coreAt 0 31).shadow.valid = false ∧ (wMatmul.loadNext 0 31).any (fun y => y.1 = n0) = true ∧
      wMatmul.mayFetch n0 (xMatmul 0) = true ∧ wMatmul.fetched 0 31 n0 (xMatmul 0) = true) ∧
    ((wLoaded.coreAt 0 31).shadow.valid = true ∧ wLoaded.activeBusy 0 31 = false) ∧
    (up.coreAt 0 31).shadow.valid = false ∧
    ((graphOf up [xMasked]).running? n0 .matmul = some xMasked ∧ xMasked.allMasked = true ∧ xMasked.mmAdd = true) ∧
    (wActive.running? n0 .matmul = some (xMatmul 0) ∧ (xMatmul 0).allMasked = false ∧ (xMatmul 0).mask = [] ∧
      State.serves (wActive.coreAt 0 31).active (xMatmul 0) = true ∧ (wActive.coreAt 0 31).active.owner = some n0 ∧
      wActive.fetched 0 31 n0 (xMatmul 0) = true) ∧
    (∀ pair a d : Bool, ((wFoot pair (hand a d)).coreAt 3 33).foot = [hand a d] ∧
      (((wFoot pair (hand a d)).coreAt 3 33).tiles.map fun b => (b.g, b.tile, b.releasing, b.pair, b.m, b.n)) =
        [((hand a d).task.g, (hand a d).tile, false, pair, 1, 1)]) := by
  refine ⟨by decide +kernel, by decide +kernel, by decide +kernel, by decide +kernel, by decide +kernel, ?_⟩
  intro pair a d
  cases pair <;> cases a <;> cases d <;> decide +kernel

/-- A task of the accumulator port on core 31: a DRAIN of one FP32 element to the pool, a SPILL, a RESUME. -/
def xPort (k : Nat) (deriv : Nat) (w5 : Nat) (ext : List Word) : Task :=
  { task 1 [wd [(60, k), (42, deriv)], 0x80000000, 1, 0, wd [(62, deriv), (53, 4), (30, 4095), (23, 126), (12, 0), (1, 1)],
      BitVec.ofNat 64 w5, 0, 0] with core := some 31, ext := ext }
def bPort (g : Bool) : Bound := { g := 0, tile := 4095, base := 126, m := 1, n := 1, pair := g }
def wPort (x : Task) (go : Bool) : State :=
  let s := graphOf up [x]
  s.setCoreAt 0 31 { s.coreAt 0 31 with port := [n0], portGo := go, tiles := [bPort false] }
def xDrain : Task := xPort 3 0 0x1001FFFFFC0 []
def xDeriv : Task := xPort 3 1 0x1001FFFFFC0 [0, wd [(32, 1), (0, 1)], wd [(44, 4), (0, sp31)], 0, 0, 0, 0, 0]
def xSpill : Task := xPort 4 0 sp31 []
def xResume : Task := xPort 5 0 sp31 []

theorem witness_PortTasksMoveTiles :
    (((wPort xDrain false).coreAt 0 31).port = [n0] ∧ (wPort xDrain false).task? n0 = some xDrain ∧
      xDrain.tileOf = some (bPort false) ∧ bPort false ∈ ((wPort xDrain false).coreAt 0 31).tiles ∧ (bPort false).inflight = 0 ∧
      xDrain.status = .dispatched ∧ xDrain.started = true ∧ xDrain.fin = false) ∧
    (∀ deriv : Bool, ∃ x, x = (if deriv then xDeriv else xDrain) ∧ (wPort x true).onPort n0 .drain = some (x, 31, bPort false) ∧
      x.drDeriv = deriv ∧ (wPort x true).fetched 0 31 n0 x = true ∧ x.extFlag = deriv ∧ x.drSec = 0 ∧ x.drFmt = 4 ∧ x.drM = 1 ∧
      x.drN = 1 ∧ x.drRows = 1 ∧ x.drCols = 1 ∧ x.drRow0 = 0 ∧ x.drCol0 = 0 ∧ x.drDst % 64 = 0 ∧ State.isPoolAddr x.drDst = true ∧
      (wPort x true).mapped x.drDst = true) ∧
    ((wPort xSpill true).onPort n0 .spill = some (xSpill, 31, bPort false) ∧ xSpill.spBuf % 64 = 0 ∧
      ∀ i < 8, State.isScratchAddr (xSpill.spBuf + i) = true ∧ (wPort xSpill true).mapped (xSpill.spBuf + i) = true) ∧
    (wPort xResume true).onPort n0 .resume = some (xResume, 31, bPort false) := by
  refine ⟨by decide +kernel, ?_, by decide +kernel, by decide +kernel⟩
  intro deriv
  refine ⟨_, rfl, ?_⟩
  cases deriv <;> decide +kernel

/-- A VECTOR of core 31, and a chain of one VECTOR stage and one item. -/
def xVector : Task := { task 1 [wd [(60, 2)], 0x80000000] with core := some 31 }
def xFused : Task := { task 1 [wd [(60, 10)], 0x80000000, 0, 0, wd [(4, 1), (0, 1)], wd [(4, 1), (0, 2)], 0, 0] with core := some 31 }
def chain0 (d : Nat) : Chain := { task := n0, items := 1, stages := [{ done := d, credits := 1 }] }
def wChain (d : Nat) : State :=
  let s := graphOf up [xFused]
  s.setCoreAt 0 31 { s.coreAt 0 31 with chain := some (chain0 d) }
/-- Core 31 with one read of two lines to issue, or one read outstanding. -/
def resv0 (l : List Nat) : Reservation := { task := n0, bytes := 128, todo := l }
def wFetch : State :=
  let s := graphOf up [xMatmul 0]
  s.setCoreAt 0 31 { s.coreAt 0 31 with runAhead := [n0], resv := [resv0 [0x40000003, 0x40000004]] }
def entry0 (x : Bool) : FetchEntry := { task := n0, addr := 0x10000000000, len := 64, discard := x }
def wReturn (x : Bool) : State :=
  let s := graphOf up [xMatmul 0]
  s.setCoreAt 0 31 { s.coreAt 0 31 with entries := List.replicate 383 (entry0 false) ++ [entry0 x], resv := [resv0 []] }

theorem witness_FetchesVectorsAndChains :
    ((wFetch.coreAt 0 31).runAhead = [n0] ∧ wFetch.task? n0 = some (xMatmul 0) ∧
      (wFetch.coreAt 0 31).resv = [resv0 [0x40000003, 0x40000004]] ∧ wFetch.mayFetch n0 (xMatmul 0) = true ∧
      requestLines (wFetch.flag FE_CFG_MERGE_EN 31 0) [0x40000003, 0x40000004] = [0x40000003, 0x40000004] ∧ wFetch.entriesUsed 0 31 + 1 ≤ 384) ∧
    (∀ x : Bool, ((wReturn x).coreAt 0 31).entries[(383 : Fin 384).val]? = some (entry0 x) ∧ (entry0 x).discard = x ∧
      (entry0 x).len = 64 ∧ (wReturn x).anyBad 0x10000000000 64 = false ∧ ((wReturn x).coreAt 0 31).resv = [resv0 []]) ∧
    ((graphOf up [xVector]).running? n0 .vector = some xVector ∧ xVector.core = some 31) ∧
    ((wChain 0).running? n0 .fused = some xFused ∧ xFused.core = some 31 ∧ ((wChain 0).coreAt 0 31).chain = some (chain0 0) ∧
      State.stageMay (chain0 0) (xFused.fuStages - 1) 1 = false ∧ State.stageMay (chain0 0) (xFused.fuStages - 1) 0 = true ∧
      ((wChain 0).stageTask 0 xFused 0).kind = .vector ∧ xFused.fuStages = 1 ∧ xFused.fuItems = 1 ∧
      (chain0 0).stages[0]? = some { done := 0, credits := 1 }) := by
  decide +kernel

/-! ### Stacks, updates, collectives -/

/-- Die 3's stacks hold one page group from address 0: `c` its compression, `v` versioned. -/
def regionA (c v : Nat) : Word := wd [(63, 1), (61, 1), (59, 3), (56, c), (55, v), (44, 16)]
def wStack (c v : Nat) : State := { up with published := [(0, (regionA c v, 1))] }
def write1 : WriteReq := ⟨0x3F, [0xAB], none, 0, none, none, []⟩
def line0 : WcbLine := { line := 0, bytes := [(63, some (0xCD, none))] }
def wLine : State := (wStack 0 0).setStack 9 { (wStack 0 0).stack 9 with wcb := [line0] }

theorem witness_StacksReadAndWrite :
    ((wStack 0 0).findRegion 0x5FFFC0 = some 0 ∧ 0x5FFFC0 % 64 = 0 ∧ (wStack 0 0).mapped 0x5FFFC0 = true ∧
      (wStack 0 0).unreachable ((wStack 0 0).locate 0 0x5FFFC0).stack = false) ∧
    ((wStack 0 0).findRegion 0x600000 = none ∧ 0x600000 % 64 = 0) ∧
    (write1.data ≠ [] ∧ write1.addr % 64 + write1.data.length ≤ 64 ∧ write1.poison = [] ∧ (wStack 0 0).findRegion write1.addr = some 0 ∧
      (∀ i < write1.data.length, (wStack 0 0).findRegion (write1.addr + i) = some 0 ∧ (wStack 0 0).mapped (write1.addr + i) = true) ∧
      ((wStack 0 0).region 0).comp = 0 ∧ ((wStack 0 0).region 0).ver = false ∧ State.isStackAddr (write1.addr + 64) = true ∧
      (wStack 0 0).unreachable ((wStack 0 0).locate 0 write1.addr).stack = false ∧
      ((wStack 0 0).stack ((wStack 0 0).locate 0 write1.addr).stack).wcb.length < 256 ∧
      ∀ i < 64, ((wStack 0 0).locate 0 (write1.addr / 64 * 64 + i)).stack = ((wStack 0 0).locate 0 write1.addr).stack) ∧
    ((wLine.stack (9 : Fin 12)).wcb = line0 :: [] ∧ line0.bytes = [(63, some (0xCD, none))] ∧ wLine.findRegion (line0.line * 64 + 63) = some 0) ∧
    (up.stack (11 : Fin 12)).wcb = [] ∧ up.inReset (6 + (11 : Fin 12)) = false ∧
    (up.flag CRU_CTRL_SCRUB_EN (11 : Fin 12) 0 = true ∧ (up.setF CRU_CTRL_SCRUB_EN 11 0 0).flag CRU_CTRL_SCRUB_EN (11 : Fin 12) 0 = false) := by
  refine ⟨by decide +kernel, by decide +kernel, ?_, by decide +kernel, by decide +kernel⟩
  decide +kernel

/-- The draft region table as the default, one entry valid, one that breaks rule 5. -/
def wDraft (a : Word) : State := (up.putR ⟨.CRU_REGION_A, 0, 63⟩ a).putR ⟨.CRU_REGION_B, 0, 63⟩ 1
def wMargin (m : Option Nat) : State :=
  { up.setStack 11 { up.stack 11 with margining := m } with boot := { up.boot with prof := { up.boot.prof with margining := 1 } } }
/-- The same with the edge of stack 11 up and `n` in its retired bundles, and a run of its last bundle. -/
def wWorn (n : Nat) : State :=
  ((wMargin none).setF BRZ_STATUS_STATE (State.brz 3 5) 0 2).setF BRZ_STATUS_RETIRED (State.brz 3 5) 0 n
def goBundle : Word := wd [(62, 1), (48, 7)]

theorem witness_RegionTablesTemperatureMargining :
    (wRunning.inReset 6 = false ∧ wRunning.flag CRU_STATUS_RT_PENDING 0 0 = false ∧ wRunning.anyRunning = true) ∧
    (∃ l, l = (List.range 64).map (fun e => Region.of ((wDraft (regionA 0 0)).draftEntry e).1 ((wDraft (regionA 0 0)).draftEntry e).2) ∧
      (wDraft (regionA 0 0)).anyRunning = false ∧
      ∀ e < 64, (wDraft (regionA 0 0)).entryCode l e (l.getD e (Region.of 0 0)) = 0) ∧
    ({ up with publishing := some [] } : State).publishing = some [] ∧
    (up.getF CRU_THERM_STATE (11 : Fin 12) 0 < 3 ∧ 1680 ≤ (1680#16).toInt ∧ State.thermState 0 (0#16).toInt < 3) ∧
    (up.getF CRU_THERM_STATE (11 : Fin 12) 0 < 2 ∧ 1520 ≤ (1679#16).toInt ∧ (1679#16).toInt < 1680) ∧
    (up.inReset (6 + (11 : Fin 12)) = false ∧ up.mayMargin = false) ∧
    ((wWorn 3).inReset (6 + (11 : Fin 12)) = false ∧ (wWorn 3).marginEdgeWorn (11 : Fin 12) goBundle = true) ∧
    ((wWorn 1).mayMargin = true ∧ (wWorn 1).marginEdgeWorn (11 : Fin 12) goBundle = false ∧
      ((wWorn 1).stack (11 : Fin 12)).margining = none ∧ goBundle.bit 62 = true ∧ goBundle.bits 55 48 < 8 ∧
      (wWorn 1).getF BRZ_STATUS_STATE (State.brz ((11 : Fin 12).val / 3) (3 + (11 : Fin 12).val % 3)) 0 = 2 ∧
      (wWorn 1).bundleRetired ((11 : Fin 12).val / 3) (3 + (11 : Fin 12).val % 3) (goBundle.bits 55 48) = false) ∧
    ((wMargin none).mayMargin = true ∧ (wMargin none).marginEdgeWorn (11 : Fin 12) 0 = false ∧ ((wMargin none).stack (11 : Fin 12)).margining = none) ∧
    ((wMargin (some 32767)).stack (11 : Fin 12)).margining = some 32767 := by
  refine ⟨by decide +kernel, ⟨_, rfl, by decide +kernel⟩, ?_⟩
  decide +kernel

/-- Stack 9 with a first-touch copy of page 0 to frame 32767; waiting for a frame in stage `n`. -/
def copy0 : FtCopy := ⟨0, 7, 32767⟩
def wFirstTouch : State := (wStack 0 1).setStack 9 { (wStack 0 1).stack 9 with copies := [copy0] }
def retained0 : Retained := ⟨5, 4294967295, none⟩
def wWaiting (n : Nat) : State :=
  ((wStack 0 1).setF CRU_VER_STATUS_WAITING 9 0 1).setStack 9 { (wStack 0 1).stack 9 with
    waitStage := n, ver := [(3, some { cur := 4, retained := [retained0] })] }
def setup0 : RowSetup := ⟨0, 1, 4, true, false, false, false, 0, 2, 0, 1, 0x1000, n0⟩
/-- Context 255 of stack 9 made for two contributions to one granule. -/
def wContext : State :=
  ((((wStack 0 0).setF CRU_ROW_DST_LEN_G 9 255 1).setF CRU_ROW_CFG_NCONTRIB 9 255 2).setF CRU_ROW_CFG_VALID 9 255 1).setF
    CRU_ROW_PARK_PARK_SLOTS 9 255 1
def wApplied : State := wContext.setStack 9 { wContext.stack 9 with rows := [(255, { owner := some n0, next := [(0, 1)] })] }

theorem witness_VersionsAndContexts :
    ((wFirstTouch.stack (9 : Fin 12)).copies = copy0 :: [] ∧ (wFirstTouch.stack (9 : Fin 12)).waiting = [] ∧
      (wFirstTouch.stack (9 : Fin 12)).wcb = [] ∧ wFirstTouch.canonical = true ∧ (wFirstTouch.pageVer 9 0).cur < 32768 ∧
      copy0.frame < 32768 ∧ (wFirstTouch.pageVer 9 0).cur ≠ copy0.frame) ∧
    (up.stack (9 : Fin 12)).copies = [] ∧ ((wWaiting 0).flag CRU_VER_STATUS_WAITING (9 : Fin 12) 0 = true ∧
      ((wWaiting 0).stack (9 : Fin 12)).waitStage = 0) ∧
    up.flag CRU_VER_STATUS_WAITING (9 : Fin 12) 0 = false ∧
    (((wWaiting 1).stack (9 : Fin 12)).waitStage = 1 ∧
      ((wWaiting 1).stack (9 : Fin 12)).ver = [(3, some { cur := 4, retained := [retained0] })]) ∧
    ((wStack 0 0).rowAllowed setup0.dst = true ∧ (wStack 0 0).flag CRU_ROW_CFG_VALID (9 : Fin 12) (255 : Fin 256) = false) ∧
    (wContext.flag CRU_ROW_CFG_VALID 9 255 = true ∧ 0 < wContext.getF CRU_ROW_DST_LEN_G 9 255 ∧ 1 < wContext.getF CRU_ROW_CFG_NCONTRIB 9 255 ∧
      Tab.getN 0 (wContext.rowOf 9 255).next 0 < 1 ∧ (wContext.rowOf 9 255).parked = [] ∧ 0 < wContext.getF CRU_ROW_PARK_PARK_SLOTS 9 255) ∧
    ((wContext.unreachable 9 = false ∧ (wContext.setF BRZ_STATUS_STATE (State.brz 3 3) 0 3).unreachable 9 = true) ∧
      0 = Tab.getN 0 (wContext.rowOf 9 255).next 0 ∧ (wContext.rowOf 9 255).parked = [] ∧ wContext.rowOverwrites 9 255 0 = false ∧
      (wContext.rowOf 9 255).owner.bind wContext.task? = none ∧ 0 < 4 / State.rowWidth (wContext.getF CRU_ROW_CFG_FMT 9 255)) ∧
    (1 = Tab.getN 0 (wApplied.rowOf 9 255).next 0 ∧ wApplied.unreachable 9 = false ∧ 1 < wApplied.getF CRU_ROW_CFG_NCONTRIB 9 255 ∧ 0 < Tab.getN 0 (wApplied.rowOf 9 255).next 0) := by
  refine ⟨by decide +kernel, by decide +kernel, by decide +kernel, by decide +kernel, by decide +kernel, by decide +kernel,
    by decide +kernel, by decide +kernel⟩

/-- Stack 9 at the first word of program memory 0x13, which is `w`, on FP32 stream 0 at address 0. -/
def stream0 : PStream := ⟨4, 0, 0, 0, 1, 0⟩
def upd0 : UpdRun :=
  { task := n0, prog := 0x13, streams := [stream0], konst := List.replicate 16 0x3F800000, f := List.replicate 16 0, i := 0, length := 2,
    digStream := 0 }
def wMicro (w : Nat) : State :=
  let s := (wStack 0 0).putR ⟨.CRU_UPD_PROG, 9, 48⟩ (BitVec.ofNat 64 w)
  s.setStack 9 { s.stack 9 with upd := some upd0 }
/-- A word of operation `k`: f15 from k15 (31), k15 and k14. -/
def opWord (k : Nat) : Nat := k * 2 ^ 26 + 15 * 2 ^ 22 + 31 * 2 ^ 17 + 31 * 2 ^ 12 + 30 * 2 ^ 7

theorem witness_MicroOperationsCompute :
    (∀ w : Nat, w = opWord 3 ∨ w = 0 → ((wMicro w).stack (9 : Fin 12)).upd = some upd0 ∧ upd0.ended = false ∧
      (wMicro w).streamsOk 9 upd0 = true ∧ upd0.pc + 1 < 32) ∧
    (∀ x ∈ [(3, Micro.add 15 31 31), (4, .sub 15 31 31), (5, .mul 15 31 31), (6, .fma 15 31 31 30), (7, .div 15 31 31), (8, .sqrt 15 31),
      (9, .max 15 31 31), (10, .min 15 31 31), (11, .abs 15 31), (12, .sgn 15 31), (13, .sel 15 31 31 30), (14, .neg 15 31)],
      (wMicro (opWord x.1)).nextMicro 9 upd0 = some (some x.2)) ∧
    (wMicro 0).nextMicro 9 upd0 = some (some .nop) ∧ (wMicro (opWord 3)).nextMicro 9 upd0 ≠ some (some .nop) ∧
    ((wMicro (2 ^ 26)).nextMicro 9 upd0 = some (some (.ld 0 0)) ∧ upd0.streams[0]? = some stream0 ∧
      (wMicro (2 ^ 26)).engineBad (stream0.addr + upd0.i * State.streamWidth stream0) = false) ∧
    (wMicro (2 * 2 ^ 26 + 31 * 2 ^ 17)).nextMicro 9 upd0 = some (some (.st 31 0)) ∧
    ((wMicro (63 * 2 ^ 26)).nextMicro 9 upd0 = some (some .end_) ∧ upd0.streams = stream0 :: [] ∧
      (wMicro (63 * 2 ^ 26)).nextElem 9 stream0 (upd0.i + 1) upd0.length = some 1) := by
  refine ⟨?_, by decide +kernel, by decide +kernel, by decide +kernel, by decide +kernel, by decide +kernel, by decide +kernel⟩
  rintro w (rfl | rfl) <;> decide +kernel

/-- A MOVE of the first line of the pool to its last, and a program COPY of one element. -/
def xMove : Task := task 1 [wd [(60, 6)], 0, 0, 0, wd [(0, 0x10000000000)], 0x1001FFFFFC0, 64, 0]
def xProgram (p : Nat) : Task :=
  { task 1 [wd [(60, 6), (42, 1)], 0, 0, 0, wd [(63, 1), (62, 1), (56, p), (52, 1)], 0, 1, 0] with ext := [wd [(60, 4)]] }

theorem witness_CopiesMoveAndUpdate :
    ((graphOf up [xMove]).running? n0 .copy = some xMove ∧ xMove.cpProgram = false ∧ xMove.cpLength % 64 = 0 ∧
      xMove.cpSrc % 64 = 0 ∧ xMove.cpDst % 64 = 0 ∧
      (∀ i < xMove.cpLength, State.isPoolAddr (xMove.cpSrc + i) = true ∧ (graphOf up [xMove]).mapped (xMove.cpSrc + i) = true ∧
        (graphOf up [xMove]).readBad (xMove.cpSrc + i) = false ∧ State.isPoolAddr (xMove.cpDst + i) = true ∧
        (graphOf up [xMove]).mapped (xMove.cpDst + i) = true) ∧ xMove.cpSrc + xMove.cpLength ≤ xMove.cpDst) ∧
    (∀ p ∈ [1, 2, 3, 4, 0x10, 0x13], (graphOf (wStack 0 0) [xProgram p]).running? n0 .copy = some (xProgram p) ∧
      (xProgram p).cpProgram = true ∧ (xProgram p).cpStreams ≠ 0 ∧ (xProgram p).cpLength = 1 ∧ (xProgram p).cpProg = p ∧
      ∀ ms < 12, ((graphOf (wStack 0 0) [xProgram p]).stack ms).upd = none) := by
  refine ⟨by decide +kernel, ?_⟩
  decide +kernel

/-! ### Collectives, transfers and frames -/

def putWord (s : State) (a w : Nat) : State := s.storeLocal a (toLe 8 w)
/-- Two members, this module the first, each with a shard of 4 KiB; their table at the start of die 0's pool. -/
def wMembers : State :=
  putWord (putWord (putWord (putWord (up.setF PORT_MOD_COORD_VALID 0 0 1) 0x10000000008 0x010000) 0x10000000048 1024) 0x10000000050 1024)
    0x10000000058 1024
/-- A collective of operation `op` over them on channel 15, in place. -/
def xColl (op : Nat) : Task := { task 1 [wd [(60, 7)], 0, 0, 0, wd [(60, op), (56, 15), (52, 1), (36, 1)], wd [(0, 0x10000010000)],
  wd [(0, 0x10000010000)], wd [(0, 0x10000000000)]] with ext := [wd [(0, 0x10000000040)], 0, 0, wd [(0, 0x10000000040)]] }
def wColl (op : Nat) : State := let s := graphOf wMembers [xColl op]; s.setChan 0 15 { s.chan 0 15 with task := some n0 }
/-- The same with the module's coordinates not set. -/
def wUnplaced (op : Nat) : State := (wColl op).setF PORT_MOD_COORD_VALID 0 0 0

theorem witness_CollectivesOpenTheirStreams :
    (∃ opened : ChanSt → State → State → Prop, ∀ y w v, opened y w v ↔ (w = { v with chans := w.chans } ∧ w.chan 0 15 = y ∧
      ∀ d' c', 16 * d' + c' ≠ 16 * 0 + 15 → w.chan d' c' = v.chan d' c')) ∧
    (∀ op ∈ [1, 2, 3, 4, 5, 6], (wColl op).task? n0 = some (xColl op) ∧ (xColl op).kind = .collective ∧ (xColl op).started = true ∧
      (xColl op).status = .dispatched ∧ (xColl op).fin = false ∧ (xColl op).coChan = 15 ∧ (xColl op).coOp = op ∧
      ((wColl op).chan 0 15).task = some n0 ∧ ((wColl op).chan 0 15).begun = false) ∧
    (∀ op ∈ [1, 2, 3, 4, 5, 6], (wUnplaced op).task? n0 = some (xColl op) ∧
      (wUnplaced op).collCheck (xColl op) ((wUnplaced op).geoOf (xColl op)) = some 1) ∧
    (∀ op ∈ [1, 2], (wColl op).collCheck (xColl op) ((wColl op).geoOf (xColl op)) = none) ∧
    (∀ op ∈ [3, 4, 5, 6], (wColl op).collCheck (xColl op) ((wColl op).geoOf (xColl op)) = none ∧ (xColl op).coDigSrc = false ∧
      (xColl op).coSrc = (xColl op).coDst ∧ ((wColl op).geoOf (xColl op)).count ≠ 1 ∧ ((wColl op).chan 0 15).early = []) ∧
    (∀ op ∈ [6], ∃ f e : Nat × Nat, ∃ o, f = ((wColl op).extentsAt (xColl op) (xColl op).coAux 2).getD 0 (0, 0) ∧
      e = ((wColl op).geoOf (xColl op)).ext.getD 0 (0, 0) ∧ o = State.overlapOf e f ∧ o = (0, 4096)) := by
  refine ⟨⟨_, fun _ _ _ => Iff.rfl⟩, by decide +kernel, by decide +kernel, by decide +kernel, by decide +kernel, ?_⟩
  intro op h
  exact ⟨_, _, _, rfl, rfl, rfl, by revert h; revert op; decide +kernel⟩

/-- A broadcast of one member, with a result record at `r` or none, begun and with nothing outstanding. -/
def xLone (r : Nat) : Task := { task 1 [wd [(60, 7)], 0, 0, 0, wd [(60, 4), (56, 15), (52, 1)], wd [(0, 0x10000010000)],
  wd [(0, 0x10000010000)], wd [(0, 0x10000000000)]] with ext := [wd [(0, 0x10000000040)], BitVec.ofNat 64 r, 0, 0] }
def onChan (s : State) (x : Task) (y : ChanSt) : State := let s := graphOf s [x]; s.setChan 0 15 { y with task := some n0 }
def wLone (r : Nat) : State := onChan wMembers (xLone r) { begun := true }
/-- A transfer of `l` bytes of kind `k`: a STREAM (`m` = 0) or a remote one (1), with module 0x010000. -/
def xTransfer (k m l : Nat) : Task := task 1 [wd [(60, k)], 0, 0, 0, wd [(60, 15), (58, m), (40, 1)], wd [(0, 0x10000010000)],
  wd [(0, 0x10000020000)], wd [(0, l)]]
def wTransfer (k m l : Nat) (p : Bool) : State := onChan wMembers (xTransfer k m l) { progress := p }

theorem witness_TransfersBeginAndEnd :
    (∀ r ∈ [0, 0x10000030040], (wLone r).task? n0 = some (xLone r) ∧ (xLone r).channel = some 15 ∧ ((wLone r).chan 0 15).task = some n0 ∧
      (xLone r).started = true ∧ (xLone r).status = .dispatched ∧ (xLone r).fin = false ∧ (xLone r).kind = .collective ∧
      (wLone r).collDone (xLone r) = true ∧ (wLone r).groupOf (xLone r) = [(0, n0, xLone r)] ∧ (xLone r).coSeal = false ∧
      (xLone r).coResult = r ∧ ∀ k, (wLone r).totalOf (xLone r) k = none) ∧
    (State.isPoolAddr 0x10000030040 = true ∧ (wLone 0x10000030040).mapped 0x10000030040 = true) ∧
    (∀ z ∈ [(8, 0, 4096), (9, 0, 4096), (8, 1, 4096), (9, 1, 4096), (9, 1, 1)], ∀ p : Bool,
      (wTransfer z.1 z.2.1 z.2.2 p).task? n0 = some (xTransfer z.1 z.2.1 z.2.2) ∧
      (xTransfer z.1 z.2.1 z.2.2).channel = some 15 ∧ ((wTransfer z.1 z.2.1 z.2.2 p).chan 0 15).task = some n0 ∧
      ((wTransfer z.1 z.2.1 z.2.2 p).chan 0 15).progress = p ∧ ((wTransfer z.1 z.2.1 z.2.2 p).chan 0 15).begun = false ∧
      ((wTransfer z.1 z.2.1 z.2.2 p).chan 0 15).since = none ∧ (xTransfer z.1 z.2.1 z.2.2).kind = (if z.1 = 8 then .send else .recv) ∧
      (xTransfer z.1 z.2.1 z.2.2).srMode = z.2.1 ∧ (xTransfer z.1 z.2.1 z.2.2).srLength = z.2.2) ∧
    up.inReset (3 : Fin 4) = false := by
  refine ⟨fun r h => ?_, by decide +kernel, by decide +kernel, by decide +kernel⟩
  refine ⟨?_, ?_, ?_, rfl, rfl, rfl, ?_, ?_, ?_, ?_, ?_, fun k => ?_⟩ <;> (try (revert h; revert r; decide +kernel))
  simp only [List.mem_cons, List.not_mem_nil, or_false] at h
  rcases h with rfl | rfl <;> rfl

/-- Port 5's link up with sequence number 2^20 - 1 expected, the module placed in job 65535, die 0 running a task. -/
def wLink (s : State) : State :=
  ((((s.setF PORT_MOD_COORD_VALID 0 0 1).setF PORT_MOD_JOB_JOB 0 0 65535).setF PORT_IL_STATUS_STATE 5 0 3).setPort 5
    { s.port 5 with expect := 2 ^ 20 - 1, nakSent := true, peer := none })
/-- A frame of kind `k` from die 1 of module 1, with a sequence number. -/
def frm (k vl fl : Nat) (tag : Word) (pl : List Byte) (q : Nat) (c : CrcState) : Frame :=
  { mkFrame 0 0 vl 1 1 0 65535 k fl tag pl with w2 := wd [(44, q), (21, 7), (0, pl.length)], crc := c }
def vlOf (k : Nat) : Nat := if k < 0x20 then 0 else 1

theorem witness_PortsDeliverInSequence :
    (2 ≤ (wLink up).linkState 5 ∧ (wLink up).linkState 5 ≤ 4 ∧ ((wLink up).port (5 : Fin 6)).nakSent = true ∧ (wLink up).placed = true ∧
      (wLink up).linkState 5 = 3 ∧ ((wLink up).port (5 : Fin 6)).replay = [] ∧ ((wLink up).port (5 : Fin 6)).txq = []) ∧
    (∀ k ∈ [0x10, 0x11, 0x12, 0x20, 0x21, 0x22, 0x23], ∃ f, f = frm k (vlOf k) 0xF0 0 [1] (2 ^ 20 - 1) .good ∧ f.kind = k ∧
      f.crc = .good ∧ f.seq = ((wLink up).port (5 : Fin 6)).expect ∧ illFormed f = false ∧ f.dst = (wLink up).here ∧
      f.job = (wLink up).getF PORT_MOD_JOB_JOB 0 0 ∧ f.job ≠ 0 ∧ f.credVl = 7 ∧ (wLink up).arrivalClass 5 f < 5) ∧
    (frm 0x10 0 0 0 [] 0 .good).seq ≠ ((wLink up).port (5 : Fin 6)).expect ∧
    (∀ c : CrcState, (frm 0x10 0 0 0 [] 0 c).crc = c) := by
  refine ⟨by decide +kernel, fun k h => ⟨_, rfl, ?_⟩, by decide +kernel, fun c => rfl⟩
  revert h; revert k; decide +kernel

/-- A broadcast receiving one chunk of one byte, and its frame; a SEND with one stream; transfers under way. -/
def tx1 : TxStream := { stage := 0, dst := 1, dstDie := 1, chunks := [] }
def rx1 (st : Nat) : RxStream := { stage := st, src := 1, srcDie := 1, chunks := [{ phase := 5, off := 0, len := 1, addr := 0x10000010000 }] }
def wBusy (x : Task) (y : ChanSt) : State := wLink (onChan wMembers x y)
def wChunk : State := wBusy (xLone 0) { begun := true, rx := [rx1 1] }
def wSend (m : Nat) (y : ChanSt) : State := wBusy (xTransfer 8 m 4096) { y with begun := true }
def wRecv (a : Nat) : State := wBusy (xTransfer 9 0 4096) { begun := true, rx := [{ rx1 0 with src := a }] }
def fOf (k fl : Nat) (tag : Word) (pl : List Byte) : Frame := frm k (vlOf k) fl tag pl (2 ^ 20 - 1) .good
def after (s : State) (f : Frame) : State := (s.hop 5 f).1
def tagChunk : Word := BitVec.ofNat 64 (digBytes (digKey 0 0) 0 [0xAB])

theorem witness_DeliveredFramesAct :
    (∀ z ∈ [(0x20, 0, 0), (0x10, 0xF0, 0), (0x10, 0xF4, 0), (0x11, 0xF0, 0), (0x12, 0xF0, 0), (0x23, 0, 15 * 2 ^ 44)],
      ∃ f, f = fOf z.1 z.2.1 (BitVec.ofNat 64 z.2.2) [] ∧ (wLink up).hop 5 f = (after (wLink up) f, some f) ∧ f.kind = z.1 ∧
        (after (wLink up) f).chanTask 0 15 = none) ∧
    (∃ f u x y k w, f = fOf 0x10 0xF4 tagChunk [0xAB] ∧ u = after wChunk f ∧ x = xLone 0 ∧ y = rx1 1 ∧
      k = { phase := 5, off := 0, len := 1, addr := 0x10000010000 } ∧ wChunk.hop 5 f = (u, some f) ∧ u.chanTask 0 15 = some (n0, x) ∧
      f.kind = 0x10 ∧ x.kind = .collective ∧ u.carries? x = false ∧ x.coChan = 15 ∧ f.flags / 4 % 4 = y.stage ∧ y.stage ≠ 0 ∧
      y.src = f.src ∧ y.srcDie = f.srcDie ∧ (u.chan 0 15).rx = [y] ∧ (u.chan 0 15).task = some n0 ∧ y.chunks[y.next]? = some k ∧
      y.bad = false ∧ k.len ≠ 0 ∧ u.chunkDigest x k.off f.payload = f.w3.bits 60 0 ∧
      w = (((u.addF AS_CHECKS_COUNT 0 0 1).setRxStream 0 15 0 { y with
        next := y.next + 1, bad := false, ended := decide (y.next + 1 = y.chunks.length) }).enterChunk x n0 (u.geoOf x) 0 k f) ∧
      (w.chan 0 15).task = some n0) ∧
    (∃ f u y, f = fOf 0x11 0xF0 (wd [(27, 65535)]) [] ∧ u = after (wSend 0 { tx := [tx1] }) f ∧ y = tx1 ∧
      (wSend 0 { tx := [tx1] }).hop 5 f = (u, some f) ∧ u.chanTask 0 15 = some (n0, xTransfer 8 0 4096) ∧ (u.chan 0 15).tx = [y] ∧
      y.stage = f.flags / 4 % 4 ∧ y.dst = f.src ∧ y.dstDie = f.srcDie ∧ f.w3.bit 63 = false ∧ f.w3.bits 42 27 ≠ 0) ∧
    (∀ a ∈ [1, 2], ∃ f u y, f = fOf 0x12 0xF0 4096 [] ∧ u = after (wRecv a) f ∧ y = { rx1 0 with src := a } ∧
      (wRecv a).hop 5 f = (u, some f) ∧ u.chanTask 0 15 = some (n0, xTransfer 9 0 4096) ∧ (u.chan 0 15).rx = [y] ∧
      (y.src = f.src ↔ a = 1) ∧ y.srcDie = f.srcDie ∧ (u.chan 0 15).length = none ∧ f.w3.bits 39 0 = (xTransfer 9 0 4096).srLength) ∧
    (∃ f u, f = fOf 0x21 0 0x1000003FFC0 (List.replicate 64 7) ∧ u = after (wLink up) f ∧ (wLink up).hop 5 f = (u, some f) ∧
      State.isPoolAddr (f.w3.bits 43 0) = true ∧ u.mapped (f.w3.bits 43 0) = true ∧ f.w3.bits 43 0 % 64 + f.payload.length ≤ 64 ∧
      f.payload ≠ []) ∧
    (∃ f u, f = fOf 0x22 0 (wd [(48, 4097), (0, 0x10000000000)]) [] ∧ u = after (wLink up) f ∧ (wLink up).hop 5 f = (u, some f)) ∧
    (∃ f u s, s = wSend 1 { todo := [(0x10000020000, 4096)] } ∧ f = fOf 0x23 0 (wd [(44, 15), (0, 0x10000020000)]) [] ∧ u = after s f ∧
      s.hop 5 f = (u, some f) ∧ f.w3.bits 47 44 = 15 ∧ u.chanTask 0 15 = some (n0, xTransfer 8 1 4096) ∧
      (u.chan 0 15).todo = [(f.w3.bits 43 0, 4096)] ∧ (u.chan 0 15).body = none ∧ u.task? n0 = some (xTransfer 8 1 4096)) := by
  refine ⟨fun z h => ⟨_, rfl, ?_⟩, ⟨_, _, _, _, _, _, rfl, rfl, rfl, rfl, rfl, ?_, ?_, ?_, ?_, ?_, ?_, ?_, ?_, ?_, ?_, ?_, ?_, ?_, ?_, ?_, ?_, rfl, ?_⟩,
    ⟨_, _, _, rfl, rfl, rfl, ?_⟩, fun a h => ⟨_, _, _, rfl, rfl, rfl, ?_⟩, ⟨_, _, rfl, rfl, ?_⟩, ⟨_, _, rfl, rfl, ?_⟩,
    ⟨_, _, _, rfl, rfl, rfl, ?_⟩⟩
  · revert h; revert z; decide +kernel
  rotate_left 17
  · decide +kernel
  · revert h; revert a; decide +kernel
  all_goals decide +kernel

/-! ### Seal and retract -/

/-- A SEAL_RETRACT frame to the hub with TAG `tag`. -/
def fSeal (tag : Word) : Frame := { mkFrame 0 4 1 1 4 0 65535 0x24 0 tag [] with w2 := wd [(44, 2 ^ 20 - 1), (21, 7)] }
def wVerdict (v : StepVerdict) : State := { wLink up with sealer := { (wLink up).sealer with steps := [v] } }
def wTokens (a b : Nat) : State := ((wLink up).setF GE_TOKEN_COUNT 0 4032 a).setF GE_TOKEN_COUNT 0 4033 b
def verdict0 : StepVerdict := { epoch := 0 }
def tw0 : TwinEntry := ⟨15, 65535, 7, 0, 5, 0, 0⟩
def wTwin : State := { (wVerdict { epoch := 7 }) with engines := ((wVerdict { epoch := 7 }).setEngine 3 { up.engine 3 with twins := [tw0] }).engines }
def wDual : State := { wVerdict { epoch := 7, dualHold := true } with ingot := { up.ingot with boundary := some 7 } }

theorem witness_StepsAreSealedAndCommitted :
    (∃ f u v, f = fSeal 0 ∧ u = after (wTokens 1 0) f ∧ (wTokens 1 0).hop 5 f = (u, some f) ∧ f.kind = 0x24 ∧ f.w3.bits 63 62 = 0 ∧
      v = u.stepOf f.epoch ∧ u.isSealed f.epoch = true) ∧
    (∃ f u v, f = fSeal 0 ∧ u = after (wVerdict verdict0) f ∧ v = verdict0 ∧ (wVerdict verdict0).hop 5 f = (u, some f) ∧ f.kind = 0x24 ∧
      f.w3.bits 63 62 = 0 ∧ v = u.stepOf f.epoch ∧ u.isSealed f.epoch = false ∧ State.frameRound f = v.round ∧ v.axis = none ∧
      v.jobWide = none) ∧
    (∃ f u v, f = fSeal (wd [(58, 2)]) ∧ v = { verdict0 with axis := some 2 } ∧ u = after (wVerdict v) f ∧
      (wVerdict v).hop 5 f = (u, some f) ∧ f.kind = 0x24 ∧ f.w3.bits 63 62 = 0 ∧ v = u.stepOf f.epoch ∧ u.isSealed f.epoch = false ∧
      State.frameRound f = v.round ∧ v.axis = some 2 ∧ 2 ≤ State.frameAxis f) ∧
    (∀ j ∈ [0, 1], ∃ v : StepVerdict, v = { epoch := 4294967295, jobWide := some j } ∧ (wVerdict v).sealer.steps = v :: [] ∧
      (j = 0 → v.jobWide = some 0 ∧ v.own = 0) ∧ (j = 1 → v.jobWide ≠ some 0)) ∧
    up.sealer.steps = [] ∧ (wTokens 5 4).getF GE_TOKEN_COUNT 0 4033 < (wTokens 5 4).getF GE_TOKEN_COUNT 0 4032 ∧
    (wTokens 5 5).getF GE_TOKEN_COUNT 0 4032 ≤ (wTokens 5 5).getF GE_TOKEN_COUNT 0 4033 ∧
    (∀ d r : Bool, ∃ v : StepVerdict, v = { epoch := 7, carrierDone := d, round := 15, sentHold := r } ∧
      v = (wVerdict v).stepOf (7 : BitVec 32).toNat ∧ v.carrierDone = d ∧ v.sentHold = r ∧ v.carrier = none ∧
      (wVerdict v).isSealed (7 : BitVec 32).toNat = false ∧ (wVerdict v).twinsOpen (7 : BitVec 32).toNat = false ∧
      (wVerdict v).roundAxes (v.round + 1) = [] ∧ v.dualHold = false) ∧
    wTwin.twinsOpen (7 : BitVec 32).toNat = true ∧
    (wDual.stepOf 7 = { epoch := 7, dualHold := true } ∧ wDual.ingot.boundary.any (fun b => decide (7 ≤ b)) = true ∧
      ∀ d < 4, (∀ y ∈ (wDual.engine d).unmatched, y.1 ≠ 7) ∧ (∀ y ∈ wDual.tasksOf d, y.2.epoch ≠ 7)) := by
  refine ⟨⟨_, _, _, rfl, rfl, ?_, ?_, ?_, rfl, ?_⟩, ⟨_, _, _, rfl, rfl, rfl, ?_⟩, ⟨_, _, _, rfl, rfl, rfl, ?_⟩, fun j h => ⟨_, rfl, ?_⟩,
    ?_, ?_, ?_, fun d r => ⟨_, rfl, ?_⟩, ?_, ?_⟩
  all_goals first | decide +kernel | skip
  · revert h; revert j; decide +kernel
  · cases d <;> cases r <;> decide +kernel

def fRetract : Frame := { fSeal (wd [(62, 1), (50, 15), (24, 7), (0, 0xFFFFFF)]) with w1 := wd [(32, 4294967295), (16, 65535), (8, 0x24)] }
/-- Step 9 unsealed, the last retract received being `r`. -/
def wRetract (r : Option Nat) : State := { up with sealer := { steps := [{ epoch := 9 }], lastRetract := r } }
def wUndone (l : List Task) : State := { graphOf up l with sealer := { retracting := some 9, lastRetract := some 9 } }
def wAfterGood : State := { up with sealer := { steps := [{ epoch := 9, sentGood := true }] } }
/-- Die 3 the twin of die 0, with an entry pending; die 0's record of it there (`v` = 1) or not. -/
def wPair (v : Nat) : State :=
  let s := ((up.setF GE_RED_CFG_TWIN_VALID 3 0 1).setF AS_DLOG_BASE_VALID 0 0 1).setF AS_DLOG_BASE_BASE 0 0 0x4000
  let s := s.setEngine 3 { s.engine 3 with twins := [tw0] }
  putWord (putWord s (s.logAddr 0 7 15 65535) (v * 2 ^ 63 + 5)) (s.logAddr 0 7 15 65535 + 8) (7 * 2 ^ 32)

theorem witness_RetractsAndTwins :
    (∃ s f u, s = wVerdict { epoch := 4294967294 } ∧ f = fRetract ∧ u = after s f ∧ s.hop 5 f = (u, some f) ∧ f.kind = 0x24 ∧
      f.w3.bits 63 62 = 1 ∧ u.retractNew f.epoch = true) ∧
    (∀ z ∈ [(none, true), (some 10, true), (some 9, false)], ∃ u,
      u = (wRetract z.1).setStep { (wRetract z.1).stepOf 9 with failed := true } ∧ (wRetract z.1).isSealed 9 = false ∧
      ((wRetract z.1).stepOf 9).sentGood = false ∧ u.retractNew 9 = z.2) ∧
    ((wTokens 1 0).isSealed (0 : BitVec 32).toNat = true ∧ (wAfterGood.stepOf (9 : BitVec 32).toNat).sentGood = true) ∧
    up.sealer.retracting = none ∧
    (∃ s, s = wUndone [task 1 [wd [(60, 2)], wd [(32, 9)]]] ∧ s.sealer.retracting = some 9 ∧
      s.liveTasks 0 (fun x => decide (9 ≤ x.epoch)) ≠ []) ∧
    (∃ s, s = wUndone [task 1 [wd [(60, 2)], wd [(32, 8)]]] ∧ s.sealer.retracting = some 9 ∧
      ∀ d < 4, s.liveTasks d (fun x => decide (9 ≤ x.epoch)) = []) ∧
    (wPair 1).twinDies (3 : Fin 4) = [] ∧
    (∀ v ∈ [0, 1], (wPair v).twinDies (0 : Fin 4) = [3] ∧ ((wPair v).engine 3).twins = [tw0] ∧ tw0.g = (15 : Fin 16).val ∧
      tw0.idx = (65535 : BitVec 16).toNat ∧ tw0.epoch = (7 : BitVec 32).toNat ∧
      (wPair v).primaryRecord 3 tw0 = if v = 1 then some (tw0.digest, 0) else none) := by
  refine ⟨⟨_, _, _, rfl, rfl, rfl, ?_⟩, fun z h => ⟨_, rfl, ?_⟩, ?_, ?_, ⟨_, rfl, ?_⟩, ⟨_, rfl, ?_⟩, ?_, ?_⟩
  · decide +kernel
  · revert h; revert z; decide +kernel
  all_goals decide +kernel

/-! ### Links, hallmarks, discovery and gossip -/

/-- Port 5 enabled, its link in state `st`, with the port's part `x`. -/
def wIl (st : Nat) (x : PortSt) : State := ((up.setF PORT_IL_CFG_EN 5 0 1).setF PORT_IL_STATUS_STATE 5 0 st).setPort 5 x
/-- Twelve of its lanes active. -/
def wLanes (st : Nat) (x : PortSt) : State := (wIl st x).setF PORT_STATUS_ACTIVE 5 0 0xFFF
def fq (q : Nat) : Frame := frm 0x20 1 0 0 [] q .good
def fCtrl (k a c n : Nat) (tag : Word) : Frame := { mkFrame 0 0 0 1 1 0 0 k 0 tag [] with w2 := wd [(24, a), (21, c), (13, n)] }
def replay3 (n : Nat) : PortSt := { replay := [fq 1048574, fq 1048575, fq 0], resends := n }

theorem witness_LinksAlignRetryAndGoDown :
    (∀ st ∈ [0, 1], ∀ x : PortSt, x = { known := [7] } → (wLanes st x).flag PORT_IL_CFG_EN (5 : Fin 6) 0 = true ∧ (wLanes st x).linkState 5 < 2 ∧
      12 ≤ (wLanes st x).activeLanes 5 ∧ ((wLanes st x).port (5 : Fin 6)).badSig = false) ∧
    (up.setF PORT_IL_CFG_EN 5 0 0).flag PORT_IL_CFG_EN (5 : Fin 6) 0 = false ∧ 2 ≤ (wIl 2 {}).linkState (5 : Fin 6) ∧ (wIl 0 {}).activeLanes (5 : Fin 6) < 12 ∧
    ((wIl 0 { badSig := true }).port (5 : Fin 6)).badSig = true ∧
    (∀ st ∈ [2, 4], ∃ s, s = (wIl st {}).setF PORT_MOD_CFG_DISC_EN 0 0 0 ∧ s.linkState 5 = st ∧ (s.port (5 : Fin 6)).replay = [] ∧
      (s.port (5 : Fin 6)).txq = [] ∧ s.flag PORT_MOD_CFG_DISC_EN 0 0 = false) ∧
    (∀ n ∈ [0, 255], ∃ s a g b f h, s = (wIl 3 (replay3 n)).setF PORT_IL_CFG_RETRY_MAX 5 0 255 ∧ a = [fq 1048574] ∧ g = fq 1048575 ∧
      b = [fq 0] ∧ f = fCtrl 0 1048575 7 0 0 ∧ h = fCtrl 1 5 7 0 1048575 ∧ s.linkState 5 = 3 ∧ (s.port (5 : Fin 6)).replay = a ++ g :: b ∧
      (∀ y ∈ a, y.seq ≠ g.seq) ∧ f.crc = .good ∧ h.crc = .good ∧ (s.port (5 : Fin 6)).txq = [] ∧ f.credVl = 7 ∧ h.credVl = 7 ∧ f.kind = 0 ∧
      illFormed f = false ∧ illFormed h = false ∧ f.ack = g.seq ∧ h.kind = 1 ∧ h.w3.bits 19 0 = g.seq ∧ (∀ y ∈ (s.port (5 : Fin 6)).replay, y.seq ≠ h.ack) ∧
      (n = 0 → (s.port (5 : Fin 6)).resends < max 1 (s.getF PORT_IL_CFG_RETRY_MAX (5 : Fin 6) 0)) ∧
      (n = 255 → max 1 (s.getF PORT_IL_CFG_RETRY_MAX (5 : Fin 6) 0) ≤ (s.port (5 : Fin 6)).resends)) ∧
    (∃ f, f = fCtrl 0 0 5 255 0 ∧ f.crc = .good ∧ f.kind = 0 ∧ illFormed f = false ∧ f.credVl < 6 ∧ ((wIl 3 {}).port (5 : Fin 6)).replay = [] ∧
      ((wIl 3 {}).port (5 : Fin 6)).txq = []) ∧
    (∃ f, f = mkFrame 0 5 0 1 1 0 0 0 0 0 [] ∧ f.crc = .good ∧ f.kind = 0 ∧ illFormed f = true) := by
  refine ⟨fun st h x hx => ?_, ?_, ?_, ?_, ?_, fun st h => ⟨_, rfl, ?_⟩, fun n h => ⟨_, _, _, _, _, _, rfl, rfl, rfl, rfl, rfl, rfl, ?_⟩,
    ⟨_, rfl, ?_⟩, ⟨_, rfl, ?_⟩⟩
  · subst hx; revert h; revert st; decide +kernel
  iterate 4 decide +kernel
  · revert h; revert st; decide +kernel
  · revert h; revert n; decide +kernel
  all_goals decide +kernel

/-- A hallmark of identity 7 (feed 255, its port 4), a piece of a chain of two, and a gossip record of identity 7. -/
def fHall : Frame := frm 2 3 0 0 (toLe 8 7 ++ [255, 4] ++ List.replicate 516 0) (2 ^ 20 - 1) .good
def fCert (i : Nat) : Frame := frm 3 3 0 (wd [(0, i), (16, 2), (32, 4097)]) [1] (2 ^ 20 - 1) .good
def fGossip : Frame := frm 4 3 0 0 (toLe 8 7 ++ [1, 2, 3, 4] ++ toLe 4 4294967295 ++ List.replicate 16 0) (2 ^ 20 - 1) .good
def wHall (st : Nat) (kn : List Nat) : State :=
  (wLink up).setPort 5 { (wLink up).port 5 with known := kn } |>.setF PORT_IL_STATUS_STATE 5 0 st
def gossip7 (q h : Nat) : Nat × Option Gossip := (7, some ⟨0, 0, q, 0, 0, false, h⟩)
def wGossip (l : List (Nat × Option Gossip)) : State := { wLink up with regs := Tab.insert RegKey.lt (wLink up).regs ⟨.PORT_MOD_ID, 0, 0⟩ 10, ingot := { up.ingot with gossip := l } }

theorem witness_NeighboursAreVerifiedAndGossip :
    (∀ z ∈ [(2, ([] : List Nat)), (2, [7]), (3, [7])], ∃ f u h, f = fHall ∧ u = after (wHall z.1 z.2) f ∧ h = Hallmark.ofBytes f.payload ∧
      (wHall z.1 z.2).hop 5 f = (u, some f) ∧ f.kind = 2 ∧ (u.knows h.identity = true ↔ z.2 = [7]) ∧ u.linkState 5 = z.1 ∧
      (u.verified 5 = true ↔ z.1 = 3)) ∧
    (∀ i ∈ [0, 1], ∃ s f u l, s = (wHall 3 []).setPort 5 { (wHall 3 []).port 5 with certs := [[2]] } ∧ f = fCert i ∧ u = after s f ∧
      l = (if f.w3.bits 15 0 = 0 then [] else (u.port (5 : Fin 6)).certs) ++ [f.payload] ∧ s.hop 5 f = (u, some f) ∧ f.kind = 3 ∧
      (l.length < f.w3.bits 31 16 ↔ i = 0)) ∧
    (∀ b : Bool, ((wIl 0 { badSig := b }).port (5 : Fin 6)).badSig = b) ∧
    (∀ l ∈ [[], [gossip7 4294967294 0], [gossip7 4294967295 9]], ∃ f u x, f = fGossip ∧ u = after (wGossip l) f ∧
      (wGossip l).hop 5 f = (u, some f) ∧ f.kind = 4 ∧ f.payload.length = 32 ∧ x = gossipOf f.payload u.hourNow ∧ x.1 ≠ u.identity ∧
      x.2.seq = 4294967295 ∧ u.ingot.gossip = l ∧ x.1 = 7) := by
  refine ⟨fun z h => ⟨_, _, _, rfl, rfl, rfl, ?_⟩, fun i h => ⟨_, _, _, _, rfl, rfl, rfl, rfl, ?_⟩, ?_,
    fun l h => ⟨_, _, _, rfl, rfl, ?_, ?_, ?_, rfl, ?_⟩⟩
  · revert h; revert z; decide +kernel
  · revert h; revert i; decide +kernel
  · decide +kernel
  all_goals revert h; revert l; decide +kernel

/-- Discovery in phase `n`, started. -/
def wDisc (n : Nat) (c : Option (Nat × Nat)) : State :=
  { up.setF PORT_MOD_DISC_PHASE 0 0 n with disc := { up.disc with claim := c } }
/-- The same with a verified neighbour that has not said where it stands. -/
def wAlone (n : Nat) : State := (wDisc n none).setF PORT_IL_STATUS_STATE 5 0 3

theorem witness_DiscoveryPublishesCoordinates :
    (∃ s, s = up.setF PORT_MOD_CFG_DISC_EN 0 0 0 ∧ s.mayAccess (.forge 0) = true ∧ s.inReset 4 = false ∧ s.flag PORT_MOD_CFG_DISC_EN 0 0 = false) ∧
    (∀ n ∈ [0, 1, 2, 3, 4, 5, 6], (wDisc n none).getF PORT_MOD_DISC_PHASE 0 0 = n) ∧ (wDisc 3 none).disc.claim = none ∧
    (wDisc 3 (some (0, 6))).getF PORT_MOD_DISC_PHASE 0 0 = 3 ∧ (wDisc 3 (some (0, 6))).disc.claim.isSome = true ∧
    (wDisc 4 none).extentsSettled = true ∧ (wAlone 4).getF PORT_MOD_DISC_PHASE 0 0 = 4 ∧ (wAlone 4).extentsSettled = false := by
  refine ⟨⟨_, rfl, ?_⟩, ?_⟩ <;> decide +kernel

/-! ### Ingots -/

/-- Every engine past step 7, step 7 an ingot step, with die 3's region one to copy. -/
def wSteps : State :=
  let s := (((wStack 0 1).setF ING_CADENCE_INTERVAL 0 0 1).setF ING_CTRL_EN 0 0 1)
  { s with engines := ([0, 1, 2, 3].foldl (fun (s : State) d => s.setEngine d { s.engine d with top := 9 }) s).engines }
def page0 (ms : Nat) : IngPage := { stack := ms, entry := 0, page := 0, frame := 0 }
/-- An ingot in progress with the pages given; tier 2 or not. -/
def wIngot (t2 : Bool) (l : List IngPage) : State :=
  let s := ((((wStack 0 1).setF ING_STATUS_STATE 0 0 1).setF ING_T2_VALID 0 0 1).setF ING_T2_SLOTS_M1 0 0 7)
  { s with ingot := { s.ingot with active := true, epoch := 7, serial := 1, next := 2, tier2 := t2, pages := l } }
/-- The same at a partner (port 5 of module 0x010000) without a route. -/
def wPartner (s : State) : State := (s.setF ING_PARTNER_OUT_VALID 0 0 1).setF ING_PARTNER_OUT 0 0 1

theorem pages_ne_nil : (List.range 12).flatMap (wSteps.stackPages 7) ≠ [] :=
  List.ne_nil_of_mem (List.mem_flatMap.2 ⟨9, by decide, List.mem_filterMap.2
    ⟨0, List.mem_filter.2 ⟨List.mem_range.2 (by decide), by decide +kernel⟩, rfl⟩⟩)

theorem witness_IngotsBeginReadAndVoid :
    (∃ voided : Nat → State → Prop, ∀ c t, voided c t ↔ (t.ingot.active = false ∧ t.ingot.pages = [] ∧ t.flag ING_STATUS_VOID 0 0 = true ∧
      t.getF ING_STATUS_VOID_CAUSE 0 0 = c ∧ t.getF ING_STATUS_STATE 0 0 = 0)) ∧
    (up.moduleBoundaryDue 7 = false ∧ wSteps.moduleBoundaryDue 7 = true ∧ wSteps.scheduled 7 = true ∧ wSteps.ingot.active = false ∧
      (wSteps.setF ING_CTRL_EN 0 0 0).scheduled 7 = false ∧ (wSteps.setF ING_CTRL_EN 0 0 0).moduleBoundaryDue 7 = true) ∧
    ({ wSteps with ingot := (wIngot false [page0 9]).ingot }.moduleBoundaryDue 7 = true ∧ (wIngot false [page0 9]).ingot.active = true) ∧
    (∀ b : Bool, (wIngot b [page0 9, page0 10]).ingot.active = true ∧ (wIngot b [page0 9, page0 10]).tier1 = false ∧
      (wIngot b [page0 9, page0 10]).nextPage 9 = some (0, page0 9) ∧ (wIngot b [page0 9, page0 10]).ingot.tier2 = b ∧
      (∀ y, ∃ z ∈ (wIngot b [page0 9, page0 10]).ingot.pages.set 0 y, z.read = false) ∧ (page0 9).ok2 = false ∧ (page0 9).slot = none ∧
      (wIngot b [page0 9, page0 10]).freeSlot = some 0 ∧ ((wIngot b [page0 9, page0 10]).setF ING_T2_FORGE 0 0 255).freeSlot = none) ∧
    up.ingot.active = false ∧
    (∃ s x, s = wPartner ((wIngot true [{ page0 9 with slot := some 7 }, page0 10]).setF ING_T2_FORGE 0 0 0x81) ∧
      x = { page0 9 with slot := some 7 } ∧ (s.getF ING_T2_FORGE 0 0).testBit 7 = true ∧ s.getF ING_STATUS_STATE 0 0 = 1 ∧
      s.ingot.pages = [] ++ x :: [page0 10] ∧ x.slot = some 7 ∧ x.ok1 = false ∧ s.tier1 = true ∧ s.ingot.complete1 = false ∧
      (∀ z ∈ [] ++ [page0 10], z.slot ≠ some 7) ∧
      (s.ingot.active && s.tier1 && !s.ingot.complete1 && !s.reachable (s.getF ING_PARTNER_OUT 0 0)) = true) := by
  refine ⟨⟨_, fun _ _ => Iff.rfl⟩, by decide +kernel, by decide +kernel, fun b => ⟨?_, ?_, ?_, ?_, fun y => ?_, ?_⟩, by decide +kernel,
    ⟨_, _, rfl, rfl, by decide +kernel⟩⟩
  · cases b <;> decide +kernel
  · cases b <;> decide +kernel
  · cases b <;> decide +kernel
  · cases b <;> decide +kernel
  · exact ⟨page0 10, by simp [wIngot], rfl⟩
  · cases b <;> decide +kernel

/-- An INGOT_ACK (0x31) or INGOT (0x30) frame from the partner: type, index, chunk and serial in TAG. -/
def fIng (k ty ix ch se : Nat) (pl : List Byte) : Frame := frm k 4 0 (wd [(61, ty), (51, ch), (32, ix), (0, se)]) pl (2 ^ 20 - 1) .good
/-- The ingot of serial 1 with its first page read, at the partner; `b` reports of it bad; everything sent or not. -/
def wSent (b : Nat) (sent t2 : Bool) : State :=
  let s := wLink (wPartner (wIngot t2 [{ page0 9 with read := true, bad := b }, { page0 10 with read := true }]))
  { s with ingot := { s.ingot with sentAll := sent } }

theorem witness_PartnersAnswerPages :
    (∃ voided : Nat → State → Prop, ∀ c t, voided c t ↔ (t.ingot.active = false ∧ t.ingot.pages = [] ∧ t.flag ING_STATUS_VOID 0 0 = true ∧
      t.getF ING_STATUS_VOID_CAUSE 0 0 = c ∧ t.getF ING_STATUS_STATE 0 0 = 0)) ∧
    (∀ z ∈ [(0, 0, false), (1, 1, false), (1, 2, false), (2, 0, false), (2, 0, true), (3, 0, true)], ∀ se ∈ [1, 2],
      (wSent z.2.1 (z.1 = 2) z.2.2).hop 5 (fIng 0x31 z.1 0 0 se []) =
        (after (wSent z.2.1 (z.1 = 2) z.2.2) (fIng 0x31 z.1 0 0 se []), some (fIng 0x31 z.1 0 0 se [])) ∧
      (fIng 0x31 z.1 0 0 se []).kind = 0x31 ∧ (fIng 0x31 z.1 0 0 se []).w3.bits 63 61 = z.1 ∧ (fIng 0x31 z.1 0 0 se []).w3.bits 50 32 = 0) ∧
    (∀ z ∈ [(0, 0, false), (1, 1, false), (1, 2, false), (2, 0, false), (2, 0, true), (3, 0, true)], ∀ se ∈ [1, 2], ∀ u,
      u = after (wSent z.2.1 (z.1 = 2) z.2.2) (fIng 0x31 z.1 0 0 se []) → u.getF ING_STATUS_STATE 0 0 ≠ 3 ∧
      (u.ackOurs (fIng 0x31 z.1 0 0 se []) = true ↔ se = 1) ∧ u.ingot.pages[0]? = some { page0 9 with read := true, bad := z.2.1 } ∧
      u.ingot.complete1 = false ∧ u.ingot.sentAll = decide (z.1 = 2) ∧ (∃ y ∈ u.ingot.pages.drop 1, y.ok1 = false) ∧
      ({ u with ingot := { u.ingot with complete1 := true } }.copied = !z.2.2) ∧ u.getF GE_TOKEN_COUNT 0 4033 ≤ u.ingot.epoch) := by
  refine ⟨⟨_, fun _ _ => Iff.rfl⟩, by decide +kernel, fun z hz se hs u hu => ?_⟩
  subst hu; revert hs; revert se; revert hz; revert z; decide +kernel

/-- Receive slot 1 of 16 MiB at the start of stack memory, receiving the image `x`, the partner upstream at module 1. -/
def wRx (st : Nat) (x : Image) : State :=
  let s := wLink ((((((wStack 0 0).setF ING_PARTNER_IN_VALID 0 0 1).setF ING_PARTNER_IN 0 0 1).setF ING_RX_VALID 0 1 1).setF ING_RX_SIZE 0 1 1).setF
    ING_RX_STATE 0 1 st)
  { s with ingot := { s.ingot with rx := [(1, x)] } }
def image1 : Image := { serial := 3, epoch := 0, count := 0 }
/-- A header of an image with no pages and a zero digest. -/
def header0 : List Byte := List.replicate 48 0
def fRx (ty ix : Nat) (pl : List Byte) : Frame := frm 0x30 4 0 (wd [(61, ty), (60, 1), (32, ix), (0, 3)]) pl (2 ^ 20 - 1) .good
def fAbort : Frame := frm 0x31 4 0 (wd [(61, 4), (60, 1), (0, 3)]) [] (2 ^ 20 - 1) .good
def wShut : State := (wRx 1 image1).setF ING_RX_VALID 0 1 0

theorem witness_ReceiveSlotsTakeImages :
    (∀ ty ∈ [0, 1, 2], wShut.hop 5 (fRx ty 7 [9]) = (after wShut (fRx ty 7 [9]), some (fRx ty 7 [9])) ∧
      (after wShut (fRx ty 7 [9])).rxAllows (fRx ty 7 [9]) = false) ∧
    (∀ z ∈ [(0, 0, [9]), (1, 0, toLe 8 0), (1, 0, toLe 8 1), (2, 1, [1, 2]), (3, 2 ^ 19 - 1, [9]), (3, 5, [9])], ∃ f u, f = fRx z.1 z.2.1 z.2.2 ∧
      u = after (wRx 1 image1) f ∧ (wRx 1 image1).hop 5 f = (u, some f) ∧ f.kind = 0x30 ∧ u.getF ING_STATUS_STATE 0 0 ≠ 3 ∧
      f.w3.bits 60 60 = 1 ∧ f.w3.bits 50 32 = z.2.1 ∧ u.rxImage 1 = image1 ∧ u.rxAllows f = true ∧ u.getF ING_RX_STATE 0 1 ≠ 0 ∧
      image1.serial = f.w3.bits 31 0 ∧ image1.epoch = f.epoch ∧ f.w3.bits 63 61 = z.1 ∧ f.src = u.getF ING_PARTNER_IN 0 0) ∧
    (∀ b : Bool, ∃ x f u y w, x = { image1 with header := if b then some header0 else none } ∧ f = fRx 2 1 [1, 2] ∧ u = after (wRx 1 x) f ∧
      y = { x with manifest := Tab.putN none x.manifest 1 (some f.payload) } ∧
      w = u.writePlain (u.rxBase 1 + 4096 * 1) f.payload none 0 none ∧ x.checked = false ∧ u.rxImage 1 = x ∧ w.manifestGood y = b) ∧
    (∃ v, v = after (wRx 1 image1) fAbort ∧ (wRx 1 image1).hop 5 fAbort = (v, some fAbort) ∧ fAbort.kind = 0x31 ∧ fAbort.w3.bits 63 61 = 4 ∧
      v.flag ING_PARTNER_IN_VALID 0 0 = true ∧ fAbort.src = v.getF ING_PARTNER_IN 0 0 ∧ fAbort.w3.bits 60 60 = 1 ∧
      (v.rxImage 1).serial = fAbort.w3.bits 31 0) := by
  refine ⟨by decide +kernel, fun z h => ⟨_, _, rfl, rfl, ?_⟩, fun b => ⟨_, _, _, _, _, rfl, rfl, rfl, rfl, rfl, ?_, ?_, ?_⟩,
    ⟨_, rfl, by decide +kernel⟩⟩
  · revert h; revert z; decide +kernel
  all_goals cases b <;> decide +kernel

/-- A complete image of no pages of member 0 in slot 1, and the request for it. -/
def wWhole (st : Nat) (h : Option (List Byte)) : State := wRx st { image1 with header := h, complete := true }
def fReq : Frame := frm 0x31 4 0 (wd [(61, 5), (60, 1)]) (toLe 8 0) (2 ^ 20 - 1) .good

theorem witness_RestoresAskAndServe :
    (∃ s, s = graphOf up [] ∧ s.anyRunning = true) ∧ up.anyRunning = false ∧
    (up.setF ING_RESTORE_SRC 0 0 1).anyRunning = false ∧ (up.setF ING_RESTORE_SRC 0 0 1).getF ING_RESTORE_SRC 0 0 ≠ 0 ∧
    up.getF ING_RESTORE_SRC 0 0 = 0 ∧ up.placed = false ∧
    (∀ z ∈ [(3, none), (2, some header0), (3, some header0)], ∃ f u x, f = fReq ∧ u = after (wWhole z.1 z.2) f ∧ x = u.rxImage 1 ∧
      (wWhole z.1 z.2).hop 5 f = (u, some f) ∧ f.kind = 0x31 ∧ f.w3.bits 63 61 = 5 ∧ f.w3.bits 60 60 = 1 ∧ x.header = z.2 ∧
      u.getF ING_RX_STATE 0 1 = z.1 ∧ leAt header0 26 2 = ofLe (f.payload.take 8) % 2 ^ 14) := by
  refine ⟨⟨_, rfl, by decide +kernel⟩, by decide +kernel, by decide +kernel, by decide +kernel, by decide +kernel, by decide +kernel,
    fun z h => ⟨_, _, _, rfl, rfl, rfl, ?_⟩⟩
  revert h; revert z; decide +kernel

/-! ### The light layer -/

def setSt (s : State) (l : LightSt) : State := { s with light := l }
/-- Ring `n` in register state `st` with the rest `r`. -/
def wRings (n st : Nat) (r : RingSt) : State := (up.setF LL_RING_STATE 0 n st).setRing n r
def ringsReading (n : Fin 294) : RingReading := ⟨n, 65535, 0xFFFF⟩
/-- Die 3's notice waiting; die-ring lane 7 active with the last owner given. -/
def notice0 : Notice := ⟨-65535, 0⟩
def wNotice : State := setSt up { up.light with notices := [(3, [notice0])] }
def wDieRing (o : Option Nat) (ph : Nat) : State :=
  ((up.setF LL_STATUS_DR_ACTIVE 0 0 0x80).setLight { up.light with ringOwner := Tab.putN none [] 7 o }).setSwitch 1 { phase := ph }

theorem witness_RingsLockAndRelock :
    (Tab.getN none (wDieRing (some 2) 0).light.ringOwner (7 : Fin 8) = some 2 ∧ ((wDieRing (some 2) 0).switchOf 1).phase = 0 ∧
      ((wDieRing none 1).switchOf 1).phase ≠ 0 ∧ (up.getF LL_STATUS_DR_ACTIVE 0 0).testBit (7 : Fin 8) = false ∧
      ((wDieRing (some 2) 0).getF LL_STATUS_DR_ACTIVE 0 0).testBit (7 : Fin 8) = true) ∧
    (up.getF LL_RING_STATE 0 (293 : Fin 294) ≠ 2 ∧ (wRings 293 2 {}).getF LL_RING_STATE 0 (293 : Fin 294) = 2 ∧
      ((wRings 293 2 {}).setF LL_CTRL_FF_EN 0 0 0).flag LL_CTRL_FF_EN 0 0 = false) ∧
    (∀ n ∈ [(0 : Fin 294), 203, 204, 293], (wRings n 2 {}).getF LL_RING_STATE 0 n = 2 ∧ (wRings n 2 {}).ring n = {} ∧
      Tab.getN false (wRings n 2 {}).light.ringFailed (ringLane n) = false) ∧
    (∀ n ∈ [(0 : Fin 294), 203, 204, 293], ∀ k ∈ [0, 1, 2, 3], ∀ c : Bool, (wRings n 3 { relock := k, cover := c }).ring n = { relock := k, cover := c }) ∧
    Tab.getN [] up.light.notices (3 : Fin 4) = [] ∧ Tab.getN [] wNotice.light.notices (3 : Fin 4) = [notice0] := by
  decide +kernel

/-- Fibre `f` of the rotation, running, with the calibration `c`; the lanes up. -/
def wCal (f : Nat) (c : CalSt) : State :=
  let s := ((up.setF LL_CTRL_ROT_EN 0 0 1).setF LL_STATUS_READY 0 0 1).setF PORT_CFG_CAL_EN f 0 1
  ((List.range 17).foldl (fun s l => s.setF PORT_LANE_STATE f l 1) s).setCal f c
/-- The spare of fibre 5 in use `u`. -/
def wSpare (u : Nat) : State := (wCal 5 {}).setF PORT_STATUS_SPARE_USE 5 0 u

theorem witness_LanesCalibrateInRotation :
    (up.rotates (0 : Fin 7) = false ∧ (wCal 5 { next := 16 }).rotates (5 : Fin 7) = true ∧ (wCal 6 { next := 8 }).rotates (6 : Fin 7) = true ∧
      (wCal 5 { next := 16 }).mayCalibrate (5 : Fin 7) 16 = true ∧ (wCal 6 { next := 8 }).mayCalibrate (6 : Fin 7) 8 = true ∧
      (wSpare 2).rotates (5 : Fin 7) = true ∧ (wSpare 2).mayCalibrate (5 : Fin 7) 0 = false) ∧
    (∀ f ∈ [(0 : Fin 7), 5, 6], ∀ k ∈ [0, 1, 2, 3, 4, 5], ((wCal f { phase := k, lane := 15 }).cal f).phase = k ∧
      ((wCal f { phase := k, lane := 15 }).cal f).second = false ∧ ((wCal f { phase := k, lane := 15 }).cal f).lane < 16) ∧
    (200 ≤ (200#16).toInt ∧ (199#16).toInt < 200 ∧ 350 ≤ (350#16).toInt ∧ (349#16).toInt < 350) ∧
    ((wCal 5 {}).setF PORT_STATUS_SPARE_FOR 5 0 15).getF PORT_STATUS_SPARE_FOR (5 : Fin 7) 0 < 16 ∧
    (∀ u ∈ [0, 1, 2, 3], (wSpare u).getF PORT_STATUS_SPARE_USE (5 : Fin 7) 0 = u ∧ (wSpare u).spareUp (5 : Fin 7) = true) ∧
    (∀ lit : Bool, ((up.setF LL_STATUS_READY 0 0 1).flag LL_STATUS_READY 0 0 &&
      decide ((up.setF LL_STATUS_READY 0 0 1).getF PORT_LANE_STATE (5 : Fin 6) (16 : Fin 17) = 0) &&
      !((up.setF LL_STATUS_READY 0 0 1).getF PORT_STATUS_FAILED (5 : Fin 6) 0).testBit (16 : Fin 17) && lit) = lit) := by
  refine ⟨by decide +kernel, by decide +kernel, by decide +kernel, by decide +kernel, by decide +kernel, by decide +kernel⟩

/-- Cartridge `i` in register state `st` with the rest `c`. -/
def wCart (i st : Nat) (c : CartSt) : State := ((up.setF LC_STATUS_PRESENT 0 i 1).setF LC_STATUS_STATE 0 i st).setCart i c
def lineAt (v : BitVec 16) : List (BitVec 16) := List.replicate 17 v
/-- Start phase `n`; readings of every stage `v` below a baseline of zeros, but for cartridge 0, which feeds group A. -/
def wStart (n : Nat) (b : Bool) : State := (up.setF LL_STATUS_START_PHASE 0 0 n).setF LL_STATUS_STOPPED 0 0 (if b then 1 else 0)
/-- Port 5's fibre 2.00 dB down at S on line 16, and nothing else. -/
def lossS : LossReadings := { read0 with s := List.replicate 5 line17 ++ [List.replicate 16 0 ++ [-200]], m := List.replicate 5 line17 ++ [List.replicate 16 0 ++ [-200]] }
def wLoss : State := setSt (up.setF LL_CTRL_LOC_EN 0 0 1) { up.light with baseline := some read0 }

theorem witness_LightStartsAndLossIsLocated :
    (∃ placed rejected : Fin 3 → State → Prop,
      (∀ i t, placed i t ↔ ((t.cart i).locked = true ∧ (t.cart i).commissioned = true ∧
        t.getF LC_STATUS_STATE 0 i = if (wLoss.lcServes i).isSome then 3 else 2)) ∧
      ∀ i t, rejected i t ↔ ((t.cart i).rejected = true ∧ t.getF LC_STATUS_STATE 0 i = 0 ∧
        t.elog.seq = (wLoss.elog.seq + 1) % 2 ^ 32)) ∧
    (∀ i ∈ [(0 : Fin 3), 1, 2], (wCart i 1 { field := true }).getF LC_STATUS_STATE 0 i = 1 ∧ ((wCart i 1 { field := true }).cart i).locked = false ∧
      (wCart i 1 { field := true }).cartBase i = none ∧ (wCart i 1 { base := some (lineAt 1300) }).cartBase i = some (lineAt 1300) ∧
      (wCart i 2 {}).getF LC_STATUS_STATE 0 i ≠ 1 ∧ ((wCart i 1 { locked := true }).cart i) = { locked := true } ∧
      ((wCart i 1 { locked := true, commissioned := true }).cart i).commissioned = true) ∧
    (State.withinDb (lineAt 1300) (lineAt 1200) = true ∧ State.withinDb (lineAt 1300) (lineAt 1199) = false ∧
      State.withinDb (List.replicate 17 1300#16) (lineAt 1400) = true ∧ State.withinDb (List.replicate 17 1300#16) (lineAt 1401) = false) ∧
    (up.getF LC_STATUS_SERIAL 0 (2 : Fin 3) = (0 : BitVec 32).toNat ∧ up.getF LC_STATUS_SERIAL 0 (2 : Fin 3) ≠ (4294967295 : BitVec 32).toNat) ∧
    (∀ n ∈ [0, 1, 2, 3, 4, 5, 6], ∀ b : Bool, (wStart n b).getF LL_STATUS_START_PHASE 0 0 = n ∧ (wStart n b).flag LL_STATUS_STOPPED 0 0 = b) ∧
    up.inReset 5 = false ∧ up.linkState (5 : Fin 6) < 2 ∧
    ((up.setF PORT_IL_NEIGH_ID 5 0 7).getF PORT_IL_NEIGH_ID (5 : Fin 6) 0 ≠ 0 ∧ up.light.farBase = [] ∧ up.getF PORT_IL_NEIGH_ID (5 : Fin 6) 0 = 0) ∧
    ((up.setF LL_CTRL_LOC_EN 0 0 0).flag LL_CTRL_LOC_EN 0 0 = false ∧ wLoss.flag LL_CTRL_LOC_EN 0 0 = true ∧
      Tab.getN 0 wLoss.light.reported 688 = 0 ∧ wLoss.flag LL_LOSS_VALID 0 0 = false) := by
  refine ⟨⟨_, _, fun _ _ => Iff.rfl, fun _ _ => Iff.rfl⟩, by decide +kernel, by decide +kernel, by decide +kernel, by decide +kernel,
    by decide +kernel, by decide +kernel, by decide +kernel, by decide +kernel⟩

/-- One loss is found: at stage S of port 5, line 16, 2.00 dB. -/
theorem witness_one_loss : ((wLoss.showReadings lossS).offerMargins).findLosses lossS = [(688, 1, 5, 16, 200)] := by decide +kernel

/-- Cartridge `i` with its baseline at 13 dBm; group `g`'s switchover `x`; LC2 lit and free, or serving a group. -/
def wBase (i : Fin 3) : State := wCart i 3 { base := some (lineAt 1300), commissioned := true }
def wSwitch (g : Nat) (x : SwitchSt) : State := up.setSwitch g x
def wLc2 : State := (wCart 2 2 {}).setF LC_STATUS_LATCH 0 2 1
def wLc2For (g : Nat) : State := (wLc2.setF (if g = 0 then LC_ROUTE_A_SRC else LC_ROUTE_B_SRC) 0 0 2).setF LC_STATUS_STATE 0 g 2

theorem witness_LaserLightSwitchesOver :
    (∃ started : Nat → Nat → State → Prop, ∀ g dst t, started g dst t ↔ ((t.switchOf g) = { phase := 1, dest := dst } ∧
      ∀ p ∈ groupPorts g, t.flag PORT_STATUS_HOLD p 0 = true)) ∧
    (∀ i : Fin 3, ((wBase i).cart i).base = some (lineAt 1300) ∧ (wBase i).flag LC_STATUS_PRESENT 0 i = true ∧
      ((wBase i).cart i).commissioned = true ∧ ∀ j < 3, j ≠ i.val → ((wBase i).cart j).base = none) ∧
    (up.tarnishDb ≤ (worstDrop (lineAt 1300) (lineAt 0)).2 ∧ ((up.getF LC_CFG_HARD_DB 0 0 * 10 : Nat) : Int) ≤ (worstDrop (lineAt 1300) (lineAt 0)).2) ∧
    (up.flag LC_STATUS_PRESENT 0 (2 : Fin 3) = false ∧ (wBase 0).lcServes (0 : Fin 3) = some 0 ∧ (wBase 0).lc2Free = false ∧
      up.flag LC_STATUS_LATCH 0 (2 : Fin 3) = false ∧ wLc2.flag LC_STATUS_LATCH 0 (2 : Fin 3) = true ∧ wLc2.lcServes (2 : Fin 3) = none) ∧
    (∀ b : Bool, ∀ k ∈ [0, 1, 2, 3, 4], (wSwitch (groupOfBool b) { phase := k, dest := 2, waiting := some 2 }).switchOf (groupOfBool b) =
      { phase := k, dest := 2, waiting := some 2 }) ∧
    (∀ b : Bool, up.boundaryNow (groupOfBool b) = true ∧ (up.switchOf (groupOfBool b)).waiting = none) ∧
    (∃ s, s = (((wBusy (xTransfer 8 0 1) { tx := [{ tx1 with dst := 65536 }] }).setF PORT_MOD_COORD_LX_M1 0 0 3)) ∧ s.boundaryNow 0 = false) ∧
    (∀ n < 204, (up.ring n).relock = 0) ∧ up.inReset 5 = false ∧
    (∀ g ∈ [0, 1], wLc2.lcServes 2 ≠ some g ∧ wLc2.lc2Free = true ∧ (wLc2.switchOf g).phase = 0 ∧ (wLc2For g).lcServes 2 = some g ∧
      (wLc2For g).getF LC_STATUS_STATE 0 g = 2 ∧ ((wLc2For g).switchOf g).phase = 0 ∧ up.lcServes 2 ≠ some g) ∧
    up.lc2Free = false ∧ wLc2.lcServes 2 = none ∧ 2 ≤ wLc2.getF LC_STATUS_STATE 0 2 := by
  refine ⟨⟨_, fun _ _ _ => Iff.rfl⟩, by decide +kernel, by decide +kernel, by decide +kernel, by decide +kernel, by decide +kernel,
    ⟨_, rfl, by decide +kernel⟩, by decide +kernel, by decide +kernel, by decide +kernel, by decide +kernel, by decide +kernel, by decide +kernel⟩

/-! ### The machine -/

/-- The root PLL locked, with an offset to work off; its rate 0. -/
def wClock (off : Int) : State := { up.setF BOOT_CLK_STATUS_ROOT_LOCK 0 0 1 with clock := { up.clock with slew := off } }

theorem witness_IdleStepsRunTheClock :
    (up.pending = [] ∧ (up.setF BOOT_CLK_STATUS_ROOT_LOCK 0 0 0).flag BOOT_CLK_STATUS_ROOT_LOCK 0 0 = false) ∧
    (∀ off ∈ [(0 : Int), 65, 66, -66], (wClock off).pending = [] ∧ (wClock off).flag BOOT_CLK_STATUS_ROOT_LOCK 0 0 = true ∧
      (wClock off).getF TIME_STATUS_RATE 0 0 = 0 ∧ 0 ≤ (wClock off).clock.rem ∧ (wClock off).clock.rem < 10000000 ∧
      (wClock off).frac < 65536 ∧ (wClock off).clock.slew = off) := by
  decide +kernel

theorem witness_EveryStepKeepsTheCanonicalForm : State.reset.canonical = true ∧ ∃ t, step State.reset = .next t :=
  ⟨by decide +kernel, _, rfl⟩

/-- A tick works off 65/65536 ns of an offset of 66. -/
theorem test_tick_slews : (match step (wClock 66) with | .next t => (t.time, t.frac, t.clock.slew) | _ => (0, 0, 0)) = (10, 65, 1) := by
  decide +kernel

/-- A command goes before a tick, and leaves the queue. -/
theorem test_step_takes_the_front :
    (match step { up with pending := [.sealVerdict, .commit] } with | .next t => t.pending | _ => []) = [.commit] := by
  decide +kernel

end Sys2Proof.Tests
end

section
/-! How a quench ends and a hot inlet is recorded: the conditions of R395 as one statement, the frames of the steps that
resume a die, and the registers that read anew after them (R395, R396, R398, R400). -/

namespace Sys2Proof.Machine

/-! ### Bits of a field cleared by subtraction -/

/-- Taking its own bit `i` away from a number leaves that bit clear: how a die's bit leaves ARRAY_HALF. -/
theorem testBit_sub_and_two_pow (n i : Nat) : (n - (n &&& 2 ^ i)).testBit i = false := by
  rw [Nat.and_two_pow]
  cases h : n.testBit i with
  | false => simpa using h
  | true =>
    have hodd : n / 2 ^ i % 2 = 1 := by simpa [Nat.testBit_eq_decide_div_mod_eq] using h
    have hdiv : (n - 2 ^ i) / 2 ^ i = n / 2 ^ i - 1 := by simpa using Nat.sub_mul_div n (2 ^ i) 1
    simp [Nat.testBit_eq_decide_div_mod_eq, hdiv]
    omega

/-! ### The commands -/

theorem exec_quenchExit (s : State) (d : Fin 4) : exec (.quenchExit d) s = .next (s.latchEdges (s.quenchExit d)) := rfl

theorem exec_release (s : State) (r : Requester) (d : Fin 4) :
    exec (.release r d) s =
      .next (s.latchEdges (s.atReg r (dieReg d 0xD00110) (s.setF THM_STATUS_HELD d 0 0))) := rfl

theorem exec_thmCntClr (s : State) (r : Requester) (d : Fin 4) :
    exec (.thmCntClr r d) s =
      .next (s.latchEdges (s.atReg r (dieReg d 0xD00110) (s.setF PWR_LV_WAIT_COUNT d 0 0))) := rfl

theorem exec_coolantInletHigh (s : State) (a b : BitVec 16) :
    exec (.coolantInletHigh a b) s = .next (s.latchEdges (s.coolantInletHigh a b)) := rfl

/-- A state that did not change has no rising edge to latch. -/
theorem latchEdges_self (s : State) : s.latchEdges s = s := latch_none fun _ _ => rfl

namespace State

/-- A write at offset `off` of a die's window takes effect, or leaves the record of R19 while the die is in reset. -/
theorem atReg_dieReg (s t : State) (r : Requester) (d off : Nat) (hoff : off < 0x100000000) :
    s.atReg r (dieReg d off) t = if s.inReset d then s.accessRecord 0x0102 r (dieReg d off) else t := by
  have hdie : (dieReg d off - 0xF0000000000) / 0x100000000 = d := by unfold dieReg; omega
  rw [atReg, hdie]

/-! ### The conditions of R395 -/

/-- The conditions of R395, a module cause's absence counted from the last reading that showed it (log entry 86). -/
theorem quenchCleared_iff (s : State) (d : Nat) :
    s.quenchCleared d = true ↔
      (s.quenchOf d).since + s.getF THM_CFG_QMIN_US d 0 * 1000 ≤ s.time ∧
      (∀ i < 64, sgn16 (s.getF THM_SENSOR_TEMP d i) - sgn16 (s.getF THM_SENSOR_REF d i) < 80 ∧
        sgn16 (s.getF THM_SENSOR_TEMP d i) ≤ s.tMax d - 80) ∧
      (∀ j < 3, sgn16 (s.getF CRU_THERM_TEMP (3 * d + j) 0) < 1600) ∧ s.moduleCause = false ∧
      ((s.quenchOf d).clearSince = 0 ∨ (s.quenchOf d).clearSince + 1000000 ≤ s.time) ∧
      s.runningTokens d ≤ s.ramp d := by
  simp [quenchCleared, and_assoc, or_comm]

/-- A held die does not resume. -/
theorem quenchExit_of_held (s : State) (d : Nat) (h : s.flag THM_STATUS_HELD d 0 = true) : s.quenchExit d = s := by
  simp [quenchExit, h]

/-! ### Frames of the steps of a resume -/

@[simp] theorem getF_notify (s : State) (d : Nat) (n : Int) (t0 : Nat) (f : Field) (i j : Nat) :
    (s.notify d n t0).getF f i j = s.getF f i j := rfl

/-- Putting tokens back on cores writes no register. -/
theorem rehold_regs (s : State) (d : Nat) : (s.rehold d).regs = s.regs := by
  unfold rehold
  refine List.foldlRecOn (motive := fun u : State => u.regs = s.regs) _ _ rfl fun u hu x _ => ?_
  split
  · exact hu
  · exact hu

@[simp] theorem getF_rehold (s : State) (d : Nat) (f : Field) (i j : Nat) :
    (s.rehold d).getF f i j = s.getF f i j := by
  unfold getF getR; rw [rehold_regs]

/-- The power state is settled in PWR_STATUS alone. -/
theorem getF_restate (s : State) (f : Field) (i j : Nat) (h : f.reg ≠ .PWR_STATUS) :
    s.restate.getF f i j = s.getF f i j := by
  unfold restate
  extract_lets st
  split
  · exact getF_setF_of_reg _ _ _ _ _ _ _ _ h.symm
  · rfl

/-- A record about a die, and the power state settled after it, leave every field outside the log's own registers and
PWR_STATUS. -/
theorem getF_restate_dieRecord (s : State) (event sev d sub : Nat) (details : List Nat) (f : Field) (i j : Nat)
    (h : f.reg ∉ [.HIC_ELOG_PROD, .HIC_ELOG_DROP, .HIC_MGMT_STATUS, .PWR_STATUS]) :
    (s.dieRecord event sev d sub details).restate.getF f i j = s.getF f i j := by
  simp only [List.mem_cons, List.not_mem_nil, or_false, not_or] at h
  obtain ⟨hprod, hdrop, hmgmt, hpwr⟩ := h
  rw [getF_restate _ _ _ _ hpwr]
  exact getF_record _ _ _ _ _ ⟨hprod, hdrop, hmgmt⟩

/-- Fields written in turn leave every field of another register. -/
theorem getF_foldl_setF_of_reg (l : List Field) (s : State) (f : Field) (i j i' j' v : Nat)
    (hl : ∀ g ∈ l, g.reg ≠ f.reg) : (l.foldl (fun s g => s.setF g i' j' v) s).getF f i j = s.getF f i j := by
  induction l generalizing s with
  | nil => rfl
  | cons g l ih =>
    obtain ⟨hg, hl⟩ := List.forall_mem_cons.mp hl
    rw [List.foldl_cons, ih _ hl, getF_setF_of_reg _ _ _ _ _ _ _ _ hg]

/-- Fields cleared in turn, none overlapping `f`: `f` reads 0 when it is one of them, or read 0 before. -/
theorem getF_foldl_setF_zero (l : List Field) (s : State) (f : Field) (i j : Nat) (hok : f.ok = true)
    (hl : ∀ g ∈ l, g = f ∨ f.hi < g.lo ∨ g.hi < f.lo) (hf : f ∈ l ∨ s.getF f i j = 0) :
    (l.foldl (fun s g => s.setF g i j 0) s).getF f i j = 0 := by
  induction l generalizing s with
  | nil => simpa using hf
  | cons g l ih =>
    obtain ⟨hg, hl⟩ := List.forall_mem_cons.mp hl
    refine ih _ hl ?_
    rcases hg with rfl | hdis
    · exact .inr (by rw [getF_setF_same _ _ _ _ _ hok, Nat.zero_mod])
    · rw [getF_setF_of_disjoint _ _ _ _ _ _ _ _ hdis]
      rcases hf with hf | hf
      · rcases List.mem_cons.mp hf with rfl | hf
        · exact absurd hok (by simp [Field.ok]; omega)
        · exact .inl hf
      · exact .inr hf

/-! ### A die that resumes (R395) -/

/-- What the registers read once a quench has ended: QUENCHED and the causes clear, G the tokens of the running tasks,
the array back from ÷10. -/
theorem quenchExit_reads (s : State) (d : Nat) (hq : s.flag THM_STATUS_QUENCHED d 0 = true)
    (hh : s.flag THM_STATUS_HELD d 0 = false) (hc : s.quenchCleared d = true) :
    (∀ f ∈ [THM_STATUS_QUENCHED, THM_STATUS_C_RISE, THM_STATUS_C_ABS, THM_STATUS_C_STACK, THM_STATUS_C_MODULE],
      (s.quenchExit d).getF f d 0 = 0) ∧
    (s.quenchExit d).getF PWR_LV_STATUS_GRANTED d 0 = s.runningTokens d % 65536 ∧
    ((s.quenchExit d).getF BOOT_CLK_STATUS_ARRAY_HALF 0 0).testBit d = false := by
  unfold quenchExit
  rw [if_pos (by simp [hq, hh, hc])]
  extract_lets g since rested half slowed cleared q counted e granted
  refine ⟨fun f hf => ?_, ?_, ?_⟩
  · have hreg : f.reg = .THM_STATUS := by revert f; decide
    rw [getF_restate_dieRecord _ _ _ _ _ _ _ _ _ (by rw [hreg]; decide),
      getF_setF_of_reg _ _ _ _ _ _ _ _ (by rw [hreg]; decide), getF_setEngine,
      getF_setF_of_reg _ _ _ _ _ _ _ _ (by rw [hreg]; decide)]
    exact getF_foldl_setF_zero _ _ _ _ _ (by revert f; decide) (by revert f; decide) (.inl hf)
  · rw [getF_restate_dieRecord _ _ _ _ _ _ _ _ _ (by decide), getF_setF_same _ _ _ _ _ (by decide)]
    rfl
  · rw [getF_restate_dieRecord _ _ _ _ _ _ _ _ _ (by decide), getF_setF_of_reg _ _ _ _ _ _ _ _ (by decide),
      getF_setEngine, getF_setF_of_reg _ _ _ _ _ _ _ _ (by decide), getF_foldl_setF_of_reg _ _ _ _ _ _ _ _ (by decide),
      getF_setF_same _ _ _ _ _ (by decide), Nat.testBit_mod_two_pow, testBit_sub_and_two_pow, Bool.and_false]

/-! ### The coolant readings (R398, R401) -/

/-- New coolant readings write THM_COOLANT and THM_PLATE alone. -/
theorem onlyRegs_coolant (s : State) (a b : BitVec 16) :
    OnlyRegs (fun k => k = ⟨.THM_COOLANT, 0, 0⟩ ∨ k = ⟨.THM_PLATE, 0, 0⟩) s.markCause (s.coolant a b) :=
  (((OnlyRegs.refl _ _).setF _ _ _ _ (.inl rfl) (by decide)).setF _ _ _ _ (.inl rfl) (by decide)).setF _ _ _ _
    (.inr rfl) (by decide)

theorem coolant_reads (s : State) (a b : BitVec 16) :
    (s.coolant a b).getF THM_COOLANT_INLET 0 0 = a.toNat ∧ (s.coolant a b).getF THM_COOLANT_OUTLET 0 0 = b.toNat ∧
      (s.coolant a b).getF THM_PLATE_RISE 0 0 = (b - a).toNat := by
  unfold coolant
  refine ⟨?_, ?_, ?_⟩
  · rw [getF_setF_of_reg _ _ _ _ _ _ _ _ (by decide), getF_setF_of_disjoint _ _ _ _ _ _ _ _ (by decide),
      getF_setF_same _ _ _ _ _ (by decide)]
    exact Nat.mod_eq_of_lt a.isLt
  · rw [getF_setF_of_reg _ _ _ _ _ _ _ _ (by decide), getF_setF_same _ _ _ _ _ (by decide)]
    exact Nat.mod_eq_of_lt b.isLt
  · rw [getF_setF_same _ _ _ _ _ (by decide)]
    exact Nat.mod_eq_of_lt (b - a).isLt

theorem coolantInletHigh_of_hot (s : State) (a b : BitVec 16) (h : 640 < a.toInt) :
    s.coolantInletHigh a b = (s.coolant a b).record
      { event := 0x0D09, sev := sevDegraded, unit := unitModule, alert := true,
        syn := Config.syndrome 0x0D09 [a.toNat, b.toNat] } := if_pos h

end State

/-- Settles O20: the conditions of R395 are `quenchCleared`, so a die that is not held resumes and reads as
`quenchExit_reads` says; RELEASE and CNT_CLR are writes to THM_CTRL, taken as `atReg_dieReg` says. -/
theorem quenchEndsUnderR395 : Obligations.QuenchEndsUnderR395 := by
  intro s d r
  refine ⟨fun hq hh hmin hsens hstack hmod hclear hramp => ?_, fun hh => ?_, fun hr => ?_, fun hr => ?_,
    fun a b ha => ?_⟩
  · have hc : s.quenchCleared d = true :=
      (s.quenchCleared_iff d).mpr ⟨hmin, hsens, hstack, hmod, hclear, hramp⟩
    obtain ⟨hflags, hgranted, hhalf⟩ := s.quenchExit_reads d hq hh hc
    have hoff : ∀ f ∈ [THM_STATUS_QUENCHED, THM_STATUS_C_RISE, THM_STATUS_C_ABS, THM_STATUS_C_STACK, THM_STATUS_C_MODULE],
        (s.latchEdges (s.quenchExit d)).flag f d 0 = false := fun f hf => by
      rw [State.flag_latchEdges _ _ _ _ _ (by revert f; decide), State.flag, hflags f hf]; rfl
    refine ⟨_, exec_quenchExit s d, hoff _ (by decide), hoff _ (by decide), hoff _ (by decide), hoff _ (by decide),
      hoff _ (by decide), ?_, ?_⟩
    · rw [State.getF_latchEdges _ _ _ _ _ (by decide), hgranted]
    · rw [State.getF_latchEdges _ _ _ _ _ (by decide), hhalf]
  · rw [exec_quenchExit, State.quenchExit_of_held _ _ hh, latchEdges_self]
  · simp [exec_release, exec_thmCntClr, State.atReg_dieReg, hr]
  · simp [exec_release, exec_thmCntClr, State.atReg_dieReg, hr]
  · refine ⟨s.coolant a b, ?_, s.onlyRegs_coolant a b, s.coolant_reads a b⟩
    rw [exec_coolantInletHigh, State.coolantInletHigh_of_hot _ _ _ ha]

end Sys2Proof.Machine
end

section
/-! Claims and completions of the interrupt controller: the fold that looks for a source finds the best one, and what a
completion leaves in service and pending (R407, R408). -/

namespace Sys2Proof.Machine

/-! ### The commands -/

theorem exec_hicClaim (s : State) (c : Fin 16) : exec (.hicClaim c) s = .next (s.latchEdges (s.hicClaim c)) := rfl

theorem exec_hicComplete (s : State) (r : Requester) (c : Fin 16) (i : Nat) :
    exec (.hicComplete r c i) s = .next (s.latchEdges (s.hicComplete c i)) := rfl

/-- A command that leaves the engines, the error log and every register but HIC_PEND raises no level. -/
theorem latchEdges_of_levels_kept {s t : State} (h : ∀ k, k.name ≠ .HIC_PEND → t.getR k = s.getR k)
    (he : t.engines = s.engines) (hl : t.elog = s.elog) : s.latchEdges t = t :=
  latch_none (level_congr h he hl)

namespace State

/-! ### The source a claim answers (R407) -/

/-- One step of the search for the best source. -/
def preferSource (s : State) (c : Nat) (b : Option Nat) (i : Nat) : Option Nat :=
  if s.claimable c i then
    match b with
    | some j => if s.getF HIC_TARGET_PRIO 0 j < s.getF HIC_TARGET_PRIO 0 i then some i else b
    | none => some i
  else b

theorem bestSource_eq_foldl (s : State) (c : Nat) :
    s.bestSource c = (List.range 1152).foldl (s.preferSource c) none := rfl

/-- What a search among the sources below `n` has to answer: the claimable one of the highest priority and then the
lowest number, or none where none is claimable. -/
inductive IsBest (s : State) (c n : Nat) : Option Nat → Prop
  | nothing (h : ∀ j < n, s.claimable c j = false) : IsBest s c n none
  | best (i : Nat) (hi : i < n) (hci : s.claimable c i = true)
      (hbest : ∀ j < n, s.claimable c j = true →
        s.getF HIC_TARGET_PRIO 0 j < s.getF HIC_TARGET_PRIO 0 i ∨
          s.getF HIC_TARGET_PRIO 0 j = s.getF HIC_TARGET_PRIO 0 i ∧ i ≤ j) : IsBest s c n (some i)

theorem preferSource_of_not_claimable {s : State} {c i : Nat} (h : s.claimable c i = false) (b : Option Nat) :
    s.preferSource c b i = b := by
  simp [preferSource, h]

theorem preferSource_none {s : State} {c i : Nat} (h : s.claimable c i = true) :
    s.preferSource c none i = some i := by
  simp [preferSource, h]

theorem preferSource_some {s : State} {c i : Nat} (h : s.claimable c i = true) (j : Nat) :
    s.preferSource c (some j) i =
      if s.getF HIC_TARGET_PRIO 0 j < s.getF HIC_TARGET_PRIO 0 i then some i else some j := by
  simp [preferSource, h]

/-- A source that cannot be claimed does not matter. -/
theorem IsBest.succ_of_not_claimable {s : State} {c n : Nat} {b : Option Nat} (hb : s.IsBest c n b)
    (hn : s.claimable c n = false) : s.IsBest c (n + 1) b := by
  cases hb with
  | nothing h => exact .nothing (Nat.forall_lt_succ_right.mpr ⟨h, hn⟩)
  | best i hi hci hbest =>
    exact .best i (Nat.lt_succ_of_lt hi) hci (Nat.forall_lt_succ_right.mpr ⟨hbest, by simp [hn]⟩)

/-- The next source, claimable and of a higher priority than every claimable one before it, is the best. -/
theorem IsBest.last {s : State} {c n : Nat} (hn : s.claimable c n = true)
    (h : ∀ j < n, s.claimable c j = true → s.getF HIC_TARGET_PRIO 0 j < s.getF HIC_TARGET_PRIO 0 n) :
    s.IsBest c (n + 1) (some n) :=
  .best n (Nat.lt_succ_self n) hn
    (Nat.forall_lt_succ_right.mpr ⟨fun j hj hcj => .inl (h j hj hcj), fun _ => .inr ⟨rfl, le_rfl⟩⟩)

theorem IsBest.succ {s : State} {c n : Nat} {b : Option Nat} (hb : s.IsBest c n b) :
    s.IsBest c (n + 1) (s.preferSource c b n) := by
  cases hn : s.claimable c n with
  | false => rw [preferSource_of_not_claimable hn]; exact hb.succ_of_not_claimable hn
  | true =>
    cases hb with
    | nothing h =>
      rw [preferSource_none hn]
      exact .last hn fun j hj hcj => by simp [h j hj] at hcj
    | best i hi hci hbest =>
      rw [preferSource_some hn]
      split
      case isTrue hlt => exact .last hn fun j hj hcj => by have := hbest j hj hcj; omega
      case isFalse hge =>
        exact .best i (Nat.lt_succ_of_lt hi) hci (Nat.forall_lt_succ_right.mpr ⟨hbest, fun _ => by omega⟩)

/-- Priority and number together order the sources, so the best one is one. -/
theorem IsBest.unique {s : State} {c n : Nat} {a b : Option Nat} (ha : s.IsBest c n a) (hb : s.IsBest c n b) : a = b := by
  cases ha with
  | nothing h =>
    cases hb with
    | nothing => rfl
    | best j hj hcj => simp [h j hj] at hcj
  | best i hi hci hbesti =>
    cases hb with
    | nothing h => simp [h i hi] at hci
    | best j hj hcj hbestj =>
      have hji := hbesti j hj hcj
      have hij := hbestj i hi hci
      exact congrArg some (by omega)

theorem isBest_foldl_preferSource (s : State) (c n : Nat) :
    s.IsBest c n ((List.range n).foldl (s.preferSource c) none) := by
  induction n with
  | zero => exact .nothing fun j hj => absurd hj (Nat.not_lt_zero j)
  | succ n ih => rw [List.range_succ, List.foldl_append]; exact ih.succ

theorem isBest_bestSource (s : State) (c : Nat) : s.IsBest c 1152 (s.bestSource c) := by
  rw [bestSource_eq_foldl]
  exact s.isBest_foldl_preferSource c 1152

theorem bestSource_eq_of_isBest {s : State} {c : Nat} {b : Option Nat} (h : s.IsBest c 1152 b) : s.bestSource c = b :=
  (s.isBest_bestSource c).unique h

/-! ### The state after a claim -/

/-- Source `i` claimed: no longer pending, in service, and answered. -/
def claimed (s : State) (i : Nat) : State :=
  { s.putR ⟨.HIC_PEND, 0, i / 64⟩ (s.getR ⟨.HIC_PEND, 0, i / 64⟩ &&& ~~~(1#64 <<< (i % 64))) with
    inService := Tab.putN false s.inService i true, readData := (1#64 <<< 63) ||| BitVec.ofNat 64 i }

theorem hicClaim_of_isBest {s : State} {c i : Nat} (hen : s.flag HIC_CTRL_EN 0 0 = true)
    (h : s.IsBest c 1152 (some i)) : s.hicClaim c = s.claimed i := by
  simp [hicClaim, hen, bestSource_eq_of_isBest h, claimed]

/-- With nothing to claim the answer is VALID = 0, whatever HIC_CTRL.EN is. -/
theorem hicClaim_of_none {s : State} {c : Nat} (h : s.IsBest c 1152 none) : s.hicClaim c = { s with readData := 0 } := by
  simp [hicClaim, bestSource_eq_of_isBest h]

theorem getR_claimed (s : State) (i : Nat) (k : RegKey) :
    (s.claimed i).getR k =
      if k = ⟨.HIC_PEND, 0, i / 64⟩ then s.getR k &&& ~~~(1#64 <<< (i % 64)) else s.getR k := by
  refine (getR_putR s ⟨.HIC_PEND, 0, i / 64⟩ k _).trans ?_
  by_cases hk : k = ⟨.HIC_PEND, 0, i / 64⟩
  · rw [if_pos hk, if_pos hk.symm, hk]
  · rw [if_neg hk, if_neg (Ne.symm hk)]

theorem getN_inService_claimed (s : State) (i j : Nat) :
    Tab.getN false (s.claimed i).inService j = (decide (j = i) || Tab.getN false s.inService j) := by
  rw [claimed, Tab.getN_putN]
  by_cases hj : i = j
  · simp [hj]
  · simp [hj, Ne.symm hj]

theorem latchEdges_claimed (s : State) (i : Nat) : s.latchEdges (s.claimed i) = s.claimed i :=
  latchEdges_of_levels_kept (fun k hk => by rw [getR_claimed, if_neg (by rintro rfl; exact hk rfl)]) rfl rfl

/-! ### Completions (R408) -/

/-- The in-service state of source `i` ended, where it is in service and targets core `c`. -/
def endService (s : State) (c i : Nat) : State :=
  if Tab.getN false s.inService i && decide (s.getF HIC_TARGET_CORE 0 i = c) then
    { s with inService := Tab.putN false s.inService i false } else s

theorem hicComplete_eq (s : State) (c i : Nat) : s.hicComplete c i = (s.endService c i).resample c := rfl

theorem endService_eq (s : State) (c i : Nat) :
    s.endService c i = { s with inService := (s.endService c i).inService } := by
  unfold endService; split <;> rfl

@[simp] theorem getR_endService (s : State) (c i : Nat) (k : RegKey) : (s.endService c i).getR k = s.getR k := by
  rw [endService_eq]; rfl

@[simp] theorem getF_endService (s : State) (c i : Nat) (f : Field) (a b : Nat) :
    (s.endService c i).getF f a b = s.getF f a b := by
  rw [endService_eq]; rfl

@[simp] theorem level_endService (s : State) (c i g k : Nat) : (s.endService c i).level g k = s.level g k := by
  rw [endService_eq]; rfl

theorem getN_inService_endService (s : State) (c i j : Nat) :
    Tab.getN false (s.endService c i).inService j =
      (Tab.getN false s.inService j && !(decide (j = i) && decide (s.getF HIC_TARGET_CORE 0 i = c))) := by
  unfold endService
  by_cases hj : j = i
  · subst hj
    cases hs : Tab.getN false s.inService j <;> by_cases hc : s.getF HIC_TARGET_CORE 0 j = c <;> simp [hs, hc]
  · split <;> simp [hj, Ne.symm hj]

/-- A re-sampling changes nothing but registers. -/
theorem resample_eq (s : State) (c : Nat) : s.resample c = { s with regs := (s.resample c).regs } := foldl_pend ..

@[simp] theorem resample_inService (s : State) (c : Nat) : (s.resample c).inService = s.inService := by rw [resample_eq]

/-- A re-sampling changes no register but HIC_PEND. -/
theorem getR_resample (s : State) (c : Nat) (k : RegKey) (h : k.name ≠ .HIC_PEND) :
    (s.resample c).getR k = s.getR k := getR_foldl_pend _ _ _ h

/-- A pending bit after a re-sampling: set before, or the high level of a source of the core that is not in service. -/
theorem bit_resample (s : State) (c g k : Nat) (hk : k < 64) :
    ((s.resample c).getR ⟨.HIC_PEND, 0, g⟩).getLsbD k = ((s.getR ⟨.HIC_PEND, 0, g⟩).getLsbD k ||
      decide ((g, k) ∈ levelSources ∧ s.getF HIC_TARGET_CORE 0 (64 * g + k) = c ∧ s.level g k = true ∧
        Tab.getN false s.inService (64 * g + k) = false)) := by
  unfold resample
  rw [bit_foldl_pend _ _ _ _ hk]
  cases hp : (s.getR ⟨.HIC_PEND, 0, g⟩).getLsbD k with
  | true => simp
  | false => simp [List.mem_filter, hp, and_assoc]

theorem getR_hicComplete (s : State) (c i : Nat) (k : RegKey) (h : k.name ≠ .HIC_PEND) :
    (s.hicComplete c i).getR k = s.getR k := by
  rw [hicComplete_eq, getR_resample _ _ _ h, getR_endService]

theorem hicComplete_rest (s : State) (c i : Nat) :
    s.hicComplete c i = { s with regs := (s.hicComplete c i).regs, inService := (s.hicComplete c i).inService } := by
  rw [hicComplete_eq, resample_eq, endService_eq]

theorem latchEdges_hicComplete (s : State) (c i : Nat) : s.latchEdges (s.hicComplete c i) = s.hicComplete c i :=
  latchEdges_of_levels_kept (s.getR_hicComplete c i) (by rw [hicComplete_rest]) (by rw [hicComplete_rest])

end State

/-- Settles O1: the best source is the one `bestSource` finds (`IsBest.unique`), and neither a claim nor a completion
raises a level, so the edges latched after them add no pending bit. -/
theorem claimsAndCompletions : Obligations.ClaimsAndCompletions := by
  refine ⟨fun s c hen => ⟨fun i hi hci hbest => ?_, fun hnone => ?_⟩, fun s r c i => ?_⟩
  · refine ⟨s.claimed i, ?_, rfl, s.getN_inService_claimed i, s.getR_claimed i⟩
    rw [exec_hicClaim, State.hicClaim_of_isBest hen (.best i hi hci hbest), State.latchEdges_claimed]
  · have hlatch : s.latchEdges { s with readData := 0 } = { s with readData := 0 } :=
      latchEdges_of_levels_kept (fun _ _ => rfl) rfl rfl
    rw [exec_hicClaim, State.hicClaim_of_none (.nothing hnone), hlatch]
  · refine ⟨s.hicComplete c i, ?_, s.hicComplete_rest c i, fun j => ?_, s.getR_hicComplete c i, fun g k hk => ?_⟩
    · rw [exec_hicComplete, State.latchEdges_hicComplete]
    · rw [State.hicComplete_eq, State.resample_inService, State.getN_inService_endService]
    · simp [State.hicComplete_eq, State.bit_resample _ _ _ _ hk]

end Sys2Proof.Machine
end

section
/-! Reads after writes, as simp lemmas: what a field or register reads after another was written, after a record was
delivered, after edges were latched, and after a part of the state that holds no register was replaced. Used with
`simp (disch := decide)`, which settles that two named fields lie apart. -/

namespace Sys2Proof.Machine.State

/-! ### Parts that hold no register -/

section
variable {s : State} {p : List Instr} {ti fr fre : Nat} {me : List Host.Cell} {lp : Tab Nat Bool} {dr : List Host.Cell}
  {gp : Tab Nat Bool} {pk : List Host.Cell} {pu : Tab Nat (Word × Word)} {pb : Option (Tab Nat (Word × Word))}
  {re : Tab Nat (Option Nat)} {rd : Word} {rb : List Byte} {rp : List Bool} {en : Tab Nat Engine} {co : Tab Nat CoreSt}
  {st : Tab Nat StackSt} {ch : Tab Nat ChanSt} {se : SealSt} {po : Tab Nat PortSt} {di : DiscSt} {ig : IngotSt}
  {el : ErrLog} {tr : TrigSt} {sv : Tab Nat Bool} {qu : Tab Nat QuenchSt} {sn : Tab Nat SensorSt} {ip : InputSt}
  {li : Tab Nat LinkSt} {lt : LightSt} {cl : TimeSt} {mo : Tab Nat MonSt} {hu : HubSt} {bo : BootSt} {l2 s2 : Bool}

/-- A register reads the same whatever the other parts of the state hold. -/
@[simp] theorem getR_update (k : RegKey) :
    getR ⟨p, ti, fr, fre, s.regs, me, lp, dr, gp, pk, pu, pb, re, rd, rb, rp, en, co, st, ch, se, po, di, ig, el, tr,
      sv, qu, sn, ip, li, lt, cl, mo, hu, bo, l2, s2⟩ k = s.getR k := (rfl)

@[simp] theorem getF_update (f : Field) (i j : Nat) :
    getF ⟨p, ti, fr, fre, s.regs, me, lp, dr, gp, pk, pu, pb, re, rd, rb, rp, en, co, st, ch, se, po, di, ig, el, tr,
      sv, qu, sn, ip, li, lt, cl, mo, hu, bo, l2, s2⟩ f i j = s.getF f i j := (rfl)

@[simp] theorem flag_update (f : Field) (i j : Nat) :
    flag ⟨p, ti, fr, fre, s.regs, me, lp, dr, gp, pk, pu, pb, re, rd, rb, rp, en, co, st, ch, se, po, di, ig, el, tr,
      sv, qu, sn, ip, li, lt, cl, mo, hu, bo, l2, s2⟩ f i j = s.flag f i j := (rfl)

end

/-! ### Branches -/

@[simp] theorem getR_ite (c : Prop) [Decidable c] (s t : State) (k : RegKey) :
    (if c then s else t).getR k = if c then s.getR k else t.getR k := apply_ite (fun u : State => u.getR k) ..

@[simp] theorem getF_ite (c : Prop) [Decidable c] (s t : State) (f : Field) (i j : Nat) :
    (if c then s else t).getF f i j = if c then s.getF f i j else t.getF f i j := apply_ite (fun u : State => u.getF f i j) ..

@[simp] theorem flag_ite (c : Prop) [Decidable c] (s t : State) (f : Field) (i j : Nat) :
    (if c then s else t).flag f i j = if c then s.flag f i j else t.flag f i j := apply_ite (fun u : State => u.flag f i j) ..

/-! ### After a write -/

@[simp] theorem getF_setF_self (s : State) (f : Field) (i j v : Nat) (h : f.ok = true) :
    (s.setF f i j v).getF f i j = v % 2 ^ f.width := getF_setF_same _ _ _ _ _ h

/-- A write to another register, or to a field apart, changes nothing read. -/
@[simp] theorem getF_setF_apart (s : State) (f g : Field) (i j i' j' v : Nat)
    (h : g.reg ≠ f.reg ∨ f.hi < g.lo ∨ g.hi < f.lo) : (s.setF g i' j' v).getF f i j = s.getF f i j := by
  rcases h with h | h
  · exact getF_setF_of_reg _ _ _ _ _ _ _ _ h
  · exact getF_setF_of_disjoint _ _ _ _ _ _ _ _ h

theorem flag_setF_self (s : State) (f : Field) (i j v : Nat) (h : f.ok = true) :
    (s.setF f i j v).flag f i j = (v % 2 ^ f.width != 0) := by
  rw [flag, getF_setF_same _ _ _ _ _ h]

/-- A flag set reads true. -/
@[simp] theorem flag_setF_one (s : State) (f : Field) (i j : Nat) (h : f.ok = true) :
    (s.setF f i j 1).flag f i j = true := by
  have hw : 1 < 2 ^ f.width := Nat.one_lt_two_pow (by simp [Field.ok] at h; unfold Field.width; omega)
  rw [flag_setF_self _ _ _ _ _ h, Nat.mod_eq_of_lt hw]
  rfl

/-- A flag cleared reads false. -/
@[simp] theorem flag_setF_zero (s : State) (f : Field) (i j : Nat) (h : f.ok = true) :
    (s.setF f i j 0).flag f i j = false := by
  rw [flag_setF_self _ _ _ _ _ h, Nat.zero_mod]
  rfl

@[simp] theorem flag_setF_ite (s : State) (f : Field) (i j : Nat) (c : Prop) [Decidable c] (h : f.ok = true) :
    (s.setF f i j (if c then 1 else 0)).flag f i j = decide c := by
  split
  · rw [flag_setF_one _ _ _ _ h, decide_eq_true ‹_›]
  · rw [flag_setF_zero _ _ _ _ h, decide_eq_false ‹_›]

@[simp] theorem flag_setF_apart (s : State) (f g : Field) (i j i' j' v : Nat)
    (h : g.reg ≠ f.reg ∨ f.hi < g.lo ∨ g.hi < f.lo) : (s.setF g i' j' v).flag f i j = s.flag f i j := by
  rw [flag, getF_setF_apart _ _ _ _ _ _ _ _ h, flag]

@[simp] theorem getF_addF_self (s : State) (f : Field) (i j n : Nat) (h : f.ok = true) :
    (s.addF f i j n).getF f i j = min (s.getF f i j + n) (2 ^ f.width - 1) := getF_addF_same _ _ _ _ _ h

@[simp] theorem getF_addF_apart (s : State) (f g : Field) (i j i' j' n : Nat)
    (h : g.reg ≠ f.reg ∨ f.hi < g.lo ∨ g.hi < f.lo) : (s.addF g i' j' n).getF f i j = s.getF f i j :=
  getF_setF_apart _ _ _ _ _ _ _ _ h

@[simp] theorem flag_addF_apart (s : State) (f g : Field) (i j i' j' n : Nat)
    (h : g.reg ≠ f.reg ∨ f.hi < g.lo ∨ g.hi < f.lo) : (s.addF g i' j' n).flag f i j = s.flag f i j :=
  flag_setF_apart _ _ _ _ _ _ _ _ h

@[simp] theorem getF_wrapF_self (s : State) (f : Field) (i j : Nat) (h : f.ok = true) :
    (s.wrapF f i j).getF f i j = (s.getF f i j + 1) % 2 ^ f.width := getF_setF_same _ _ _ _ _ h

@[simp] theorem getF_wrapF_apart (s : State) (f g : Field) (i j i' j' : Nat)
    (h : g.reg ≠ f.reg ∨ f.hi < g.lo ∨ g.hi < f.lo) : (s.wrapF g i' j').getF f i j = s.getF f i j :=
  getF_setF_apart _ _ _ _ _ _ _ _ h

@[simp] theorem flag_wrapF_apart (s : State) (f g : Field) (i j i' j' : Nat)
    (h : g.reg ≠ f.reg ∨ f.hi < g.lo ∨ g.hi < f.lo) : (s.wrapF g i' j').flag f i j = s.flag f i j :=
  flag_setF_apart _ _ _ _ _ _ _ _ h

@[simp] theorem getF_putR_apart (s : State) (n : RegName) (i' j' : Nat) (v : Word) (f : Field) (i j : Nat)
    (h : n ≠ f.reg) : (s.putR ⟨n, i', j'⟩ v).getF f i j = s.getF f i j := by
  rw [getF, getR_putR, if_neg, getF]
  exact fun e => h (congrArg RegKey.name e)

@[simp] theorem flag_putR_apart (s : State) (n : RegName) (i' j' : Nat) (v : Word) (f : Field) (i j : Nat)
    (h : n ≠ f.reg) : (s.putR ⟨n, i', j'⟩ v).flag f i j = s.flag f i j := by
  rw [flag, getF_putR_apart _ _ _ _ _ _ _ _ h, flag]

@[simp] theorem getR_setF_apart (s : State) (g : Field) (i' j' v : Nat) (n : RegName) (i j : Nat) (h : n ≠ g.reg) :
    (s.setF g i' j' v).getR ⟨n, i, j⟩ = s.getR ⟨n, i, j⟩ := getR_setF_of_reg _ _ _ _ _ _ h

@[simp] theorem getF_pulse (s : State) (g i : Nat) (f : Field) (i' j : Nat) (h : f.reg ≠ .HIC_PEND) :
    (s.pulse g i).getF f i' j = s.getF f i' j := getF_putR_apart _ _ _ _ _ _ _ _ h.symm

@[simp] theorem flag_pulse (s : State) (g i : Nat) (f : Field) (i' j : Nat) (h : f.reg ≠ .HIC_PEND) :
    (s.pulse g i).flag f i' j = s.flag f i' j := flag_putR_apart _ _ _ _ _ _ _ _ h.symm

theorem getR_pulse (s : State) (g i : Nat) (k : RegKey) (h : k.name ≠ .HIC_PEND) : (s.pulse g i).getR k = s.getR k := by
  rw [pulse, pend, getR_putR, if_neg]
  rintro rfl
  exact h rfl

/-! ### After a record and after latching -/

/-- The registers that delivering a record writes. -/
theorem getR_record_of_name (s : State) (a : RecArg) (k : RegKey)
    (h : k.name ∉ [.HIC_ELOG_PROD, .HIC_ELOG_DROP, .HIC_MGMT_STATUS]) : (s.record a).getR k = s.getR k := by
  simp only [List.mem_cons, List.not_mem_nil, or_false, not_or] at h
  exact getR_record _ _ _ ⟨h.1, h.2.1, h.2.2⟩

@[simp] theorem getR_record_apart (s : State) (a : RecArg) (n : RegName) (i j : Nat)
    (h : n ∉ [.HIC_ELOG_PROD, .HIC_ELOG_DROP, .HIC_MGMT_STATUS]) :
    (s.record a).getR ⟨n, i, j⟩ = s.getR ⟨n, i, j⟩ := getR_record_of_name _ _ _ h

@[simp] theorem getF_record_apart (s : State) (a : RecArg) (f : Field) (i j : Nat)
    (h : f.reg ∉ [.HIC_ELOG_PROD, .HIC_ELOG_DROP, .HIC_MGMT_STATUS]) : (s.record a).getF f i j = s.getF f i j := by
  rw [getF, getR_record_of_name _ _ _ h, getF]

@[simp] theorem flag_record_apart (s : State) (a : RecArg) (f : Field) (i j : Nat)
    (h : f.reg ∉ [.HIC_ELOG_PROD, .HIC_ELOG_DROP, .HIC_MGMT_STATUS]) : (s.record a).flag f i j = s.flag f i j := by
  rw [flag, getF_record_apart _ _ _ _ _ h, flag]

@[simp] theorem getF_latch (s t : State) (f : Field) (i j : Nat) (h : f.reg ≠ .HIC_PEND) :
    (s.latchEdges t).getF f i j = t.getF f i j := getF_latchEdges _ _ _ _ _ h

@[simp] theorem flag_latch (s t : State) (f : Field) (i j : Nat) (h : f.reg ≠ .HIC_PEND) :
    (s.latchEdges t).flag f i j = t.flag f i j := flag_latchEdges _ _ _ _ _ h

@[simp] theorem getR_latch (s t : State) (n : RegName) (i j : Nat) (h : n ≠ .HIC_PEND) :
    (s.latchEdges t).getR ⟨n, i, j⟩ = t.getR ⟨n, i, j⟩ := getR_latchEdges _ _ _ h

end Sys2Proof.Machine.State

namespace Sys2Proof.Machine

/-! ### Frames of field writes -/

theorem Kept.setF {W : RegKey → Prop} {s u : State} (h : Kept W s u) (f : Field) (i j v : Nat) (hk : W (f.key i j))
    (hn : f.reg ≠ .HIC_PEND) : Kept W s (u.setF f i j v) := h.putR _ _ hk hn

theorem Kept.addF {W : RegKey → Prop} {s u : State} (h : Kept W s u) (f : Field) (i j v : Nat) (hk : W (f.key i j))
    (hn : f.reg ≠ .HIC_PEND) : Kept W s (u.addF f i j v) := h.putR _ _ hk hn

theorem Kept.wrapF {W : RegKey → Prop} {s u : State} (h : Kept W s u) (f : Field) (i j : Nat) (hk : W (f.key i j))
    (hn : f.reg ≠ .HIC_PEND) : Kept W s (u.wrapF f i j) := h.putR _ _ hk hn

end Sys2Proof.Machine
end

section
/-! What the parts of the state read after a write to another part, as simp lemmas. -/

namespace Sys2Proof.Machine.State

/-! ### What `engine` reads -/

@[simp] theorem engine_setF (s : State) (f : Field) (i0 j0 v : Nat) (d : Nat) :
    (s.setF f i0 j0 v).engine d = s.engine d := (rfl)
@[simp] theorem engine_putR (s : State) (r : RegKey) (w : Word) (d : Nat) : (s.putR r w).engine d = s.engine d := (rfl)
@[simp] theorem engine_setCore (s : State) (k0 : Nat) (x : CoreSt) (d : Nat) :
    (s.setCore k0 x).engine d = s.engine d := (rfl)
@[simp] theorem engine_setQuench (s : State) (d0 : Nat) (x : QuenchSt) (d : Nat) :
    (s.setQuench d0 x).engine d = s.engine d := (rfl)
@[simp] theorem engine_record (s : State) (a : RecArg) (d : Nat) : (s.record a).engine d = s.engine d := by
  simp only [engine, record_engines]
@[simp] theorem engine_latchEdges (s u : State) (d : Nat) : (s.latchEdges u).engine d = u.engine d := by
  simp only [engine, latchEdges_engines]
@[simp] theorem engine_ite (q : Prop) [Decidable q] (s u : State) (d : Nat) :
    (if q then s else u).engine d = if q then s.engine d else u.engine d := apply_ite (fun u : State => u.engine d) ..

/-! ### What `core` reads -/

@[simp] theorem core_setF (s : State) (f : Field) (i0 j0 v : Nat) (k : Nat) :
    (s.setF f i0 j0 v).core k = s.core k := (rfl)
@[simp] theorem core_setEngine (s : State) (d0 : Nat) (x : Engine) (k : Nat) :
    (s.setEngine d0 x).core k = s.core k := (rfl)
@[simp] theorem core_setQuench (s : State) (d0 : Nat) (x : QuenchSt) (k : Nat) :
    (s.setQuench d0 x).core k = s.core k := (rfl)
@[simp] theorem core_record (s : State) (a : RecArg) (k : Nat) : (s.record a).core k = s.core k := by
  simp only [core, record_cores]
@[simp] theorem core_latchEdges (s u : State) (k : Nat) : (s.latchEdges u).core k = u.core k := by
  simp only [core, latchEdges_cores]
@[simp] theorem core_ite (q : Prop) [Decidable q] (s u : State) (k : Nat) :
    (if q then s else u).core k = if q then s.core k else u.core k := apply_ite (fun u : State => u.core k) ..

/-! ### What `stack` reads -/

@[simp] theorem stack_setF (s : State) (f : Field) (i0 j0 v : Nat) (k : Nat) :
    (s.setF f i0 j0 v).stack k = s.stack k := (rfl)
@[simp] theorem stack_addF (s : State) (f : Field) (i0 j0 v : Nat) (k : Nat) :
    (s.addF f i0 j0 v).stack k = s.stack k := (rfl)
@[simp] theorem stack_latchEdges (s u : State) (k : Nat) : (s.latchEdges u).stack k = u.stack k := by
  simp only [stack, latchEdges_stackTab]
@[simp] theorem stack_ite (q : Prop) [Decidable q] (s u : State) (k : Nat) :
    (if q then s else u).stack k = if q then s.stack k else u.stack k := apply_ite (fun u : State => u.stack k) ..

/-! ### What `chan` reads -/

@[simp] theorem chan_setF (s : State) (f : Field) (i0 j0 v : Nat) (d c : Nat) :
    (s.setF f i0 j0 v).chan d c = s.chan d c := (rfl)
@[simp] theorem chan_addF (s : State) (f : Field) (i0 j0 v : Nat) (d c : Nat) :
    (s.addF f i0 j0 v).chan d c = s.chan d c := (rfl)
@[simp] theorem chan_latchEdges (s u : State) (d c : Nat) : (s.latchEdges u).chan d c = u.chan d c := by
  simp only [chan, latchEdges_chans]

/-! ### What `port` reads -/

@[simp] theorem port_setF (s : State) (f : Field) (i0 j0 v : Nat) (p : Nat) :
    (s.setF f i0 j0 v).port p = s.port p := (rfl)
@[simp] theorem port_pulse (s : State) (g0 i0 : Nat) (p : Nat) : (s.pulse g0 i0).port p = s.port p := (rfl)
@[simp] theorem port_latchEdges (s u : State) (p : Nat) : (s.latchEdges u).port p = u.port p := by
  simp only [port, latchEdges_ports]

/-! ### What `sensorOf` reads -/

@[simp] theorem sensorOf_setF (s : State) (f : Field) (i0 j0 v : Nat) (d i : Nat) :
    (s.setF f i0 j0 v).sensorOf d i = s.sensorOf d i := (rfl)
@[simp] theorem sensorOf_latchEdges (s u : State) (d i : Nat) : (s.latchEdges u).sensorOf d i = u.sensorOf d i := by
  simp only [sensorOf, latchEdges_sensors]

/-! ### What `task?` reads -/

@[simp] theorem task?_setCore (s : State) (k0 : Nat) (x : CoreSt) (t : TaskId) :
    (s.setCore k0 x).task? t = s.task? t := (rfl)
@[simp] theorem task?_latchEdges (s u : State) (t : TaskId) : (s.latchEdges u).task? t = u.task? t := by
  simp only [task?, graph, engine, latchEdges_engines]

end Sys2Proof.Machine.State
end

section
/-! The number of an error record: one more with each (R371). -/

namespace Sys2Proof.Machine.State

theorem seq_ringPut (s : State) (r : ErrRec) : (s.ringPut r).elog.seq = s.elog.seq := by
  unfold ringPut
  extract_lets r1 e0 s1 prod s2 s3
  have h3 : s3.elog = s1.elog := by
    show (s2.wrapF HIC_ELOG_PROD_INDEX 0 0).elog = s1.elog
    rw [wrapF_elog]
    exact storeAll_elog ..
  have h : s3.elog.seq = s.elog.seq := (congrArg ErrLog.seq h3).trans rfl
  clear_value s3
  split
  · exact h
  · exact h

theorem seq_dropRec (s : State) (v : Nat) : (s.dropRec v).elog.seq = s.elog.seq := rfl

theorem seq_hubPut (s : State) (r : ErrRec) : (s.hubPut r).elog.seq = s.elog.seq := rfl

theorem seq_ringDeliver (s : State) (r : ErrRec) : (s.ringDeliver r).elog.seq = s.elog.seq := by
  unfold ringDeliver
  split
  · split
    · exact seq_hubPut s r
    · split
      · exact seq_dropRec s _
      · split
        · rw [seq_hubPut, seq_dropRec]
        · exact seq_dropRec s _
  · split
    · exact seq_ringPut s r
    · split
      · exact seq_dropRec s _
      · split
        · exact seq_hubPut s r
        · exact seq_dropRec s _

theorem seq_streamDeliver (s : State) (r : ErrRec) (alert : Bool) :
    (s.streamDeliver r alert).elog.seq = s.elog.seq := by
  unfold streamDeliver
  split
  · rfl
  · split <;> rfl

/-- Each record takes the next number. -/
theorem seq_record (s : State) (a : RecArg) : (s.record a).elog.seq = (s.elog.seq + 1) % 2 ^ 32 := by
  have hcount : ∀ (u : State) (c : Prop) [Decidable c], (if c then u.countFailure else u).elog = u.elog := fun u c _ => by
    split <;> rfl
  unfold record
  extract_lets t rail r s1
  rw [seq_streamDeliver, seq_ringDeliver, hcount]

end Sys2Proof.Machine.State
end

section
/-! What holds of every command: it ends in `commit`, which latches the rising levels of the interrupt sources (R406). -/

namespace Sys2Proof.Machine

/-- Every command ends with `commit`: its effect on the state, with the rising interrupt levels latched (R406). -/
theorem exec_eq_commit (i : Instr) (s : State) : ∃ t, exec i s = commit s t := by
  cases i <;> exact ⟨_, rfl⟩

theorem exec_next {i : Instr} {s t : State} (h : exec i s = .next t) : ∃ u, t = s.latchEdges u := by
  obtain ⟨u, hu⟩ := exec_eq_commit i s
  rw [hu] at h
  exact ⟨u, (Host.Outcome.next.inj h).symm⟩

/-- Latching leaves every level as it was. -/
theorem level_latchEdges (s t : State) (g i : Nat) : (s.latchEdges t).level g i = t.level g i :=
  level_congr (fun _ h => State.getR_latchEdges s t _ h) (by simp) (by simp) g i

theorem levelSources_lt : ∀ x ∈ levelSources, x.2 < 64 := by decide

/-- Settles O2: the state a command leaves is the latched one, and latching
sets exactly the bits of the levels that rose. -/
theorem risingEdgesSetPending : Obligations.RisingEdgesSetPending := by
  intro i s t ht x hx hlow hhigh
  obtain ⟨u, rfl⟩ := exec_next ht
  rw [level_latchEdges] at hhigh
  rw [State.bit_latchEdges _ _ _ _ (levelSources_lt x hx)]
  simp [hx, hlow, hhigh]

/-- Settles O59: every arm of `exec` ends in `commit`. -/
theorem everyCommandAnswersANextState : Obligations.EveryCommandAnswersANextState := fun c s =>
  let ⟨_, h⟩ := exec_eq_commit c s
  ⟨_, h⟩

/-- Settles O56: this is how `step` reads the queue. -/
theorem stepRunsTheFrontCommand : Obligations.StepRunsTheFrontCommand := fun _ _ _ => rfl

end Sys2Proof.Machine
end

section
/-! Every step keeps the canonical form. One lemma per operation of the model: from a canonical state it leaves a canonical
one. The registers, memories and tables are written through `putR`, `setF`, `Tab.put` and their kin, whose lemmas stand in
Laws/State; an operation's lemma follows its definition, and a command's is that of its effect. -/

namespace Sys2Proof.Machine
open Sys2Proof

namespace Canon
variable {s t : State}

/-! ### Branches and folds -/

theorem ifEither {c : Prop} {_ : Decidable c} {u : State} (ht : Canon t) (hu : Canon u) :
    Canon (if c then t else u) := by
  split; exacts [ht, hu]
theorem iteFst {c : Prop} {_ : Decidable c} {α : Type} {p q : State × α} (hp : Canon p.1) (hq : Canon q.1) :
    Canon (if c then p else q).1 := by split; exacts [hp, hq]
theorem iteSnd {c : Prop} {_ : Decidable c} {α : Type} {p q : α × State} (hp : Canon p.2) (hq : Canon q.2) :
    Canon (if c then p else q).2 := by split; exacts [hp, hq]
theorem foldlFst {α β : Type} (f : State × β → α → State × β) (hf : ∀ p x, Canon p.1 → Canon (f p x).1) (l : List α)
    (p : State × β) (h : Canon p.1) : Canon (l.foldl f p).1 := by
  induction l generalizing p with
  | nil => exact h
  | cons x l ih => exact ih _ (hf _ _ h)
theorem branch {c : Prop} {_ : Decidable c} {u : State} (h : Canon s) (ht : Canon s → Canon t) (hu :
    Canon s → Canon u) :
    Canon (if c then t else u) := ifEither (ht h) (hu h)
theorem ifThen {c : Prop} {_ : Decidable c} (h : Canon s) (ht : Canon s → Canon t) :
    Canon (if c then t else s) := ifEither (ht h) h
theorem ifElse {c : Prop} {_ : Decidable c} (h : Canon s) (ht : Canon s → Canon t) :
    Canon (if c then s else t) := ifEither h (ht h)
theorem free {a : List Instr} {b c d : Nat} {e : Tab Nat (Word × Word)} {f : Option (Tab Nat
    (Word × Word))} {g : Word}
    {i : List Byte} {j : List Bool} {k : SealSt} {l : DiscSt} {m : IngotSt} {n : ErrLog} {o : TrigSt} {p : InputSt}
    {q : Tab Nat LinkSt} {r : LightSt} {v : TimeSt} {w : Tab Nat MonSt} {x : HubSt} {y : BootSt} {z z' : Bool} (h :
      Canon s) :
    Canon { s with pending := a, time := b, frac := c, fresh := d, published := e, publishing := f, readData := g,
                   readBytes := i, readPoison := j, sealer := k, disc := l, ingot := m, elog := n, trig := o, input
                     := p,
                   links := q, light := r, clock := v, mons := w, hub := x, boot := y, tier2Lost := z, tier2Stopped
                     := z' } :=
  { h with }

/-! ### Error records -/

theorem accessRecord (h : Canon s) (event : Nat) (r : Requester) (a : Nat) : Canon (s.accessRecord event r a) :=
  h.record _

theorem refuseWrite (h : Canon s) (a : Nat) (v : Word) : Canon (s.refuseWrite a v) := h.record _

theorem coreRecord (h :
    Canon s) (event sev d p : Nat) (details : List Nat) (epoch : Nat) (task : Option (Nat × Nat × Nat)) : Canon
    (s.coreRecord event sev d p details epoch task) :=
  h.record _

theorem dieRecord (h :
    Canon s) (event sev d sub : Nat) (details : List Nat) (epoch : Nat) (task : Option (Nat × Nat × Nat)) : Canon
    (s.dieRecord event sev d sub details epoch task) :=
  h.record _

theorem stackRecord (h :
    Canon s) (event sev ms unit sub : Nat) (details : List Nat) (epoch : Nat) (task : Option (Nat × Nat × Nat)) :
    Canon (s.stackRecord event sev ms unit sub details epoch task) :=
  h.record _

theorem hubRecord (h : Canon s) (event sev unit sub : Nat) (details : List Nat) (alert : Bool) (epoch : Nat) :
    Canon (s.hubRecord event sev unit sub details alert epoch) :=
  h.record _

theorem lightRecord (h : Canon s) (event sev unit sub : Nat) (details : List Nat) :
    Canon (s.lightRecord event sev unit sub details) :=
  h.record _

theorem portRecord (h : Canon s) (event sev p : Nat) (details : List Nat) (epoch : Nat) :
    Canon (s.portRecord event sev p details epoch) :=
  h.record _

/-! ### Interrupt pulses -/

theorem pulse (h : Canon s) (g i : Nat) : Canon (s.pulse g i) := h.pend ..

/-! ### Domains and the package reset -/

theorem setLink (h : Canon s) (k : Nat) (l : LinkSt) : Canon (s.setLink k l) := h.free
theorem edgeReset (h : Canon s) (d e : Nat) : Canon (s.edgeReset d e) := h.foldl _ (fun _ _ h1 => (h1.putR ..).free) _

theorem edgeTrain (h : Canon s) (d e : Nat) : Canon (s.edgeTrain d e) :=
  h.ifElse (fun h1 => h1.foldl _ (fun _ _ h2 => h2.setF ..) _)

theorem setInReset (h : Canon s) (i : Nat) (v : Bool) : Canon (s.setInReset i v) := h.setF ..

theorem keepCarts (_h : Canon s) (ht : Canon t) : Canon (s.keepCarts t) :=
  ht.foldl _ (fun _ _ h1 => ((h1.setF ..).setF ..).setF ..) _

theorem domainHold (h : Canon s) (i : Nat) : Canon (s.domainHold i) := by
  unfold State.domainHold
  extract_lets s0 s1 s2 s3
  have hs1 : Canon s1 :=
    { h with
      regs := Tab.wf_filter _ _ _ _ h.regs
      engines := Tab.wf_erase _ _ _ _ h.engines
      cores := Tab.wf_filter _ _ _ _ h.cores
      chans := Tab.wf_filter _ _ _ _ h.chans
      quench := Tab.wf_erase _ _ _ _ h.quench
      sensors := Tab.wf_filter _ _ _ _ h.sensors
      ports := Tab.wf_filter _ _ _ _ h.ports
      mem := Tab.wf_filter _ _ _ _ h.mem
      linePoison := Tab.wf_filter _ _ _ _ h.linePoison
      stackTab := Tab.wf_filter _ _ _ _ h.stackTab
      dram := Tab.wf_filter _ _ _ _ h.dram
      granPoison := Tab.wf_filter _ _ _ _ h.granPoison
      packed := Tab.wf_filter _ _ _ _ h.packed }
  exact (((ifEither (h.keepCarts hs1) hs1).ifThen (·.setF ..)).setInReset ..).foldl _
    (fun _ _ h1 => h1.edgeReset ..) _

theorem domainRelease (h : Canon s) (i : Nat) : Canon (s.domainRelease i) :=
  ((h.branch (·.setF ..) (fun h1 => h1.ifThen (·.setF ..))).setInReset ..).foldl _ (fun _ _ h1 => h1.edgeTrain ..) _

theorem sequence (h : Canon s) (mask : Nat) : Canon (s.sequence mask) := (h.free.setF ..).setF ..
theorem reset : Canon State.reset := (canonical_iff _).mp rfl

theorem packageReset (h : Canon s) (cause : Nat) : Canon (s.packageReset cause) := by
  unfold State.packageReset
  extract_lets +onlyGivenNames clk kept n inputSrc resetSrc t t1 t2
  have ht : Canon t := { reset with regs := Tab.wf_filter _ _ _ _ h.regs }
  exact h.keepCarts (((((ht.setF ..).setF ..).putR ..).putR ..).setF ..)

/-! ### Tasks and monitors -/

theorem setGraph (h : Canon s) (d g : Nat) (x : Graph) : Canon (s.setGraph d g x) := h.setEngine ..
theorem setTask (h : Canon s) (t : TaskId) (x : Task) : Canon (s.setTask t x) := h.setGraph ..
theorem setCoreAt (h : Canon s) (d p : Nat) (c : CoreSt) : Canon (s.setCoreAt d p c) := h.setCore ..

theorem offer (h : Canon s) (die src inst : Nat) (v : Int) (stamp : Nat) : Canon (s.offer die src inst v stamp) :=
  h.free

/-! ### Power, leave and temperature -/

theorem restate (h : Canon s) : Canon s.restate := h.ifThen (·.setF ..)
theorem notify (h : Canon s) (d : Nat) (tokens : Int) (t0 : Nat) : Canon (s.notify d tokens t0) := h.free

theorem releaseTokens (h : Canon s) (d n : Nat) : Canon (s.releaseTokens d n) :=
  h.ifElse (fun h1 => ((h1.setF ..).notify ..).restate)

theorem leaveGrant (h : Canon s) (d : Nat) : Canon (s.leaveGrant d) := by
  unfold State.leaveGrant
  refine ifEither ?_ ?_
  · exact h
  · split
    · exact (((h.setEngine ..).setF ..).notify ..).restate
    · split
      · exact h.ifThen (·.setF ..)
      · exact h

theorem grantTakesEffect (h : Canon s) (t : TaskId) : Canon (s.grantTakesEffect t) := by
  unfold State.grantTakesEffect
  extract_lets e
  split
  · extract_lets s1 s2 s3 s4
    have hs2 : Canon s2 := by
      unfold s2
      split
      · exact (h.setEngine ..).setTask ..
      · exact h.setEngine ..
    exact ((hs2.ifThen (·.setCoreAt ..)).addF ..).offer ..
  · exact h

theorem backfillExpiry (h : Canon s) (d : Nat) : Canon (s.backfillExpiry d) := h.ifElse (·.setEngine ..)

theorem releaseKept (h : Canon s) (d p : Nat) : Canon (s.releaseKept d p) :=
  h.ifElse (fun h1 => (h1.setCoreAt ..).releaseTokens ..)

theorem leaveHoldExpiry (h : Canon s) (d p : Nat) : Canon (s.leaveHoldExpiry d p) := h.releaseKept ..
theorem dropHeld (h : Canon s) (d : Nat) : Canon (s.dropHeld d) := h.foldl _ (fun _ _ h1 => h1.setCoreAt ..) _

theorem quenchDie (h : Canon s) (d : Nat) (cause : State.QuenchCause) (sensor : Nat) :
    Canon (s.quenchDie d cause sensor) :=
  ((h.setF ..).ifThen (·.setQuench ..)).ifElse (fun h1 => (((((((((((h1.setEngine ..).dropHeld _).setF ..).ifElse
    (·.notify ..)).setF ..).setF ..).setF ..).setQuench ..).setF ..).dieRecord ..).ifThen
    (fun h2 => (h2.setF ..).dieRecord ..)).restate)

theorem quenchAll (h : Canon s) : Canon s.quenchAll := h.foldl _ (fun _ _ h1 => h1.quenchDie ..) _

theorem markCause (h : Canon s) : Canon s.markCause :=
  h.ifThen (fun h1 => h1.foldl _ (fun _ _ h2 => h2.setQuench ..) _)

theorem rehold (h : Canon s) (d : Nat) : Canon (s.rehold d) := by
  unfold State.rehold
  refine h.foldl _ (fun _ _ h1 => ?_) _
  split
  · exact h1.setCoreAt ..
  · exact h1

theorem quenchExit (h : Canon s) (d : Nat) : Canon (s.quenchExit d) :=
  h.ifThen (fun h1 => ((((((((h1.notify ..).rehold _).setF ..).foldl _
    (fun _ _ h2 => h2.setF ..) _).setF ..).setEngine ..).setF ..).dieRecord ..).restate)

theorem thmRelease (h : Canon s) (d : Nat) : Canon (s.thmRelease d) := h.setF ..
theorem thmCntClr (h : Canon s) (d : Nat) : Canon (s.thmCntClr d) := h.setF ..

theorem sensorSample (h : Canon s) (d i : Nat) (v : BitVec 16) : Canon (s.sensorSample d i v) :=
  h.ifElse (fun h1 => (((((((((h1.setSensor ..).setF ..).setF ..).setF ..).setF ..).setF ..).setF ..).offer
    ..).ifThen (·.quenchDie ..)).ifThen (·.quenchDie ..))

theorem railGood (h : Canon s) (i : Nat) (v : Bool) : Canon (s.railGood i v) := h.setF ..
theorem goOff (h : Canon s) : Canon s.goOff := (h.foldl _ (fun _ _ h1 => h1.railGood ..) _).free
theorem closeSwitch (h : Canon s) (mv : Nat) : Canon (s.closeSwitch mv) := h.ifThen (fun h1 => h1.free)
theorem pwrEnAssert (h : Canon s) (mv : Nat) : Canon (s.pwrEnAssert mv) := (h.setF ..).closeSwitch _
theorem inputReturn (h : Canon s) (mv : Nat) : Canon (s.inputReturn mv) := h.closeSwitch _

theorem inrushDone (h : Canon s) : Canon s.inrushDone :=
  h.ifElse (fun h1 => (((((h1.ifElse (·.countFailure)).packageReset _).setF ..).setF ..).foldl _
    (fun _ _ h2 => h2.railGood ..) _).free)

theorem pwrEnDeassert (h : Canon s) : Canon s.pwrEnDeassert := (((h.setF ..).quenchAll).goOff).free

theorem inputOvervoltage (h : Canon s) (mv : Nat) : Canon (s.inputOvervoltage mv) :=
  h.ifThen (fun h1 => (h1.record _).goOff)

theorem inputVoltageWarning (h : Canon s) (mv : Nat) : Canon (s.inputVoltageWarning mv) :=
  h.branch (fun h1 => (h1.free.setF ..).ifElse (·.record _)) (fun h1 => h1.ifThen
    (fun h2 => (h2.free.setF ..).ifElse (·.record _)))

theorem inputWarningClear (h : Canon s) (mv : Nat) : Canon (s.inputWarningClear mv) :=
  h.ifThen (fun h1 => (h1.free.setF ..).setF ..)

theorem powerFail (h : Canon s) (mv watts : Nat) : Canon (s.powerFail mv watts) :=
  h.ifElse (fun h1 => ((h1.free.setF ..).quenchAll).record _)

theorem holdUpEnd (h : Canon s) : Canon s.holdUpEnd := h.ifThen (·.goOff)
theorem railRecord (h : Canon s) (rail volt curr : Nat) : Canon (s.railRecord rail volt curr) := (h.setF ..).record _

theorem railPhaseEnd (h : Canon s) (ok : Bool) : Canon (s.railPhaseEnd ok) :=
  h.ifElse (fun h1 => h1.branch (fun h2 => ((h2.foldl _ (fun _ _ h3 => h3.railGood ..) _).free).ifThen
    (fun h3 => h3.foldl _ (fun _ _ h4 => h4.ifThen (·.setF ..)) _)) (fun h2 => h2.free.railRecord ..))

theorem railFault (h : Canon s) (r volt curr : Nat) : Canon (s.railFault r volt curr) :=
  h.ifElse (fun h1 => ((((h1.railGood ..).setF ..).setF ..).railRecord ..).branch (·.goOff)
    (fun h2 => h2.branch (fun h3 => (h3.packageReset _).free) (fun h3 => h3.foldl _
    (fun _ _ h4 => h4.domainHold _) _)))

theorem dieBudget (h : Canon s) (rd : List RailReading) (b d : Nat) : Canon (s.dieBudget rd b d) :=
  ((((((((h.setF ..).setF ..).setEngine ..).setF ..).setF ..).setF ..).setF ..).offer ..).ifThen (·.record _)

theorem railRead (h : Canon s) (rd : List RailReading) (i : Nat) : Canon (s.railRead rd i) := by
  unfold State.railRead
  split
  · exact (((h.setF ..).setF ..).setF ..).railGood ..
  · exact h

theorem budgetPeriod (h : Canon s) (rd : List RailReading) : Canon (s.budgetPeriod rd) := by
  unfold State.budgetPeriod
  extract_lets s1 s2 s3 s4 s5 s6 s7 bs
  have hs2 : Canon s2 := by
    unfold s2
    split
    · exact ((((h.markCause).foldl _ (fun _ _ h1 => h1.railRead ..) _).setF ..).setF ..).setF ..
    · exact (h.markCause).foldl _ (fun _ _ h1 => h1.railRead ..) _
  exact (((((hs2.setF ..).setF ..).setF ..).setF ..).setF ..).foldl _ (fun _ _ h1 => h1.ifElse (·.dieBudget ..)) _

theorem inputOverpower (h : Canon s) (watts : Nat) : Canon (s.inputOverpower watts) :=
  h.ifThen (fun h1 => ((h1.quenchAll).setF ..).record _)

theorem coolant (h : Canon s) (inlet outlet : BitVec 16) : Canon (s.coolant inlet outlet) :=
  (((h.markCause).setF ..).setF ..).setF ..

theorem coolantInletHigh (h : Canon s) (inlet outlet : BitVec 16) : Canon (s.coolantInletHigh inlet outlet) :=
  (h.coolant ..).ifThen (·.record _)

theorem coolantOutletHigh (h : Canon s) (inlet outlet : BitVec 16) : Canon (s.coolantOutletHigh inlet outlet) :=
  (h.coolant ..).ifThen (·.quenchAll)

/-! ### The hub -/

theorem markService (h : Canon s) (i : Nat) (b : Bool) :
    Canon { s with inService := Tab.putN false s.inService i b } :=
  { h with inService := Tab.wf_putN _ _ _ _ h.inService }

theorem hicClaim (h : Canon s) (c : Nat) : Canon (s.hicClaim c) := by
  unfold State.hicClaim
  split
  · rename_i i _
    exact { h.putR ⟨.HIC_PEND, 0, i / 64⟩ _ with inService := Tab.wf_putN false s.inService i true h.inService }
  · exact h.free

theorem hicComplete (h : Canon s) (c i : Nat) : Canon (s.hicComplete c i) := (h.ifThen (·.markService ..)).resample _
theorem agentMaskLock (h : Canon s) : Canon s.agentMaskLock := h.setF ..

theorem forgeWindow (h : Canon s) (cycles : List Nat) (overloaded paceLost : Bool) :
    Canon (s.forgeWindow cycles overloaded paceLost) :=
  (((h.foldl _ (fun _ _ h1 => h1.setF ..) _).branch (fun h1 => h1.free.addF ..) (fun h1 => h1.free)).branch
    (fun h1 => ((h1.setF ..).setF ..).hubRecord ..) (fun h1 => h1.ifThen
    (fun h2 => ((h2.setF ..).setF ..).hubRecord ..))).ifThen (·.hubRecord ..)

theorem dmaRequest (h : Canon s) (p : Nat) (write : Bool) (a : Nat) (data : List Byte) :
    Canon (s.dmaRequest p write a data) :=
  h.branch (fun h1 => h1.branch (·.storeAll ..) (fun h2 => h2.free)) (fun h1 => (h1.addF ..).hubRecord ..)

theorem driveFail (h : Canon s) (p : Nat) : Canon (s.driveFail p) := (((h.setF ..).free).hubRecord ..).pulse ..

theorem pcieLinkChange (h : Canon s) (p : Nat) (up : Bool) (rate width : Nat) :
    Canon (s.pcieLinkChange p up rate width) :=
  (((h.setF ..).ifThen (fun h1 => ((h1.setF ..).setF ..).setF ..)).ifThen (·.hubRecord ..)).pulse ..

theorem managementLinkChange (h : Canon s) (up : Bool) (fec : Nat) : Canon (s.managementLinkChange up fec) :=
  ((h.setF ..).setF ..).pulse ..

theorem collectorUnreachable (h : Canon s) : Canon s.collectorUnreachable :=
  h.ifThen (fun h1 => (h1.setF ..).hubRecord ..)

theorem collectorReconnect (h : Canon s) : Canon s.collectorReconnect :=
  ((h.free.setF ..).setF ..).ifThen (·.hubRecord ..)

theorem transit (h : Canon s) (authorised : Bool) (pct : Nat) : Canon (s.transit authorised pct) :=
  h.ifThen (·.setF ..)

theorem permit (h : Canon s) (authorised : Bool) (entries : List (Nat × Word)) :
    Canon (s.permit authorised entries) :=
  h.ifThen (fun h1 => h1.foldl _ (fun _ _ h2 => h2.ifThen (fun h3 => (h3.setF ..).setF ..)) _)

theorem serviceEnter (h : Canon s) (authorised : Bool) : Canon (s.serviceEnter authorised) := h.ifThen (·.setF ..)

theorem serviceLeave (h : Canon s) (authorised : Bool) : Canon (s.serviceLeave authorised) :=
  h.ifThen (fun h1 => (h1.setF ..).restate)

theorem answer (h : Canon s) (r : Reply) : Canon (s.answer r) := h.free
theorem debugNonce (h : Canon s) (authorised : Bool) : Canon (s.debugNonce authorised) := h.ifThen (·.answer _)
theorem mctpControl (h : Canon s) (request : List Byte) : Canon (s.mctpControl request) := (h.answer _).pulse ..
theorem pldmMonitoring (h : Canon s) : Canon s.pldmMonitoring := (h.answer _).pulse ..
theorem spdmRequest (h : Canon s) (k : SpdmKind) : Canon (s.spdmRequest k) := (h.answer _).pulse ..
theorem stepTime (h : Canon s) (now : Nat) : Canon (s.stepTime now) := (h.free.setF ..).hubRecord ..

theorem ppsAccept (h : Canon s) (stamp : Nat) : Canon (s.ppsAccept stamp) :=
  ifEither (((((((((h.free.setF ..).setF ..).setF ..).setF ..).setF ..).offer ..).draw).free).setF ..)
    (((((((h.free.setF ..).setF ..).setF ..).setF ..).setF ..).offer ..).stepTime _)

theorem ppsEdge (h : Canon s) (stamp : Nat) : Canon (s.ppsEdge stamp) :=
  h.ifElse (fun h1 => h1.branch (·.ppsAccept _) (fun h2 => (h2.free.setF ..).ifElse (·.hubRecord ..)))

theorem ppsHoldover (h : Canon s) : Canon s.ppsHoldover :=
  h.ifElse (fun h1 => (((h1.free.setF ..).setF ..).hubRecord ..).pulse ..)

theorem setImmediate (h : Canon s) : Canon s.setImmediate := h.ifElse (·.stepTime _)
theorem setValid (h : Canon s) : Canon s.setValid := h.setF ..
theorem ppsOutPulse (h : Canon s) : Canon s.ppsOutPulse := h.free

theorem monSnap (h : Canon s) (die m n : Nat) (b : MonBank) : Canon (s.monSnap die m n b) :=
  ((((((((h.ifThen (·.setF ..)).wrapF ..).setF ..).setF ..).setF ..).setF ..).setF ..).putR ..).foldl _
    (fun _ _ h1 => h1.setF ..) _

theorem monitorWindowEnd (h : Canon s) (die m : Nat) : Canon (s.monitorWindowEnd die m) :=
  h.branch (fun h1 => h1.free.monSnap ..) (fun h1 => h1.free)

theorem setDebugMode (h : Canon s) (on : Bool) : Canon (s.setDebugMode on) :=
  h.ifElse (fun h1 => (h1.setF ..).hubRecord ..)

theorem renewNonce (h : Canon s) : Canon s.renewNonce := (h.free.putR ..).putR ..

theorem unlock (h : Canon s) (t : Token) : Canon (s.unlock t) :=
  (h.renewNonce).branch (fun h1 => (h1.hubRecord ..).ifElse (fun h2 => (((h2.setF ..).setF ..).setF
    ..).free.setDebugMode _)) (·.hubRecord ..)

theorem debugToken (h : Canon s) (authorised : Bool) (t : Token) : Canon (s.debugToken authorised t) :=
  h.ifThen (·.unlock _)

theorem endUnlock (h : Canon s) : Canon s.endUnlock :=
  h.ifThen (fun h1 => (((h1.setF ..).setF ..).setF ..).setDebugMode _)

theorem lock (h : Canon s) (r : Requester) : Canon (s.lock r) := h.branch (·.endUnlock) (·.refuseWrite ..)
theorem tap (h : Canon s) (code : Nat) (r : Reply) : Canon (s.tap code r) := h.free
theorem idcode (h : Canon s) : Canon s.idcode := h.tap ..
theorem dbgNonce (h : Canon s) : Canon s.dbgNonce := h.tap ..
theorem dbgUnlock (h : Canon s) (t : Token) : Canon (s.dbgUnlock t) := (h.tap ..).unlock _
theorem dbgStatus (h : Canon s) : Canon s.dbgStatus := h.tap ..
theorem bypass (h : Canon s) (bits : List Bool) : Canon (s.bypass bits) := h.tap ..
theorem dbgTrstN (h : Canon s) : Canon s.dbgTrstN := h.free
theorem checkHalted (h : Canon s) (d : Nat) : Canon (s.checkHalted d) := h.ifThen (·.setF ..)

theorem dbgGe (h : Canon s) (r : Requester) (d : Nat) (v : Word) (ht : Canon t) : Canon (s.dbgGe r d v t) :=
  ifEither ht (h.refuseWrite ..)

theorem halt (h : Canon s) (d : Nat) (on : Bool) : Canon (s.halt d on) :=
  (h.setF ..).branch (·.checkHalted _) (·.setF ..)

theorem stepEngine (h : Canon s) (d : Nat) : Canon (s.stepEngine d) := h.ifThen (fun h1 => (h1.setEngine ..).setF ..)

theorem breakEn (h : Canon s) (d : Nat) (on : Bool) (g task : Nat) : Canon (s.breakEn d on g task) :=
  ((h.setF ..).setF ..).setF ..

/-! ### Placement of tasks -/

theorem setSched (h : Canon s) (d c : Nat) (x : Sched) : Canon (s.setSched d c x) := h.setEngine ..

theorem reportUnplaced (h : Canon s) (d : Nat) (t : TaskId × Task) : Canon (s.reportUnplaced d t) :=
  ((h.setF ..).ifElse (fun h1 => ((h1.setF ..).setF ..).setF ..)).dieRecord ..

theorem checkPlace (h : Canon s) (d : Nat) : Canon (s.checkPlace d) :=
  h.foldl _ (fun _ _ h1 => h1.reportUnplaced ..) _

/-! ### Repair of the matrix array -/

theorem retireCore (h : Canon s) (d p : Nat) : Canon (s.retireCore d p) :=
  h.ifElse (fun h1 => (((h1.setF ..).setF ..).putR ..).coreRecord ..)

theorem putMask (h : Canon s) (d p : Nat) (m : BitVec 128) : Canon (s.putMask d p m) :=
  ((h.setCoreAt ..).setF ..).branch (·.putR ..) (fun h1 => h1.branch (·.retireCore ..)
    (fun h2 => (h2.putR ..).ifThen (·.coreRecord ..)))

theorem applyMask (h : Canon s) (d p : Nat) : Canon (s.applyMask d p) :=
  h.branch (fun h1 => (h1.putMask ..).checkPlace _) (·.setF ..)

theorem arrayRetire (h : Canon s) (d p : Nat) : Canon (s.arrayRetire d p) := (h.retireCore ..).checkPlace _
theorem kaStart (h : Canon s) (d p : Nat) : Canon (s.kaStart d p) := h.ifThen (·.setF ..)
theorem arrayCntClr (h : Canon s) (d p : Nat) : Canon (s.arrayCntClr d p) := h.foldl _ (fun _ _ h1 => h1.putR ..) _

theorem arrayCtrl (h : Canon s) (d p : Nat) (v : Word) : Canon (s.arrayCtrl d p v) :=
  (((h.ifThen (·.arrayCntClr ..)).ifThen (·.arrayRetire ..)).ifThen (·.applyMask ..)).ifThen (·.kaStart ..)

/-! ### Start-up, flash and profiles -/

theorem writeHeader (h : Canon s) (pref : Nat) (trial : Bool) (tries : Nat) :
    Canon (s.writeHeader pref trial tries) :=
  ((h.free.setF ..).setF ..).setF ..

theorem imageRecords (h : Canon s) (x : ImageCheck) (kind : Nat) : Canon (s.imageRecords x kind) :=
  ((h.ifThen (·.hubRecord ..)).ifThen (·.hubRecord ..)).ifThen (·.hubRecord ..)

theorem runSlot (h : Canon s) (n : Nat) (x : ImageCheck) : Canon (s.runSlot n x) := (h.free.setF ..).setF ..

theorem verifySlot (h : Canon s) (n : Nat) (x : ImageCheck) : Canon (s.verifySlot n x) :=
  (h.ifElse (·.imageRecords ..)).setF ..

theorem fallback (h : Canon s) : Canon s.fallback := (h.setF ..).hubRecord ..

theorem trialStep (h : Canon s) : Canon s.trialStep :=
  h.branch (fun h1 => (h1.writeHeader ..).fallback) (fun h1 => h1.branch (·.writeHeader ..)
    (fun h2 => ((h2.setF ..).setF ..).setF ..))

theorem bootRomStart (h : Canon s) (pins : Fin 4) (a b : ImageCheck) : Canon (s.bootRomStart pins a b) :=
  h.ifElse (fun h1 => ((((((((h1.free.setF ..).setF ..).setF ..).setF ..).setF ..).free).trialStep).verifySlot
    ..).branch (·.runSlot ..) (fun h2 => ((h2.verifySlot ..).fallback).branch (·.runSlot ..)
    (fun h3 => (h3.setF ..).hubRecord ..)))

theorem writeOsHeader (h : Canon s) (pref : Nat) (trial : Bool) (tries : Nat) :
    Canon (s.writeOsHeader pref trial tries) :=
  h.free

theorem osFallback (h : Canon s) : Canon s.osFallback := h.hubRecord ..

theorem osBoot (h : Canon s) (a b : ImageCheck) : Canon (s.osBoot a b).1 := by
  unfold State.osBoot
  extract_lets +onlyGivenNames hdr boot s1 s2 p x y run
  have hs2 : Canon s2 := Canon.branch (s := s1) h.free (fun h1 => (h1.writeOsHeader ..).osFallback)
    (fun h1 => h1.ifThen (·.writeOsHeader ..))
  have hrun (u : State) (n : Nat) (hu : Canon u) : Canon (run u n) := hu.free
  refine iteFst (hrun _ _ hs2) ?_
  have hs3 : Canon (s2.imageRecords x 2).osFallback := (hs2.imageRecords ..).osFallback
  exact iteFst (hrun _ _ hs3) (hs3.imageRecords ..)

theorem trialWatchdog (h : Canon s) : Canon s.trialWatchdog := h.ifThen (·.packageReset _)
theorem flashRefused (h : Canon s) (op a : Nat) : Canon (s.flashRefused op a) := (h.setF ..).hubRecord ..

theorem flashStart (h : Canon s) (r : Requester) (op a : Nat) : Canon (s.flashStart r op a) :=
  h.branch (·.record _) (fun h1 => h1.ifElse (fun h2 => h2.branch (fun h3 => h3.free.setF ..) (·.flashRefused ..)))

theorem touchHeader (h : Canon s) (a n : Nat) : Canon (s.touchHeader a n) :=
  ifEither (((ifEither ((h.draw).free) h).draw).free) (ifEither ((h.draw).free) h)

theorem flashApply (h : Canon s) (f : FlashOp) : Canon (s.flashApply f) :=
  h.branch (·.storeAll ..) (fun h1 => h1.branch (fun h2 => (h2.touchHeader ..).free)
    (fun h2 => (h2.touchHeader ..).free))

theorem flashOpDone (h : Canon s) (ok : Bool) : Canon (s.flashOpDone ok) := by
  unfold State.flashOpDone
  split
  · exact h
  · exact (h.free.setF ..).branch (·.flashApply _) (fun h1 => (h1.setF ..).ifElse (·.hubRecord ..))

theorem firmwareUpdate (h : Canon s) (x : ImageCheck) (image : List Byte) : Canon (s.firmwareUpdate x image) :=
  h.ifElse (fun h1 => h1.branch (·.imageRecords ..) (fun h2 => (h2.free.writeHeader ..).packageReset _))

theorem raiseCtr (h : Canon s) (i v : Nat) : Canon (s.raiseCtr i v) := (h.setF ..).hubRecord ..

theorem counterRaise (h : Canon s) (r : Requester) (i : Nat) (v : Word) : Canon (s.counterRaise r i v) :=
  h.branch (·.raiseCtr ..) (·.hubRecord ..)

theorem applyLive (h : Canon s) (p : Profile) : Canon (s.applyLive p) :=
  ((((h.setF ..).setF ..).setF ..).setF ..).foldl _ (fun _ _ h1 => (h1.setF ..).setF ..) _

theorem profCmd (h : Canon s) (r : Requester) (l : Fin 4) (reset : Bool) (x : Option Profile) :
    Canon (s.profCmd r l reset x) :=
  h.branch (·.record _) (fun h1 => h1.branch (·.hubRecord ..) (fun h2 => ((h2.free.setF ..).setF ..).setF ..))

theorem profileCommand (h : Canon s) (authorised : Bool) (l : Fin 4) (reset : Bool) (x : Option Profile) :
    Canon (s.profileCommand authorised l reset x) :=
  h.ifThen (·.profCmd ..)

theorem jobBoundary (h : Canon s) (jobId : Nat) : Canon (s.jobBoundary jobId) :=
  h.ifElse (fun h1 => h1.branch (fun h2 => h2.ifThen (fun h3 => h3.free.packageReset _)) (fun h2 => h2.ifElse
    (fun h3 => (((((((h3.branch (·.setF ..) (fun h4 => (h4.setF ..).hubRecord ..)).free).applyLive _).setF ..).setF
    ..).setF ..).hubRecord ..).pulse ..)))

theorem phaseDone (h : Canon s) (p : Nat) : Canon (s.phaseDone p) := (h.setF ..).setF ..

theorem takeOwner (h : Canon s) (o : Option Owner) (copiesEmpty : Bool) : Canon (s.takeOwner o copiesEmpty) := by
  unfold State.takeOwner
  split
  · exact h.branch (fun h1 => (h1.free.setF ..).ifThen (·.raiseCtr ..)) (·.hubRecord ..)
  · exact h.branch (·.setF ..) (·.hubRecord ..)

theorem takeProfile (h : Canon s) (x : Option Profile) : Canon (s.takeProfile x) :=
  (((h.free.ifElse (fun h1 => (h1.setF ..).hubRecord ..)).applyLive _).setF ..).ifThen
    (fun h1 => (((h1.setF ..).setF ..).setF ..).setDebugMode _)

theorem applyRepairs (h : Canon s) (x : PhaseResult) : Canon (s.applyRepairs x) := by
  unfold State.applyRepairs
  extract_lets +onlyGivenNames s1 mask s2
  have hs1 : Canon s1 :=
    { h with
      repair := Tab.wf_foldl _ _ _ (fun _ _ ht => Tab.wf_put _ natLt_trans natLt_total _ _ _ _ ht) _ _ h.repair }
  have hmask (u : State) (e : Fin 136 × BitVec 128) (hu : Canon u) : Canon (mask u e) :=
    ((hu.putR ..).putR ..).putMask ..
  have hs2 : Canon s2 := hs1.foldl _ hmask _
  split
  · exact (hs2.foldl _ hmask _).foldl _ (fun _ _ h1 => h1.retireCore ..) _
  · exact (hs2.setF ..).hubRecord ..

theorem phase6 (h : Canon s) (x : PhaseResult) : Canon (s.phase6 x) :=
  (((((h.applyRepairs _).foldl _ (fun _ _ h1 => h1.setF ..) _).putR ..).putR ..).free).foldl _
    (fun _ _ h1 => h1.setF ..) _

theorem raiseFloor (h : Canon s) (i : Nat) (pair : Option (ImageCheck × ImageCheck)) :
    Canon (s.raiseFloor i pair) := by
  unfold State.raiseFloor
  split
  · exact h.ifThen (·.raiseCtr ..)
  · exact h

theorem phase10 (h : Canon s) (x : PhaseResult) : Canon (s.phase10 x) :=
  ((((((((h.foldl _ (fun _ _ h1 => h1.branch (·.retireCore ..)
    (fun h2 => ((h2.putR ..).putR ..).putMask ..)) _).foldl _
    (fun _ _ h1 => h1.setF ..) _).setF ..).setF ..).ifThen (·.writeHeader ..)).ifThen (·.writeOsHeader
    ..)).raiseFloor ..).raiseFloor ..).ifElse (fun h1 => (h1.setF ..).hubRecord ..)

theorem lostRecords (h : Canon s) : Canon s.lostRecords := h.ifThen (·.hubRecord ..)

theorem startupPhaseEnd (h : Canon s) (x : PhaseResult) : Canon (s.startupPhaseEnd x) := by
  unfold State.startupPhaseEnd
  refine ifEither ?_ ?_
  · exact h
  · split
    · exact h.phaseDone _
    · exact h.branch (fun h1 => (h1.free.putR ..).hubRecord ..)
        (fun h1 => (((h1.takeOwner ..).takeProfile _).phaseDone _).free.free)
    · exact h.ifThen (·.phaseDone _)
    · exact h.ifThen (·.phaseDone _)
    · exact (h.phase6 _).phaseDone _
    · exact h.ifThen (·.phaseDone _)
    · exact h.phaseDone _
    · exact ifEither ((((h.osBoot ..).agentMaskLock).lostRecords).phaseDone _) (h.osBoot ..)
    · exact (h.phase10 _).phaseDone _
    · exact h

theorem startupPhaseTimeout (h : Canon s) : Canon s.startupPhaseTimeout :=
  h.ifElse (fun h1 => ((h1.setF ..).hubRecord ..).foldl _ (fun _ _ h2 => h2.domainHold _) _)

theorem resetNRelease (h : Canon s) : Canon s.resetNRelease := h.setF ..

theorem acceptFeed (h : Canon s) (v : BitVec 8) : Canon (s.acceptFeed v) :=
  h.free.ifElse (fun h1 => ((((h1.setF ..).setF ..).setF ..).ifElse
    (fun h2 => (h2.setF ..).hubRecord ..)).ifThen (·.hubRecord ..))

theorem feedIdSample (h : Canon s) (v : BitVec 8) : Canon (s.feedIdSample v) := h.free.ifThen (·.acceptFeed _)

theorem leakDetect (h : Canon s) (zone : Nat) (inlet outlet : BitVec 16) : Canon (s.leakDetect zone inlet outlet) :=
  ((((h.coolant ..).setF ..).setF ..).setF ..).hubRecord ..

/-! ### Braze links, clocks and the sequencer -/

theorem setBundle (h : Canon s) (k b : Nat) (x : BundleSt) : Canon (s.setBundle k b x) := h.setLink ..

theorem edgeFail (h : Canon s) (d e : Nat) : Canon (s.edgeFail d e) :=
  (h.foldl _ (fun _ _ h1 => h1.setF ..) _).branch (·.record _) (fun h1 => (h1.setStack ..).record _)

theorem retireBundle (h : Canon s) (d e b : Nat) : Canon (s.retireBundle d e b) :=
  h.ifElse (fun h1 => (((h1.foldl _ (fun _ _ h2 => (h2.setF ..).setF ..) _).foldl _
    (fun _ _ h2 => h2.setLink ..) _).record _).ifThen (·.edgeFail ..))

theorem edgeUp (h : Canon s) (d e : Nat) : Canon (s.edgeUp d e) :=
  h.ifThen (fun h1 => h1.foldl _ (fun _ _ h2 => h2.setF ..) _)

theorem flitGood (h : Canon s) (k b : Nat) (f : Flit) : Canon (s.flitGood k b f) := (h.setBundle ..).setLink ..

theorem flitBad (h : Canon s) (d e k b : Nat) (f : Flit) : Canon (s.flitBad d e k b f) :=
  (((h.setBundle ..).setLink ..).addF ..).ifThen (·.retireBundle ..)

theorem flitReceive (h : Canon s) (d e : Nat) (far : Bool) (b : Nat) (good : Bool) (f : Flit) :
    Canon (s.flitReceive d e far b good f) :=
  h.ifElse (fun h1 => (h1.ifElse (·.setBundle ..)).branch (·.flitBad ..) (fun h2 => h2.ifThen (·.flitGood ..)))

theorem resendRequest (h : Canon s) (d e : Nat) (far : Bool) (b : Nat) (bseq : BitVec 8) :
    Canon (s.resendRequest d e far b bseq) :=
  h.ifThen (·.addF ..)

theorem bundleTrainingEnd (h : Canon s) (d e b : Nat) (passed : Bool) : Canon (s.bundleTrainingEnd d e b passed) :=
  h.ifElse (fun h1 => h1.branch (fun h2 => (h2.foldl _ (fun _ _ h3 => (h3.setF ..).setF ..) _).edgeUp ..)
    (fun h2 => ((h2.foldl _ (fun _ _ h3 => h3.setF ..) _).retireBundle ..).edgeUp ..))

theorem bundleRetire (h : Canon s) (d e mask : Nat) : Canon (s.bundleRetire d e mask) :=
  (h.setF ..).foldl _ (fun _ _ h1 => h1.ifThen (·.retireBundle ..)) _

theorem brzCntClr (h : Canon s) (d e : Nat) : Canon (s.brzCntClr d e) :=
  (h.setF ..).foldl _ (fun _ _ h1 => h1.setF ..) _

theorem localPllLoss (h : Canon s) (i : Nat) : Canon (s.localPllLoss i) :=
  h.ifElse (fun h1 => ((((h1.setF ..).setF ..).domainHold _).sequence _).hubRecord ..)

theorem rootPllLoss (h : Canon s) : Canon s.rootPllLoss := ((h.ifElse (·.countFailure)).packageReset _).setF ..

theorem seqGo (h : Canon s) (r : Requester) : Canon (s.seqGo r) :=
  h.branch (·.refuseWrite ..) (fun h1 => h1.ifElse (fun h2 => h2.free.setF ..))

theorem seqEnter (h : Canon s) (p : Nat) : Canon (s.seqEnter p) :=
  (h.setF ..).branch (fun h1 => h1.free.setF ..) (fun h1 => h1.foldl _
    (fun _ _ h2 => h2.ifThen (·.domainRelease _)) _)

theorem retireUntrained (h : Canon s) (p : Nat) : Canon (s.retireUntrained p) :=
  h.foldl _ (fun _ _ h1 => h1.ifThen (fun h2 => h2.foldl _ (fun _ _ h3 => h3.ifElse (·.bundleTrainingEnd ..)) _)) _

theorem seqPhaseEnd (h : Canon s) : Canon s.seqPhaseEnd := by
  unfold State.seqPhaseEnd
  refine ifEither ?_ ?_
  · exact h
  · split
    · exact ((h.free.setF ..).setF ..).setF ..
    · exact (h.setF ..).seqEnter _
    · exact ((h.setF ..).foldl _ (fun _ _ h1 => h1.ifThen (·.setF ..)) _).seqEnter _
    · exact (h.retireUntrained _).seqEnter _

theorem seqPhaseTimeout (h : Canon s) : Canon s.seqPhaseTimeout := h.ifThen (fun h1 => (h1.setF ..).hubRecord ..)

theorem domainRst (h : Canon s) (mask : Nat) : Canon (s.domainRst mask) :=
  h.ifElse (fun h1 => h1.branch (fun h2 => (h2.setF ..).hubRecord ..) (fun h2 => h2.branch (·.packageReset _)
    (fun h3 => (h3.foldl _ (fun _ _ h4 => h4.ifThen (·.domainHold _)) _).sequence _)))

theorem resetNAssert (h : Canon s) : Canon s.resetNAssert := (h.packageReset _).setF ..

/-! ### Step verdicts and triggers -/

theorem showSeal (h : Canon s) : Canon s.showSeal := by
  unfold State.showSeal
  split
  · exact (((h.setF ..).setF ..).setF ..).setF ..
  · exact (h.setF ..).setF ..

theorem setStep (h : Canon s) (v : StepVerdict) : Canon (s.setStep v) := h.ifElse (fun h1 => h1.free.showSeal)
theorem openStep (h : Canon s) (e : Nat) : Canon (s.openStep e) := h.ifElse (·.setStep _)
theorem countTrigger (h : Canon s) : Canon s.countTrigger := h.free.ifThen (·.hubRecord ..)

theorem latchTrigger (h : Canon s) (f : Field) (details : List Nat) (epoch : Nat) :
    Canon (s.latchTrigger f details epoch) :=
  ((h.setF ..).hubRecord ..).countTrigger

theorem holdSteps (h : Canon s) : Canon s.holdSteps := by
  unfold State.holdSteps
  split
  · exact (h.foldl _ (fun _ _ h1 => h1.setStep _) _).setF ..
  · split
    · exact h.record _
    · exact h

theorem fireTrigger (h : Canon s) (f : Field) (details : List Nat) : Canon (s.fireTrigger f details) :=
  (h.latchTrigger ..).holdSteps

theorem assayResolved (h : Canon s) : Canon s.assayResolved := h.free.ifThen (·.fireTrigger ..)
theorem coreEccBurst (h : Canon s) (d p : Nat) : Canon (s.coreEccBurst d p) := h.free.ifThen (·.fireTrigger ..)

theorem stackEccBurst (h : Canon s) (ms : Nat) : Canon (s.stackEccBurst ms) :=
  (h.setStack ..).ifThen (·.fireTrigger ..)

/-! ### Range statistics -/

theorem slotWord (h : Canon s) (r : RegName) (d i : Nat) (f : Word → Word) : Canon (s.slotWord r d i f) := h.putR ..

theorem enterCounts (h : Canon s) (d slot e : Nat) (x : SlotDelta) : Canon (s.enterCounts d slot e x) :=
  h.ifElse (fun h1 => ((((h1.branch (fun h2 => (h2.setF ..).setF ..)
    (fun h2 => h2.ifThen (·.setF ..))).slotWord ..).slotWord ..).slotWord ..).slotWord ..)

theorem clearHeader (h : Canon s) (d p : Nat) : Canon (s.clearHeader d p) := h.putR ..

theorem snapBank (h : Canon s) (d p e : Nat) (forced : Bool) : Canon (s.snapBank d p e forced) :=
  (((((((((h.clearBank ..).clearBank ..).clearHeader ..).foldl _
    (fun _ _ h1 => h1.putR ..) _).ifThen (·.setF ..)).setF ..).wrapF ..).setF ..).setF ..).setF ..

theorem snapNow (h : Canon s) (d : Nat) : Canon (s.snapNow d) :=
  h.branch (·.snapBank ..) (fun h1 => h1.ifThen (·.snapBank ..))

theorem clrAll (h : Canon s) (d : Nat) : Canon (s.clrAll d) :=
  ((((((((h.clearBank ..).clearBank ..).clearBank ..).clearHeader ..).clearHeader ..).setF ..).setF ..).setF
    ..).setF ..

theorem stepBoundary (h : Canon s) (d e : Nat) : Canon (s.stepBoundary d e) :=
  h.ifThen (fun h1 => (h1.setEngine ..).snapBank ..)

/-! ### Stacks: versions, compression and the write path -/

theorem latchEcc (h : Canon s) (ms ch rowg gran : Nat) (uncorr : Bool) : Canon (s.latchEcc ms ch rowg gran uncorr) :=
  h.ifElse (fun h1 => ((((h1.setF ..).setF ..).setF ..).setF ..).setF ..)

theorem eccCorrected (h : Canon s) (ms ch rowg gran : Nat) : Canon (s.eccCorrected ms ch rowg gran) :=
  (((h.addF ..).latchEcc ..).ifElse (fun h1 => (h1.setStack ..).stackRecord ..)).stackEccBurst _

theorem eccUncorrectable (h : Canon s) (ms ch rowg gran : Nat) : Canon (s.eccUncorrectable ms ch rowg gran) :=
  ((h.addF ..).latchEcc ..).stackRecord ..

theorem eccRead (h : Canon s) (p : Place) (e : Ecc) : Canon (s.eccRead p e) := by
  unfold State.eccRead
  split
  · exact h
  · exact h.eccCorrected ..
  · exact (h.eccUncorrectable ..).setGranBad ..

theorem giveFrame (h : Canon s) (ms f : Nat) : Canon (s.giveFrame ms f) := h.setStack ..

theorem takeFrame (h : Canon s) {ms f : Nat} (he : s.takeFrame ms = some (f, t)) : Canon t := by
  unfold State.takeFrame at he
  extract_lets st at he
  split at he
  · cases he; exact h.setStack ..
  · split at he
    · cases he; exact h.setStack ..
    · cases he

theorem startCopy (h : Canon s) (ms p e : Nat) : Canon (s.startCopy ms p e) := by
  unfold State.startCopy
  refine ifEither h ?_
  split
  next he => exact (h.takeFrame he).setStack ..
  next => exact h

theorem verTry (h : Canon s) (ms : Nat) (w : WriteReq) : Canon (State.verTry ms s w) :=
  ifEither (h.setStack ..) (ifEither ((h.setStack ..).startCopy ..) ((h.ifThen (·.record _)).wcbEnter ..))

theorem showWait (h : Canon s) (ms : Nat) : Canon (s.showWait ms) := by
  unfold State.showWait
  extract_lets st
  refine ifEither ?_ ?_
  · split
    · exact h
    · exact (h.setStack ..).setF ..
  · split
    · exact ((h.setStack ..).ifThen (·.addF ..)).setF ..
    · exact h

theorem pump (h : Canon s) (ms : Nat) : Canon (s.pump ms) :=
  ((h.setStack ..).foldl _ (fun _ _ h1 => h1.verTry ..) _).showWait _

theorem noteLate (h : Canon s) (ms : Nat) (w : WriteReq) : Canon (s.noteLate ms w) :=
  h.ifThen (fun h1 => (h1.addF ..).record _)

theorem verWrite (h : Canon s) (ms : Nat) (w : WriteReq) : Canon (s.verWrite ms w) :=
  h.ifElse (fun h1 => ((h1.noteLate ..).verTry ..).showWait _)

theorem losslessWrite (h : Canon s) (e a : Nat) (data : List Byte) : Canon (s.losslessWrite e a data) := by
  have put (u : State) (l : List Nat) (f : Nat → Nat) (b : Nat → Byte) (hu : Canon u) :
      Canon { u with packed := l.foldl (fun t i => Tab.putN State.memDefault t (f i) (b i)) u.packed } :=
    { hu with packed := Tab.wf_foldl _ _ _ (fun _ _ ht => Memory.wf_put _ _ _ ht) _ _ hu.packed }
  have drop (u : State) (p : Host.Cell → Bool) (hu : Canon u) : Canon { u with packed := u.packed.filter p } :=
    { hu with packed := Tab.wf_filter _ _ _ _ hu.packed }
  unfold State.losslessWrite
  extract_lets r g ms old base cur bs s1 n
  have hs1 : Canon s1 := h.ifThen (·.free)
  split
  · exact (put _ _ _ _ hs1).putComp ..
  · exact (((drop _ _ (hs1.putComp ..)).addF ..).stackRecord ..).pulse ..

theorem reducedDrop (h : Canon s) (ms a : Nat) : Canon (s.reducedDrop ms a) := h.stackRecord ..

theorem reducedWrite (h : Canon s) (e : Nat) (w : WriteReq) : Canon (s.reducedWrite e w) := by
  unfold State.reducedWrite
  extract_lets r ms
  split
  · exact h.branch (·.reducedDrop ..) (fun h1 => ((h1.foldl _
      (fun _ _ h2 => h2.pokeDram ..) _).pokeDram ..).enterCounts ..)
  · exact h.reducedDrop ..

theorem unmapped (h : Canon s) (w : WriteReq) : Canon (s.unmapped w) := by
  unfold State.unmapped
  split
  · exact h.accessRecord ..
  · exact h

theorem write (h : Canon s) (w : WriteReq) : Canon (s.write w) := by
  unfold State.write
  refine h.branch (·.unmapped _) fun h1 => h1.branch (fun h2 => (h2.storeLocal ..).ifElse (·.markLine ..)) fun h2
    => ?_
  split
  · exact h2
  · exact h2.ifElse (fun h3 => h3.branch (fun h4 => (h4.losslessWrite ..).markPacked _) (fun h4 =>
      h4.branch (·.reducedWrite ..) (fun h5 => h5.branch (·.verWrite ..) (·.wcbEnter ..))))

theorem writePlain (h :
    Canon s) (a : Nat) (data : List Byte) (epoch : Option Nat) (tensor : Nat) (owner : Option TaskId) : Canon
    (s.writePlain a data epoch tensor owner) :=
  h.foldl _ (fun _ _ h1 => h1.write _) _

theorem dropRetained (h : Canon s) (ms p : Nat) (drop : Retained → Bool) : Canon (s.dropRetained ms p drop) :=
  (h.setPageVer ..).foldl _ (fun _ _ h1 => h1.giveFrame ..) _

theorem freeCommitted (h : Canon s) (ms c : Nat) : Canon (s.freeCommitted ms c) :=
  (h.foldl _ (fun _ _ h1 => h1.dropRetained ..) _).pump _

theorem unpin (h : Canon s) (ms p frame : Nat) : Canon (s.unpin ms p frame) :=
  h.branch (·.setPageVer ..) (fun h1 => ((h1.setPageVer ..).dropRetained ..).pump _)

theorem restorePage (h : Canon s) (ms e : Nat) (x : Nat × PageVer) : Canon (State.restorePage ms e s x) := by
  unfold State.restorePage
  extract_lets v
  refine ifEither ?_ ?_
  · exact h
  · split
    · exact h
    · exact ((h.giveFrame ..).setPageVer ..).foldl _ (fun _ _ h1 => h1.giveFrame ..) _

theorem dropBytes (h : Canon s) (ms e : Nat) : Canon (s.dropBytes ms e) := h.setStack ..

theorem stackRetract (h : Canon s) (ms e : Nat) : Canon (s.stackRetract ms e) := by
  unfold State.stackRetract
  extract_lets s1 st gone s2 s3 s4
  have hs3 : Canon s3 := ((h.ifThen (·.record _)).setStack ..).foldl _ (fun _ _ h1 => h1.giveFrame ..) _
  exact ((hs3.dropBytes ..).foldl _ (fun _ _ h1 => h1.restorePage ..) _).pump _

theorem firstTouchDone (h : Canon s) (ms : Nat) (corr bad : List Nat) : Canon (s.firstTouchDone ms corr bad) := by
  unfold State.firstTouchDone
  split
  · exact h
  · exact (((((((h.flushPage ..).foldl _ (fun _ _ h1 => h1.eccRead ..) _).foldl _
      (fun _ _ h1 => h1.eccUncorrectable ..) _).copyFrame ..).foldl _
      (fun _ _ h1 => h1.setGranBad ..) _).setStack ..).setPageVer ..).pump _

theorem dropPins (h : Canon s) (ms : Nat) : Canon (s.dropPins ms) :=
  (h.foldl _ (fun _ _ h1 => (h1.setPageVer ..).dropRetained ..) _).pump _

theorem forcedCommit (h : Canon s) (ms : Nat) : Canon (s.forcedCommit ms) := by
  unfold State.forcedCommit
  extract_lets tags
  clear_value tags
  split
  · exact h
  · refine h.ifElse fun h1 => ?_
    exact ((((h1.setF ..).setF ..).record _).foldl _ (fun _ _ h2 => h2.dropRetained ..) _).pump _

/-! ### Sending on the fabric -/

theorem owe (h : Canon s) (p cls n : Nat) : Canon (s.owe p cls n) := h.setPort ..

theorem transmit (h : Canon s) (p : Nat) (t : TxItem) : Canon (s.transmit p t) := by
  unfold State.transmit
  extract_lets x c f owed s1 s2 v s3
  split
  · exact (((h.setPort ..).setF ..).addF ..).owe ..
  · exact ((h.setPort ..).setF ..).addF ..

theorem pumpItems (h : Canon s) (p : Nat) (l : List TxItem) (held : List Nat) :
    Canon (State.pumpItems p l held s).1 := by
  induction l generalizing held s with
  | nil => exact h
  | cons t l ih =>
    rw [State.pumpItems]
    exact iteFst (ih (h.transmit ..) _) (ih h _)

theorem pumpPort (h : Canon s) (p : Nat) : Canon (s.pumpPort p) := (h.pumpItems ..).setPort ..
theorem enqueue (h : Canon s) (p : Nat) (t : TxItem) : Canon (s.enqueue p t) := (h.setPort ..).pumpPort _
theorem dropFrame (h : Canon s) (p : Nat) : Canon (s.dropFrame p) := h.addF ..

theorem refuseFrame (h : Canon s) (p : Nat) (details : List Nat) : Canon (s.refuseFrame p details) :=
  (h.dropFrame _).ifElse (fun h1 => (h1.setPort ..).portRecord ..)

theorem send (h : Canon s) (f : Frame) : Canon (s.send f) := by
  unfold State.send
  refine ifEither ?_ ?_
  · exact h.free
  · split
    · exact h
    · exact h.branch (·.refuseFrame ..) (·.enqueue ..)

theorem sendNeighbour (h : Canon s) (p kind : Nat) (tag : Word) (payload : List Byte) :
    Canon (s.sendNeighbour p kind tag payload) :=
  h.enqueue ..

theorem linkPulse (h : Canon s) (p k : Nat) : Canon (s.linkPulse p k) := h.pulse ..

theorem downLink (h : Canon s) (p : Nat) : Canon (s.downLink p).1 := by
  unfold State.downLink
  extract_lets x frames s1 s2 s3 s4 s5 s6 s7
  have hs1 : Canon s1 := by
    unfold s1
    refine h.foldl _ (fun _ _ h1 => ?_) _
    split
    · exact h1.owe ..
    · exact h1
  exact (((((((((hs1.addF ..).addF ..).portRecord ..).setPort ..).setF ..).setF ..).setF ..).putR ..).putR
    ..).linkPulse ..

/-! ### Cancellation -/

theorem dropFetch (h : Canon s) (d p : Nat) (t : TaskId) : Canon (s.dropFetch d p t) := h.setCoreAt ..

theorem dropArray (h : Canon s) (d p : Nat) (t : TaskId) : Canon (s.dropArray d p t) :=
  (h.setCoreAt ..).ifThen (·.setF ..)

theorem releaseTile (h : Canon s) (d p g tile : Nat) : Canon (s.releaseTile d p g tile) := h.setCoreAt ..

theorem releaseRings (h : Canon s) (d p g : Nat) : Canon (s.releaseRings d p g) :=
  h.foldl _ (fun _ _ h1 => h1.releaseTile ..) _

theorem releaseGraph (h : Canon s) (d g : Nat) : Canon (s.releaseGraph d g) :=
  h.foldl _ (fun _ _ h1 => h1.foldl _ (fun _ _ h2 => h2.releaseTile ..) _) _

theorem dropLeave (h : Canon s) (t : TaskId) (x : Task) : Canon (s.dropLeave t x) := by
  unfold State.dropLeave
  extract_lets e issued s1 s2
  refine ifEither ?_ ?_
  · split
    · exact (((h.setEngine ..).releaseTokens ..).setCoreAt ..).releaseTokens ..
    · exact ((h.setEngine ..).releaseTokens ..).ifElse (·.releaseTokens ..)
  · exact (h.setEngine ..).releaseTokens ..

theorem dropContexts (h : Canon s) (t : TaskId) : Canon (s.dropContexts t) :=
  h.foldl _ (fun _ _ h1 => (h1.foldl _ (fun _ _ h2 => h2.setF ..) _).setStack ..) _

theorem freeChannel (h : Canon s) (d c : Nat) : Canon (s.freeChannel d c) :=
  ((((h.setChan ..).setF ..).setF ..).setF ..).setF ..

theorem abandon (h : Canon s) (t : TaskId) (c : Nat) : Canon (s.abandon t c) :=
  h.ifThen (fun h1 => ((h1.dropContexts _).freeChannel ..).setChan ..)

theorem stopTask (h : Canon s) (t : TaskId) (x : Task) : Canon (s.stopTask t x) := by
  unfold State.stopTask
  extract_lets s1 s2 s3 s4
  have hs2 : Canon s2 := by
    unfold s2
    split
    · extract_lets s1 c s2
      split
      · exact ((((h.dropLeave ..).dropFetch ..).dropArray ..).setCoreAt ..).releaseTile ..
      · exact ((((h.dropLeave ..).dropFetch ..).dropArray ..).setCoreAt ..).ifThen (·.releaseRings ..)
    · exact h.dropLeave ..
  have hs3 : Canon s3 := by
    unfold s3
    split
    · exact hs2.abandon ..
    · exact hs2
  exact (hs3.foldl _ (fun _ _ h1 => (h1.ifThen (fun h2 => (h2.setStack ..).setF ..)).setStack ..) _).setTask ..

theorem cancelFrom (h : Canon s) (n : Nat) (l : List TaskId) : Canon (State.cancelFrom n l s) := by
  induction n generalizing l s with
  | zero => exact h
  | succ n ih =>
    cases l with
    | nil => exact h
    | cons t l =>
      rw [State.cancelFrom]
      split
      · exact ih h _
      · exact h.branch (ih · _) fun h1 => h1.branch (fun h2 => ih (h2.setTask ..) _) fun h2 => ih (h2.stopTask ..) _

theorem endGraph (h : Canon s) (d g : Nat) : Canon (s.endGraph d g) :=
  h.ifElse (fun h1 => (h1.setF ..).ifElse (fun h2 => (h2.setF ..).releaseGraph ..))

theorem dropTwins (h : Canon s) (d : Nat) : Canon (s.dropTwins d) :=
  (h.setEngine ..).foldl _ (fun _ _ h1 => (h1.addF ..).dieRecord ..) _

theorem endGraphs (h : Canon s) (d : Nat) : Canon (s.endGraphs d) :=
  (h.foldl _ (fun _ _ h1 => h1.endGraph ..) _).foldl _ (fun _ _ h1 => h1.dropTwins _) _

theorem cancelWhere (h : Canon s) (d : Nat) (sel : Task → Bool) : Canon (s.cancelWhere d sel) :=
  ((h.cancelFrom ..).endGraphs _).checkHalted _

theorem cancelTask (h : Canon s) (t : TaskId) : Canon (s.cancelTask t) :=
  ((h.cancelFrom ..).endGraphs _).checkHalted _

theorem setRegionBusy (h : Canon s) (d r : Nat) (v : Bool) : Canon (s.setRegionBusy d r v) := h.putR ..
theorem cancelRegion (h : Canon s) (d r : Nat) : Canon (s.cancelRegion d r) := (h.setRegionBusy ..).cancelWhere ..
theorem regionCancelDone (h : Canon s) (d r : Nat) : Canon (s.regionCancelDone d r) := h.ifThen (·.setRegionBusy ..)
theorem cancelEpoch (h : Canon s) (e : Nat) : Canon (s.cancelEpoch e) := h.foldl _ (fun _ _ h1 => h1.cancelWhere ..) _

/-! ### Ingots -/

theorem setIngot (h : Canon s) (i : IngotSt) : Canon (s.setIngot i) := h.free

theorem sendGossip (h : Canon s) (ports : List Nat) (l : List (Nat × Gossip)) : Canon (s.sendGossip ports l) :=
  h.foldl _ (fun _ _ h1 => h1.foldl _ (fun _ _ h2 => h2.sendNeighbour ..) _) _

theorem floodOwn (h : Canon s) : Canon s.floodOwn := (h.setIngot _).sendGossip ..

theorem freshenOwn (h : Canon s) : Canon s.freshenOwn := by
  unfold State.freshenOwn
  split
  · exact h.ifElse (·.floodOwn)
  · exact h

theorem lookFed (h : Canon s) (rewritten : Bool) : Canon (s.lookFed rewritten) :=
  ((h.setF ..).setF ..).branch (fun h1 => (((h1.setF ..).setF ..).hubRecord ..).floodOwn) (fun h1 => h1.branch
    (fun h2 => ((h2.setF ..).setF ..).floodOwn) (·.freshenOwn))

theorem storeGossip (h : Canon s) (x : Nat × Gossip) : Canon (s.storeGossip x).1 := by
  unfold State.storeGossip
  exact iteFst h.free h

theorem takeGossip (h : Canon s) (p : Nat) (payload : List Byte) : Canon (s.takeGossip p payload) := by
  unfold State.takeGossip
  extract_lets +onlyGivenNames l r s1
  have hr : Canon r.1 := by
    refine foldlFst _ (fun p g h1 => ?_) _ _ h
    exact iteFst (Canon.storeGossip h1 _) (Canon.storeGossip h1 _)
  exact (hr.ifElse (·.sendGossip ..)).lookFed _

theorem gossipHour (h : Canon s) : Canon s.gossipHour := (h.setIngot _).floodOwn
theorem gossipExpiry (h : Canon s) : Canon s.gossipExpiry := (h.setIngot _).lookFed _

theorem pinFrame (h : Canon s) (e : Nat) (x : IngPage) : Canon (State.pinFrame e s x) :=
  h.branch (·.setPageVer ..) (·.setPageVer ..)

theorem showPins (h : Canon s) : Canon s.showPins := h.foldl _ (fun _ _ h1 => h1.setF ..) _
theorem mapPages (h : Canon s) (f : IngPage → IngPage) : Canon (s.mapPages f) := h.free
theorem settlePage (h : Canon s) (x : IngPage) : Canon (s.settlePage x) := h.ifThen (fun h1 => (h1.unpin ..).showPins)

theorem voidIngot (h : Canon s) (cause : Nat) : Canon (s.voidIngot cause) :=
  h.ifElse (fun h1 => ((((((h1.foldl _ (fun _ _ h2 => h2.unpin ..) _).setIngot _).setF ..).setF ..).setF ..).ifThen
    (·.hubRecord ..)).showPins)

theorem writeAdvice (h : Canon s) : Canon s.writeAdvice := ((((h.setIngot _).setF ..).setF ..).setF ..).setF ..

theorem lookIngot (h : Canon s) : Canon s.lookIngot :=
  h.ifElse (fun h1 => h1.branch (·.setF ..) (fun h2 => ((((h2.setF ..).setF ..).writeAdvice).setIngot _).pulse ..))

theorem sendIngot (h : Canon s) (dst srcDie epoch kind : Nat) (tag : Word) (payload : List Byte) :
    Canon (s.sendIngot dst srcDie epoch kind tag payload) :=
  h.send _

theorem sendPage (h : Canon s) (dst epoch slot index serial srcDie digest : Nat) (chunk : Nat → List Byte) :
    Canon (s.sendPage dst epoch slot index serial srcDie digest chunk) :=
  (h.foldl _ (fun _ _ h1 => h1.sendIngot ..) _).sendIngot ..

theorem sendManifest (h : Canon s) (dst epoch slot serial : Nat) (header manifest : List Byte) :
    Canon (s.sendManifest dst epoch slot serial header manifest) :=
  ((h.sendIngot ..).foldl _ (fun _ _ h1 => h1.sendIngot ..) _).sendIngot ..

theorem maybeManifest (h : Canon s) : Canon s.maybeManifest := h.ifThen (fun h1 => (h1.setIngot _).sendManifest ..)

theorem startIngot (h : Canon s) (e n : Nat) : Canon (s.startIngot e n) :=
  ((((((((((h.foldl _ (fun _ _ h1 => h1.pinFrame ..) _).setIngot _).setF ..).setF ..).setF ..).setF ..).setF
    ..).foldl _ (fun _ _ h1 => h1.setF ..) _).showPins).maybeManifest).lookIngot

theorem ingotBoundary (h : Canon s) (e : Nat) : Canon (s.ingotBoundary e) :=
  h.ifElse (fun h1 => (h1.setIngot _).ifElse (fun h2 => (h2.setIngot _).branch
    (fun h3 => (h3.setF ..).hubRecord ..) (·.startIngot ..)))

theorem fillSlot (h : Canon s) (k : Nat) (x : IngPage) (bs : List Byte) : Canon (s.fillSlot k x bs) :=
  ((h.storeAll ..).storeAll ..).setF ..

theorem ingotPageRead (h : Canon s) (ms : Nat) : Canon (s.ingotPageRead ms) := by
  unfold State.ingotPageRead
  refine ifEither ?_ ?_
  · exact h
  · split
    · exact h
    · extract_lets ring
      split
      · exact h
      · exact ((((((h.flushPage ..).setIngot _).ifThen (·.fillSlot ..)).ifThen (·.sendPage ..)).settlePage
          _).maybeManifest).lookIngot

theorem resendPages (h : Canon s) : Canon s.resendPages := h.mapPages _
theorem ingotRouteTimeout (h : Canon s) : Canon s.ingotRouteTimeout := h.ifThen (·.voidIngot _)

theorem takePageOk (h : Canon s) (f : Frame) : Canon (s.takePageOk f) := by
  unfold State.takePageOk
  extract_lets i
  split
  · exact h.ifThen (fun h1 => ((((h1.setIngot _).setF ..).settlePage _).maybeManifest).lookIngot)
  · exact h

theorem takePageBad (h : Canon s) (f : Frame) : Canon (s.takePageBad f) := by
  unfold State.takePageBad
  extract_lets i
  split
  · exact h.ifThen (fun h1 => (h1.setIngot _).branch (fun h2 => (h2.hubRecord ..).voidIngot _) (·.sendPage ..))
  · exact h

theorem takeComplete (h : Canon s) (f : Frame) : Canon (s.takeComplete f) :=
  h.ifThen (fun h1 => (h1.setIngot _).lookIngot)

theorem setRx (h : Canon s) (k : Nat) (x : Image) : Canon (s.setRx k x) := h.setIngot _
theorem emptySlot (h : Canon s) (k : Nat) : Canon (s.emptySlot k) := (h.setRx ..).setF ..

theorem answerIngot (h : Canon s) (f : Frame) (type index : Nat) : Canon (s.answerIngot f type index) :=
  h.sendIngot ..

theorem rxFor (h : Canon s) (f : Frame) : Canon (s.rxFor f) := h.ifElse (fun h1 => (h1.setRx ..).setF ..)

theorem rxState (h : Canon s) (k : Nat) : Canon (s.rxState k) :=
  h.ifElse (fun h1 => h1.branch (fun h2 => (h2.setRx ..).setF ..) (·.setF ..))

theorem rxPage (h : Canon s) (f : Frame) : Canon (s.rxPage f) :=
  h.branch (·.answerIngot ..) (fun h1 => ((h1.rxFor _).writePlain ..).setRx ..)

theorem rxPageEnd (h : Canon s) (f : Frame) : Canon (s.rxPageEnd f) :=
  h.branch (·.answerIngot ..) (fun h1 => ((h1.rxFor _).setRx ..).answerIngot ..)

theorem rxManifest (h : Canon s) (f : Frame) : Canon (s.rxManifest f) :=
  h.branch (·.answerIngot ..) (fun h1 => ((h1.rxFor _).writePlain ..).branch
    (fun h2 => ((h2.setRx ..).rxState _).answerIngot ..) (·.setRx ..))

theorem takeAbort (h : Canon s) (f : Frame) : Canon (s.takeAbort f) := h.ifThen (·.emptySlot _)

theorem takeRestoreReq (h : Canon s) (f : Frame) : Canon (s.takeRestoreReq f) := by
  unfold State.takeRestoreReq
  extract_lets k x want
  split
  · exact h.branch (fun h1 => ((h1.sendIngot ..).foldl _ (fun _ _ h2 => h2.sendIngot ..) _).foldl _
      (fun _ _ h2 => h2.sendPage ..) _) (·.answerIngot ..)
  · exact h.answerIngot ..

theorem logRecord (h : Canon s) (e : Nat) : Canon (s.logRecord e).2 := (h.draw).draw

theorem logStep (h : Canon s) (e : Nat) : Canon (s.logStep e) :=
  (ifEither (h.logRecord _) ((h.logRecord _).setIngot _)).ifThen (·.sendIngot ..)

theorem timeStep (h : Canon s) : Canon s.timeStep := by
  unfold State.timeStep
  extract_lets i
  split
  · exact h.setIngot _
  · exact h.setIngot _

theorem lookLost (h : Canon s) (e : Nat) : Canon (s.lookLost e) :=
  h.ifThen (fun h1 => ((h1.setIngot _).setF ..).hubRecord ..)

theorem ingotCommit (h : Canon s) (e : Nat) : Canon (s.ingotCommit e) :=
  (((((h.timeStep).logStep _).rxState _).rxState _).lookIngot).lookLost _

theorem ingotRetract (h : Canon s) (e : Nat) : Canon (s.ingotRetract e) :=
  (h.ifThen (fun h1 => (h1.voidIngot _).ifThen (·.sendIngot ..))).foldl _ (fun _ _ h1 => h1.ifThen (·.emptySlot _)) _

theorem endRestore (h : Canon s) : Canon s.endRestore := (h.setIngot _).setF ..

theorem takeRefused (h : Canon s) (f : Frame) : Canon (s.takeRefused f) :=
  h.branch (·.endRestore) (fun h1 => h1.ifThen (·.voidIngot _))

theorem restoreStore (h : Canon s) (ms page : Nat) (bs : Nat → Byte) : Canon (s.restoreStore ms page bs) :=
  h.foldl _ (fun _ _ h1 => (h1.setDram ..).setGranBad ..) _

theorem restoreVer (h : Canon s) (e i : Nat) : Canon (State.restoreVer e s i) :=
  (h.setPageVer ..).foldl _ (fun _ _ h1 => h1.giveFrame ..) _

theorem setSealTokens (h : Canon s) (t v : Nat) : Canon (s.setSealTokens t v) :=
  h.foldl _ (fun _ _ h1 => h1.setF ..) _

theorem lookRestore (h : Canon s) : Canon s.lookRestore :=
  h.branch (fun h1 => (((((((h1.foldl _ (fun _ _ h2 => h2.restoreVer ..) _).setSealTokens ..).setSealTokens
    ..).free).showSeal).setIngot _).setF ..).pulse ..) (fun h1 => h1.ifThen (fun h2 => (h2.endRestore).pulse ..))

theorem restorePageEnd (h : Canon s) (i : Nat) : Canon (s.restorePageEnd i) :=
  h.ifElse (fun h1 => ((((h1.ifThen (·.restoreStore ..)).setIngot _).setF ..).setF ..).lookRestore)

theorem restoreChunk (h : Canon s) (i c : Nat) (bs : List Byte) : Canon (s.restoreChunk i c bs) :=
  h.ifElse (·.setIngot _)

theorem restorePiece (h : Canon s) (i : Nat) (payload : List Byte) : Canon (s.restorePiece i payload) :=
  (h.setIngot _).ifElse (fun h1 => h1.branch (fun h2 => ((h2.setIngot _).setF ..).lookRestore)
    (fun h2 => (h2.endRestore).pulse ..))

theorem restore (h : Canon s) : Canon s.restore :=
  h.branch (·.refuseWrite ..) (fun h1 => ((((h1.setIngot _).setF ..).setF ..).setF ..).branch
    (fun h2 => (h2.countFailure).sendIngot ..) (·.setF ..))

theorem consumeSlot (h : Canon s) (k : Nat) : Canon (s.consumeSlot k) := by
  unfold State.consumeSlot
  extract_lets d piece a
  refine ifEither ?_ ?_
  · split
    · exact (h.foldl _ (fun _ _ h1 => h1.restoreChunk ..) _).restorePageEnd _
    · exact h
  · exact h.restorePiece ..

theorem handSlot (h : Canon s) (k : Nat) : Canon (s.handSlot k) := by
  unfold State.handSlot
  extract_lets forge
  refine ifEither ?_ ?_
  · exact h
  · refine ifEither ?_ ?_
    · exact h.consumeSlot _
    · split
      · exact ((((h.setF ..).mapPages _).setF ..).settlePage _).lookIngot
      · exact h.setF ..

theorem hand (h : Canon s) (mask : Nat) : Canon (s.hand mask) := h.foldl _ (fun _ _ h1 => h1.ifThen (·.handSlot _)) _
theorem ingCntClr (h : Canon s) : Canon s.ingCntClr := h.foldl _ (fun _ _ h1 => (h1.setF ..).setF ..) _

/-! ### Stack commands and reduce-on-write -/

theorem stackRead (h : Canon s) (r : Requester) (a : Nat) (e0 e1 : Ecc) : Canon (s.stackRead r a e0 e1) := by
  unfold State.stackRead
  extract_lets a
  split
  · exact (h.accessRecord ..).free
  · exact h.branch (fun h1 => h1.free) (fun h1 => ((h1.eccRead ..).eccRead ..).free)

theorem stackWrite (h : Canon s) (w : WriteReq) : Canon (s.stackWrite w) := h.foldl _ (fun _ _ h1 => h1.write _) _

theorem oldestBack (h : Canon s) (ms : Nat) : Canon (s.oldestBack ms) := by
  unfold State.oldestBack
  split
  · exact h.writeBack ..
  · exact h

theorem scrub (h : Canon s) (ms ch rowg gran : Nat) (e : Ecc) : Canon (s.scrub ms ch rowg gran e) :=
  h.ifThen (·.eccRead ..)

theorem refresh (h : Canon s) (ms : Nat) : Canon (s.refresh ms) := h.setStack ..
theorem cruCntClr (h : Canon s) (ms : Nat) : Canon (s.cruCntClr ms) := ((h.setF ..).setF ..).setF ..

theorem rtPublish (h : Canon s) (v : Word) : Canon (s.rtPublish v) := by
  unfold State.rtPublish
  refine ifEither (h.refuseWrite ..) ?_
  extract_lets +onlyGivenNames table bad
  clear_value bad
  split
  · exact ((h.setF ..).setF ..).refuseWrite ..
  · exact ((h.setF ..).setF ..).free

theorem rtPublishDone (h : Canon s) : Canon s.rtPublishDone := by
  unfold State.rtPublishDone
  split
  · exact (h.free.setF ..).foldl _ (fun _ _ h1 => h1.setF ..) _
  · exact h

theorem pinsAbandoned (h : Canon s) (ms : Nat) : Canon (s.pinsAbandoned ms) :=
  h.ifThen (fun h1 => ((((h1.setStack ..).setF ..).stackRecord ..).dropPins _).voidIngot _)

theorem stackThermal (h : Canon s) (ms : Nat) (temp : BitVec 16) : Canon (s.stackThermal ms temp) :=
  (((h.setF ..).setF ..).offer ..).ifElse (fun h1 => ((h1.pulse ..).ifThen
    (fun h2 => (h2.setF ..).stackRecord ..)).ifThen (fun h2 => (h2.stackRecord ..).quenchDie ..))

theorem marginBundle (h : Canon s) (ms b : Nat) (on : Bool) : Canon (s.marginBundle ms b on) :=
  h.ifElse (fun h1 => h1.branch (fun h2 => h2.ifThen (fun h3 => (h3.setF ..).setF ..)) (fun h2 => h2.ifThen
    (fun h3 => (h3.setF ..).ifThen (·.setF ..))))

theorem marginGo (h : Canon s) (ms : Nat) (v : Word) : Canon (s.marginGo ms v) :=
  h.branch (·.stackRecord ..) (fun h1 => h1.branch (·.refuseWrite ..)
    (fun h2 => (((h2.putR ..).setStack ..).setF ..).ifThen (·.marginBundle ..)))

theorem marginDone (h : Canon s) (ms errors : Nat) : Canon (s.marginDone ms errors) := by
  unfold State.marginDone
  split
  · exact (((h.setStack ..).ifThen (·.marginBundle ..)).setF ..).setF ..
  · exact h

theorem setRow (h : Canon s) (ms c : Nat) (x : RowCtx) : Canon (s.setRow ms c x) := h.setStack ..
theorem areaWord (h : Canon s) (ms c off v : Nat) : Canon (s.areaWord ms c off v) := h.ifThen (·.storeAll ..)

theorem rowCreate (h : Canon s) (ms c : Nat) (x : RowSetup) (ctx : RowCtx) : Canon (s.rowCreate ms c x ctx) :=
  h.ifElse (fun h1 => ((((((((((((((h1.setF ..).setF ..).setF ..).setF ..).putR ..).setF ..).setF ..).setF ..).setF
    ..).setF ..).setF ..).setF ..).setF ..).setF ..).setRow ..)

theorem rowComplete (h : Canon s) (ms c : Nat) : Canon (s.rowComplete ms c) :=
  ((((h.setRow ..).areaWord ..).areaWord ..).ifThen (·.areaWord ..)).setF ..

theorem rowApply (h : Canon s) (ms c q k : Nat) (leaf : Bool) (data : List Byte) (faults : List (Nat × F32)) :
    Canon (s.rowApply ms c q k leaf data faults) :=
  ((((((h.enterCounts ..).writePlain ..).setRow ..).areaWord ..).areaWord ..).areaWord ..).ifThen
    (fun h1 => (h1.addF ..).ifThen (·.rowComplete ..))

theorem rowDrain (h : Canon s) (n ms c q : Nat) : Canon (State.rowDrain n s ms c q) := by
  induction n generalizing s with
  | zero => exact h
  | succ n ih =>
    rw [State.rowDrain]
    split
    · exact ih (((h.setRow ..).setF ..).rowApply ..)
    · exact h

theorem rowArrive (h :
    Canon s) (ms c q k : Nat) (leaf : Bool) (data : List Byte) (faults : List (Nat × F32)) : Canon (s.rowArrive ms
    c q k leaf data faults) := by
  unfold State.rowArrive
  extract_lets x
  refine ifEither ?_ ?_
  · exact h
  · refine ifEither ?_ ?_
    · exact (h.rowApply ..).rowDrain ..
    · refine ifEither ?_ ?_
      · exact h
      · split
        · exact h
        · exact ((h.setRow ..).setF ..).ifThen (·.storeAll ..)

theorem rowFree (h : Canon s) (ms c : Nat) : Canon (s.rowFree ms c) := (h.setF ..).setRow ..

/-! ### Seal and retract -/

theorem retractStep (h : Canon s) (e reason die xyz : Nat) : Canon (s.retractStep e reason die xyz) := by
  unfold State.retractStep
  refine h.ifElse fun h1 => ?_
  extract_lets tag s1 s2 s3 s4 s5 s6 s7 s8 s9
  have hs6 : Canon s6 := Canon.free ((((((((h1.foldl _ (fun _ _ h2 => h2.send _) _).setF ..).setF ..).setF ..).setF
    ..).setF ..).setF ..).setF ..)
  have hs8 : Canon s8 := (hs6.cancelEpoch _).foldl _ (fun _ _ h2 => h2.stackRetract ..) _
  exact ((hs8.foldl _ (fun _ _ h2 => h2.setEngine ..) _).ingotRetract _).showSeal

theorem retractDone (h : Canon s) : Canon s.retractDone := by
  unfold State.retractDone
  split
  · exact h
  · exact h.ifElse (fun h1 => ((h1.free.foldl _ (fun _ _ h2 => h2.setStack ..) _).setF ..).setF ..)

theorem retractOver (h : Canon s) (e : Nat) : Canon (s.retractOver e) := h.ifThen (fun h1 => h1.free)

theorem failStep (h : Canon s) (e reason : Nat) (suspect : Option (Nat × Nat)) :
    Canon (s.failStep e reason suspect) := by
  unfold State.failStep
  extract_lets v
  refine ifEither ?_ ?_
  · exact h.record _
  · split
    · exact (h.setStep _).retractStep ..
    · exact ((h.setStep _).draw).retractStep ..

theorem residueFail (h :
    Canon s) (ms unit channel : Nat) (work : List Nat) (e : Nat) (task : Option (Nat × Nat × Nat)) : Canon
    (s.residueFail ms unit channel work e task) :=
  (h.stackRecord ..).failStep ..

theorem rowArriveFaulty (h :
    Canon s) (ms c q k : Nat) (leaf : Bool) (data : List Byte) (faults : List (Nat × F32)) : Canon
    (s.rowArriveFaulty ms c q k leaf data faults) :=
  (h.rowArrive ..).foldl _ (fun _ _ h1 => h1.residueFail ..) _

theorem sendAxis (h : Canon s) (v : StepVerdict) (axis x : Nat) : Canon (s.sendAxis v axis x) := by
  unfold State.sendAxis
  refine h.foldl _ (fun _ _ h1 => ?_) _
  split
  · exact h1.send _
  · exact h1

theorem takeVerdict (h : Canon s) (v : StepVerdict) (f : Frame) : Canon (s.takeVerdict v f).1 := by
  unfold State.takeVerdict
  refine iteFst h ?_
  dsimp only
  split
  · exact h.send _
  · exact h

theorem runRound (h : Canon s) (n : Nat) (v : StepVerdict) (l : List Nat) : Canon (State.runRound n s v l) := by
  induction n generalizing s v l with
  | zero => exact h.setStep _
  | succ n ih =>
    cases l with
    | nil => exact h.setStep _
    | cons a rest =>
      rw [State.runRound]
      dsimp only
      refine ifEither (ih ?_ _ _) (Canon.setStep ?_ _) <;>
        exact foldlFst _ (fun p f h1 => by exact Canon.takeVerdict h1 ..) _ _ (h.ifElse (·.sendAxis ..))

theorem beginRound (h : Canon s) (v : StepVerdict) (round : Nat) : Canon (s.beginRound v round) :=
  h.branch (·.setStep _) (·.runRound ..)

theorem carrierEnd (h : Canon s) (v : StepVerdict) : Canon (s.carrierEnd v) := h.branch (·.setStep _) (·.runRound ..)

theorem takeSeal (h : Canon s) (f : Frame) : Canon (s.takeSeal f) :=
  h.ifElse (fun h1 => h1.branch (fun h2 => h2.branch (fun h3 => h3.ifElse (·.runRound ..))
    (fun h3 => h3.ifElse (·.setStep _))) (fun h2 => h2.ifThen (·.beginRound ..)))

theorem sealVerdict (h : Canon s) : Canon s.sealVerdict := by
  unfold State.sealVerdict
  split
  · exact h.ifThen (fun h1 => ((h1.free.setSealTokens ..).pulse ..).showSeal)
  · exact h

theorem commitStep (h : Canon s) : Canon s.commitStep :=
  h.ifThen (fun h1 => ((h1.setSealTokens ..).foldl _ (fun _ _ h2 => h2.freeCommitted ..) _).ingotCommit _)

theorem sealTimeout (h : Canon s) (e : Nat) : Canon (s.sealTimeout e) := h.ifThen (·.failStep ..)

theorem holdResolved (h : Canon s) (v : StepVerdict) : Canon (s.holdResolved v) :=
  h.branch (·.beginRound ..) (·.setStep _)

theorem checkGood (h : Canon s) (e : Nat) : Canon (s.checkGood e) :=
  h.branch (·.refuseWrite ..) (fun h1 => h1.ifElse (·.holdResolved _))

theorem checkHold (h : Canon s) (e why : Nat) : Canon (s.checkHold e why) := by
  unfold State.checkHold
  extract_lets s1
  split
  · exact (h.ifElse (·.setStep _)).latchTrigger ..
  · exact (h.ifElse (·.setStep _)).latchTrigger ..
  · exact h.ifElse (·.setStep _)

theorem checkFail (h : Canon s) (e die xyz : Nat) : Canon (s.checkFail e die xyz) := h.failStep ..

theorem sealRoundStart (h : Canon s) (e : Nat) : Canon (s.sealRoundStart e) :=
  h.branch (·.refuseWrite ..) (fun h1 => h1.ifElse (fun h2 => h2.branch (·.beginRound ..) (·.holdResolved _)))

theorem dualHoldRelease (h : Canon s) (e : Nat) : Canon (s.dualHoldRelease e) := h.ifThen (·.holdResolved _)

/-! ### Collectives and transfers -/

theorem markDone (h : Canon s) (d c phase off : Nat) : Canon (s.markDone d c phase off) := h.setChan ..

theorem failTask (h : Canon s) (t : TaskId) (code : Nat) : Canon (s.failTask t code) := by
  unfold State.failTask
  split
  · exact h
  · exact (((h.ifElse (fun h1 => ((((h1.setF ..).setF ..).setF ..).setF ..).setF ..)).dieRecord ..).cancelTask
      _).failStep ..

theorem copyOwn (h : Canon s) (x : Task) (t : TaskId) (d src dst n : Nat) : Canon (s.copyOwn x t d src dst n) :=
  h.ifThen (·.writePlain ..)

theorem sendCount (h : Canon s) (x : Task) (d j : Nat) : Canon (s.sendCount x d j) := h.send _

theorem sendColl (h :
    Canon s) (x : Task) (d : Nat) (y : TxStream) (last resent : Bool) (digest : Nat) (payload : List Byte) : Canon
    (s.sendColl x d y last resent digest payload) :=
  ((h.ifThen (·.setStep _)).setF ..).send _

theorem sendCredit (h : Canon s) (d c epoch stage dst dstDie : Nat) (resend : Option Nat) (n : Nat) :
    Canon (s.sendCredit d c epoch stage dst dstDie resend n) :=
  h.send _

theorem retireRow (h : Canon s) (x : Task) (d ms c : Nat) : Canon (s.retireRow x d ms c) :=
  h.branch (fun h1 => ((h1.stackRecord ..).rowFree ..).failStep ..) (fun h1 => h1.ifThen (·.rowFree ..))

theorem noteForward (h : Canon s) (x : Task) (ch : Chunk) (dig : Nat) : Canon (s.noteForward x ch dig) := by
  unfold State.noteForward
  extract_lets a ms
  split
  · exact h
  · split
    · exact h
    · exact (h.setRow ..).retireRow ..

theorem pumpTx (h : Canon s) (n : Nat) (x : Task) (g : Geo) (d : Nat) (y : TxStream) :
    Canon (State.pumpTx n s x g d y).1 := by
  induction n generalizing s y with
  | zero => exact h
  | succ n ih =>
    rw [State.pumpTx]
    refine iteFst h ?_
    split
    · exact iteFst (h.sendColl ..) h
    · refine iteFst h ?_
      exact ih ((h.sendColl ..).ifThen (·.noteForward ..)) _

theorem pumpAll (h : Canon s) (x : Task) (g : Geo) (d : Nat) : Canon (s.pumpAll x g d) := by
  unfold State.pumpAll
  extract_lets k
  refine h.foldl _ (fun _ _ h1 => ?_) _
  split
  · exact (h1.pumpTx ..).setChan ..
  · exact h1

theorem showWaiting (h : Canon s) (d c : Nat) : Canon (s.showWaiting d c) := by
  unfold State.showWaiting
  extract_lets ch w m s1
  split
  · exact (h.setF ..).ifThen (·.setChan ..)
  · exact (h.setF ..).ifElse (fun h1 => (h1.setChan ..).ifThen (·.offer ..))

theorem giveCredit (h : Canon s) (x : Task) (d : Nat) : Canon (s.giveCredit x d) := by
  unfold State.giveCredit
  extract_lets k
  refine h.foldl _ (fun _ _ h1 => ?_) _
  extract_lets ch
  split
  · exact h1.ifElse (fun h2 => (h2.setChan ..).sendCredit ..)
  · exact h1

theorem afterRow (h : Canon s) (x : Task) (g : Geo) (d ms i : Nat) (c : Chunk) (k : Nat) :
    Canon (s.afterRow x g d ms i c k) :=
  h.ifElse (fun h1 => (h1.markDone ..).ifElse (fun h2 => (h2.setChan ..).ifThen (·.rowFree ..)))

theorem rowFor (h : Canon s) {x : Task} {n : TaskId} {d : Nat} {c : Chunk} {k m tensor : Nat} {r : Nat × State}
    (he : s.rowFor x n d c k m tensor = some r) : Canon r.2 := by
  unfold State.rowFor at he
  extract_lets ms at he
  split at he
  · cases he; exact h
  · split at he
    · cases he
    · extract_lets w at he
      split at he
      · cases he; exact h.draw.rowCreate ..
      · cases he

theorem applyOwn (h : Canon s) (x : Task) (t : TaskId) (g : Geo) (d : Nat) (c : Chunk) (k : Nat) :
    Canon (s.applyOwn x t g d c k) := by
  unfold State.applyOwn
  split
  next => exact h
  next he => exact ((h.rowFor he).rowArrive ..).afterRow ..

theorem applyPartial (h :
    Canon s) (x : Task) (t : TaskId) (g : Geo) (d : Nat) (c : Chunk) (k : Nat) (bs : List Byte) :
    Canon (s.applyPartial x t g d c k bs) := by
  unfold State.applyPartial
  split
  next => exact h
  next he => exact ((h.rowFor he).rowArrive ..).afterRow ..

theorem reduceWork (h : Canon s) (x : Task) (t : TaskId) (g : Geo) (d : Nat) : Canon (s.reduceWork x t g d) :=
  (h.foldl _ (fun _ _ h1 => h1.applyOwn ..) _).foldl _ (fun _ _ h1 => h1.applyOwn ..) _

theorem packageStage (h : Canon s) (x : Task) (g : Geo) : Canon (s.packageStage x g) := by
  unfold State.packageStage
  refine ifEither h ?_
  extract_lets grp n
  refine h.foldl _ (fun u p h1 => ?_) _
  dsimp only
  split
  next => exact h1
  next =>
    split
    next => exact h1
    next he => exact ((h1.rowFor he).foldl _ (fun _ _ h2 => h2.rowArrive ..) _).afterRow ..

theorem foldPair (h : Canon s) (x : Task) (g : Geo) : Canon (s.foldPair x g) := h.ifThen (·.setChan ..)

theorem advanceOnce (h : Canon s) (x : Task) (g : Geo) : Canon (s.advanceOnce x g) :=
  (h.packageStage ..).foldl _ (fun _ _ h1 => (((((h1.reduceWork ..).foldPair ..).ifThen (·.setChan ..)).pumpAll
    ..).giveCredit ..).showWaiting ..) _

theorem advance (h : Canon s) (x : Task) : Canon (s.advance x) := h.foldl _ (fun _ _ h1 => h1.advanceOnce ..) _

theorem takeChannel (h : Canon s) (t : TaskId) (c : Nat) : Canon (s.takeChannel t c) :=
  ((((h.setChan ..).setF ..).setF ..).setF ..).setF ..

theorem takeCarrier (h : Canon s) (t : TaskId) (x : Task) : Canon (s.takeCarrier t x) := h.ifThen (·.setStep _)

theorem placeOwn (h : Canon s) (x : Task) (t : TaskId) (g : Geo) (d : Nat) : Canon (s.placeOwn x t g d) :=
  h.ifElse (fun h1 => h1.foldl _ (fun _ _ h2 => (h2.ifElse (·.writePlain ..)).markDone ..) _)

theorem discardFrame (h : Canon s) (d c : Nat) : Canon (s.discardFrame d c) := h.addF ..

theorem chanDone (h : Canon s) (t : TaskId) (c : Nat) : Canon (s.chanDone t c) := by
  unfold State.chanDone
  extract_lets ch
  refine ifEither ?_ ?_
  · exact h.setChan ..
  · split
    · exact h.ifThen (·.setTask ..)
    · exact h

theorem latchAssay (h : Canon s) (d c src srcDie : Nat) : Canon (s.latchAssay d c src srcDie) :=
  h.ifElse (fun h1 => ((((h1.setF ..).setF ..).setF ..).setF ..).setF ..)

theorem checkChunk (h : Canon s) (d c epoch : Nat) (f : Frame) (stage i : Nat) (bad : Bool) (dig : Nat) :
    Canon (s.checkChunk d c epoch f stage i bad dig).1 := by
  have hs := h.addF AS_CHECKS_COUNT d 0 1
  have hl := (hs.addF AS_MISMATCH_COUNT d 0 1).latchAssay d c f.src f.srcDie
  unfold State.checkChunk
  refine iteFst (iteFst ?_ hs) (iteFst ?_ ?_) <;> dsimp only
  · exact (((hs.dieRecord ..).assayResolved).ifThen (·.setF ..)).setChan ..
  · exact ((hl.dieRecord ..).failStep ..).fireTrigger ..
  · exact hl.sendCredit ..

theorem setRxStream (h : Canon s) (d c i : Nat) (y : RxStream) : Canon (s.setRxStream d c i y) := h.setChan ..

theorem enterChunk (h : Canon s) (x : Task) (t : TaskId) (g : Geo) (d : Nat) (c : Chunk) (f : Frame) :
    Canon (s.enterChunk x t g d c f) :=
  h.branch (fun h1 => (h1.ifThen (·.applyOwn ..)).applyPartial ..) (fun h1 => h1.branch
    (fun h2 => (h2.setChan ..).markDone ..) (fun h2 => ((h2.writePlain ..).setChan ..).markDone ..))

theorem takeChunk (h : Canon s) (x : Task) (t : TaskId) (d i : Nat) (y : RxStream) (f : Frame) :
    Canon (s.takeChunk x t d i y f) := by
  unfold State.takeChunk
  extract_lets c g last
  split
  · exact h.branch (·.setRxStream ..) (·.discardFrame ..)
  · exact ifEither h (ifEither ((h.setRxStream ..).setChan ..) (ifEither (h.checkChunk ..) (ifEither
      (((h.checkChunk ..).setRxStream ..).enterChunk ..) ((h.checkChunk ..).setRxStream ..))))

theorem takeCount (h : Canon s) (x : Task) (t : TaskId) (d : Nat) (f : Frame) : Canon (s.takeCount x t d f) := by
  unfold State.takeCount
  split
  · exact h.discardFrame ..
  · extract_lets ch g s1 all
    refine ifEither ?_ ?_
    · exact (h.setChan ..).failTask ..
    · split
      · exact (h.setChan ..).copyOwn ..
      · exact h.setChan ..

theorem collBegin (h : Canon s) (t : TaskId) (op : Nat → Bool) : Canon (s.collBegin t op) := by
  unfold State.collBegin
  split
  · exact h
  · refine ifEither ?_ ?_
    · exact h
    · extract_lets g
      split
      · exact h.failTask ..
      · exact ((((((h.takeCarrier ..).setChan ..).placeOwn ..).ifThen (·.copyOwn ..)).ifThen
          (fun h1 => h1.foldl _ (fun _ _ h2 => h2.sendCount ..) _)).ifThen
          (fun h1 => ((h1.setChan ..).ifThen (·.copyOwn ..)).foldl _
          (fun _ _ h2 => h2.ifThen (·.takeCount ..)) _)).ifThen (·.advance _)

theorem takeColl (h : Canon s) (d : Nat) (f : Frame) : Canon (s.takeColl d f) := by
  unfold State.takeColl
  extract_lets +onlyGivenNames c stage ch keep
  have hkeep : Canon keep := h.setChan ..
  split
  · exact ifEither hkeep (h.discardFrame ..)
  · refine ifEither hkeep (ifEither (h.discardFrame ..) ?_)
    refine Canon.ifThen (Canon.branch (s := ite _ _ _) (h.ifThen (·.setChan ..)) (·.takeCount ..) fun h1 => ?_)
      (·.advance _)
    dsimp only
    split
    · split
      · exact h1.takeChunk ..
      · exact h1
    · exact h1.discardFrame ..

theorem beginSend (h : Canon s) (t : TaskId) (x : Task) : Canon (s.beginSend t x) := (h.setChan ..).showWaiting ..

theorem beginRecv (h : Canon s) (t : TaskId) (x : Task) : Canon (s.beginRecv t x) := by
  unfold State.beginRecv
  exact (h.setChan ..).sendCredit ..

theorem sendStream (h : Canon s) (t : TaskId) : Canon (s.sendStream t) := by
  unfold State.sendStream
  split
  · exact h.beginSend ..
  · exact h

theorem recvStream (h : Canon s) (t : TaskId) : Canon (s.recvStream t) := by
  unfold State.recvStream
  split
  · exact h.beginRecv ..
  · exact h

theorem sendData (h : Canon s) (x : Task) (d tag : Nat) (bs : List Byte) : Canon (s.sendData x d tag bs) := h.send _

theorem pumpSend (h : Canon s) (n : Nat) (x : Task) (d : Nat) (y : TxStream) :
    Canon (State.pumpSend n s x d y).1 := by
  induction n generalizing s y with
  | zero => exact h
  | succ n ih =>
    rw [State.pumpSend]
    refine iteFst h (iteFst (ih (h.sendData ..) _) ?_)
    split
    · exact iteFst (h.sendData ..) h
    · exact iteFst h (ih (h.sendData ..) _)

theorem pumpSendTask (h : Canon s) (t : TaskId) (x : Task) : Canon (s.pumpSendTask t x) := by
  unfold State.pumpSendTask
  extract_lets d
  split
  · exact (((h.pumpSend ..).setChan ..).showWaiting ..).ifThen (·.chanDone ..)
  · exact h

theorem endRecv (h : Canon s) (t : TaskId) (x : Task) : Canon (s.endRecv t x) := by
  unfold State.endRecv
  extract_lets ch
  split
  · refine ifEither ?_ ?_
    · exact h
    · extract_lets s1
      have hs1 : Canon s1 := by
        unfold s1
        split
        · exact h.ifElse (fun h1 => (h1.dieRecord ..).failStep ..)
        · exact h
      exact hs1.chanDone ..
  · exact h

theorem takeSendData (h : Canon s) (d : Nat) (f : Frame) : Canon (s.takeSendData d f) := by
  unfold State.takeSendData
  extract_lets c
  split
  · exact h.discardFrame ..
  · extract_lets t x
    split
    · extract_lets ch
      refine ifEither ?_ ?_
      · exact h.discardFrame ..
      · refine ifEither ?_ ?_
        · exact (h.setChan ..).ifElse (fun h1 => (h1.sendCredit ..).failTask ..)
        · split
          · exact h.branch (fun h1 => (h1.setChan ..).endRecv ..) (·.discardFrame ..)
          · exact ifEither h (ifEither (h.checkChunk ..) (ifEither (((((h.checkChunk ..).writePlain ..).setChan
              ..).sendCredit ..).endRecv ..) ((h.checkChunk ..).setChan ..)))
    · exact h.discardFrame ..

theorem takeCredit (h : Canon s) (d : Nat) (f : Frame) : Canon (s.takeCredit d f) := by
  unfold State.takeCredit
  extract_lets c
  split
  · exact h.discardFrame ..
  · extract_lets t x
    split
    · exact h.discardFrame ..
    · exact h.branch (·.failTask ..) (fun h1 => (h1.setChan ..).branch (·.pumpSendTask ..) (·.advance _))

theorem checkTotals (h : Canon s) (x : Task) : Canon (s.checkTotals x) := by
  unfold State.checkTotals
  extract_lets g
  refine h.foldl _ (fun _ _ h1 => ?_) _
  split
  · exact h1
  · exact ifEither h1 (((h1.draw).dieRecord ..).failStep ..)

theorem collComplete (h : Canon s) (t : TaskId) : Canon (s.collComplete t) := by
  unfold State.collComplete
  split
  · exact h
  · exact h.ifElse (fun h1 => (((h1.ifElse (·.writePlain ..)).foldl _
      (fun _ _ h2 => h2.setTask ..) _).ifThen (·.carrierEnd _)).checkTotals _)

theorem stall (h : Canon s) (t : TaskId) : Canon (s.stall t) := by
  unfold State.stall
  split
  · split
    · exact h.ifThen (·.failTask ..)
    · exact h
  · exact h

theorem beginRemoteSend (h : Canon s) (t : TaskId) (x : Task) : Canon (s.beginRemoteSend t x) :=
  (h.setChan ..).foldl _ (fun _ _ h1 => h1.send _) _

theorem beginRemoteRecv (h : Canon s) (t : TaskId) (x : Task) : Canon (s.beginRemoteRecv t x) :=
  (h.setChan ..).foldl _ (fun _ _ h1 => h1.send _) _

theorem sendRemote (h : Canon s) (t : TaskId) : Canon (s.sendRemote t) := by
  unfold State.sendRemote
  split
  · exact h.beginRemoteSend ..
  · exact h

theorem recvRemote (h : Canon s) (t : TaskId) : Canon (s.recvRemote t) := by
  unfold State.recvRemote
  split
  · exact h.beginRemoteRecv ..
  · exact h

theorem answerRemote (h : Canon s) (d : Nat) (f : Frame) (bs : List Byte) : Canon (s.answerRemote d f bs) := h.send _
theorem takeRwrite (h : Canon s) (d : Nat) (f : Frame) : Canon (s.takeRwrite d f) := (h.writePlain ..).answerRemote ..
theorem takeRread (h : Canon s) (d : Nat) (f : Frame) : Canon (s.takeRread d f) := h.answerRemote ..

theorem takeRresp (h : Canon s) (d : Nat) (f : Frame) : Canon (s.takeRresp d f) := by
  unfold State.takeRresp
  extract_lets c
  split
  · exact h.discardFrame ..
  · extract_lets t x
    split
    · exact h.discardFrame ..
    · exact ((h.setChan ..).ifThen (·.writePlain ..)).ifThen (·.chanDone ..)

theorem colCntClr (h : Canon s) (d : Nat) : Canon (s.colCntClr d) :=
  ((h.setF ..).setF ..).foldl _ (fun _ _ h1 => h1.setF ..) _

/-! ### Task digests and twins -/

theorem addDigest (h : Canon s) (t : TaskId) (o off : Nat) (bs : List Byte) : Canon (s.addDigest t o off bs) := by
  unfold State.addDigest
  split
  · exact h.ifThen (·.setTask ..)
  · exact h

theorem writeLog (h : Canon s) (t : TaskId) (x : Task) (core : Nat) : Canon (s.writeLog t x core) :=
  (h.writePlain ..).setEngine ..

theorem digestMismatch (h : Canon s) (d : Nat) (x : TwinEntry) (dig core : Nat) :
    Canon (s.digestMismatch d x dig core) := by
  unfold State.digestMismatch
  extract_lets +onlyGivenNames p u u1 s1 s2 details task s3
  have hs2 : Canon s2 := Canon.addF (h.ifElse fun h1 =>
    (((((((h1.setF ..).setF ..).setF ..).setF ..).setF ..).setF ..).setF ..).setF ..) ..
  have hs3 : Canon s3 := by
    unfold s3
    split
    · exact hs2.coreRecord ..
    · exact hs2.dieRecord ..
  exact hs3.failStep ..

theorem compareTwin (h : Canon s) (d : Nat) (x : TwinEntry) : Canon (s.compareTwin d x) := by
  unfold State.compareTwin
  split
  · exact h.branch (fun h1 => (h1.addF ..).setEngine ..) (·.digestMismatch ..)
  · exact h.setEngine ..

theorem digestDone (h : Canon s) (t : TaskId) (x : Task) (core : Nat) : Canon (s.digestDone t x core) :=
  h.ifElse (fun h1 => h1.branch (·.compareTwin ..) (·.writeLog ..))

theorem primaryAnnounce (h : Canon s) (d g idx e : Nat) : Canon (s.primaryAnnounce d g idx e) :=
  h.foldl _ (fun _ _ h1 => (h1.setEngine ..).foldl _ (fun _ _ h2 => h2.compareTwin ..) _) _

/-! ### The graph engine -/

theorem dropDoorbell (h : Canon s) (r : Requester) (d g : Nat) : Canon (s.dropDoorbell r d g) := h.dieRecord ..

theorem submit (h : Canon s) (r : Requester) (d g start count : Nat) : Canon (s.submit r d g start count) :=
  h.branch (·.dropDoorbell ..) (fun h1 => (h1.setGraph ..).branch (fun h2 => (h2.setEngine ..).setF ..)
    (fun h2 => (h2.setEngine ..).setF ..))

theorem retire (h : Canon s) (r : Requester) (d g : Nat) : Canon (s.retire r d g) :=
  h.branch (·.dropDoorbell ..) (fun h1 => (h1.setGraph ..).putR ..)

theorem doorbell (h : Canon s) (r : Requester) (d : Nat) (v : Word) : Canon (s.doorbell r d v) := by
  unfold State.doorbell
  split
  · exact h.submit ..
  · exact h.retire ..
  · exact h.dropDoorbell ..

theorem validationStart (h : Canon s) (d : Nat) : Canon (s.validationStart d) := by
  unfold State.validationStart
  extract_lets e
  split
  · exact (h.setEngine ..).setF ..
  · exact h

theorem checkReady (h : Canon s) (d g : Nat) (l : List Nat) : Canon (s.checkReady d g l) :=
  h.foldl _ (fun _ _ h1 => h1.reportUnplaced ..) _

theorem validationEnd (h : Canon s) (d : Nat) : Canon (s.validationEnd d) := by
  unfold State.validationEnd
  extract_lets e
  split
  · exact h
  · rename_i g _
    dsimp only
    split
    · exact ((((h.setEngine ..).setF ..).setF ..).setF ..).dieRecord ..
    · exact ((((h.setEngine ..).setGraph ..).setF ..).setF ..).checkReady ..

theorem queueTask (h : Canon s) (t : TaskId) (x : Task) (p : Nat) : Canon (s.queueTask t x p) :=
  (h.setTask ..).setCoreAt ..

theorem queueChain (h : Canon s) (n d p : Nat) : Canon (State.queueChain n d p s) := by
  induction n generalizing s with
  | zero => exact h
  | succ n ih =>
    rw [State.queueChain]
    refine ifEither h ?_
    split
    · exact ih (h.queueTask ..)
    · exact h

theorem bindAll (h : Canon s) (d p : Nat) (l : List Bound) : Canon (s.bindAll d p l) := h.free.setCoreAt ..

theorem bindTile (h : Canon s) (t : TaskId) (x : Task) (p : Nat) : Canon (s.bindTile t x p) := by
  unfold State.bindTile
  split
  · exact h.ifElse (·.bindAll ..)
  · exact h

theorem startTask (h : Canon s) (t : TaskId) : Canon (s.startTask t) := by
  unfold State.startTask
  split
  · exact h.setTask ..
  · exact h

theorem askLeave (h : Canon s) (t : TaskId) (x : Task) : Canon (s.askLeave t x) :=
  h.branch (·.startTask _) (·.setEngine ..)

theorem dispatchTask (h : Canon s) (t : TaskId) (x : Task) : Canon (s.dispatchTask t x) :=
  (((((h.setTask ..).setEngine ..).retractOver _).openStep _).foldl _ (fun _ _ h1 => h1.takeChannel ..) _).askLeave ..

theorem openChain (h : Canon s) (t : TaskId) (x : Task) (p : Nat) : Canon (s.openChain t x p) :=
  h.ifThen (fun h1 => ((h1.setCoreAt ..).bindAll ..).foldl _ (fun _ _ h2 => (h2.putR ..).putR ..) _)

theorem tieResumes (h : Canon s) (t : TaskId) (x : Task) (p : Nat) : Canon (s.tieResumes t x p) :=
  h.ifThen (fun h1 => h1.foldl _ (fun _ _ h2 => h2.setTask ..) _)

theorem joinPort (h : Canon s) (t : TaskId) (x : Task) (p : Nat) : Canon (s.joinPort t x p) :=
  h.ifThen (·.setCoreAt ..)

theorem dispatchCore (h : Canon s) (d c p : Nat) (t : TaskId × Task) : Canon (s.dispatchCore d c p t) := by
  unfold State.dispatchCore
  extract_lets s1
  split
  · exact h.ifElse (·.queueTask ..)
  · exact (((((((h.ifElse (·.queueTask ..)).bindTile ..).tieResumes ..).setSched ..).joinPort ..).openChain
      ..).dispatchTask ..).queueChain ..

theorem dispatchTo (h : Canon s) (d c : Nat) : Canon (s.dispatchTo d c) := by
  unfold State.dispatchTo
  refine ifEither ?_ ?_
  · exact h
  · split
    · exact h.branch (fun h1 => (h1.setF ..).checkHalted _) (·.dispatchCore ..)
    · exact h

theorem dispatchEngine (h : Canon s) (t : TaskId) : Canon (s.dispatchEngine t) := by
  unfold State.dispatchEngine
  refine ifEither ?_ ?_
  · exact h
  · refine ifEither ?_ ?_
    · exact (h.setF ..).checkHalted _
    · split
      · exact h.dispatchTask ..
      · exact h

theorem decrement (h : Canon s) (t : TaskId) (i : Nat) : Canon (State.decrement t s i) := by
  unfold State.decrement
  split
  · exact h.setTask ..
  · exact h

theorem endLeave (h : Canon s) (t : TaskId) (x : Task) : Canon (s.endLeave t x) := by
  unfold State.endLeave
  split
  · exact h.ifThen (·.releaseKept ..)
  · exact h.ifElse (·.releaseTokens ..)

theorem leaveCore (h : Canon s) (t : TaskId) (x : Task) : Canon (s.leaveCore t x) := by
  unfold State.leaveCore
  split
  · exact h
  · exact (h.setCoreAt ..).branch (·.releaseRings ..) (fun h1 => h1.ifThen (·.releaseTile ..))

theorem leaveChannels (h : Canon s) (t : TaskId) (x : Task) : Canon (s.leaveChannels t x) := by
  unfold State.leaveChannels
  split
  · exact h
  · exact (h.dropContexts _).foldl _ (fun _ _ h1 => h1.ifThen (·.freeChannel ..)) _

theorem stopWithSuccessors (h : Canon s) (t : TaskId) (x : Task) : Canon (s.stopWithSuccessors t x) :=
  (((h.stopTask ..).cancelFrom ..).endGraphs _).checkHalted _

theorem stepOver (h : Canon s) (d : Nat) : Canon (s.stepOver d) := (h.setEngine ..).checkHalted _

theorem taskComplete (h : Canon s) (t : TaskId) : Canon (s.taskComplete t) := by
  unfold State.taskComplete
  split
  · exact h
  · refine ifEither ?_ ?_
    · exact h
    · refine ifEither ?_ ?_
      · exact (h.stopWithSuccessors ..).stepOver _
      · extract_lets core s1 s2 s3 s4 s5 s6 s7
        have hs7 : Canon s7 := by
          unfold s7
          split
          · exact ((((((((h.digestDone ..).setTask ..).leaveCore ..).leaveChannels ..).endLeave ..).offer ..).foldl
              _ (fun _ _ h1 => h1.decrement ..) _).checkReady ..).queueChain ..
          · exact (((((((h.digestDone ..).setTask ..).leaveCore ..).leaveChannels ..).endLeave ..).offer ..).foldl
              _ (fun _ _ h1 => h1.decrement ..) _).checkReady ..
        exact (hs7.endGraphs _).stepOver _

theorem serveWait (h : Canon s) (t : TaskId × Task) : Canon (s.serveWait t) :=
  h.ifElse (fun h1 => (h1.setTask ..).ifThen (·.setF ..))

theorem serveWaits (h : Canon s) (d token : Nat) : Canon (s.serveWaits d token) :=
  h.foldl _ (fun _ _ h1 => h1.serveWait _) _

theorem tokenIncrement (h : Canon s) (d token inc : Nat) : Canon (s.tokenIncrement d token inc) :=
  h.ifElse (fun h1 => (h1.setF ..).serveWaits ..)

theorem finish (h : Canon s) (t : TaskId) : Canon (s.finish t) := by
  unfold State.finish
  split
  · exact h.setTask ..
  · exact h

theorem signal (h : Canon s) (t : TaskId) : Canon (s.signal t) := by
  unfold State.signal
  split
  · exact h
  · exact (h.finish _).branch (·.tokenIncrement ..) (fun h1 => h1.branch (·.send _) (·.dieRecord ..))

theorem wait (h : Canon s) (t : TaskId) : Canon (s.wait t) := by
  unfold State.wait
  split
  · exact h.serveWaits ..
  · exact h

theorem fence (h : Canon s) (t : TaskId) : Canon (s.fence t) := by
  unfold State.fence
  split
  · exact (h.foldl _ (fun _ _ h1 => h1.flushStack _) _).finish _
  · exact h

theorem quantumOverrun (h : Canon s) (t : TaskId) : Canon (s.quantumOverrun t) := by
  unfold State.quantumOverrun
  split
  · exact h.ifThen (fun h1 => (h1.setTask ..).dieRecord ..)
  · exact h

theorem yieldTask (h : Canon s) (t : TaskId) (x : Task) : Canon (s.yieldTask t x) := by
  unfold State.yieldTask
  extract_lets s1
  split
  · exact ((((((h.dropLeave ..).dropFetch ..).setCoreAt ..).releaseRings ..).foldl _
      (fun _ _ h1 => h1.ifThen (·.freeChannel ..)) _).setTask ..).checkHalted _
  · exact h.dropLeave ..

theorem yieldPoint (h : Canon s) (t : TaskId) : Canon (s.yieldPoint t) := by
  unfold State.yieldPoint
  split
  · exact h
  · refine ifEither h ?_
    extract_lets stop
    have hstop (u : State) (hu : Canon u) : Canon (stop u) := hu.branch (·.stopWithSuccessors ..) (·.yieldTask ..)
    split
    · exact ifEither h (ifEither (hstop _ h) (h.setCoreAt ..))
    · exact hstop _ h

theorem holdForTest (h : Canon s) (d c : Nat) (x : Sched) : Canon (s.holdForTest d c x) := by
  unfold State.holdForTest
  extract_lets s1
  split
  · exact (h.setSched ..).releaseKept ..
  · exact h.setSched ..

theorem testDue (h : Canon s) (d c : Nat) (k : TestKind) : Canon (s.testDue d c k) :=
  h.ifElse (fun h1 => h1.branch (·.holdForTest ..) (·.setSched ..))

theorem kaGapExpiry (h : Canon s) (d c : Nat) : Canon (s.kaGapExpiry d c) := h.ifThen (·.holdForTest ..)
theorem graceExpiry (h : Canon s) (d c : Nat) : Canon (s.graceExpiry d c) := h.ifThen (·.setSched ..)

theorem beginTest (h : Canon s) (d c p : Nat) (k : TestKind) (byTask : Option TaskId) :
    Canon (s.beginTest d c p k byTask) :=
  (h.setSched ..).ifThen (·.setF ..)

theorem testStart (h : Canon s) (d c : Nat) : Canon (s.testStart d c) := by
  unfold State.testStart
  extract_lets x
  split
  · exact h.ifThen (·.beginTest ..)
  · exact h

theorem nextStructural (h : Canon s) (d : Nat) : Canon (s.nextStructural d) := by
  unfold State.nextStructural
  refine ifEither ?_ ?_
  · exact h
  · split
    · exact h.holdForTest ..
    · exact h

theorem nextDue (h : Canon s) (d c : Nat) (k : TestKind) : Canon (s.nextDue d c k) := by
  unfold State.nextDue
  split
  · exact h.setSched ..
  · exact h.putR ..

theorem testPassed (h : Canon s) (d c : Nat) (k : TestKind) : Canon (s.testPassed d c k) := by
  unfold State.testPassed
  extract_lets x s1 s2 x1 due s3
  have hs1 : Canon s1 := by
    unfold s1
    split
    · exact h.setF ..
    · exact h.setF ..
  exact ((hs1.nextDue ..).setSched ..).nextStructural _

theorem failOpenSteps (h : Canon s) (d : Nat) : Canon (s.failOpenSteps d) :=
  h.foldl _ (fun _ _ h1 => h1.failStep ..) _

theorem testFailed (h : Canon s) (d c p : Nat) (k : TestKind) (o : TestOutcome) : Canon (s.testFailed d c p k o) := by
  unfold State.testFailed
  extract_lets +onlyGivenNames last x s1 y s2 task epoch named s3
  have hs2 : Canon s2 := (h.ifThen (·.nextDue ..)).setSched ..
  have hs3 : Canon s3 := by
    unfold s3
    split
    · exact hs2.coreRecord ..
    · exact hs2.coreRecord ..
  exact Canon.nextStructural (Canon.failOpenSteps (Canon.latchTrigger hs3 ..) _) _

theorem kaResult (h : Canon s) (d p : Nat) (o : TestOutcome) : Canon (s.kaResult d p o) :=
  (((h.setF ..).putR ..).putR ..).ifThen (·.setF ..)

theorem tilesTested (h : Canon s) (d p : Nat) (k : TestKind) : Canon (s.tilesTested d p k) := h.setCoreAt ..

theorem testEnd (h : Canon s) (d p : Nat) (o : TestOutcome) : Canon (s.testEnd d p o) := by
  unfold State.testEnd
  split
  · exact h.ifThen (fun h1 => (h1.kaResult ..).tilesTested ..)
  · extract_lets x
    split
    · extract_lets s1 s2
      have hs2 : Canon s2 := by
        unfold s2
        split
        · exact ((h.ifThen (·.kaResult ..)).tilesTested ..).finish _
        · exact (h.ifThen (·.kaResult ..)).tilesTested ..
      exact hs2.branch (·.testFailed ..) (·.testPassed ..)
    · exact h.ifThen (fun h1 => ((h1.kaResult ..).tilesTested ..).branch (·.testFailed ..) (·.setF ..))

theorem coreHold (h : Canon s) (d mask : Nat) : Canon (s.coreHold d mask) := by
  unfold State.coreHold
  extract_lets s1
  refine (h.setF ..).foldl _ (fun _ _ h1 => ?_) _
  split
  · exact h1.releaseKept ..
  · exact h1

theorem coreRelease (h : Canon s) (d mask : Nat) : Canon (s.coreRelease d mask) :=
  (h.setF ..).foldl _ (fun _ _ h1 => h1.setSched ..) _

theorem testTask (h : Canon s) (t : TaskId) (k : TestKind) : Canon (s.testTask t k) := by
  unfold State.testTask
  split
  · exact h
  · refine ifEither ?_ ?_
    · exact h
    · split
      · exact h
      · split
        · exact h.branch (fun h1 => h1.ifThen (fun h2 => (h2.setTask ..).coreRecord ..))
            (fun h1 => h1.ifThen (·.beginTest ..))
        · exact h

/-! ### Links and discovery -/

theorem sendHallmark (h : Canon s) (p : Nat) : Canon (s.sendHallmark p) := (h.setPort ..).sendNeighbour ..

theorem tellHallmarks (h : Canon s) : Canon s.tellHallmarks :=
  h.foldl _ (fun _ _ h1 => h1.ifThen (·.sendHallmark _)) _

theorem setPhase (h : Canon s) (n : Nat) : Canon (s.setPhase n) := (h.setF ..).setF ..
theorem gatherFault (h : Canon s) : Canon s.gatherFault := h.free.setF ..

theorem lookDisc (h : Canon s) : Canon s.lookDisc :=
  h.branch (·.tellHallmarks) (fun h1 => (h1.gatherFault).branch (fun h2 => (h2.free.setPhase _).tellHallmarks)
    (fun h2 => h2.branch (·.tellHallmarks) (fun h3 => h3.branch (fun h4 => (h4.free.setPhase _).tellHallmarks)
    (fun h4 => h4.branch (·.tellHallmarks) (fun h5 => h5.branch
    (fun h6 => (h6.free.setPhase _).tellHallmarks) (·.tellHallmarks))))))

theorem beginGeneration (h : Canon s) (g : Nat) : Canon (s.beginGeneration g) :=
  ((((h.setF ..).setF ..).free).setPhase _).lookDisc

theorem newGeneration (h : Canon s) : Canon s.newGeneration := h.ifThen (·.beginGeneration _)

theorem takeGeneration (h : Canon s) (g : Nat) : Canon (s.takeGeneration g) :=
  h.branch (·.beginGeneration _) (·.lookDisc)

theorem checkLink (h : Canon s) (p : Nat) : Canon (s.checkLink p) := by
  unfold State.checkLink
  split
  · exact h
  · split
    · exact (h.setF ..).setF ..
    · exact ((((h.setF ..).setF ..).setF ..).portRecord ..).free

theorem checkLinks (h : Canon s) : Canon s.checkLinks := (h.foldl _ (fun _ _ h1 => h1.checkLink _) _).gatherFault

theorem dropLanes (h : Canon s) (p : Nat) : Canon (s.dropLanes p) := by
  unfold State.dropLanes
  refine ifEither ?_ ?_
  · exact h
  · extract_lets x gone s1
    refine (h.setPort ..).foldl _ (fun _ _ h1 => ?_) _
    extract_lets s1
    split
    · exact (h1.refuseFrame ..).owe ..
    · exact h1.refuseFrame ..

theorem showNeighbours (h : Canon s) : Canon s.showNeighbours :=
  h.foldl _ (fun _ _ h1 => ((h1.setF ..).setF ..).setF ..) _

theorem publishCoords (h : Canon s) : Canon s.publishCoords :=
  (((((((((((((((((((h.setF ..).setF ..).setF ..).setF ..).setF ..).setF ..).setF ..).setF ..).setF ..).setF
    ..).showNeighbours).setPhase _).pulse ..).ifThen (·.hubRecord ..)).foldl _
    (fun _ _ h1 => h1.dropLanes _) _).free).foldl _ (fun _ _ h1 => h1.send _) _).foldl _
    (fun _ _ h1 => h1.pumpPort _) _).tellHallmarks).freshenOwn

theorem discoverySettle (h : Canon s) : Canon s.discoverySettle := by
  unfold State.discoverySettle
  split
  · exact (h.setPhase _).lookDisc
  · exact h.ifThen (fun h1 => (h1.setPhase _).lookDisc)
  · exact h.ifThen (fun h1 => ((h1.setPhase _).checkLinks).lookDisc)
  · exact h.publishCoords
  · exact h

theorem linkLost (h : Canon s) (p : Nat) : Canon (s.linkLost p) := by
  unfold State.linkLost
  refine ifEither ?_ h
  extract_lets r s1
  have hs1 : Canon s1 := by
    refine (h.downLink p).foldl _ (fun _ _ h1 => ?_) _
    split
    · exact h1.failTask ..
    · exact h1
  exact (hs1.resendPages).newGeneration

theorem linkAlign (h : Canon s) (p : Nat) : Canon (s.linkAlign p) :=
  h.ifThen (fun h1 => (((h1.setPort ..).setF ..).setF ..).sendHallmark _)

theorem badSignature (h : Canon s) (p : Nat) : Canon (s.badSignature p) :=
  ((((h.portRecord ..).ifThen (·.linkLost _)).setF ..).setF ..).setPort ..

theorem badsigRetry (h : Canon s) (p : Nat) : Canon (s.badsigRetry p) := h.ifThen (·.setPort ..)
theorem sendChain (h : Canon s) (p : Nat) : Canon (s.sendChain p) := h.foldl _ (fun _ _ h1 => h1.sendNeighbour ..) _

theorem neighbourUp (h : Canon s) (p : Nat) (k : Hallmark) : Canon (s.neighbourUp p k) :=
  (((h.setF ..).setF ..).setF ..).linkPulse ..

theorem takeContent (h : Canon s) (p : Nat) (k : Hallmark) : Canon (s.takeContent p k) :=
  (((((h.setPort ..).ifThen (·.neighbourUp ..)).setF ..).setF ..).ifThen (·.newGeneration)).takeGeneration _

theorem takeHallmark (h : Canon s) (p : Nat) (f : Frame) (sigOk : Bool) : Canon (s.takeHallmark p f sigOk) :=
  h.branch (·.sendChain _) (fun h1 => h1.branch (·.badSignature _)
    (fun h2 => h2.branch (·.linkLost _) (·.takeContent ..)))

theorem takeCert (h : Canon s) (p : Nat) (f : Frame) (chain : Option (BitVec 64)) : Canon (s.takeCert p f chain) := by
  unfold State.takeCert
  extract_lets x l
  refine ifEither ?_ ?_
  · exact h.setPort ..
  · split
    · exact h.setPort ..
    · exact h.badSignature _

theorem takeAck (h : Canon s) (p a : Nat) : Canon (s.takeAck p a) := by
  unfold State.takeAck
  extract_lets x
  split
  · exact h
  · exact ((h.setPort ..).setF ..).foldl _ (fun _ _ h1 => h1.offer ..) _

theorem takeCred (h : Canon s) (p : Nat) (f : Frame) : Canon (s.takeCred p f) := (h.ifThen (·.setPort ..)).pumpPort _

theorem failHop (h : Canon s) (p : Nat) (f : Frame) : Canon (s.failHop p f) := by
  unfold State.failHop
  extract_lets x s1
  refine ifEither ?_ ?_
  · exact h.addF ..
  · refine ifEither ?_ ?_
    · split
      · exact ((h.addF ..).setPort ..).addF ..
      · exact (h.addF ..).setPort ..
    · exact (h.addF ..).setPort ..

theorem forward (h : Canon s) (p cls : Nat) (f : Frame) : Canon (s.forward p cls f) := by
  unfold State.forward
  split
  · exact (h.refuseFrame ..).owe ..
  · exact h.branch (fun h1 => (h1.refuseFrame ..).owe ..) (·.enqueue ..)

theorem dropSignal (h : Canon s) (p : Nat) (f : Frame) : Canon (s.dropSignal p f) := h.ifThen (·.portRecord ..)

theorem arrive (h : Canon s) (p cls : Nat) (f : Frame) : Canon (s.arrive p cls f).1 := by
  unfold State.arrive
  exact iteFst (h.owe ..) (iteFst ((h.refuseFrame ..).owe ..) (iteFst (h.forward ..) (iteFst (h.owe ..)
    (((h.refuseFrame ..).dropSignal ..).owe ..))))

theorem hop (h : Canon s) (p : Nat) (f : Frame) : Canon (s.hop p f).1 := by
  unfold State.hop
  extract_lets +onlyGivenNames x
  refine iteFst h ?_
  split
  · exact h
  · exact Canon.failHop h ..
  · refine iteFst (iteFst (h.dropFrame _) h) (iteFst h ?_)
    extract_lets +onlyGivenNames s1 s2 cls s3
    have hs3 : Canon s3 := (((h.setPort ..).takeAck ..).takeCred ..).addF ..
    exact iteFst ((hs3.dropFrame _).owe ..) (hs3.arrive ..)

theorem frameIn (h : Canon s) {p : Nat} {f : Frame} {kind : Bool} {k : State → Frame → State}
    (hk : ∀ u g, Canon u → Canon (k u g)) : Canon (s.frameIn p f kind k) := by
  unfold State.frameIn
  refine ifEither h ?_
  extract_lets r
  split
  · exact hk _ _ (h.hop ..)
  · exact h.hop ..

theorem resendFrom (h : Canon s) (p i : Nat) : Canon (s.resendFrom p i) :=
  h.ifElse (fun h1 => h1.branch (·.linkLost _) (fun h2 => (h2.addF ..).setPort ..))

theorem takeNak (h : Canon s) (p : Nat) (f : Frame) : Canon (s.takeNak p f) := by
  unfold State.takeNak
  extract_lets s1
  split
  · exact ((h.takeAck ..).takeCred ..).resendFrom ..
  · exact (h.takeAck ..).takeCred ..

theorem takeCtrl (h : Canon s) (p : Nat) (f : Frame) : Canon (s.takeCtrl p f) := (h.takeAck ..).takeCred ..
theorem takeSignal (h : Canon s) (f : Frame) : Canon (s.takeSignal f) := h.tokenIncrement ..
theorem takeClose (h : Canon s) (f : Frame) : Canon (s.takeClose f) := h.ifThen (fun h1 => h1.free)

/-! ### The light layer -/

theorem setLight (h : Canon s) (l : LightSt) : Canon (s.setLight l) := h.free
theorem setRing (h : Canon s) (n : Nat) (r : RingSt) : Canon (s.setRing n r) := h.setLight _
theorem setCal (h : Canon s) (f : Nat) (c : CalSt) : Canon (s.setCal f c) := h.setLight _
theorem setCart (h : Canon s) (i : Nat) (c : CartSt) : Canon (s.setCart i c) := h.setLight _
theorem setSwitch (h : Canon s) (g : Nat) (x : SwitchSt) : Canon (s.setSwitch g x) := h.setLight _
theorem showUnlocked (h : Canon s) : Canon s.showUnlocked := h.setF ..
theorem setLaneBit (h : Canon s) (f : Field) (i b : Nat) (v : Bool) : Canon (s.setLaneBit f i b v) := h.setF ..
theorem showHold (h : Canon s) (p : Nat) : Canon (s.showHold p) := (h.setF ..).pumpPort _

theorem laneDown (h : Canon s) (p l : Nat) : Canon (s.laneDown p l) :=
  ((h.setF ..).setLaneBit ..).ifThen (fun h1 => (h1.portRecord ..).linkLost _)

theorem abortCal (h : Canon s) (f : Nat) : Canon (s.abortCal f) :=
  h.ifElse (fun h1 => (h1.setCal ..).branch (·.setF ..) (fun h2 => (h2.ifThen (·.setF ..)).ifThen
    (fun h3 => (h3.setF ..).setF ..)))

theorem takeSpare (h : Canon s) (p l use : Nat) : Canon (s.takeSpare p l use) :=
  h.branch (fun h1 => (((((h1.ifThen (·.abortCal _)).ifThen (·.laneDown ..)).setF ..).setF ..).setF ..).setLaneBit
    ..) (fun h1 => h1.ifElse (·.laneDown ..))

theorem releaseSpare (h : Canon s) (p : Nat) : Canon (s.releaseSpare p) :=
  ((h.setF ..).setF ..).ifThen (fun h1 => (h1.setF ..).setLaneBit ..)

theorem failLane (h : Canon s) (p l : Nat) : Canon (s.failLane p l) :=
  h.branch (fun h1 => ((h1.setLaneBit ..).takeSpare ..).pulse ..) (fun h1 => (h1.setF ..).pulse ..)

theorem failRingLane (h : Canon s) (l : Nat) : Canon (s.failRingLane l) :=
  (((h.ifThen (·.abortCal _)).setLight _).setF ..).setLaneBit ..

theorem setHeater (h : Canon s) (n : Nat) : Canon (s.setHeater n) := ifEither ((h.draw).setF ..) h

theorem ringLoopUpdate (h : Canon s) (rd : List RingReading) : Canon (s.ringLoopUpdate rd) :=
  h.foldl _ (fun _ _ h1 => h1.ifThen (fun h2 => (((h2.setRing ..).setF ..).setHeater _).offer ..)) _

theorem ringUnlock (h : Canon s) (n : Nat) : Canon (s.ringUnlock n) :=
  h.ifElse (fun h1 => (((h1.setF ..).setRing ..).showUnlocked).branch (·.showHold _)
    (fun h2 => h2.ifElse (·.setLaneBit ..)))

theorem coverEnd (h : Canon s) (n : Nat) : Canon (s.coverEnd n) :=
  h.ifElse (fun h1 => h1.branch (·.releaseSpare _) (fun h2 => h2.ifThen (fun h3 => (h3.setF ..).setLaneBit ..)))

theorem relockSearchEnd (h : Canon s) (n : Nat) (locked : Bool) : Canon (s.relockSearchEnd n locked) :=
  h.ifElse (fun h1 => h1.branch (fun h2 => (((((h2.setF ..).setRing ..).addF ..).showUnlocked).lightRecord
    ..).branch (fun h3 => (h3.ifThen (·.coverEnd _)).showHold _) (fun h3 => h3.ifThen (·.setLaneBit ..)))
    (fun h2 => h2.branch (fun h3 => ((h3.setF ..).setRing ..).showUnlocked)
    (fun h3 => (((((h3.setF ..).setRing ..).showUnlocked).lightRecord ..).pulse ..).branch
    (fun h4 => (h4.ifThen (·.failLane ..)).showHold _) (fun h4 => h4.ifThen (·.failRingLane _)))))

theorem ringCoverTimeout (h : Canon s) (n : Nat) : Canon (s.ringCoverTimeout n) :=
  h.ifThen (fun h1 => ((h1.setRing ..).ifThen (·.takeSpare ..)).showHold _)

theorem heaterFeedForward (h : Canon s) (d : Nat) : Canon (s.heaterFeedForward d) := by
  unfold State.heaterFeedForward
  split
  · exact h
  · exact (h.setLight _).foldl _ (fun _ _ h1 => h1.setHeater _) _

theorem dieRingSlot (h : Canon s) (lane : Nat) (request urgent : BitVec 5) :
    Canon (s.dieRingSlot lane request urgent) := by
  unfold State.dieRingSlot
  refine ifEither h ?_
  split
  · exact h.setLight _
  · exact h

theorem lossOfSignal (h : Canon s) (p : Nat) : Canon (s.lossOfSignal p) := (h.setF ..).linkLost _

theorem calibrationSlot (h : Canon s) (f : Nat) : Canon (s.calibrationSlot f) :=
  h.ifElse (fun h1 => h1.branch (·.setCal ..) (·.setCal ..))

theorem calResult (h : Canon s) (f : Nat) (passed : Bool) (x : LaneSet) (margin : BitVec 16) :
    Canon (s.calResult f passed x margin) :=
  h.branch (fun h1 => (h1.setCal ..).ifElse (·.setF ..)) (fun h1 => (h1.ifElse (·.addF ..)).branch (·.setCal ..)
    (fun h2 => (h2.setCal ..).branch (fun h3 => (h3.lightRecord ..).branch (·.pulse ..)
    (fun h4 => (h4.failRingLane _).pulse ..)) (fun h3 => (h3.portRecord ..).failLane ..)))

theorem calibrationPhaseEnd (h : Canon s) (f : Nat) (passed : Bool) (x : LaneSet) (margin : BitVec 16) :
    Canon (s.calibrationPhaseEnd f passed x margin) := by
  unfold State.calibrationPhaseEnd
  extract_lets c
  split
  · exact (h.setCal ..).branch (·.setF ..) (fun h1 => (h1.setF ..).setF ..)
  · exact (h.setCal ..).ifElse (·.setF ..)
  · exact h.calResult ..
  · exact (h.setCal ..).branch (·.setF ..) (·.releaseSpare _)
  · exact h

theorem announceTimeout (h : Canon s) (f : Nat) : Canon (s.announceTimeout f) := h.ifThen (·.setCal ..)

theorem sparePreempt (h : Canon s) (f l : Nat) (permanent : Bool) : Canon (s.sparePreempt f l permanent) :=
  h.branch (fun h1 => h1.ifThen (·.failRingLane _)) (fun h1 => h1.ifElse
    (fun h2 => h2.branch (·.failLane ..) (·.takeSpare ..)))

theorem farReadings (h : Canon s) (p : Nat) (r : List (BitVec 16)) : Canon (s.farReadings p r) :=
  (h.foldl _ (fun _ _ h1 => h1.setF ..) _).ifElse (·.setLight _)

theorem reportLoss (h : Canon s) (e : Nat × Nat × Nat × Nat × Int) : Canon (s.reportLoss e) :=
  (h.lightRecord ..).ifElse (fun h1 => ((((h1.setF ..).setF ..).setF ..).setF ..).setF ..)

theorem showReadings (h : Canon s) (x : LossReadings) : Canon (s.showReadings x) :=
  h.foldl _ (fun _ _ h1 => (h1.setF ..).foldl _ (fun _ _ h2 => ((h2.setF ..).setF ..).setF ..) _) _

theorem offerMargins (h : Canon s) : Canon s.offerMargins := h.foldl _ (fun _ _ h1 => h1.offer ..) _

theorem lossLocation (h : Canon s) (x : LossReadings) : Canon (s.lossLocation x) :=
  ((h.showReadings _).offerMargins).ifElse (fun h1 => (h1.setLight _).foldl _ (fun _ _ h2 => h2.reportLoss _) _)

theorem cartState (h : Canon s) (i v : Nat) : Canon (s.cartState i v) := h.ifElse (fun h1 => (h1.setF ..).pulse ..)
theorem showPending (h : Canon s) : Canon s.showPending := h.setF ..

theorem startSwitch (h : Canon s) (g dst : Nat) : Canon (s.startSwitch g dst) :=
  h.ifElse (fun h1 => ((((h1.foldl _ (fun _ _ h2 => h2.abortCal _) _).ifThen (·.abortCal _)).setSwitch
    ..).showPending).foldl _ (fun _ _ h2 => h2.showHold _) _)

theorem takeSource (h : Canon s) (g dst : Nat) : Canon (s.takeSource g dst) := by
  have old (u : State) (o : Option Nat) (hu : Canon u) : Canon (match o with
      | some o => if u.getF LC_STATUS_STATE 0 o = 3 ∧ (u.lcServes o).isNone then u.cartState o 2 else u
      | none => u) := by
    split
    · exact hu.ifThen (·.cartState ..)
    · exact hu
  exact ((old _ _ (h.setF ..)).ifThen (·.setF ..)).cartState ..

theorem switchoverPhaseEnd (h : Canon s) (g : Nat) : Canon (s.switchoverPhaseEnd g) := by
  unfold State.switchoverPhaseEnd
  extract_lets x
  split
  · exact h.setSwitch ..
  · exact (h.setSwitch ..).takeSource ..
  · exact h.setSwitch ..
  · exact (h.setSwitch ..).foldl _ (fun _ _ h1 => h1.showHold _) _
  · exact h

theorem relockOverrun (h : Canon s) (g : Nat) : Canon (s.relockOverrun g) :=
  h.ifThen (fun h1 => (h1.setSwitch ..).lightRecord ..)

theorem lightLost (h : Canon s) (i : Nat) (dropout : Bool) : Canon (s.lightLost i dropout) := by
  unfold State.lightLost
  extract_lets sev ev
  split
  · exact h.lightRecord ..
  · exact h.branch (·.lightRecord ..) (fun h1 => h1.branch (fun h2 => (h2.lightRecord ..).startSwitch ..)
      (fun h2 => h2.branch (fun h3 => ((h3.setF ..).ifThen (·.setF ..)).lightRecord ..) (·.lightRecord ..)))

theorem compareCart (h : Canon s) (i : Nat) (l : List (BitVec 16)) : Canon (s.compareCart i l) := by
  unfold State.compareCart
  split
  · exact h
  · exact h.ifElse (fun h1 => (((h1.setF ..).setF ..).ifThen (fun h2 => (h2.setF ..).lightRecord ..)).ifThen
      (fun h2 => (h2.setF ..).lightLost ..))

theorem laserCompare (h : Canon s) (l : List (List (BitVec 16))) : Canon (s.laserCompare l) :=
  h.foldl _ (fun _ _ h1 => h1.compareCart ..) _

theorem goDark (h : Canon s) (i : Nat) : Canon (s.goDark i) := (((h.setF ..).lightLost ..).setCart ..).cartState ..
theorem dropout (h : Canon s) (i : Nat) : Canon (s.dropout i) := h.ifThen (·.goDark _)

theorem latchRelease (h : Canon s) (i : Nat) : Canon (s.latchRelease i) :=
  h.ifElse (fun h1 => (h1.setF ..).branch (·.goDark _) (fun h2 => (h2.setCart ..).cartState ..))

theorem takeWaiting (h : Canon s) (g : Nat) : Canon (s.takeWaiting g) := by
  unfold State.takeWaiting
  split
  · exact h.startSwitch ..
  · exact h

theorem collectiveBoundary (h : Canon s) (g : Nat) : Canon (s.collectiveBoundary g) := h.ifThen (·.takeWaiting _)

theorem askSwitch (h : Canon s) (g dst : Nat) (atBoundary : Bool) : Canon (s.askSwitch g dst atBoundary) :=
  h.branch (fun h1 => (h1.setSwitch ..).showPending) (·.startSwitch ..)

theorem groupToLc2 (h : Canon s) (g cmd : Nat) (atBoundary : Bool) : Canon (s.groupToLc2 g cmd atBoundary) :=
  h.ifElse (fun h1 => h1.branch (·.askSwitch ..) (·.refuseWrite ..))

theorem returnLc2 (h : Canon s) (atBoundary : Bool) : Canon (s.returnLc2 atBoundary) := by
  unfold State.returnLc2
  extract_lets w
  split
  · exact h.branch (·.askSwitch ..) (·.refuseWrite ..)
  · exact h.ifElse (·.refuseWrite ..)

theorem cartridgeInsert (h : Canon s) (i : Nat) (serial : BitVec 32) : Canon (s.cartridgeInsert i serial) :=
  ((((h.setF ..).setF ..).setF ..).setCart ..).cartState ..

theorem rejectCart (h : Canon s) (i : Nat) : Canon (s.rejectCart i) := ((h.setCart ..).cartState ..).lightRecord ..

theorem placeCart (h : Canon s) (i : Nat) : Canon (s.placeCart i) := by
  unfold State.placeCart
  extract_lets s1
  refine ifEither ?_ ?_
  · exact (h.setCart ..).cartState ..
  · refine ifEither ?_ ?_
    · split
      · exact ((h.setCart ..).cartState ..).startSwitch ..
      · exact ((h.setCart ..).cartState ..).ifThen (·.askSwitch ..)
      · exact (h.setCart ..).cartState ..
    · exact (h.setCart ..).cartState ..

theorem gridLock (h : Canon s) (i : Nat) (l : List (BitVec 16)) : Canon (s.gridLock i l) := by
  unfold State.gridLock
  refine ifEither ?_ ?_
  · exact h
  · extract_lets s1
    split
    · exact h.setCart ..
    · exact (h.setCart ..).branch (fun h1 => (h1.setCart ..).placeCart _) (·.rejectCart _)

theorem gridLockTimeout (h : Canon s) (i : Nat) : Canon (s.gridLockTimeout i) := h.ifThen (·.rejectCart _)

theorem cartridgeCommissioning (h : Canon s) (i : Nat) (l : List (BitVec 16)) (offsets : List (BitVec 16)) :
    Canon (s.cartridgeCommissioning i l offsets) :=
  h.ifElse (fun h1 => h1.branch (fun h2 => (h2.setCart ..).placeCart _) (·.rejectCart _))

theorem bringLane (h : Canon s) (p l : Nat) (x : LaneSet) (margin : BitVec 16) : Canon (s.bringLane p l x margin) :=
  (h.setF ..).branch (fun h1 => ((h1.setCal ..).setF ..).ifThen (·.setLaneBit ..)) (·.portRecord ..)

theorem llStartPhaseEnd (h : Canon s) (ok : Bool) (fits : List (BitVec 64)) (lanes : List LanePass) :
    Canon (s.llStartPhaseEnd ok fits lanes) := by
  unfold State.llStartPhaseEnd
  extract_lets +onlyGivenNames p
  refine ifEither h (ifEither ((h.setF ..).lightRecord ..) ?_)
  extract_lets +onlyGivenNames s1
  have hs1 : Canon s1 := h.setF ..
  clear_value p s1
  split
  · exact ((hs1.foldl _ (fun _ _ h1 => h1.ifThen (fun h2 => (h2.setCart ..).placeCart _)) _).foldl _ (fun _ _ h1 =>
      h1.setF ..) _).showUnlocked
  · exact hs1
  · exact ((hs1.foldl _ (fun _ _ h1 => h1.setF ..) _).showUnlocked).setF ..
  · exact (hs1.foldl _ (fun _ _ h1 => (h1.putR ..).setF ..) _).setF ..
  · exact (hs1.foldl _ (fun _ _ h1 => h1.bringLane ..) _).setF ..

theorem darkLaneRetry (h : Canon s) (p l : Nat) (lit : Bool) (x : LaneSet) (margin : BitVec 16) :
    Canon (s.darkLaneRetry p l lit x margin) :=
  h.ifThen (·.bringLane ..)

theorem llCntClr (h : Canon s) : Canon s.llCntClr := h.foldl _ (fun _ _ h1 => h1.setF ..) _

/-! ### Fetch engines -/

theorem reserve (h : Canon s) {d p : Nat} {n : TaskId} {x : Task} (he : s.reserve d p n x = some t) : Canon t := by
  unfold State.reserve at he
  extract_lets lines m c used at he
  split at he
  · cases he; exact h.setCoreAt ..
  · cases he

theorem reserveAll (h : Canon s) (d p : Nat) (l : List (TaskId × Task)) : Canon (State.reserveAll d p l s) := by
  induction l generalizing s with
  | nil => exact h
  | cons y l ih =>
    rw [State.reserveAll]
    refine ifEither (ih h) ?_
    split
    next he => exact ih (h.reserve he)
    next => exact h

theorem fetchIssue (h : Canon s) (d p : Nat) : Canon (s.fetchIssue d p) := by
  unfold State.fetchIssue
  extract_lets q s1
  split
  · exact h.reserveAll ..
  · split
    · exact h.reserveAll ..
    · exact (h.reserveAll ..).ifElse (fun h1 => ((h1.addF ..).addF ..).setCoreAt ..)

theorem maskLine (h : Canon s) (t : TaskId) (a : Nat) : Canon (State.maskLine t a s) := by
  unfold State.maskLine
  split
  · exact h.setTask ..
  · exact h

theorem stageLine (h : Canon s) (d p : Nat) (e : FetchEntry) (bad : List Nat) (i : Nat) :
    Canon (State.stageLine d p e bad s i) := by
  unfold State.stageLine
  extract_lets a hit s1 poisoned s2
  have hs1 : Canon s1 := by
    unfold s1
    refine ifEither ?_ ?_
    · split
      · exact h.eccRead ..
      · exact h
    · exact h
  exact (hs1.ifThen (·.coreRecord ..)).ifElse (fun h1 => (h1.ifThen (·.maskLine ..)).setCoreAt ..)

theorem fetchReturn (h : Canon s) (d p entry : Nat) (bad : List Nat) : Canon (s.fetchReturn d p entry bad) := by
  unfold State.fetchReturn
  split
  · exact h
  · exact (((h.foldl _ (fun _ _ h1 => h1.stageLine ..) _).setCoreAt ..).ifThen (·.addF ..)).ifThen (·.offer ..)

theorem feCntClr (h : Canon s) (d p : Nat) : Canon (s.feCntClr d p) :=
  (h.foldl _ (fun _ _ h1 => h1.putR ..) _).foldl _ (fun _ _ h1 => (h1.putR ..).putR ..) _

/-! ### The matrix array -/

theorem showShadow (h : Canon s) (d p : Nat) : Canon (s.showShadow d p) := ((h.setF ..).setF ..).putR ..
theorem showActive (h : Canon s) (d p : Nat) : Canon (s.showActive d p) := (h.setF ..).putR ..

theorem shadowLoad (h : Canon s) (t : TaskId) : Canon (s.shadowLoad t) := by
  unfold State.shadowLoad
  split
  · split
    · exact h.ifThen (fun h1 => (h1.setCoreAt ..).showShadow ..)
    · exact h
  · exact h

theorem swapTiles (h : Canon s) (d p : Nat) : Canon (s.swapTiles d p) :=
  ((((((h.ifThen (·.addF ..)).addF ..).setCoreAt ..).showActive ..).setF ..).setF ..).putR ..

theorem tileSwap (h : Canon s) (d p : Nat) : Canon (s.tileSwap d p) := h.ifThen (·.swapTiles ..)
theorem setAcc (h : Canon s) (d p i : Nat) (v : F32) : Canon (s.setAcc d p i v) := h.setCoreAt ..

theorem zeroElem (h : Canon s) (d p : Nat) (b : Bound) (m n : Nat) : Canon (s.zeroElem d p b m n) :=
  (h.setAcc ..).ifThen (·.setAcc ..)

theorem zeroMasked (h : Canon s) (d p : Nat) (x : Task) (b : Bound) : Canon (s.zeroMasked d p x b) :=
  h.ifElse (fun h1 => h1.foldl _ (fun _ _ h2 => h2.foldl _ (fun _ _ h3 => h3.zeroElem ..) _) _)

theorem inflightAdd (h : Canon s) (d p g tile n : Nat) : Canon (s.inflightAdd d p g tile n) := h.setCoreAt ..

theorem passTokens (h : Canon s) (d p : Nat) (t : TaskId) (x : Task) (w : WTile) (tile : Nat) :
    Canon (s.passTokens d p t x w tile) :=
  (((h.setCoreAt ..).inflightAdd ..).foldl _ (fun _ _ h1 => h1.enterCounts ..) _).addF ..

theorem matmul (h : Canon s) (t : TaskId) : Canon (s.matmul t) := by
  unfold State.matmul
  split
  · exact h
  · split
    · exact h.branch (fun h1 => (h1.zeroMasked ..).finish _) (fun h1 => h1.ifThen
        (fun h2 => ((h2.zeroMasked ..).passTokens ..).finish _))
    · exact h

theorem accEcc (h : Canon s) (d p tile : Nat) (t : TaskId) (e : EntryEcc) : Canon (s.accEcc d p tile t e) :=
  h.branch (·.coreRecord ..) (fun h1 => ((h1.addF ..).coreRecord ..).coreEccBurst ..)

theorem handElem (h : Canon s) (d p : Nat) (b : Bound) (k : Hand) (ecc : List EntryEcc) (n : Nat) :
    Canon (State.handElem d p b k ecc s n) :=
  h.branch (fun h1 => h1.branch (fun h2 => (h2.setAcc ..).setAcc ..) (fun h2 => (h2.setAcc ..).setAcc ..))
    (fun h1 => h1.branch (·.setAcc ..) (·.setAcc ..))

theorem handOver (h : Canon s) (d p : Nat) (ecc : List EntryEcc) : Canon (s.handOver d p ecc) := by
  unfold State.handOver
  extract_lets c
  split
  · exact h
  · extract_lets s1
    split
    · exact h.setCoreAt ..
    · exact (((h.setCoreAt ..).foldl _ (fun _ _ h1 => h1.accEcc ..) _).ifElse (fun h1 => h1.foldl _
        (fun _ _ h2 => h2.handElem ..) _)).setCoreAt ..

/-! ### Accumulators -/

theorem portEcc (h : Canon s) (d p : Nat) (b : Bound) (tile : Nat) (t : TaskId) (ecc : List EntryEcc) :
    Canon (s.portEcc d p b tile t ecc).1 :=
  h.foldl _ (fun _ _ h1 => h1.accEcc ..) _

theorem writeRun (h : Canon s) (t : TaskId) (x : Task) (o : Output) (a i0 : Nat) (bytes : List Byte) :
    Canon (s.writeRun t x o a i0 bytes) :=
  (h.foldl _ (fun _ _ h1 => h1.write _) _).ifElse (·.addDigest ..)

theorem outRow (h : Canon s) (d : Nat) (t : TaskId) (x : Task) (o : Output) (cols m : Nat) :
    Canon (State.outRow d t x o cols s m) :=
  h.ifElse (fun h1 => ((h1.enterCounts ..).writeRun ..).ifThen (fun h2 => (h2.writePlain ..).addDigest ..))

theorem drainTile (h :
    Canon s) (d p : Nat) (t : TaskId) (x : Task) (b : Bound) (ecc : List EntryEcc) (dense : Option Nat) (ord adv :
    Nat) : Canon (s.drainTile d p t x b ecc dense ord adv) :=
  ((h.portEcc ..).foldl _ (fun _ _ h1 => h1.foldl _ (fun _ _ h2 => h2.outRow ..) _) _).addF ..

theorem portStart (h : Canon s) (d p : Nat) : Canon (s.portStart d p) := by
  unfold State.portStart
  extract_lets c
  split
  · exact h
  · split
    · exact h.ifThen (·.setCoreAt ..)
    · exact h

theorem drain (h : Canon s) (t : TaskId) (deriv : Bool) (ecc : List EntryEcc) : Canon (s.drain t deriv ecc) := by
  unfold State.drain
  split
  · exact h.ifElse (fun h1 => (h1.drainTile ..).finish _)
  · exact h

theorem spill (h : Canon s) (t : TaskId) (ecc : List EntryEcc) : Canon (s.spill t ecc) := by
  unfold State.spill
  split
  · exact (((h.portEcc ..).writePlain ..).addDigest ..).finish _
  · exact h

theorem resumeElem (h : Canon s) (t : TaskId) (x : Task) (p : Nat) (b : Bound) (k : Nat) :
    Canon (State.resumeElem t x p b s k) :=
  h.branch (fun h1 => (h1.setAcc ..).setAcc ..) (·.setAcc ..)

theorem resume (h : Canon s) (t : TaskId) : Canon (s.resume t) := by
  unfold State.resume
  split
  · exact (h.foldl _ (fun _ _ h1 => h1.resumeElem ..) _).finish _
  · exact h

theorem dbgEntries (h : Canon s) (d p e : Nat) : Canon (s.dbgEntries d p e).2 := ifEither h (h.draw)

theorem accDbgRead (h : Canon s) (d p : Nat) (fixed err : Bool) : Canon (s.accDbgRead d p fixed err) :=
  ifEither ((h.coreRecord ..).free) (((h.dbgEntries ..).putR ..).free)

theorem accCntClr (h : Canon s) (d p : Nat) : Canon (s.accCntClr d p) := ((h.setF ..).putR ..).putR ..

/-! ### Chains and VECTOR -/

theorem runVector (h :
    Canon s) (d p : Nat) (t : TaskId) (x : Task) (addr : Nat → Word → Nat) (queued : Nat → Bool) (ord : Nat → Nat)
    : Canon (s.runVector d p t x addr queued ord) := by
  unfold State.runVector
  extract_lets base prog ops runs counts s1 s2
  have hs2 : Canon s2 := by
    unfold s2
    refine h.free.foldl _ (fun _ _ h1 => ?_) _
    split
    · exact h1
    · exact (h1.foldl _ (fun _ _ h2 => h2.write _) _).ifElse (·.addDigest ..)
  refine hs2.foldl _ (fun _ _ h1 => ?_) _
  split
  · exact h1.enterCounts ..
  · exact h1

theorem vector (h : Canon s) (t : TaskId) : Canon (s.vector t) := by
  unfold State.vector
  split
  · split
    · exact (h.runVector ..).finish _
    · exact h
  · exact h

theorem matmulStage (h : Canon s) (p : Nat) (t : TaskId) (x m : Task) (j i : Nat) :
    Canon (s.matmulStage p t x m j i) :=
  ((h.ifElse (fun h1 => ((h1.setCoreAt ..).showShadow ..).swapTiles ..)).zeroMasked ..).passTokens ..

theorem drainStage (h : Canon s) (p : Nat) (t : TaskId) (x prev m : Task) (j i : Nat) (ecc : List EntryEcc) :
    Canon (s.drainStage p t x prev m j i ecc) :=
  h.branch (·.drainTile ..) (·.drainTile ..)

theorem vectorStage (h : Canon s) (p : Nat) (t : TaskId) (x m : Task) (j i : Nat) :
    Canon (s.vectorStage p t x m j i) := by
  unfold State.vectorStage
  exact Canon.runVector h ..

theorem transferStage (h : Canon s) (t : TaskId) (x m : Task) (j i : Nat) : Canon (s.transferStage t x m j i).1 := by
  unfold State.transferStage
  extract_lets +onlyGivenNames c ch
  refine iteFst h (iteFst ((h.ifThen (·.addDigest ..)).setChan ..) (iteFst h ?_))
  extract_lets +onlyGivenNames m s1
  have hs1 : Canon s1 := h.setChan ..
  split
  · exact Canon.beginSend hs1 ..
  · exact Canon.beginRemoteSend hs1 ..
  · exact Canon.beginRecv hs1 ..
  · exact Canon.beginRemoteRecv hs1 ..

theorem countItem (h : Canon s) (p : Nat) (t : TaskId) (j : Nat) : Canon (s.countItem p t j) := by
  unfold State.countItem
  extract_lets c
  split
  · exact h
  · exact (h.setCoreAt ..).ifThen (·.finish _)

theorem stageItem (h : Canon s) (t : TaskId) (j : Nat) (ecc : List EntryEcc) : Canon (s.stageItem t j ecc) := by
  unfold State.stageItem
  split
  · exact h
  · split
    · exact h
    · refine ifEither h ?_
      extract_lets +onlyGivenNames i m
      clear_value i m
      split
      · exact (h.matmulStage ..).countItem ..
      · exact h.ifThen fun h1 => (h1.drainStage ..).countItem ..
      · exact (h.vectorStage ..).countItem ..
      · exact (h.transferStage ..).ifThen (·.countItem ..)
      · exact (h.transferStage ..).ifThen (·.countItem ..)
      · exact h

theorem handAll (h : Canon s) (n d p : Nat) : Canon (State.handAll n d p s) := by
  induction n generalizing s with
  | zero => exact h
  | succ n ih => exact ifEither h (ih (h.handOver ..))

theorem chainRounds (h : Canon s) (n : Nat) (t : TaskId) (p k : Nat) : Canon (State.chainRounds n t p k s) := by
  induction n generalizing s with
  | zero => exact h
  | succ n ih => exact ih ((h.foldl _ (fun _ _ h1 => h1.stageItem ..) _).handAll ..)

theorem fused (h : Canon s) (t : TaskId) : Canon (s.fused t) := by
  unfold State.fused
  split
  · split
    · exact h.chainRounds ..
    · exact h
  · exact h

theorem stageStallEnd (h : Canon s) (t : TaskId) (j : Nat) (full : Bool) (cycles : Nat) :
    Canon (s.stageStallEnd t j full cycles) := by
  unfold State.stageStallEnd
  split
  · split
    · exact h.ifThen (fun h1 => (h1.branch (·.addF ..) (·.addF ..)).offer ..)
    · exact h
  · exact h

/-! ### COPY and update programs -/

theorem moveLine (h : Canon s) (t : TaskId) (x : Task) (bad : List Nat) (i : Nat) :
    Canon (State.moveLine t x bad s i) := by
  unfold State.moveLine
  extract_lets a found s1 poison
  have hs1 : Canon s1 := by
    unfold s1
    refine ifEither ?_ ?_
    · refine h.foldl _ (fun _ _ h1 => ?_) _
      split
      · exact h1.eccRead ..
      · exact h1
    · exact h
  exact hs1.write _

theorem move (h : Canon s) (t : TaskId) (bad : List Nat) : Canon (s.move t bad) := by
  unfold State.move
  split
  · exact h.ifElse (fun h1 => (h1.foldl _ (fun _ _ h2 => h2.moveLine ..) _).finish _)
  · exact h

theorem updBegin (h : Canon s) (ms : Nat) (t : TaskId) (x : Task) (i : Nat) : Canon (s.updBegin ms t x i) :=
  (((h.setStack ..).setF ..).setF ..).setF ..

theorem setUpd (h : Canon s) (ms : Nat) (u : UpdRun) : Canon (s.setUpd ms u) := h.setStack ..

theorem updReady (h : Canon s) (ms : Nat) : Canon (s.updReady ms) := by
  unfold State.updReady
  refine ifEither ?_ ?_
  · exact h
  · split
    · exact h.updBegin ..
    · exact h

theorem putCode (h : Canon s) (u : UpdRun) (p : PStream) (code : Nat) : Canon (s.putCode u p code) := h.write _
theorem healGran (h : Canon s) (u : UpdRun) (p : PStream) : Canon (s.healGran u p) := h.ifThen (·.write _)

theorem storeTo (h : Canon s) (ms : Nat) (u : UpdRun) (p : PStream) (v : F32) : Canon (s.storeTo ms u p v) :=
  (h.enterCounts ..).putCode ..

theorem writePartial (h : Canon s) (x : Task) (t : TaskId) (ms digest : Nat) : Canon (s.writePartial x t ms digest) :=
  h.ifElse (·.writePlain ..)

theorem updOver (h : Canon s) (t : TaskId) (x : Task) : Canon (s.updOver t x) :=
  h.ifThen (fun h1 => (h1.foldl _ (fun _ _ h2 => h2.branch (·.setStack ..) (·.writePartial ..)) _).finish _)

theorem updEnd (h : Canon s) (ms : Nat) (u : UpdRun) : Canon (s.updEnd ms u) := by
  unfold State.updEnd
  extract_lets s1
  split
  · exact (((h.setUpd ..).setF ..).writePartial ..).updOver ..
  · exact (h.setUpd ..).setF ..

theorem updStop (h : Canon s) (ms : Nat) (u : UpdRun) : Canon (s.updStop ms u) :=
  ((h.setF ..).stackRecord ..).updEnd ..

theorem elemDone (h : Canon s) (ms : Nat) (u : UpdRun) : Canon (s.elemDone ms u) := by
  unfold State.elemDone
  extract_lets u s1
  split
  · split
    · exact (h.addF ..).setUpd ..
    · exact (h.addF ..).updEnd ..
  · exact (h.addF ..).updEnd ..

theorem updFault (h : Canon s) (ms : Nat) (u : UpdRun) (p : Option PStream) (e : Nat) : Canon (s.updFault ms u p e) :=
  h.residueFail ..

theorem microEffect (h : Canon s) {ms : Nat} {u v : UpdRun} {m : Micro} (he : s.microEffect ms u m = some (t, v)) :
    Canon t := by
  cases m
  case ld =>
    simp only [State.microEffect] at he
    split at he
    · cases he; exact h.healGran ..
    · cases he
  case st =>
    simp only [State.microEffect] at he
    split at he
    · cases he; exact h.storeTo ..
    · cases he
  all_goals cases he; exact h

theorem microStep (h : Canon s) (ms : Nat) (u : UpdRun) (m : Micro) (bad : Option F32) :
    Canon (s.microStep ms u m bad) := by
  unfold State.microStep
  refine ifEither (h.updStop ..) ?_
  split
  next => exact h.updStop ..
  next he => exact ((h.microEffect he).branch (·.elemDone ..) (·.setUpd ..)).ifThen (·.updFault ..)

theorem micro (h : Canon s) (ms : Nat) (m : Micro) (bad : Option F32) : Canon (s.micro ms m bad) := by
  unfold State.micro
  extract_lets r
  split
  · exact ifEither ((h.updReady _).microStep ..) h
  · exact h

theorem runWord (h : Canon s) (ms : Nat) (u : UpdRun) (faults : List Residue) : Canon (s.runWord ms u faults) := by
  unfold State.runWord
  split
  · exact h.microStep ..
  · exact h.updStop ..
  · exact h.elemDone ..

theorem runFree (h : Canon s) (ms : Nat) (u : UpdRun) (faults : List Residue) : Canon (s.runFree ms u faults) := by
  unfold State.runFree
  split
  · exact h.branch (·.updStop ..) (fun h1 => (((((h1.foldl _ (fun _ _ h2 => h2.healGran ..) _).storeTo ..).storeTo
      ..).elemDone ..).ifThen (·.updFault ..)).ifThen (·.updFault ..))
  · exact h.updStop ..

theorem runUnit (h : Canon s) (faults : List Residue) (n ms : Nat) (t : TaskId) :
    Canon (State.runUnit faults n ms t s) := by
  induction n generalizing s with
  | zero => exact h
  | succ n ih =>
    rw [State.runUnit]
    split
    · exact h.ifElse fun h1 => ih (h1.branch (·.runFree ..) (·.runWord ..))
    · exact h

theorem runStack (h : Canon s) (faults : List Residue) (t : TaskId) (x : Task) (ms : Nat) :
    Canon (State.runStack faults t x s ms) := by
  unfold State.runStack
  extract_lets s1
  have hs1 : Canon s1 := by
    unfold s1
    refine ifEither ?_ ?_
    · exact h
    · split
      · split
        · exact h.updBegin ..
        · exact h
      · exact h
  exact hs1.runUnit ..

theorem runProgram (h : Canon s) (t : TaskId) (sel : Nat → Bool) (faults : List Residue) :
    Canon (s.runProgram t sel faults) := by
  unfold State.runProgram
  split
  · exact h.ifElse (fun h1 => h1.branch (fun h2 => h2.foldl _ (fun _ _ h3 => h3.runStack ..) _)
      (fun h2 => (h2.ifElse (fun h3 => (h3.setF ..).stackRecord ..)).updOver ..))
  · exact h

/-! ### Register accesses -/

theorem fieldsWrite (h : Canon s) (r : Requester) (k : RegKey) (v : Word) : Canon (s.fieldsWrite r k v) := h.putR ..

theorem agentRecord (h : Canon s) (r : Requester) (k : RegKey) (a : Nat) (v : Word) : Canon (s.agentRecord r k a v) :=
  h.ifThen (·.record _)

theorem newJob (h : Canon s) (j : Nat) : Canon (s.newJob j) :=
  (((((h.setF ..).voidIngot _).emptySlot _).emptySlot _).setIngot _).jobBoundary _

theorem jobWrite (h : Canon s) (r : Requester) (a : Nat) (v : Word) : Canon (s.jobWrite r a v) :=
  ((h.agentRecord ..).putR ..).branch (·.newJob _) (·.refuseWrite ..)

theorem portEnable (h : Canon s) (p : Nat) (was : Bool) : Canon (s.portEnable p was) :=
  h.branch (fun h1 => (h1.linkLost _).setF ..) (fun h1 => h1.ifThen (·.setF ..))

theorem portCntClr (h : Canon s) (p : Nat) : Canon (s.portCntClr p) :=
  (h.foldl _ (fun _ _ h1 => h1.putR ..) _).foldl _ (fun _ _ h1 => (h1.putR ..).putR ..) _

theorem discCfg (h : Canon s) (was : Bool) : Canon (s.discCfg was) := h.branch (·.newGeneration) (·.lookDisc)

theorem colCheck (h : Canon s) (v : Word) : Canon (s.colCheck v) := by
  unfold State.colCheck
  extract_lets e
  split
  · exact h.branch (·.sealRoundStart _) (·.checkGood _)
  · exact h.checkHold ..
  · exact h.checkFail ..
  · exact h

theorem quarEdge (h : Canon s) (was : Bool) : Canon (s.quarEdge was) :=
  h.branch (fun h1 => (h1.setF ..).hubRecord ..) (fun h1 => h1.ifThen (·.hubRecord ..))

theorem drainRing (h : Canon s) : Canon s.drainRing := h.drainHub _
theorem consWrite (h : Canon s) (v : Word) : Canon (s.consWrite v) := h.ifElse (fun h1 => (h1.setF ..).free.drainRing)

theorem overloadEdge (h : Canon s) (was : Bool) : Canon (s.overloadEdge was) :=
  h.ifElse (fun h1 => (h1.setF ..).hubRecord ..)

theorem timeCfg (h : Canon s) (r : Requester) (k : RegKey) (v : Word) : Canon (s.timeCfg r k v) :=
  (h.ifThen (·.setImmediate)).fieldsWrite ..

theorem dbgGeWrite (h : Canon s) (d : Nat) (v : Word) : Canon (s.dbgGeWrite d v) :=
  ((h.breakEn ..).halt ..).ifThen (·.stepEngine _)

theorem dieWrite (h : Canon s) (r : Requester) (k : RegKey) (a : Nat) (v : Word) : Canon (s.dieWrite r k a v) := by
  unfold State.dieWrite
  extract_lets d plain
  split
  · exact ifEither ((h.setF ..).refuseWrite ..) (h.fieldsWrite ..)
  · exact ifEither h (h.fieldsWrite ..)
  · exact h.doorbell ..
  · exact h.ifThen (·.cancelRegion ..)
  · exact h.coreHold ..
  · exact h.coreRelease ..
  · exact ifEither (h.refuseWrite ..) ((h.fieldsWrite ..).serveWaits ..)
  · exact (h.fieldsWrite ..).branch (·.clrAll _) (fun h1 => h1.ifThen (·.snapNow _))
  · exact h.ifThen (·.colCntClr _)
  · exact ifEither (h.refuseWrite ..) (h.fieldsWrite ..)
  · exact ifEither (h.refuseWrite ..) (h.fieldsWrite ..)
  · exact ifEither (h.dieRecord ..) (h.fieldsWrite ..)
  · exact (h.fieldsWrite ..).ifThen (fun h1 => (h1.setF ..).dieRecord ..)
  · exact (h.ifThen (·.thmCntClr _)).ifThen (·.thmRelease _)
  · exact h.fieldsWrite ..

theorem unitWrite (h : Canon s) (r : Requester) (k : RegKey) (a : Nat) (v : Word) : Canon (s.unitWrite r k a v) := by
  unfold State.unitWrite
  extract_lets plain
  split
  · exact h.arrayCtrl ..
  · exact h.ifThen (·.accCntClr ..)
  · exact h.ifThen (·.feCntClr ..)
  · exact ifEither (h.coreRecord ..) (ifEither h (h.fieldsWrite ..))
  · exact (h.fieldsWrite ..).bundleRetire ..
  · exact h.ifThen (·.brzCntClr ..)
  · exact (h.fieldsWrite ..).portEnable ..
  · exact h.ifThen (·.portCntClr _)
  · exact h.fieldsWrite ..

theorem stackWriteReg (h : Canon s) (r : Requester) (k : RegKey) (a : Nat) (v : Word) :
    Canon (s.stackWriteReg r k a v) := by
  unfold State.stackWriteReg
  extract_lets ms plain
  split
  · exact ((h.fieldsWrite ..).ifThen (·.cruCntClr _)).ifThen (·.rtPublish _)
  · exact h.ifThen (·.flushStack _)
  · exact ifEither (h.fieldsWrite ..) h
  · exact ifEither (h.fieldsWrite ..) h
  · exact ifEither h (h.fieldsWrite ..)
  · exact (h.fieldsWrite ..).ifThen (·.setF ..)
  · exact ifEither (h.marginGo ..) (h.fieldsWrite ..)
  · exact (h.fieldsWrite ..).ifThen (·.llCntClr)
  · split
    · exact h.groupToLc2 ..
    · exact h.groupToLc2 ..
    · exact h.returnLc2 _
    · exact h
  · exact h.fieldsWrite ..

theorem hubWrite (h : Canon s) (r : Requester) (k : RegKey) (a : Nat) (v : Word) : Canon (s.hubWrite r k a v) := by
  unfold State.hubWrite
  extract_lets plain
  split
  · exact (h.ifThen (·.seqGo _)).domainRst _
  · exact (h.fieldsWrite ..).discCfg _
  · exact (h.fieldsWrite ..).lookDisc
  · exact (h.agentRecord ..).fieldsWrite ..
  · exact h.colCheck _
  · exact (((h.fieldsWrite ..).ifThen (·.ingCntClr)).ifThen (·.voidIngot _)).ifThen (·.restore)
  · exact ifEither (h.refuseWrite ..) (h.fieldsWrite ..)
  · exact (h.fieldsWrite ..).lookFed _
  · exact ifEither (h.refuseWrite ..) (h.fieldsWrite ..)
  · exact (h.fieldsWrite ..).hand _
  · exact ifEither (h.refuseWrite ..) (h.fieldsWrite ..)
  · exact ((h.agentRecord ..).fieldsWrite ..).quarEdge _
  · exact ifEither (h.refuseWrite ..) ((h.fieldsWrite ..).drainRing)
  · exact h.consWrite _
  · exact h.fieldsWrite ..

theorem forgeWrite (h : Canon s) (r : Requester) (k : RegKey) (a : Nat) (v : Word) :
    Canon (s.forgeWrite r k a v) := by
  unfold State.forgeWrite
  extract_lets plain
  split
  · exact h.hicComplete ..
  · exact ifEither (h.hubRecord ..) (h.fieldsWrite ..)
  · exact (h.fieldsWrite ..).ifThen (fun h1 => (h1.setF ..).refuseWrite ..)
  · exact ((h.agentRecord ..).fieldsWrite ..).overloadEdge _
  · split
    · exact ifEither (h.fieldsWrite ..) (h.refuseWrite ..)
    · exact h.refuseWrite ..
  · exact h.timeCfg ..
  · exact h.ifThen (·.lock _)
  · exact h.dbgGe _ _ _ (h.dbgGeWrite ..)
  · exact h.ifThen (·.profCmd ..)
  · exact (h.fieldsWrite ..).ifElse (·.flashStart ..)
  · exact h.counterRaise ..
  · exact h.fieldsWrite ..

theorem writeReg (h : Canon s) (r : Requester) (k : RegKey) (a : Nat) (v : Word) : Canon (s.writeReg r k a v) :=
  h.branch (·.jobWrite ..) (fun h1 => h1.branch (·.dieWrite ..) (fun h2 => h2.branch (·.unitWrite ..)
    (fun h3 => h3.branch (·.hubWrite ..) (fun h4 => h4.branch (·.forgeWrite ..) (·.stackWriteReg ..)))))

theorem regWrite (h : Canon s) (r : Requester) (a : Nat) (v : Word) : Canon (s.regWrite r a v) := by
  unfold State.regWrite
  refine ifEither h (ifEither h (ifEither (h.accessRecord ..) (h.atReg _ _ _ ?_)))
  split
  · exact h.writeReg ..
  · exact h

theorem readReg (h : Canon s) (k : RegKey) : Canon (s.readReg k).2 := by
  unfold State.readReg
  refine iteSnd h.draw ?_
  split
  · exact h.draw
  · exact h.setF ..
  · exact h.hicClaim _
  · exact h.accDbgRead ..
  · exact h

theorem regRead (h : Canon s) (r : Requester) (a : Nat) : Canon (s.regRead r a).2 := by
  unfold State.regRead
  refine iteSnd (h.accessRecord ..) (iteSnd (h.accessRecord ..) ?_)
  split
  · exact h.readReg _
  · exact iteSnd h.draw h

theorem unmappedAccess (h : Canon s) (r : Requester) (a : Nat) (write : Bool) : Canon (s.unmappedAccess r a write) :=
  ifEither ((h.ifElse (fun h1 => h1.free)).accessRecord ..) (ifEither ((h.ifElse
    (fun h1 => h1.free)).accessRecord ..) h)

theorem dbgAnswer (h : Canon s) (w : Word) : Canon (s.dbgAnswer w) := h.free.tap ..

theorem dbgAccess (h : Canon s) (write : Bool) (a : Nat) (v : Word) : Canon (s.dbgAccess write a v) :=
  ifEither (h.branch (·.tap ..) (·.dbgAnswer _)) (ifEither (ifEither ((h.regWrite ..).tap ..) ((h.regRead
    ..).dbgAnswer _)) (h.branch (fun h1 => (h1.branch (·.tap ..) (·.dbgAnswer _)).accessRecord ..)
    (fun h1 => h1.branch (fun h2 => (h2.branch (·.tap ..) (·.dbgAnswer _)).accessRecord ..)
    (fun h2 => h2.branch (fun h3 => (h3.writePlain ..).tap ..) (·.dbgAnswer _)))))

theorem regwriteTask (h : Canon s) (t : TaskId) : Canon (s.regwriteTask t) := by
  unfold State.regwriteTask
  split
  · exact h
  · exact (h.foldl _ (fun _ _ h1 => h1.ifElse (·.regWrite ..)) _).finish _

theorem quarantine (h : Canon s) (r : Requester) (cause : Nat) : Canon (s.quarantine r cause) := h.regWrite ..
theorem unquarantine (h : Canon s) (r : Requester) : Canon (s.unquarantine r) := h.regWrite ..
theorem discoveryStart (h : Canon s) (r : Requester) : Canon (s.discoveryStart r) := h.regWrite ..
theorem errorRecord (h : Canon s) (x : Report) : Canon (s.errorRecord x) := h.record _

/-! ### The clock -/

theorem runClock (h : Canon s) : Canon s.runClock := h.free
theorem tick (h : Canon s) : Canon s.tick := h.ifThen (·.runClock)

/-! ### Step -/

/-! ### The commands -/

/-- A command whose effect is in canonical form ends in it. -/
theorem next (h : Canon t) : ∃ u, commit s t = .next u ∧ Canon u := ⟨_, rfl, latchEdges _ h⟩

/-- Every command keeps the canonical form: one line per command, its effect's lemma. -/
theorem exec (h : Canon s) : (i : Instr) → ∃ t, Machine.exec i s = .next t ∧ Canon t
  | .registerWrite .. => (h.regWrite ..).next
  | .unmappedAccess .. => (h.unmappedAccess ..).next
  | .submit .. => (h.atReg _ _ _ (h.submit ..)).next
  | .retire .. => (h.atReg _ _ _ (h.retire ..)).next
  | .validationStart .. => (h.validationStart _).next
  | .validationEnd .. => (h.validationEnd _).next
  | .taskDispatch _ (.core _) => (h.dispatchTo ..).next
  | .taskDispatch _ (.engine _) => (h.ifThen (·.dispatchEngine _)).next
  | .taskComplete .. => (h.taskComplete _).next
  | .cancel .. => (h.atReg _ _ _ (h.cancelRegion ..)).next
  | .regionCancelDone .. => (h.regionCancelDone ..).next
  | .quantumOverrun .. => (h.quantumOverrun _).next
  | .yieldPoint .. => (h.yieldPoint _).next
  | .testDue .. => (h.testDue ..).next
  | .kaGapExpiry .. => (h.kaGapExpiry ..).next
  | .graceExpiry .. => (h.graceExpiry ..).next
  | .testStart .. => (h.testStart ..).next
  | .testEnd .. => (h.testEnd ..).next
  | .coreHold .. => (h.atReg _ _ _ (h.coreHold ..)).next
  | .coreRelease .. => (h.atReg _ _ _ (h.coreRelease ..)).next
  | .matmul .. => (h.matmul _).next
  | .shadowLoad .. => (h.shadowLoad _).next
  | .tileSwap .. => (h.tileSwap ..).next
  | .handOver .. => (h.handOver ..).next
  | .vector .. => (h.vector _).next
  | .drainForward .. => (h.drain ..).next
  | .drainDerivative .. => (h.drain ..).next
  | .accPortStart .. => (h.portStart ..).next
  | .spill .. => (h.spill ..).next
  | .resume .. => (h.resume _).next
  | .move .. => (h.move ..).next
  | .sgdWithMomentum .. => (h.runProgram ..).next
  | .adamw .. => (h.runProgram ..).next
  | .signMomentum .. => (h.runProgram ..).next
  | .digestOnly .. => (h.runProgram ..).next
  | .programMemorySlot .. => (h.runProgram ..).next
  | .nop .. => (h.micro ..).next
  | .ld .. => (h.micro ..).next
  | .st .. => (h.micro ..).next
  | .add .. => (h.micro ..).next
  | .sub .. => (h.micro ..).next
  | .mul .. => (h.micro ..).next
  | .fma .. => (h.micro ..).next
  | .div .. => (h.micro ..).next
  | .sqrt .. => (h.micro ..).next
  | .max .. => (h.micro ..).next
  | .min .. => (h.micro ..).next
  | .abs .. => (h.micro ..).next
  | .sgn .. => (h.micro ..).next
  | .neg .. => (h.micro ..).next
  | .sel .. => (h.micro ..).next
  | .endProgram .. => (h.micro ..).next
  | .allReduce .. => (h.collBegin ..).next
  | .reduceScatter .. => (h.collBegin ..).next
  | .allGather .. => (h.collBegin ..).next
  | .broadcast .. => (h.collBegin ..).next
  | .allToAll .. => (h.collBegin ..).next
  | .permute .. => (h.collBegin ..).next
  | .collectiveComplete .. => (h.collComplete _).next
  | .stall .. => (h.stall _).next
  | .sendStream .. => (h.sendStream _).next
  | .sendRemote .. => (h.sendRemote _).next
  | .recvStream .. => (h.recvStream _).next
  | .recvRemote .. => (h.recvRemote _).next
  | .fused .. => (h.fused _).next
  | .stageItem .. => (h.stageItem ..).next
  | .stageStallEnd .. => (h.stageStallEnd ..).next
  | .signal .. => (h.signal _).next
  | .tokenIncrement .. => (h.tokenIncrement ..).next
  | .wait .. => (h.wait _).next
  | .fence .. => (h.fence _).next
  | .regwrite .. => (h.regwriteTask _).next
  | .testKnownAnswer .. => (h.testTask ..).next
  | .testStructural .. => (h.testTask ..).next
  | .apply .. => (h.atReg _ _ _ (h.applyMask ..)).next
  | .coreArrayRetire .. => (h.atReg _ _ _ (h.arrayRetire ..)).next
  | .kaStart .. => (h.atReg _ _ _ (h.kaStart ..)).next
  | .arrayCntClr .. => (h.atReg _ _ _ (h.arrayCntClr ..)).next
  | .accDbgRead .. => (h.atReg _ _ _ (h.accDbgRead ..)).next
  | .accCntClr .. => (h.atReg _ _ _ (h.accCntClr ..)).next
  | .stepBoundary .. => (h.stepBoundary ..).next
  | .snapNow .. => (h.atReg _ _ _ (h.snapNow _)).next
  | .clrAll .. => (h.atReg _ _ _ (h.clrAll _)).next
  | .fetchReadIssue .. => (h.fetchIssue ..).next
  | .fetchReadReturn .. => (h.fetchReturn ..).next
  | .feCntClr .. => (h.atReg _ _ _ (h.feCntClr ..)).next
  | .stackRead .. => (h.stackRead ..).next
  | .stackWrite .. => (h.stackWrite _).next
  | .wcbLineWriteback .. => (h.oldestBack _).next
  | .flush .. => (h.atReg _ _ _ (h.flushStack _)).next
  | .firstTouchCopyDone .. => (h.firstTouchDone ..).next
  | .pinsAbandoned .. => (h.pinsAbandoned _).next
  | .forcedCommit .. => (h.forcedCommit _).next
  | .scrub .. => (h.scrub ..).next
  | .refresh .. => (h.refresh _).next
  | .rtPublish .. => (h.atReg _ _ _ (h.rtPublish _)).next
  | .rtPublishDone => (h.rtPublishDone).next
  | .cruCntClr .. => (h.atReg _ _ _ (h.cruCntClr _)).next
  | .rowContextCreate .. => (h.rowCreate ..).next
  | .rowChunkArrive .. => (h.rowArriveFaulty ..).next
  | .stackThermalChange .. => (h.stackThermal ..).next
  | .go .. => (h.atReg _ _ _ (h.marginGo ..)).next
  | .marginDone .. => (h.marginDone ..).next
  | .flitReceive .. => (h.flitReceive ..).next
  | .resendRequest .. => (h.resendRequest ..).next
  | .bundleTrainingEnd .. => (h.bundleTrainingEnd ..).next
  | .bundleRetire .. => (h.atReg _ _ _ (h.bundleRetire ..)).next
  | .brzCntClr .. => (h.atReg _ _ _ (h.brzCntClr ..)).next
  | .localPllLoss .. => (h.localPllLoss _).next
  | .rootPllLoss => (h.rootPllLoss).next
  | .seqGo .. => (h.seqGo _).next
  | .seqPhaseEnd => (h.seqPhaseEnd).next
  | .seqPhaseTimeout => (h.seqPhaseTimeout).next
  | .domainRst .. => (h.domainRst _).next
  | .resetNAssert => (h.resetNAssert).next
  | .dieRingSlot .. => (h.dieRingSlot ..).next
  | .ringLoopUpdate .. => (h.ringLoopUpdate _).next
  | .ringUnlock .. => (h.ringUnlock _).next
  | .relockSearchEnd .. => (h.relockSearchEnd ..).next
  | .ringCoverTimeout .. => (h.ringCoverTimeout _).next
  | .heaterFeedForward .. => (h.heaterFeedForward _).next
  | .lossOfSignal .. => (h.lossOfSignal _).next
  | .calibrationSlot .. => (h.calibrationSlot _).next
  | .calibrationPhaseEnd .. => (h.calibrationPhaseEnd ..).next
  | .announceTimeout .. => (h.announceTimeout _).next
  | .sparePreempt .. => (h.sparePreempt ..).next
  | .farReadings .. => (h.farReadings ..).next
  | .lossLocation .. => (h.lossLocation _).next
  | .laserCompare .. => (h.laserCompare _).next
  | .dropout .. => (h.dropout _).next
  | .latchRelease .. => (h.latchRelease _).next
  | .collectiveBoundary .. => (h.collectiveBoundary _).next
  | .boundaryTimeout .. => (h.takeWaiting _).next
  | .switchoverPhaseEnd .. => (h.switchoverPhaseEnd _).next
  | .groupAToLc2 .. => (h.atReg _ _ _ (h.groupToLc2 ..)).next
  | .groupBToLc2 .. => (h.atReg _ _ _ (h.groupToLc2 ..)).next
  | .returnLc2ToStandby .. => (h.atReg _ _ _ (h.returnLc2 _)).next
  | .cartridgeInsert .. => (h.cartridgeInsert ..).next
  | .gridLock .. => (h.gridLock ..).next
  | .llStartPhaseEnd .. => (h.llStartPhaseEnd ..).next
  | .llCntClr .. => (h.atReg _ _ _ (h.llCntClr)).next
  | .linkAlign .. => (h.linkAlign _).next
  | .ctrl .. => (h.frameIn fun _ _ h => h.takeCtrl ..).next
  | .nak .. => (h.frameIn fun _ _ h => h.takeNak ..).next
  | .ackTimeout .. => (h.resendFrom ..).next
  | .linkLost .. => (h.linkLost _).next
  | .hallmark .. => (h.frameIn fun _ _ h => h.takeHallmark ..).next
  | .hallmarkPeriodic .. => (h.ifThen (·.sendHallmark _)).next
  | .cert .. => (h.frameIn fun _ _ h => h.takeCert ..).next
  | .badsigRetry .. => (h.badsigRetry _).next
  | .discoveryStart .. => (h.discoveryStart _).next
  | .discoverySettle => (h.discoverySettle).next
  | .gossip .. => (h.frameIn fun _ _ h => h.takeGossip ..).next
  | .gossipHour => (h.gossipHour).next
  | .gossipExpiry => (h.gossipExpiry).next
  | .coll .. => (h.frameIn fun _ _ h => h.takeColl ..).next
  | .collCredit .. => (h.frameIn fun _ _ h => h.takeCredit ..).next
  | .senddata .. => (h.frameIn fun _ _ h => h.takeSendData ..).next
  | .signalFrame .. => (h.frameIn fun _ _ h => h.takeSignal _).next
  | .rwrite .. => (h.frameIn fun _ _ h => h.takeRwrite ..).next
  | .rread .. => (h.frameIn fun _ _ h => h.takeRread ..).next
  | .rresp .. => (h.frameIn fun _ _ h => h.takeRresp ..).next
  | .seal .. => (h.frameIn fun _ _ h => h.takeSeal _).next
  | .retract .. => (h.frameIn fun _ _ h => h.retractStep ..).next
  | .retractDone => (h.retractDone).next
  | .sealVerdict => (h.sealVerdict).next
  | .commit => (h.commitStep).next
  | .sealTimeout .. => (h.sealTimeout _).next
  | .checkGood .. => (h.checkGood _).next
  | .checkHold .. => (h.checkHold ..).next
  | .checkFail .. => (h.checkFail ..).next
  | .sealRoundStart .. => (h.sealRoundStart _).next
  | .colCntClr .. => (h.atReg _ _ _ (h.colCntClr _)).next
  | .ingotBoundary .. => (h.ingotBoundary _).next
  | .ingotPageRead .. => (h.ingotPageRead _).next
  | .page .. => (h.frameIn fun _ _ h => h.branch (·.restoreChunk ..) (·.rxPage _)).next
  | .pageEnd .. => (h.frameIn fun _ _ h => h.branch (·.restorePageEnd _) (·.rxPageEnd _)).next
  | .manifest .. => (h.frameIn fun _ _ h => h.branch (·.restorePiece ..) (·.rxManifest _)).next
  | .close .. => (h.frameIn fun _ _ h => h.takeClose _).next
  | .pageOk .. => (h.frameIn fun _ _ h => h.takePageOk _).next
  | .pageBad .. => (h.frameIn fun _ _ h => h.takePageBad _).next
  | .complete .. => (h.frameIn fun _ _ h => h.takeComplete _).next
  | .refused .. => (h.frameIn fun _ _ h => h.takeRefused _).next
  | .abort .. => (h.frameIn fun _ _ h => h.takeAbort _).next
  | .restoreReq .. => (h.frameIn fun _ _ h => h.takeRestoreReq _).next
  | .ingotRouteTimeout => (h.ingotRouteTimeout).next
  | .hand .. => (h.hand _).next
  | .ingotAbort .. => (h.voidIngot _).next
  | .restore .. => (h.restore).next
  | .ingCntClr .. => (h.ingCntClr).next
  | .primaryAnnounce .. => (h.primaryAnnounce ..).next
  | .dualHoldRelease .. => (h.dualHoldRelease _).next
  | .quarantine .. => (h.quarantine ..).next
  | .unquarantine .. => (h.unquarantine _).next
  | .errorRecord .. => (h.errorRecord _).next
  | .elogEnable .. => (h.regWrite ..).next
  | .pwrEnAssert .. => (h.pwrEnAssert _).next
  | .inrushDone => (h.inrushDone).next
  | .pwrEnDeassert => (h.pwrEnDeassert).next
  | .inputOvervoltage .. => (h.inputOvervoltage _).next
  | .inputVoltageWarning .. => (h.inputVoltageWarning _).next
  | .inputWarningClear .. => (h.inputWarningClear _).next
  | .powerFail .. => (h.powerFail ..).next
  | .railPhaseEnd .. => (h.railPhaseEnd _).next
  | .railFault .. => (h.railFault ..).next
  | .budgetPeriod .. => (h.budgetPeriod _).next
  | .leaveGrant .. => (h.leaveGrant _).next
  | .grantTakesEffect .. => (h.grantTakesEffect _).next
  | .backfillExpiry .. => (h.backfillExpiry _).next
  | .leaveHoldExpiry .. => (h.leaveHoldExpiry ..).next
  | .inputOverpower .. => (h.inputOverpower _).next
  | .sensorSample .. => (h.sensorSample ..).next
  | .quenchExit .. => (h.quenchExit _).next
  | .release .. => (h.atReg _ _ _ (h.thmRelease _)).next
  | .thmCntClr .. => (h.atReg _ _ _ (h.thmCntClr _)).next
  | .coolantInletHigh .. => (h.coolantInletHigh ..).next
  | .hicClaim .. => (h.hicClaim _).next
  | .hicComplete .. => (h.hicComplete ..).next
  | .agentMaskLock .. => (h.agentMaskLock).next
  | .forgeWindow .. => (h.forgeWindow ..).next
  | .dmaRequest .. => (h.dmaRequest ..).next
  | .driveFail .. => (h.driveFail _).next
  | .collectorUnreachable => (h.collectorUnreachable).next
  | .collectorReconnect => (h.collectorReconnect).next
  | .transit .. => (h.transit ..).next
  | .permit .. => (h.permit ..).next
  | .serviceEnter .. => (h.serviceEnter _).next
  | .serviceLeave .. => (h.serviceLeave _).next
  | .profile .. => (h.profileCommand ..).next
  | .debugNonce .. => (h.debugNonce _).next
  | .debugToken .. => (h.debugToken ..).next
  | .mctpControl .. => (h.mctpControl _).next
  | .pldmMonitoring => (h.pldmMonitoring).next
  | .spdmRequest .. => (h.spdmRequest _).next
  | .ppsEdge .. => (h.ppsEdge _).next
  | .ppsHoldover => (h.ppsHoldover).next
  | .setImmediate .. => (h.setImmediate).next
  | .setValid .. => (h.setValid).next
  | .monitorWindowEnd .. => (h.monitorWindowEnd ..).next
  | .idcode => (h.idcode).next
  | .dbgNonce => (h.dbgNonce).next
  | .dbgUnlock .. => (h.dbgUnlock _).next
  | .dbgAccess .. => (h.dbgAccess ..).next
  | .dbgStatus => (h.dbgStatus).next
  | .bypass .. => (h.bypass _).next
  | .lock .. => (h.lock _).next
  | .unlockExpiry => (h.endUnlock).next
  | .halt .. => (h.dbgGe _ _ _ (h.halt ..)).next
  | .step .. => (h.dbgGe _ _ _ (h.stepEngine _)).next
  | .breakEn .. => (h.dbgGe _ _ _ (h.breakEn ..)).next
  | .bootRomStart .. => (h.bootRomStart ..).next
  | .trialWatchdog => (h.trialWatchdog).next
  | .firmwareUpdateComponent .. => (h.firmwareUpdate ..).next
  | .flashRead .. => (h.flashStart ..).next
  | .flashProgram .. => (h.flashStart ..).next
  | .flashErase .. => (h.flashStart ..).next
  | .flashOpDone .. => (h.flashOpDone _).next
  | .counterRaise .. => (h.counterRaise ..).next
  | .profileSwitch .. => (h.profCmd ..).next
  | .profileSwitchReset .. => (h.profCmd ..).next
  | .job .. => (h.regWrite ..).next
  | .startupPhaseEnd .. => (h.startupPhaseEnd _).next
  | .startupPhaseTimeout => (h.startupPhaseTimeout).next
  | .feedIdSample _ => (Canon.branch (h.feedIdSample _) (·.tellHallmarks) (·.tellHallmarks.lookFed _)).next
  | .leakDetect .. => (h.leakDetect ..).next
  | .resetNRelease => (h.resetNRelease).next
  | .inputReturn .. => (h.inputReturn _).next
  | .holdUpEnd => (h.holdUpEnd).next
  | .coolantOutletHigh .. => (h.coolantOutletHigh ..).next
  | .gridLockTimeout .. => (h.gridLockTimeout _).next
  | .cartridgeCommissioning .. => (h.cartridgeCommissioning ..).next
  | .relockOverrun .. => (h.relockOverrun _).next
  | .darkLaneCalibrationRetry .. => (h.darkLaneRetry ..).next
  | .ppsOutPulse => (h.ppsOutPulse).next
  | .pcieLinkChange .. => (h.pcieLinkChange ..).next
  | .managementLinkChange .. => (h.managementLinkChange ..).next
  | .dbgTrstN => (h.dbgTrstN).next

end Canon

/-- Settles O60: a tick keeps the form (`Canon.tick`), and so does each command (`Canon.exec`). -/
theorem everyStepKeepsTheCanonicalForm : Obligations.EveryStepKeepsTheCanonicalForm := by
  intro s t hs hstep
  rw [canonical_iff] at hs ⊢
  unfold step at hstep
  split at hstep
  next => cases hstep; exact hs.tick
  next c rest _ =>
    obtain ⟨u, hu, hc⟩ := Canon.exec (s := { s with pending := rest }) hs.free c
    rw [hu] at hstep
    cases hstep
    exact hc

end Sys2Proof.Machine
end

section
/-! Device time over one tick (R418, R419), and what reset leaves. -/

namespace Sys2Proof.Machine

/-! ### The clock -/

/-- What a tick works off has the offset's sign and is at most 65, so the rest of the offset is smaller by just that. -/
theorem natAbs_sub_slewStep (n : Int) :
    (n - slewStep n).natAbs ≤ n.natAbs ∧ n.natAbs - (n - slewStep n).natAbs ≤ 65 := by
  unfold slewStep
  split <;> omega

theorem neg_le_slewStep (n : Int) : -65 ≤ slewStep n := by
  unfold slewStep
  split <;> omega

namespace State

theorem tick_of_unlocked (s : State) (h : s.flag BOOT_CLK_STATUS_ROOT_LOCK 0 0 = false) : s.tick = s := by
  simp [tick, h]

theorem tick_of_locked (s : State) (h : s.flag BOOT_CLK_STATUS_ROOT_LOCK 0 0 = true) : s.tick = s.runClock := by
  simp [tick, h]

/-- With a rate of 0 the remainder stays and a tick adds 10 ns and what is worked off, in 1/65536 ns. -/
theorem runClock_of_rate_zero (s : State) (hrate : s.getF TIME_STATUS_RATE 0 0 = 0) (h0 : 0 ≤ s.clock.rem)
    (h1 : s.clock.rem < 10000000) :
    s.runClock = { s with
      time := ((s.time : Int) * 65536 + s.frac + 655360 + slewStep s.clock.slew).toNat / 65536,
      frac := ((s.time : Int) * 65536 + s.frac + 655360 + slewStep s.clock.slew).toNat % 65536,
      clock := { s.clock with slew := s.clock.slew - slewStep s.clock.slew } } := by
  have hr : s.clock.rem + rateOf 0 * 65536 = s.clock.rem := by simp [rateOf]
  unfold runClock
  simp only [hrate, hr, Int.ediv_eq_zero_of_lt h0 h1, Int.emod_eq_of_lt h0 h1, Int.add_zero]

/-- With no offset left device time runs 10 ns a tick. -/
theorem runClock_of_no_slew (s : State) (hrate : s.getF TIME_STATUS_RATE 0 0 = 0) (h0 : 0 ≤ s.clock.rem)
    (h1 : s.clock.rem < 10000000) (hfrac : s.frac < 65536) (hslew : s.clock.slew = 0) :
    s.runClock = { s with time := s.time + 10 } := by
  have hstep : slewStep 0 = 0 := rfl
  have hsum : ((s.time : Int) * 65536 + s.frac + 655360 + 0).toNat = 65536 * (s.time + 10) + s.frac := by omega
  rw [runClock_of_rate_zero s hrate h0 h1, hslew, hstep, hsum, Nat.mul_add_div (by decide), Nat.mul_add_mod,
    Nat.div_eq_of_lt hfrac, Nat.mod_eq_of_lt hfrac, Nat.add_zero, Int.sub_zero, ← hslew]

end State

/-- Settles O57: a tick changes the clock alone, by 10 ns and the part of the offset worked off. -/
theorem idleStepsRunTheClock : Obligations.IdleStepsRunTheClock := by
  intro s hq
  have hstep : step s = .next s.tick := by rw [step, hq]
  refine ⟨fun h => by rw [hstep, s.tick_of_unlocked h], fun hlock hrate h0 h1 hfrac => ⟨fun hslew => ?_, ?_⟩⟩
  · rw [hstep, s.tick_of_locked hlock, s.runClock_of_no_slew hrate h0 h1 hfrac hslew]
  · obtain ⟨hle, hsub⟩ := natAbs_sub_slewStep s.clock.slew
    have hneg := neg_le_slewStep s.clock.slew
    refine ⟨s.runClock, by rw [hstep, s.tick_of_locked hlock], rfl, ?_⟩
    rw [s.runClock_of_rate_zero hrate h0 h1]
    exact ⟨Nat.mod_lt _ (by decide), hle, hsub, by dsimp only; omega⟩

/-- Settles O58: reset writes each register its reset value, the empty tables are in canonical form. -/
theorem resetLeavesTheTables : Obligations.ResetLeavesTheTables := by
  refine ⟨rfl, rfl, fun _ => rfl, by decide, rfl, by decide, by decide⟩

end Sys2Proof.Machine
end

section
/-! The debug port (R424, R427): a TAP instruction writes the instruction register and the reply, a write of DBG_GE_CTRL
with the scope takes effect. -/

namespace Sys2Proof.Machine

/-! ### TAP instructions -/

/-- What the TAP keeps moves no interrupt level. -/
theorem latchEdges_hub (s : State) (x : HubSt) : s.latchEdges { s with hub := x } = { s with hub := x } :=
  latchEdges_of_levels_kept (fun _ _ => rfl) rfl rfl

theorem exec_idcode (s : State) : exec .idcode s = .next (s.tap 0x01 (.word 0x1D740A5B)) :=
  congrArg _ (latchEdges_hub s _)

theorem exec_dbgNonce (s : State) : exec .dbgNonce s = .next (s.tap 0x10 (.nonce s.nonce)) :=
  congrArg _ (latchEdges_hub s _)

theorem exec_dbgStatus (s : State) : exec .dbgStatus s = .next (s.tap 0x13 (.word s.dbgStatusWord)) :=
  congrArg _ (latchEdges_hub s _)

/-- The bits leave one place later, a 0 first. -/
theorem exec_bypass (s : State) (bits : List Bool) (b : Bool) :
    exec (.bypass (bits ++ [b])) s = .next (s.tap 0xFF (.bits (false :: bits))) := by
  have hbits : (false :: (bits ++ [b])).take (bits ++ [b]).length = false :: bits := by simp
  rw [← hbits]
  exact congrArg _ (latchEdges_hub s _)

theorem exec_dbgTrstN (s : State) : exec .dbgTrstN s = .next { s with hub := { s.hub with ir := 0x01 } } :=
  congrArg _ (latchEdges_hub s _)

/-! ### Halting a graph engine -/

namespace State

theorem dbgGe_of_scope (s t : State) (d : Nat) (v : Word) (h : s.hasScope 2 = true) : s.dbgGe .debug d v t = t :=
  if_pos ⟨rfl, h⟩

/-- Halting shows HALTED at once where nothing of the die is dispatched and no step is under way. -/
theorem halt_true (s : State) (d : Nat) :
    s.halt d true =
      if (s.engine d).stepping = false ∧ s.dispatchedOf d = [] then
        (s.setF DBG_GE_CTRL_HALT 0 d 1).setF DBG_GE_CTRL_HALTED 0 d 1
      else s.setF DBG_GE_CTRL_HALT 0 d 1 := by
  have hhalt : (s.setF DBG_GE_CTRL_HALT 0 d 1).flag DBG_GE_CTRL_HALT 0 d = true := by
    rw [flag, getF_setF_same _ _ _ _ _ (by decide)]; rfl
  have hdis : (s.setF DBG_GE_CTRL_HALT 0 d 1).dispatchedOf d = s.dispatchedOf d := rfl
  have heng : (s.setF DBG_GE_CTRL_HALT 0 d 1).engine d = s.engine d := rfl
  simp [halt, checkHalted, hhalt, hdis, heng]

theorem stepEngine_of_halted (s : State) (d : Nat) (h : s.flag DBG_GE_CTRL_HALTED 0 d = true) :
    s.stepEngine d = (s.setEngine d { s.engine d with stepping := true }).setF DBG_GE_CTRL_HALTED 0 d 0 := if_pos h

end State

theorem exec_halt (s : State) (d : Fin 4) (on : Bool) (h : s.hasScope 2 = true) :
    exec (.halt .debug d on) s = .next (s.latchEdges (s.halt d on)) :=
  congrArg (commit s) (s.dbgGe_of_scope _ _ _ h)

theorem exec_step (s : State) (d : Fin 4) (h : s.hasScope 2 = true) :
    exec (.step .debug d) s = .next (s.latchEdges (s.stepEngine d)) :=
  congrArg (commit s) (s.dbgGe_of_scope _ _ _ h)

theorem exec_breakEn (s : State) (d : Fin 4) (on : Bool) (g : Fin 16) (n : BitVec 16) (h : s.hasScope 2 = true) :
    exec (.breakEn .debug d on g n) s = .next (s.latchEdges (s.breakEn d on g n.toNat)) :=
  congrArg (commit s) (s.dbgGe_of_scope _ _ _ h)

/-- Settles O3: the TAP's instructions are `exec_idcode` to `exec_dbgTrstN`, the writes of DBG_GE_CTRL `exec_halt` to
`exec_breakEn`. -/
theorem theDebugPortAnswersAndHalts : Obligations.TheDebugPortAnswersAndHalts := by
  refine ⟨fun s => ⟨exec_idcode s, fun n hn => hn ▸ exec_dbgNonce s, fun hu hs w hw => ?_, fun hu => ?_,
    fun b bits => exec_bypass s bits b, exec_dbgTrstN s⟩, fun s d hscope => ⟨fun hd hst => ?_, fun hd => ?_, ?_,
    fun hh => ?_, fun on g n => ?_⟩⟩
  · rw [exec_dbgStatus, State.dbgStatusWord, if_pos (by simp [hu, hs]), ← hw]; rfl
  · rw [exec_dbgStatus, State.dbgStatusWord, if_neg (by simp [hu])]; rfl
  · rw [exec_halt s d true hscope, s.halt_true, if_pos ⟨hst, hd⟩]
  · rw [exec_halt s d true hscope, s.halt_true, if_neg fun h => hd h.2]
  · rw [exec_halt s d false hscope]; rfl
  · rw [exec_step s d hscope, s.stepEngine_of_halted d hh]
  · rw [exec_breakEn s d on g n hscope]
    cases on <;> rfl

end Sys2Proof.Machine
end

section
/-! Device time set and disciplined (R419, R420), and the end of a monitor window (R423). -/

namespace Sys2Proof.Machine

/-! ### Device time -/

theorem exec_setImmediate (s : State) (r : Requester) :
    exec (.setImmediate r) s = .next (s.latchEdges s.setImmediate) := rfl

theorem exec_ppsEdge (s : State) (stamp : Nat) : exec (.ppsEdge stamp) s = .next (s.latchEdges (s.ppsEdge stamp)) := rfl

theorem exec_ppsHoldover (s : State) : exec .ppsHoldover s = .next (s.latchEdges s.ppsHoldover) := rfl

theorem exec_monitorWindowEnd (s : State) (die : Fin 5) (m : Fin 64) :
    exec (.monitorWindowEnd die m) s = .next (s.latchEdges (s.monitorWindowEnd die m)) := rfl

theorem exec_ppsOutPulse (s : State) : exec .ppsOutPulse s = .next s.ppsOutPulse :=
  congrArg _ (latchEdges_of_levels_kept (fun _ _ => rfl) rfl rfl)

namespace State

/-- What an edge less than 1 ms off leaves: it is slewed out. -/
theorem ppsAccept_of_near (s : State) (stamp e : Nat)
    (he : e = if s.flag TIME_CFG_SET_VALID 0 0 then s.getF TIME_SET_NEXT_NS 0 0
      else (stamp + 500000000) / 1000000000 * 1000000000)
    (hnear : ((stamp : Int) - e).natAbs < 1000000) :
    (s.ppsAccept stamp).clock = { s.clock with first := false, lastAt := stamp, slew := ((e : Int) - stamp) * 65536 } ∧
    (s.ppsAccept stamp).time = s.time ∧
    (s.ppsAccept stamp).flag TIME_CFG_SET_VALID 0 0 = false ∧
    (s.ppsAccept stamp).getF TIME_PPS_LAST_NS 0 0 = stamp % 2 ^ TIME_PPS_LAST_NS.width ∧
    (s.ppsAccept stamp).flag TIME_STATUS_HOLDOVER 0 0 = false ∧
    (s.ppsAccept stamp).flag TIME_STATUS_LOCKED 0 0 = decide (((stamp : Int) - e).natAbs < 1000) ∧
    (∀ k, k.name ≠ .TIME_CFG → k.name ≠ .TIME_STATUS → k.name ≠ .TIME_PPS_LAST →
      (s.ppsAccept stamp).getR k = s.getR k) ∧
    (s.ppsAccept stamp).mem = s.mem ∧ (s.ppsAccept stamp).dram = s.dram ∧
    (s.ppsAccept stamp).stackTab = s.stackTab := by
  have hfar : ¬ (1000000 ≤ ((stamp : Int) - e).natAbs) := by simpa using hnear
  unfold ppsAccept offer draw
  simp only [← he, if_pos hnear]
  refine ⟨?_, ?_, ?_, ?_, ?_, ?_, fun k h1 h2 h3 => ?_, ?_, ?_, ?_⟩
  · simp [hfar]
  · simp
  · simp (disch := decide)
  · simp (disch := decide)
  · simp (disch := decide)
  · simp (disch := decide)
  · simp [getR_setF_of_reg, TIME_CFG_SET_VALID, TIME_PPS_LAST_NS, TIME_STATUS_OFFSET, TIME_STATUS_HOLDOVER,
      TIME_STATUS_LOCKED, TIME_STATUS_RATE, h1, h2, h3]
  · simp
  · simp
  · simp

/-- The first edge, and one 900 to 1,100 ms after the last, is accepted. -/
theorem ppsEdge_of_accepted (s : State) (stamp : Nat) (hen : s.flag TIME_CFG_PPS_EN 0 0 = true)
    (hacc : s.clock.first = true ∨ s.clock.lastAt + 900000000 ≤ stamp ∧ stamp ≤ s.clock.lastAt + 1100000000) :
    s.ppsEdge stamp = s.ppsAccept stamp := by
  rw [ppsEdge, if_neg (by simp [hen]), if_pos (by simpa using hacc)]

/-! ### Monitors (R423) -/

theorem mon_putN (s : State) (die m : Nat) (x : MonSt) :
    ({ s with mons := Tab.putN {} s.mons (die * 64 + m) x } : State).mon die m = x := by
  simp [mon]

/-- The bins of a snapshot, written bin after bin. -/
theorem getF_foldl_bins (b : MonBank) (die m n : Nat) (s : State) (i : Nat) :
    ((List.range n).foldl (fun s i => s.setF MON_BIN_COUNT die (32 * m + i) (Tab.getN 0 b.bins i)) s).getF
      MON_BIN_COUNT die (32 * m + i) =
        if i < n then Tab.getN 0 b.bins i % 2 ^ MON_BIN_COUNT.width else s.getF MON_BIN_COUNT die (32 * m + i) := by
  induction n with
  | zero => simp
  | succ n ih =>
    rw [List.range_succ, List.foldl_append, List.foldl_cons, List.foldl_nil]
    by_cases hi : i = n
    · subst hi
      rw [getF_setF_self _ _ _ _ _ (by decide), if_pos (Nat.lt_succ_self i)]
    · rw [getF_setF_of_key _ _ _ _ _ _ _ _ (by simp [Field.key]; omega), ih]
      simp only [Nat.lt_succ_iff_lt_or_eq, hi, or_false]

/-- The registers of a snapshot but its bins. -/
def monHead (s : State) (die m n : Nat) (b : MonBank) : State :=
  let s := if s.flag MON_STATUS_READY die m then s.setF MON_STATUS_OVERRUN die m 1 else s
  let s := (s.wrapF MON_STATUS_SEQ die m).setF MON_STATUS_READY die m 1
  let s := (s.setF MON_STATUS_WINDOW die m n).setF MON_STATUS_STEPPED die m (if b.stepped then 1 else 0)
  let s := s.setF MON_RANGE_MAX die m (BitVec.ofInt 32 b.hi).toNat
  let s := s.setF MON_RANGE_MIN die m (BitVec.ofInt 32 b.lo).toNat
  s.putR ⟨.MON_COUNT, die, m⟩ (BitVec.ofNat 64 (min b.count (2 ^ 32 - 1)))

theorem monSnap_eq (s : State) (die m n : Nat) (b : MonBank) :
    s.monSnap die m n b = (List.range 32).foldl
      (fun s i => s.setF MON_BIN_COUNT die (32 * m + i) (Tab.getN 0 b.bins i)) (s.monHead die m n b) := rfl

theorem getF_monSnap_status (s : State) (die m n : Nat) (b : MonBank) (f : Field) (h : f.reg = .MON_STATUS) :
    (s.monSnap die m n b).getF f die m = (s.monHead die m n b).getF f die m := by
  rw [monSnap_eq]
  refine List.foldlRecOn (motive := fun u : State => u.getF f die m = (s.monHead die m n b).getF f die m) _ _ rfl
    fun u hu i _ => ?_
  rw [getF_setF_of_reg _ _ _ _ _ _ _ _ (by rw [h]; decide), hu]

theorem monSnap_reads (s : State) (die m n : Nat) (b : MonBank) :
    (s.monSnap die m n b).flag MON_STATUS_READY die m = true ∧
    (s.monSnap die m n b).getF MON_STATUS_WINDOW die m = n % 2 ^ MON_STATUS_WINDOW.width ∧
    (s.monSnap die m n b).getF MON_STATUS_SEQ die m = (s.getF MON_STATUS_SEQ die m + 1) % 2 ^ MON_STATUS_SEQ.width ∧
    ∀ i : Fin 32, (s.monSnap die m n b).getF MON_BIN_COUNT die (32 * m + i) =
      Tab.getN 0 b.bins i % 2 ^ MON_BIN_COUNT.width := by
  refine ⟨?_, ?_, ?_, fun i => ?_⟩
  · rw [flag, getF_monSnap_status _ _ _ _ _ _ rfl, ← flag, monHead]
    simp (disch := decide)
  · rw [getF_monSnap_status _ _ _ _ _ _ rfl, monHead]
    simp (disch := decide)
  · rw [getF_monSnap_status _ _ _ _ _ _ rfl, monHead]
    split <;> simp (disch := decide)
  · rw [monSnap_eq, getF_foldl_bins, if_pos i.isLt]

/-- The registers of monitor `m` of a die. -/
def monRegs (die m : Nat) (k : RegKey) : Prop :=
  k.inst = die ∧ ((k.name = .MON_STATUS ∨ k.name = .MON_RANGE ∨ k.name = .MON_COUNT) ∧ k.idx = m ∨
    k.name = .MON_BIN ∧ k.idx / 32 = m)

theorem onlyRegs_foldl_mem {W : RegKey → Prop} {s u : State} {α : Type} (l : List α) (f : State → α → State)
    (hf : ∀ u, ∀ x ∈ l, OnlyRegs W s u → OnlyRegs W s (f u x)) (h : OnlyRegs W s u) : OnlyRegs W s (l.foldl f u) :=
  List.foldlRecOn (motive := OnlyRegs W s) _ _ h fun u hu x hx => hf u x hx hu

theorem onlyRegs_monSnap (s : State) (die m n : Nat) (b : MonBank) : OnlyRegs (monRegs die m) s (s.monSnap die m n b) := by
  have hstatus (f : Field) (h : f.reg = .MON_STATUS ∨ f.reg = .MON_RANGE) : monRegs die m (f.key die m) :=
    ⟨rfl, .inl ⟨h.imp_right .inl, rfl⟩⟩
  have hover : OnlyRegs (monRegs die m) s
      (if s.flag MON_STATUS_READY die m then s.setF MON_STATUS_OVERRUN die m 1 else s) := by
    split
    · exact (OnlyRegs.refl _ _).setF _ _ _ _ (hstatus _ (.inl rfl)) (by decide)
    · exact OnlyRegs.refl _ _
  rw [monSnap_eq]
  refine onlyRegs_foldl_mem _ _ (fun u i hi hu => hu.setF _ _ _ _ ⟨rfl, .inr ⟨rfl, ?_⟩⟩ (by decide)) ?_
  · have := List.mem_range.mp hi
    show (32 * m + i) / 32 = m
    omega
  · exact ((((((hover.wrapF _ _ _ (hstatus _ (.inl rfl)) (by decide)).setF _ _ _ _ (hstatus _ (.inl rfl)) (by decide)).setF
      _ _ _ _ (hstatus _ (.inl rfl)) (by decide)).setF _ _ _ _ (hstatus _ (.inl rfl)) (by decide)).setF
      _ _ _ _ (hstatus _ (.inr rfl)) (by decide)).setF _ _ _ _ (hstatus _ (.inr rfl)) (by decide)).putR _ _
      ⟨rfl, .inl ⟨.inr (.inr rfl), rfl⟩⟩ (by simp)

/-- The window that ends: its bank is emptied and becomes the snapshot, the settings come into force. -/
theorem monitorWindowEnd_of_bank (s : State) (die m cur n : Nat) (b : MonBank)
    (hen : MON_CFG_EN.get (s.mon die m).cfg = 1) (hcur : cur = s.time / winNs (s.mon die m).cfg) (h2 : 2 ≤ cur)
    (hb : b = if cur % 2 = 0 then (s.mon die m).even else (s.mon die m).odd) (hn : b.window = some n)
    (hlt : n + 2 ≤ cur) :
    ∃ y : MonSt, y.cfg = s.getR ⟨.MON_CFG, die, m⟩ ∧ y.scale = s.getR ⟨.MON_SCALE, die, m⟩ ∧
      (if cur % 2 = 0 then y.even else y.odd) = {} ∧
      s.monitorWindowEnd die m =
        ({ s with mons := Tab.putN {} s.mons (die * 64 + m) y } : State).monSnap die m n b := by
  let x := s.mon die m
  let y : MonSt := { x with cfg := s.getR ⟨.MON_CFG, die, m⟩, scale := s.getR ⟨.MON_SCALE, die, m⟩ }
  refine ⟨{ if cur % 2 = 0 then { y with even := {} } else { y with odd := {} } with late := 0, snapped := some n },
    ?_, ?_, ?_, ?_⟩
  · split <;> rfl
  · split <;> rfl
  · split <;> rfl
  · have hwin : b.window.getD (cur - 2) = n := by rw [hn]; rfl
    unfold monitorWindowEnd
    simp only [← hcur, ← hb, hwin]
    rw [if_pos ⟨hen, h2, by omega⟩]

end State

/-- Settles O5: an accepted edge reads as `ppsAccept_of_near` says, the end of a monitor window as `monSnap_reads`. -/
theorem deviceTimeAndMonitorWindows : Obligations.DeviceTimeAndMonitorWindows := by
  refine ⟨fun s r now hnow => ⟨fun hen => ?_, fun hen => ?_, rfl, exec_ppsOutPulse s⟩,
    fun s => ⟨fun stamp e hen hacc he hnear hlt => ?_, fun hhold => ?_⟩,
    fun s die m cur n b hen hcur h2 hb hn hlt => ?_⟩
  · refine ⟨s.mons.map fun e => (e.1, e.2.cut s.time), ?_⟩
    rw [exec_setImmediate, State.setImmediate, if_neg (by simp [hen]), State.stepTime, hnow]
  · rw [exec_setImmediate, State.setImmediate, if_pos hen, latchEdges_self]
  · have hedge := s.ppsEdge_of_accepted stamp hen hacc
    obtain ⟨hclock, htime, hset, hlast, hhold, hlock, hregs, hmem, hdram, hstack⟩ := s.ppsAccept_of_near stamp e he hnear
    refine ⟨_, exec_ppsEdge s stamp, ?_⟩
    rw [hedge]
    simp (disch := decide) only [State.latchEdges_clock, State.latchEdges_time, State.latchEdges_mem,
      State.latchEdges_dram, State.latchEdges_stackTab, State.flag_latch, State.getF_latch, hclock, htime, hset, hlast,
      hhold, hlock, hmem, hdram, hstack, true_and, and_true]
    refine ⟨Nat.mod_eq_of_lt hlt, fun k h1 h2 h3 _ h4 => ?_⟩
    rw [State.getR_latchEdges _ _ _ h4, hregs k h1 h2 h3]
  · rw [exec_ppsHoldover, State.ppsHoldover, if_neg (by simp [hhold])]
  · obtain ⟨y, hcfg, hscale, hbank, heq⟩ := s.monitorWindowEnd_of_bank die m cur n b hen hcur h2 hb hn hlt
    obtain ⟨hready, hwindow, hseq, hbins⟩ := State.monSnap_reads
      { s with mons := Tab.putN {} s.mons (die * 64 + m) y } die m n b
    obtain ⟨hrest, hkept⟩ := State.onlyRegs_monSnap { s with mons := Tab.putN {} s.mons (die * 64 + m) y } die m n b
    have hmon : (s.latchEdges (s.monitorWindowEnd die m)).mon die m = y := by
      rw [State.mon, State.latchEdges_mons, heq, hrest]
      exact State.mon_putN ..
    refine ⟨_, exec_monitorWindowEnd s die m, ?_⟩
    rw [hmon]
    refine ⟨hcfg, hscale, hbank, ?_, ?_, ?_, fun i => ?_, ?_, ?_⟩
    · rw [State.flag_latch _ _ _ _ _ (by decide), heq, hready]
    · rw [State.getF_latch _ _ _ _ _ (by decide), heq, hwindow]
    · rw [State.getF_latch _ _ _ _ _ (by decide), heq, hseq]; rfl
    · rw [State.getF_latch _ _ _ _ _ (by decide), heq, hbins]
    · rw [State.latchEdges_eq, heq, hrest]
    · rw [heq]
      exact Kept.latch (s := s) hkept s

end Sys2Proof.Machine
end

section
/-! What a package reset leaves (R226). -/

namespace Sys2Proof.Machine

/-! ### The package reset (R226) -/

/-- A table filtered by key: what is filtered out reads as an unlisted key. -/
theorem Tab.get_filter_key {κ α : Type} [DecidableEq κ] (d : κ → α) (t : Tab κ α) (p : κ → Bool) (k : κ) :
    Tab.get d (t.filter fun e => p e.1) k = if p k then Tab.get d t k else d k := by
  induction t with
  | nil => simp [Tab.get]
  | cons e t ih =>
    rw [List.filter_cons]
    by_cases hk : e.1 = k
    · by_cases hp : p k
      · simp [hk, hp, Tab.get]
      · simp [hk, hp, ih]
    · by_cases hp : p e.1
      · simp [hk, hp, Tab.get, ih]
      · simp [hk, hp, Tab.get, ih]

namespace State

/-- What a package reset leaves before the loss bits, the nonce, the cause and the bays are put back. -/
def wiped (s : State) : State :=
  { State.reset with
    pending := s.pending
    fresh := s.fresh
    regs := s.regs.filter fun e => keptAtReset e.1
    input := { s.input with railPhase := 0, railStopped := false, orderly := false }
    elog := { stream := s.elog.stream, spool := s.elog.spool, spoolDropped := s.elog.spoolDropped }
    light := { carts := s.light.carts, farBase := s.light.farBase }
    ingot := { failHours := s.ingot.failHours, upHours := s.ingot.upHours, ownLog := s.ingot.ownLog,
               partnerLog := s.ingot.partnerLog }
    hub := { nonces := s.hub.nonces + 1 }
    boot := { hdr0 := s.boot.hdr0, hdr1 := s.boot.hdr1, osHdr0 := s.boot.osHdr0, osHdr1 := s.boot.osHdr1,
              flash := s.boot.flash, erased := s.boot.erased, commanded := s.boot.commanded,
              feedReads := s.boot.feedReads, feedSeen := s.boot.feedSeen } }

/-- The loss bits, the nonce and the cause, put into a state. -/
def putLoss (t : State) (clk : Word) (n cause : Nat) : State :=
  ((((t.setF BOOT_CLK_STATUS_LOST 0 0 (BOOT_CLK_STATUS_LOST.get clk)).setF BOOT_CLK_STATUS_ROOT_LOST 0 0
    (BOOT_CLK_STATUS_ROOT_LOST.get clk)).putR ⟨.DBG_NONCE0, 0, 0⟩ ((Config.nonce n).setWidth 64)).putR
    ⟨.DBG_NONCE1, 0, 0⟩ ((Config.nonce n >>> 64).setWidth 64)).setF BOOT_RST_STATUS_CAUSE 0 0 cause

theorem packageReset_eq (s : State) (cause : Nat) :
    s.packageReset cause =
      s.keepCarts (s.wiped.putLoss (s.getR ⟨.BOOT_CLK_STATUS, 0, 0⟩) (s.hub.nonces + 1) cause) := rfl

theorem getR_wiped (s : State) (k : RegKey) : s.wiped.getR k = if keptAtReset k then s.getR k else k.reset :=
  Tab.get_filter_key _ _ _ _

/-- What the bays sense is written to LC_STATUS alone. -/
theorem onlyRegs_keepCarts (s t : State) : OnlyRegs (·.name = .LC_STATUS) t (s.keepCarts t) :=
  OnlyRegs.foldl _ _ (fun _ _ h => ((h.setF _ _ _ _ rfl (by decide)).setF _ _ _ _ rfl (by decide)).setF _ _ _ _ rfl
    (by decide)) (OnlyRegs.refl _ _)

theorem getR_keepCarts (s t : State) (k : RegKey) (h : k.name ≠ .LC_STATUS) : (s.keepCarts t).getR k = t.getR k :=
  List.foldlRecOn (motive := fun u : State => u.getR k = t.getR k) _ _ rfl fun u hu i _ => by
    rw [getR_setF_of_reg _ _ _ _ _ _ h, getR_setF_of_reg _ _ _ _ _ _ h, getR_setF_of_reg _ _ _ _ _ _ h, hu]

theorem getR_putLoss (t : State) (clk : Word) (n cause : Nat) (k : RegKey)
    (h : k.name ∉ [.BOOT_CLK_STATUS, .BOOT_RST_STATUS, .DBG_NONCE0, .DBG_NONCE1]) :
    (t.putLoss clk n cause).getR k = t.getR k := by
  simp only [List.mem_cons, List.not_mem_nil, or_false, not_or] at h
  obtain ⟨hclk, hrst, h0, h1⟩ := h
  rw [putLoss, getR_setF_of_reg _ _ _ _ _ _ hrst, getR_putR, if_neg (by rintro rfl; exact h1 rfl), getR_putR,
    if_neg (by rintro rfl; exact h0 rfl), getR_setF_of_reg _ _ _ _ _ _ hclk, getR_setF_of_reg _ _ _ _ _ _ hclk]

/-- Every register but those the pins, the bays, the flash counters, the nonce and the loss bits hold reads its reset
value after a package reset. -/
theorem getR_packageReset (s : State) (cause : Nat) (k : RegKey)
    (h : k.name ∉ [.BOOT_CTR, .PWR_PINS, .PWR_IN, .THM_PLATE, .BOOT_CLK_STATUS, .BOOT_RST_STATUS, .DBG_NONCE0,
      .DBG_NONCE1, .LC_STATUS]) : (s.packageReset cause).getR k = k.reset := by
  simp only [List.mem_cons, List.not_mem_nil, or_false, not_or] at h
  obtain ⟨hctr, hpins, hin, hplate, hclk, hrst, h0, h1, hlc⟩ := h
  rw [packageReset_eq, getR_keepCarts _ _ _ hlc, getR_putLoss _ _ _ _ _ (by simp [hclk, hrst, h0, h1]), getR_wiped,
    if_neg (by simp [keptAtReset, hctr, hpins, hin, hplate])]

/-- The fields of BOOT_CLK_STATUS and BOOT_RST_STATUS after a package reset: the loss bits kept, the cause shown. -/
theorem getF_packageReset_clk (s : State) (cause : Nat) :
    (s.packageReset cause).getF BOOT_CLK_STATUS_LOST 0 0 = s.getF BOOT_CLK_STATUS_LOST 0 0 ∧
    (s.packageReset cause).getF BOOT_CLK_STATUS_ROOT_LOST 0 0 = s.getF BOOT_CLK_STATUS_ROOT_LOST 0 0 ∧
    (s.packageReset cause).getF BOOT_RST_STATUS_CAUSE 0 0 = cause % 2 ^ BOOT_RST_STATUS_CAUSE.width := by
  have hbays : ∀ (f : Field) t, f.reg ≠ .LC_STATUS → (s.keepCarts t).getF f 0 0 = t.getF f 0 0 := fun f t hf =>
    congrArg f.get (getR_keepCarts s t (f.key 0 0) hf)
  refine ⟨?_, ?_, ?_⟩
  · rw [packageReset_eq, hbays _ _ (by decide), putLoss]
    simp (disch := decide) only [getF_setF_apart, getF_putR_apart, getF_setF_self]
    exact Nat.mod_eq_of_lt (Field.get_lt _ _)
  · rw [packageReset_eq, hbays _ _ (by decide), putLoss]
    simp (disch := decide) only [getF_setF_apart, getF_putR_apart, getF_setF_self]
    exact Nat.mod_eq_of_lt (Field.get_lt _ _)
  · rw [packageReset_eq, hbays _ _ (by decide), putLoss, getF_setF_self _ _ _ _ _ (by decide)]

/-- The parts of the state that hold no register are those of `wiped`. -/
theorem packageReset_rest (s : State) (cause : Nat) :
    s.packageReset cause = { s.wiped with regs := (s.packageReset cause).regs } := by
  rw [packageReset_eq]
  exact (s.onlyRegs_keepCarts _).1

end State

end Sys2Proof.Machine
end

section
/-! A quench of a compute die, part by part (R394, R396): what it cuts, and that it leaves the other dies alone. -/

namespace Sys2Proof.Machine

namespace State

/-! ### A quench in its parts (R394, R396) -/

/-- The cause shown, a module cause's absence counted from now. -/
def quenchMark (s : State) (d : Nat) (cause : QuenchCause) : State :=
  let s := s.setF cause.field d 0 1
  if cause = .module then s.setQuench d { s.quenchOf d with clearSince := s.time } else s

/-- Grants issued and not yet in effect wait again (assumption 17). -/
def quenchWithdraw (s : State) (d : Nat) : State :=
  s.setEngine d { s.engine d with
    issued := []
    waitq := (s.engine d).waitq ++ ((s.engine d).issued.filterMap fun x => (s.task? x.task).map fun t =>
      ⟨x.task, x.tokens, t.priority, t.crit, x.since, x.core⟩) }

/-- No grant stands, none is on its way, no core holds tokens. -/
def quenchDrop (s : State) (d : Nat) : State :=
  ((s.quenchWithdraw d).dropHeld d).setF PWR_LV_STATUS_GRANTED d 0 0

/-- The cut, told to the light layer as a release. -/
def quenchCut (s : State) (d : Nat) : State :=
  if s.granted d = 0 then s.quenchDrop d else (s.quenchDrop d).notify d (-(s.granted d : Int)) (s.quenchDrop d).time

/-- The array at ÷10 and the quench shown. -/
def quenchShow (s : State) (d : Nat) : State :=
  let s := s.setF BOOT_CLK_STATUS_ARRAY_HALF 0 0 (s.getF BOOT_CLK_STATUS_ARRAY_HALF 0 0 ||| 2 ^ d)
  let s := s.setF THM_STATUS_QUENCHED d 0 1
  s.setF PWR_STATUS_QUENCHED 0 0 (s.getF PWR_STATUS_QUENCHED 0 0 ||| 2 ^ d)

/-- The quenches of this second, this one among them. -/
def quenchesNow (s : State) (d : Nat) : Nat :=
  (if (s.quenchOf d).second = s.time / 1000000000 then s.getF THM_STATUS_QCOUNT d 0 else 0) + 1

/-- The quench counted in its second. -/
def quenchCount (s : State) (d : Nat) : State :=
  (s.setQuench d { s.quenchOf d with since := s.time, second := s.time / 1000000000 }).setF THM_STATUS_QCOUNT d 0
    (min (s.quenchesNow d) 255)

/-- The quench recorded, with the reading that caused it. -/
def quenchNote (s : State) (d : Nat) (cause : QuenchCause) (sensor g : Nat) : State :=
  s.dieRecord 0x0D05 sevDegraded d 0
    [cause.code, sensor, s.getF THM_SENSOR_REF d sensor, s.getF THM_SENSOR_TEMP d sensor, g]

/-- The die held after `n` quenches in a second, where that is too many. -/
def quenchHold (s : State) (d n : Nat) : State :=
  if s.getF THM_CFG_QMAX d 0 ≠ 0 ∧ s.getF THM_CFG_QMAX d 0 ≤ n ∧ !s.flag THM_STATUS_HELD d 0 then
    (s.setF THM_STATUS_HELD d 0 1).dieRecord 0x0D06 sevFailed d 0 [n]
  else s

/-- The quench counted and recorded, and the die held once there were too many. -/
def quenchTell (s : State) (d : Nat) (cause : QuenchCause) (sensor g : Nat) : State :=
  ((s.quenchCount d).quenchNote d cause sensor g).quenchHold d (s.quenchesNow d)

theorem quenchDie_eq (s : State) (d : Nat) (cause : QuenchCause) (sensor : Nat) :
    s.quenchDie d cause sensor =
      if (s.quenchMark d cause).flag THM_STATUS_QUENCHED d 0 then s.quenchMark d cause
      else ((((s.quenchMark d cause).quenchCut d).quenchShow d).quenchTell d cause sensor
        ((s.quenchMark d cause).granted d)).restate := (rfl)

theorem QuenchCause.field_reg (c : QuenchCause) : c.field.reg = .THM_STATUS := by cases c <;> rfl

/-! #### The registers -/

/-- The registers a quench of die `d` may write: the die's own, the module's, the log's. -/
def quenchRegs (d : Nat) (k : RegKey) : Prop :=
  k.inst = d ∧ (k.name = .THM_STATUS ∨ k.name = .PWR_LV_STATUS) ∨ k.name = .BOOT_CLK_STATUS ∨ k.name = .PWR_STATUS ∨
    ¬ NotLog k

theorem quenchRegs_of_log {d : Nat} {k : RegKey} (h : ¬ quenchRegs d k) : NotLog k := by
  by_contra hl
  exact h (.inr (.inr (.inr hl)))

theorem getR_setF_of_not {W : RegKey → Prop} {k : RegKey} (hk : ¬ W k) (s : State) (f : Field) (i j v : Nat)
    (hf : W (f.key i j)) : (s.setF f i j v).getR k = s.getR k := by
  rw [getR_setF, if_neg]
  rintro rfl
  exact hk hf

theorem quenchRegs_die (d : Nat) (f : Field) (h : f.reg = .THM_STATUS ∨ f.reg = .PWR_LV_STATUS) :
    quenchRegs d (f.key d 0) := .inl ⟨rfl, h⟩

theorem quenchRegs_module (d : Nat) (f : Field) (h : f.reg = .BOOT_CLK_STATUS ∨ f.reg = .PWR_STATUS) :
    quenchRegs d (f.key 0 0) := .inr (h.imp_right .inl)

@[simp] theorem getR_notify (s : State) (d : Nat) (n : Int) (t0 : Nat) (k : RegKey) :
    (s.notify d n t0).getR k = s.getR k := (rfl)

section
variable {d : Nat} {k : RegKey} (hk : ¬ quenchRegs d k) (s : State)
include hk

theorem getR_quenchMark (c : QuenchCause) : (s.quenchMark d c).getR k = s.getR k := by
  have hset := getR_setF_of_not hk s c.field d 0 1 (quenchRegs_die d _ (.inl (QuenchCause.field_reg c)))
  unfold quenchMark
  split
  · exact hset
  · exact hset

theorem getR_quenchDrop : (s.quenchDrop d).getR k = s.getR k := by
  have hdrop : ∀ u : State, (u.dropHeld d).getR k = u.getR k := fun u =>
    List.foldlRecOn (motive := fun v : State => v.getR k = u.getR k) _ _ rfl fun v hv _ _ => hv
  rw [quenchDrop, getR_setF_of_not hk _ _ _ _ _ (quenchRegs_die d _ (.inr rfl)), hdrop, quenchWithdraw,
    getR_setEngine]

theorem getR_quenchCut : (s.quenchCut d).getR k = s.getR k := by
  rw [quenchCut, getR_ite, getR_notify, ite_self, getR_quenchDrop hk]

theorem getR_quenchShow : (s.quenchShow d).getR k = s.getR k := by
  unfold quenchShow
  rw [getR_setF_of_not hk _ _ _ _ _ (quenchRegs_module d _ (.inr rfl)),
    getR_setF_of_not hk _ _ _ _ _ (quenchRegs_die d _ (.inl rfl)),
    getR_setF_of_not hk _ _ _ _ _ (quenchRegs_module d _ (.inl rfl))]

theorem getR_quenchTell (c : QuenchCause) (n g : Nat) : (s.quenchTell d c n g).getR k = s.getR k := by
  have hset : ∀ (u : State) (f : Field) v, f.reg = .THM_STATUS → (u.setF f d 0 v).getR k = u.getR k :=
    fun u f v hf => getR_setF_of_not hk u _ _ _ _ (quenchRegs_die d _ (.inl hf))
  have hrec : ∀ u e v p l, (dieRecord u e v d p l).getR k = u.getR k := fun u e v p l =>
    getR_record _ _ _ (quenchRegs_of_log hk)
  rw [quenchTell, quenchHold, getR_ite, hrec, hset _ _ _ rfl, ite_self, quenchNote, hrec, quenchCount, hset _ _ _ rfl,
    getR_setQuench]

theorem getR_restate : s.restate.getR k = s.getR k := by
  unfold restate
  extract_lets st
  split
  · exact getR_setF_of_not hk _ _ _ _ _ (quenchRegs_module d _ (.inr rfl))
  · rfl

/-- A quench of a die writes no register but those. -/
theorem getR_quenchDie (c : QuenchCause) (n : Nat) : (s.quenchDie d c n).getR k = s.getR k := by
  rw [quenchDie_eq]
  split
  · exact getR_quenchMark hk s c
  · rw [getR_restate hk, getR_quenchTell hk, getR_quenchShow hk, getR_quenchCut hk, getR_quenchMark hk]

end

/-! #### What it cuts -/

section
variable (s : State) (d : Nat)

theorem getF_quenchMark (c : QuenchCause) (f : Field) (i j : Nat) (h : c.field.reg ≠ f.reg ∨ f.hi < c.field.lo ∨ c.field.hi < f.lo) :
    (s.quenchMark d c).getF f i j = s.getF f i j := by
  unfold quenchMark
  rw [getF_ite, getF_setQuench, getF_setF_apart _ _ _ _ _ _ _ _ h, ite_self]

theorem getF_dropHeld (f : Field) (i j : Nat) : (s.dropHeld d).getF f i j = s.getF f i j :=
  List.foldlRecOn (motive := fun u : State => u.getF f i j = s.getF f i j) _ _ rfl fun _ hu _ _ => hu

theorem getF_quenchCut (f : Field) (i j : Nat) (h : f.reg ≠ .PWR_LV_STATUS) :
    (s.quenchCut d).getF f i j = s.getF f i j := by
  rw [quenchCut, getF_ite, getF_notify, ite_self, quenchDrop, getF_setF_apart _ _ _ _ _ _ _ _ (.inl h.symm),
    getF_dropHeld, quenchWithdraw, getF_setEngine]

theorem granted_quenchCut : (s.quenchCut d).getF PWR_LV_STATUS_GRANTED d 0 = 0 := by
  rw [quenchCut, getF_ite, getF_notify, ite_self, quenchDrop, getF_setF_self _ _ _ _ _ (by decide), Nat.zero_mod]

theorem getF_quenchShow (f : Field) (i j : Nat) (h : f.reg ∉ [.BOOT_CLK_STATUS, .THM_STATUS, .PWR_STATUS]) :
    (s.quenchShow d).getF f i j = s.getF f i j := by
  simp only [List.mem_cons, List.not_mem_nil, or_false, not_or] at h
  obtain ⟨hboot, hthm, hpwr⟩ := h
  unfold quenchShow
  rw [getF_setF_of_reg _ _ _ _ _ _ _ _ (Ne.symm hpwr), getF_setF_of_reg _ _ _ _ _ _ _ _ (Ne.symm hthm),
    getF_setF_of_reg _ _ _ _ _ _ _ _ (Ne.symm hboot)]

theorem getF_quenchTell (c : QuenchCause) (n g : Nat) (f : Field) (i j : Nat)
    (hlog : f.reg ∉ [.HIC_ELOG_PROD, .HIC_ELOG_DROP, .HIC_MGMT_STATUS])
    (h : ∀ q ∈ [THM_STATUS_QCOUNT, THM_STATUS_HELD], q.reg ≠ f.reg ∨ f.hi < q.lo ∨ q.hi < f.lo) :
    (s.quenchTell d c n g).getF f i j = s.getF f i j := by
  have hrec : ∀ u e v p l, (dieRecord u e v d p l).getF f i j = u.getF f i j := fun u e v p l =>
    getF_record_apart _ _ _ _ _ hlog
  have hset := List.forall_mem_cons.mp h
  rw [quenchTell, quenchHold, getF_ite, hrec, getF_setF_apart _ _ _ _ _ _ _ _ (hset.2 _ (List.mem_singleton_self _)),
    ite_self, quenchNote, hrec, quenchCount, getF_setF_apart _ _ _ _ _ _ _ _ hset.1, getF_setQuench]

theorem getF_restate_apart (f : Field) (i j : Nat)
    (h : PWR_STATUS_STATE.reg ≠ f.reg ∨ f.hi < PWR_STATUS_STATE.lo ∨ PWR_STATUS_STATE.hi < f.lo) :
    s.restate.getF f i j = s.getF f i j := by
  unfold restate
  rw [getF_ite, getF_setF_apart _ _ _ _ _ _ _ _ h, ite_self]

end

theorem testBit_or_two_pow_mod (n d e w : Nat) (he : e < w) :
    ((n ||| 2 ^ d) % 2 ^ w).testBit e = (n.testBit e || decide (d = e)) := by
  rw [Nat.testBit_mod_two_pow, Nat.testBit_or, Nat.testBit_two_pow]
  simp [he]

theorem testBit_or_two_pow_same (n d w : Nat) (hd : d < w) : ((n ||| 2 ^ d) % 2 ^ w).testBit d = true := by
  rw [testBit_or_two_pow_mod _ _ _ _ hd, decide_eq_true rfl, Bool.or_true]

section
variable (s : State) (d : Nat)

/-! #### Engines and cores -/

theorem quenchMark_rest (c : QuenchCause) :
    (s.quenchMark d c).engines = s.engines ∧ (s.quenchMark d c).cores = s.cores := by
  unfold quenchMark
  split <;> exact ⟨rfl, rfl⟩

theorem dropHeld_engines : (s.dropHeld d).engines = s.engines :=
  List.foldlRecOn (motive := fun u : State => u.engines = s.engines) _ _ rfl fun _ hu _ _ => hu

theorem core_foldl_drop (l : List Nat) (k : Nat) :
    (l.foldl (fun s p => s.setCoreAt d p { s.coreAt d p with held := 0 }) s).core k =
      if k ∈ l.map (d * 34 + ·) then { s.core k with held := 0 } else s.core k := by
  induction l generalizing s with
  | nil => rfl
  | cons p l ih =>
    rw [List.foldl_cons, ih, setCoreAt, coreAt]
    by_cases hp : d * 34 + p = k
    · subst hp; simp
    · simp [hp, Ne.symm hp]

/-- No core of the die holds tokens any more, the other dies' cores are as before. -/
theorem core_dropHeld (k : Nat) :
    (s.dropHeld d).core k = if k / 34 = d then { s.core k with held := 0 } else s.core k := by
  rw [dropHeld, core_foldl_drop]
  have : (k ∈ (List.range 34).map (d * 34 + ·)) ↔ k / 34 = d := by
    simp only [List.mem_map, List.mem_range]
    exact ⟨fun ⟨p, hp, hk⟩ => by omega, fun hk => ⟨k % 34, by omega, by omega⟩⟩
  simp only [this]

@[simp] theorem engine_dropHeld (e : Nat) : (s.dropHeld d).engine e = s.engine e := by
  simp only [engine, s.dropHeld_engines d]

@[simp] theorem engine_notify (d' : Nat) (n : Int) (t0 : Nat) (e : Nat) : (s.notify d' n t0).engine e = s.engine e := (rfl)

@[simp] theorem core_notify (d' : Nat) (n : Int) (t0 : Nat) (k : Nat) : (s.notify d' n t0).core k = s.core k := (rfl)

theorem engine_quenchCut_of_ne (e : Nat) (h : d ≠ e) : (s.quenchCut d).engine e = s.engine e := by
  rw [quenchCut, engine_ite, engine_notify, ite_self, quenchDrop, engine_setF, engine_dropHeld, quenchWithdraw,
    engine_setEngine, if_neg h]

theorem issued_quenchCut : ((s.quenchCut d).engine d).issued = [] := by
  rw [quenchCut, engine_ite, engine_notify, ite_self, quenchDrop, engine_setF, engine_dropHeld, quenchWithdraw,
    engine_setEngine, if_pos rfl]

theorem core_quenchCut (k : Nat) :
    (s.quenchCut d).core k = if k / 34 = d then { s.core k with held := 0 } else s.core k := by
  rw [quenchCut, core_ite, core_notify, ite_self, quenchDrop, core_setF, core_dropHeld, quenchWithdraw, core_setEngine]

@[simp] theorem engine_dieRecord (e : Nat) (event sev sub : Nat) (l : List Nat) :
    (s.dieRecord event sev d sub l).engine e = s.engine e := engine_record ..

@[simp] theorem core_dieRecord (k : Nat) (event sev sub : Nat) (l : List Nat) :
    (s.dieRecord event sev d sub l).core k = s.core k := core_record ..

theorem engine_quenchTell (c : QuenchCause) (n g e : Nat) : (s.quenchTell d c n g).engine e = s.engine e := by
  rw [quenchTell, quenchHold, engine_ite, engine_dieRecord, engine_setF, ite_self, quenchNote, engine_dieRecord,
    quenchCount, engine_setF, engine_setQuench]

theorem core_quenchTell (c : QuenchCause) (n g k : Nat) : (s.quenchTell d c n g).core k = s.core k := by
  rw [quenchTell, quenchHold, core_ite, core_dieRecord, core_setF, ite_self, quenchNote, core_dieRecord,
    quenchCount, core_setF, core_setQuench]

theorem restate_rest : s.restate.engines = s.engines ∧ s.restate.cores = s.cores := by
  unfold restate
  extract_lets st
  split <;> exact ⟨rfl, rfl⟩
end

/-! #### The frame -/

/-- `t` is `s` but for what a quench may change: registers, engines, cores, the quench marks, the notices to the light
layer, and what a record may. -/
def QuenchFrame (s t : State) : Prop :=
  ∃ f r i e m l d g k en co qu li, t = { s with
    fresh := f, regs := r, ingot := i, elog := e, mem := m, linePoison := l, dram := d, granPoison := g, stackTab := k,
    engines := en, cores := co, quench := qu, light := li }

theorem QuenchFrame.refl (s : State) : QuenchFrame s s := ⟨_, _, _, _, _, _, _, _, _, _, _, _, _, rfl⟩

theorem QuenchFrame.trans {s t u : State} (h : QuenchFrame s t) (h2 : QuenchFrame t u) : QuenchFrame s u := by
  obtain ⟨_, _, _, _, _, _, _, _, _, _, _, _, _, rfl⟩ := h
  obtain ⟨_, _, _, _, _, _, _, _, _, _, _, _, _, rfl⟩ := h2
  exact ⟨_, _, _, _, _, _, _, _, _, _, _, _, _, rfl⟩

theorem QuenchFrame.ite {s t u : State} {c : Prop} [Decidable c] (ht : QuenchFrame s t) (hu : QuenchFrame s u) :
    QuenchFrame s (if c then t else u) := by
  split
  · exact ht
  · exact hu

theorem quenchFrame_setF (s : State) (f : Field) (i j v : Nat) : QuenchFrame s (s.setF f i j v) :=
  ⟨_, _, _, _, _, _, _, _, _, _, _, _, _, rfl⟩

theorem quenchFrame_setQuench (s : State) (d : Nat) (x : QuenchSt) : QuenchFrame s (s.setQuench d x) :=
  ⟨_, _, _, _, _, _, _, _, _, _, _, _, _, rfl⟩

theorem quenchFrame_setEngine (s : State) (d : Nat) (x : Engine) : QuenchFrame s (s.setEngine d x) :=
  ⟨_, _, _, _, _, _, _, _, _, _, _, _, _, rfl⟩

theorem quenchFrame_notify (s : State) (d : Nat) (n : Int) (t0 : Nat) : QuenchFrame s (s.notify d n t0) :=
  ⟨_, _, _, _, _, _, _, _, _, _, _, _, _, rfl⟩

theorem quenchFrame_record (s : State) (a : RecArg) : QuenchFrame s (s.record a) := by
  obtain ⟨⟨_, _, _, _, _, _, _, _, _, h⟩, -⟩ := logged_record s a
  exact ⟨_, _, _, _, _, _, _, _, _, _, _, _, _, h⟩

theorem quenchFrame_dropHeld (s : State) (d : Nat) : QuenchFrame s (s.dropHeld d) :=
  List.foldlRecOn (motive := QuenchFrame s) _ _ (.refl s) fun _ hu _ _ =>
    hu.trans ⟨_, _, _, _, _, _, _, _, _, _, _, _, _, rfl⟩

theorem quenchFrame_restate (s : State) : QuenchFrame s s.restate := .ite (quenchFrame_setF ..) (.refl s)

theorem quenchFrame_quenchMark (s : State) (d : Nat) (c : QuenchCause) : QuenchFrame s (s.quenchMark d c) :=
  .ite ((quenchFrame_setF ..).trans (quenchFrame_setQuench ..)) (quenchFrame_setF ..)

theorem quenchFrame_quenchCut (s : State) (d : Nat) : QuenchFrame s (s.quenchCut d) :=
  have hdrop : QuenchFrame s (s.quenchDrop d) :=
    ((quenchFrame_setEngine ..).trans (quenchFrame_dropHeld ..)).trans (quenchFrame_setF ..)
  .ite hdrop (hdrop.trans (quenchFrame_notify ..))

theorem quenchFrame_quenchShow (s : State) (d : Nat) : QuenchFrame s (s.quenchShow d) :=
  ((quenchFrame_setF ..).trans (quenchFrame_setF ..)).trans (quenchFrame_setF ..)

theorem quenchFrame_quenchTell (s : State) (d : Nat) (c : QuenchCause) (n g : Nat) :
    QuenchFrame s (s.quenchTell d c n g) :=
  (((quenchFrame_setQuench ..).trans (quenchFrame_setF ..)).trans (quenchFrame_record ..)).trans
    (.ite ((quenchFrame_setF ..).trans (quenchFrame_record ..)) (.refl _))

theorem quenchFrame_quenchDie (s : State) (d : Nat) (c : QuenchCause) (n : Nat) :
    QuenchFrame s (s.quenchDie d c n) := by
  have hmark := quenchFrame_quenchMark s d c
  rw [quenchDie_eq]
  exact .ite hmark ((((hmark.trans (quenchFrame_quenchCut ..)).trans (quenchFrame_quenchShow ..)).trans
    (quenchFrame_quenchTell ..)).trans (quenchFrame_restate _))

theorem quenchFrame_quenchAll (s : State) : QuenchFrame s s.quenchAll :=
  List.foldlRecOn (motive := QuenchFrame s) _ _ (.refl s) fun _ hu _ _ => hu.trans (quenchFrame_quenchDie ..)

/-- A field of no register that a quench writes but PWR_STATUS, and there apart from its two fields, reads as before. -/
theorem getF_quenchDie_apart (s : State) (d n : Nat) (c : QuenchCause) (f : Field) (i j : Nat)
    (h : f.reg ∉ [.THM_STATUS, .PWR_LV_STATUS, .BOOT_CLK_STATUS, .HIC_ELOG_PROD, .HIC_ELOG_DROP, .HIC_MGMT_STATUS])
    (hpwr : ∀ q ∈ [PWR_STATUS_QUENCHED, PWR_STATUS_STATE], q.reg ≠ f.reg ∨ f.hi < q.lo ∨ q.hi < f.lo) :
    (s.quenchDie d c n).getF f i j = s.getF f i j := by
  obtain ⟨hq, hst⟩ := List.forall_mem_cons.mp hpwr
  simp only [List.mem_cons, List.not_mem_nil, or_false, not_or] at h
  obtain ⟨hthm, hlv, hclk, h5, h6, h7⟩ := h
  have hmark : (s.quenchMark d c).getF f i j = s.getF f i j :=
    getF_quenchMark _ _ _ _ _ _ (.inl (by rw [QuenchCause.field_reg]; exact Ne.symm hthm))
  have htell : ∀ q ∈ [THM_STATUS_QCOUNT, THM_STATUS_HELD], q.reg ≠ f.reg ∨ f.hi < q.lo ∨ q.hi < f.lo := fun q hmem =>
    .inl (by rcases List.mem_pair.mp hmem with rfl | rfl <;> exact Ne.symm hthm)
  rw [quenchDie_eq, getF_ite, getF_restate_apart _ _ _ _ (hst _ (List.mem_singleton_self _)),
    getF_quenchTell _ _ _ _ _ _ _ _ (by simp [h5, h6, h7]) htell, quenchShow, getF_setF_apart _ _ _ _ _ _ _ _ hq,
    getF_setF_of_reg _ _ _ _ _ _ _ _ (Ne.symm hthm), getF_setF_of_reg _ _ _ _ _ _ _ _ (Ne.symm hclk),
    getF_quenchCut _ _ _ _ _ hlv, hmark, ite_self]

theorem getF_quenchAll_apart (s : State) (f : Field) (i j : Nat)
    (h : f.reg ∉ [.THM_STATUS, .PWR_LV_STATUS, .BOOT_CLK_STATUS, .HIC_ELOG_PROD, .HIC_ELOG_DROP, .HIC_MGMT_STATUS])
    (hpwr : ∀ q ∈ [PWR_STATUS_QUENCHED, PWR_STATUS_STATE], q.reg ≠ f.reg ∨ f.hi < q.lo ∨ q.hi < f.lo) :
    s.quenchAll.getF f i j = s.getF f i j :=
  List.foldlRecOn (motive := fun u : State => u.getF f i j = s.getF f i j) _ _ rfl fun u hu d _ =>
    (getF_quenchDie_apart u d _ _ f i j h hpwr).trans hu

/-! #### A die that is cut -/

theorem quenchDie_of_running (s : State) (d : Nat) (c : QuenchCause) (n : Nat)
    (h : s.flag THM_STATUS_QUENCHED d 0 = false) :
    s.quenchDie d c n = ((((s.quenchMark d c).quenchCut d).quenchShow d).quenchTell d c n
      ((s.quenchMark d c).granted d)).restate := by
  have hmark : (s.quenchMark d c).flag THM_STATUS_QUENCHED d 0 = false := by
    rw [flag, getF_quenchMark _ _ _ _ _ _ (by cases c <;> decide)]
    exact h
  rw [quenchDie_eq, if_neg (by simp [hmark])]

theorem quenchDie_of_quenched (s : State) (d : Nat) (c : QuenchCause) (n : Nat)
    (h : s.flag THM_STATUS_QUENCHED d 0 = true) : s.quenchDie d c n = s.quenchMark d c := by
  have hmark : (s.quenchMark d c).flag THM_STATUS_QUENCHED d 0 = true := by
    rw [flag, getF_quenchMark _ _ _ _ _ _ (by cases c <;> decide)]
    exact h
  rw [quenchDie_eq, if_pos hmark]

section
variable (s : State) (d : Nat)

theorem engine_restate (e : Nat) : s.restate.engine e = s.engine e := by
  simp only [engine, s.restate_rest.1]

theorem core_restate (k : Nat) : s.restate.core k = s.core k := by
  simp only [core, s.restate_rest.2]

theorem engine_quenchMark (c : QuenchCause) (e : Nat) : (s.quenchMark d c).engine e = s.engine e := by
  simp only [engine, (s.quenchMark_rest d c).1]

theorem core_quenchMark (c : QuenchCause) (k : Nat) : (s.quenchMark d c).core k = s.core k := by
  simp only [core, (s.quenchMark_rest d c).2]

theorem engine_quenchShow (e : Nat) : (s.quenchShow d).engine e = s.engine e := by
  rw [quenchShow, engine_setF, engine_setF, engine_setF]

theorem core_quenchShow (k : Nat) : (s.quenchShow d).core k = s.core k := by
  rw [quenchShow, core_setF, core_setF, core_setF]

/-- A quench of one die leaves the engines of the others. -/
theorem engine_quenchDie_of_ne (c : QuenchCause) (n e : Nat) (h : d ≠ e) :
    (s.quenchDie d c n).engine e = s.engine e := by
  rw [quenchDie_eq, engine_ite, engine_restate, engine_quenchTell, engine_quenchShow, engine_quenchCut_of_ne _ _ _ h,
    engine_quenchMark, ite_self]

theorem core_quenchDie_of_ne (c : QuenchCause) (n k : Nat) (h : k / 34 ≠ d) :
    (s.quenchDie d c n).core k = s.core k := by
  rw [quenchDie_eq, core_ite, core_restate, core_quenchTell, core_quenchShow, core_quenchCut, if_neg h,
    core_quenchMark, ite_self]

end

/-- Die `d` is quenched by a module cause and nothing of its leave stands. -/
structure IsCut (t : State) (d : Nat) : Prop where
  quenched : t.flag THM_STATUS_QUENCHED d 0 = true
  cause : t.flag THM_STATUS_C_MODULE d 0 = true
  granted : t.getF PWR_LV_STATUS_GRANTED d 0 = 0
  issued : (t.engine d).issued = []
  held : ∀ p < 34, (t.coreAt d p).held = 0
  half : (t.getF BOOT_CLK_STATUS_ARRAY_HALF 0 0).testBit d = true
  shown : (t.getF PWR_STATUS_QUENCHED 0 0).testBit d = true

theorem IsCut.congr {s t : State} {d : Nat} (h : IsCut s d)
    (hthm : t.getR ⟨.THM_STATUS, d, 0⟩ = s.getR ⟨.THM_STATUS, d, 0⟩)
    (hlv : t.getR ⟨.PWR_LV_STATUS, d, 0⟩ = s.getR ⟨.PWR_LV_STATUS, d, 0⟩)
    (hhalf : (t.getF BOOT_CLK_STATUS_ARRAY_HALF 0 0).testBit d = (s.getF BOOT_CLK_STATUS_ARRAY_HALF 0 0).testBit d)
    (hshown : (t.getF PWR_STATUS_QUENCHED 0 0).testBit d = (s.getF PWR_STATUS_QUENCHED 0 0).testBit d)
    (heng : t.engine d = s.engine d) (hcore : ∀ p < 34, t.coreAt d p = s.coreAt d p) : IsCut t d where
  quenched := (congrArg (fun w => THM_STATUS_QUENCHED.get w != 0) hthm).trans h.quenched
  cause := (congrArg (fun w => THM_STATUS_C_MODULE.get w != 0) hthm).trans h.cause
  granted := (congrArg PWR_LV_STATUS_GRANTED.get hlv).trans h.granted
  issued := by rw [heng, h.issued]
  held p hp := by rw [hcore p hp, h.held p hp]
  half := hhalf.trans h.half
  shown := hshown.trans h.shown

/-- A module cause cuts a die that runs. -/
theorem isCut_quenchDie (s : State) (d n : Nat) (hd : d < 4) (h : s.flag THM_STATUS_QUENCHED d 0 = false) :
    IsCut (s.quenchDie d .module n) d := by
  rw [quenchDie_of_running _ _ _ _ h]
  refine ⟨?_, ?_, ?_, ?_, fun p hp => ?_, ?_, ?_⟩
  · rw [flag, getF_restate_apart _ _ _ _ (by decide), getF_quenchTell _ _ _ _ _ _ _ _ (by decide) (by decide), quenchShow,
      getF_setF_apart _ _ _ _ _ _ _ _ (by decide), ← flag, flag_setF_one _ _ _ _ (by decide)]
  · rw [flag, getF_restate_apart _ _ _ _ (by decide), getF_quenchTell _ _ _ _ _ _ _ _ (by decide) (by decide), quenchShow,
      getF_setF_apart _ _ _ _ _ _ _ _ (by decide), getF_setF_apart _ _ _ _ _ _ _ _ (by decide),
      getF_setF_apart _ _ _ _ _ _ _ _ (by decide), getF_quenchCut _ _ _ _ _ (by decide), quenchMark, getF_ite,
      getF_setQuench, ite_self, ← flag]
    exact flag_setF_one _ _ _ _ (by decide)
  · rw [getF_restate_apart _ _ _ _ (by decide), getF_quenchTell _ _ _ _ _ _ _ _ (by decide) (by decide),
      getF_quenchShow _ _ _ _ _ (by decide), granted_quenchCut]
  · rw [engine_restate, engine_quenchTell, engine_quenchShow, issued_quenchCut]
  · rw [coreAt, core_restate, core_quenchTell, core_quenchShow, core_quenchCut, if_pos (by omega)]
  · rw [getF_restate_apart _ _ _ _ (by decide), getF_quenchTell _ _ _ _ _ _ _ _ (by decide) (by decide), quenchShow,
      getF_setF_apart _ _ _ _ _ _ _ _ (by decide), getF_setF_apart _ _ _ _ _ _ _ _ (by decide),
      getF_setF_self _ _ _ _ _ (by decide)]
    exact testBit_or_two_pow_same _ _ _ hd
  · rw [getF_restate_apart _ _ _ _ (by decide), getF_quenchTell _ _ _ _ _ _ _ _ (by decide) (by decide), quenchShow,
      getF_setF_self _ _ _ _ _ (by decide)]
    exact testBit_or_two_pow_same _ _ _ hd

/-- The bits that show another die are kept. -/
theorem testBit_quenchDie_of_ne (s : State) (d e n : Nat) (c : QuenchCause) (he : e < 4) (h : d ≠ e) (f : Field)
    (hf : f = BOOT_CLK_STATUS_ARRAY_HALF ∨ f = PWR_STATUS_QUENCHED) :
    ((s.quenchDie d c n).getF f 0 0).testBit e = (s.getF f 0 0).testBit e := by
  have hmark : (s.quenchMark d c).getF f 0 0 = s.getF f 0 0 := getF_quenchMark _ _ _ _ _ _
    (.inl (by rw [QuenchCause.field_reg]; rcases hf with rfl | rfl <;> decide))
  have hcut : ((s.quenchMark d c).quenchCut d).getF f 0 0 = s.getF f 0 0 := by
    rw [getF_quenchCut _ _ _ _ _ (by rcases hf with rfl | rfl <;> decide), hmark]
  have hbit : ∀ m, ((m ||| 2 ^ d) % 2 ^ 4).testBit e = m.testBit e := fun m => by
    rw [testBit_or_two_pow_mod _ _ _ _ he, decide_eq_false h, Bool.or_false]
  rw [quenchDie_eq, getF_ite, hmark, getF_restate_apart _ _ _ _ (by rcases hf with rfl | rfl <;> decide),
    getF_quenchTell _ _ _ _ _ _ _ _ (by rcases hf with rfl | rfl <;> decide) (by rcases hf with rfl | rfl <;> decide)]
  split
  · rfl
  · rw [← hcut]
    rcases hf with rfl | rfl
    · rw [quenchShow, getF_setF_apart _ _ _ _ _ _ _ _ (by decide), getF_setF_apart _ _ _ _ _ _ _ _ (by decide),
        getF_setF_self _ _ _ _ _ (by decide)]
      exact hbit _
    · rw [quenchShow, getF_setF_self _ _ _ _ _ (by decide), getF_setF_apart _ _ _ _ _ _ _ _ (by decide),
        getF_setF_apart _ _ _ _ _ _ _ _ (by decide)]
      exact hbit _

/-- A quench of one die leaves what is shown of another. -/
theorem getR_quenchDie_of_ne (s : State) (d e n : Nat) (c : QuenchCause) (h : d ≠ e) (r : RegName)
    (hr : r = .THM_STATUS ∨ r = .PWR_LV_STATUS) : (s.quenchDie d c n).getR ⟨r, e, 0⟩ = s.getR ⟨r, e, 0⟩ := by
  refine getR_quenchDie ?_ s c n
  rintro (⟨he, -⟩ | hn | hn | hn)
  · exact h he.symm
  · rcases hr with rfl | rfl <;> simp at hn
  · rcases hr with rfl | rfl <;> simp at hn
  · rcases hr with rfl | rfl <;> exact hn ⟨by simp, by simp, by simp⟩

theorem IsCut.quenchDie_of_ne {s : State} {e : Nat} (h : IsCut s e) (d n : Nat) (c : QuenchCause) (he : e < 4)
    (hne : d ≠ e) : IsCut (s.quenchDie d c n) e :=
  h.congr (getR_quenchDie_of_ne _ _ _ _ _ hne _ (.inl rfl)) (getR_quenchDie_of_ne _ _ _ _ _ hne _ (.inr rfl))
    (testBit_quenchDie_of_ne _ _ _ _ _ he hne _ (.inl rfl)) (testBit_quenchDie_of_ne _ _ _ _ _ he hne _ (.inr rfl))
    (engine_quenchDie_of_ne _ _ _ _ _ hne) fun p hp => core_quenchDie_of_ne _ _ _ _ _ (by omega)

/-- A module cause cuts every die listed that runs, and those it cut before stay so. -/
theorem isCut_foldl (l : List Nat) (s : State) (hl : l.Nodup) (hlt : ∀ d ∈ l, d < 4)
    (hrun : ∀ d ∈ l, s.flag THM_STATUS_QUENCHED d 0 = false) (e : Nat) (he : e < 4) (hcut : e ∈ l ∨ IsCut s e) :
    IsCut (l.foldl (fun s d => s.quenchDie d .module 0) s) e := by
  induction l generalizing s with
  | nil => simpa using hcut
  | cons d l ih =>
    obtain ⟨hd, hl⟩ := List.nodup_cons.mp hl
    obtain ⟨hdlt, hlt⟩ := List.forall_mem_cons.mp hlt
    obtain ⟨hdrun, hrun⟩ := List.forall_mem_cons.mp hrun
    refine ih _ hl hlt (fun x hx => ?_) ?_
    · have hne : d ≠ x := fun h => hd (h ▸ hx)
      rw [← hrun x hx]
      exact congrArg (fun w => THM_STATUS_QUENCHED.get w != 0) (getR_quenchDie_of_ne _ _ _ _ _ hne _ (.inl rfl))
    · by_cases hde : d = e
      · subst hde
        exact .inr (isCut_quenchDie _ _ _ hdlt hdrun)
      · refine hcut.imp (fun h => ?_) (·.quenchDie_of_ne _ _ _ he hde)
        exact (List.mem_cons.mp h).resolve_left (Ne.symm hde)

/-- A module cause cuts every die. -/
theorem isCut_quenchAll (s : State) (hrun : ∀ d < 4, s.flag THM_STATUS_QUENCHED d 0 = false) (e : Nat) (he : e < 4) :
    IsCut s.quenchAll e :=
  isCut_foldl _ s List.nodup_range (fun _ h => List.mem_range.mp h) (fun d h => hrun d (List.mem_range.mp h)) e he
    (.inl (List.mem_range.mpr he))

/-- What a module cause writes. -/
theorem getR_quenchAll (s : State) (k : RegKey) (h : ∀ d < 4, ¬ quenchRegs d k) : s.quenchAll.getR k = s.getR k :=
  List.foldlRecOn (motive := fun u : State => u.getR k = s.getR k) _ _ rfl fun u hu d hd =>
    (getR_quenchDie (h d (List.mem_range.mp hd)) u _ _).trans hu

end State

end Sys2Proof.Machine
end

section
/-! The 52 V input (R378 to R380) and the sensors of the dies (R393, R394). -/

namespace Sys2Proof.Machine

/-! ### The 52 V input (R378 to R380) -/

namespace State

theorem flag_foldl_railGood (l : List Nat) (s : State) (v : Bool) (i : Nat) :
    (l.foldl (fun s i => s.railGood i v) s).flag PWR_RAIL_GOOD 0 i =
      if i ∈ l then v else s.flag PWR_RAIL_GOOD 0 i := by
  induction l generalizing s with
  | nil => rfl
  | cons j l ih =>
    rw [List.foldl_cons, ih, railGood]
    by_cases hij : j = i
    · subst hij
      rw [flag_setF_ite _ _ _ _ _ (by decide)]
      simp
    · rw [flag, getF_setF_of_key _ _ _ _ _ _ _ _ (by simp [Field.key, hij]), ← flag]
      simp [Ne.symm hij]

/-- Every rail but the 52 V input down. -/
def railsDown (s : State) : State := ((List.range 32).filter fun i => i ≠ 18).foldl (fun s i => s.railGood i false) s

theorem goOff_def (s : State) : s.goOff = { s.railsDown with
    input := { s.railsDown.input with
      switchClosed := false, off := true, inrush := false, powerGood := false, holdUp := false } } := (rfl)

/-- OFF: the switch is open, every rail but the input down (R379, R380). -/
def IsOff (t : State) : Prop :=
  t.input.switchClosed = false ∧ t.input.off = true ∧ t.input.powerGood = false ∧ t.input.inrush = false ∧
    t.input.holdUp = false ∧ ∀ i, i < 32 → i ≠ 18 → t.flag PWR_RAIL_GOOD 0 i = false

theorem isOff_goOff (s : State) : s.goOff.IsOff := by
  refine ⟨rfl, rfl, rfl, rfl, rfl, fun i hi h18 => ?_⟩
  rw [goOff_def, flag_update, railsDown, flag_foldl_railGood, if_pos]
  simp [hi, h18]

theorem onlyRegs_railsDown (s : State) : OnlyRegs (·.name = .PWR_RAIL) s s.railsDown :=
  OnlyRegs.foldl _ _ (fun _ _ h => h.setF _ _ _ _ rfl (by decide)) (OnlyRegs.refl _ _)

/-- Going off writes the rails and what the input holds, nothing else. -/
theorem goOff_eq (s : State) : s.goOff = { s with regs := s.goOff.regs, input := s.goOff.input } ∧
    Kept (·.name = .PWR_RAIL) s s.goOff := by
  obtain ⟨hrest, hkept⟩ := s.onlyRegs_railsDown
  rw [goOff_def]
  generalize s.railsDown = u at hrest hkept
  obtain ⟨r, rfl⟩ := rest_iff.mp hrest
  exact ⟨rfl, hkept⟩

theorem IsOff.latch {t : State} (h : t.IsOff) (s : State) : (s.latchEdges t).IsOff := by
  obtain ⟨hsw, hoff, hgood, hinr, hhold, hrails⟩ := h
  refine ⟨?_, ?_, ?_, ?_, ?_, fun i hi h18 => ?_⟩
  · rw [latchEdges_input, hsw]
  · rw [latchEdges_input, hoff]
  · rw [latchEdges_input, hgood]
  · rw [latchEdges_input, hinr]
  · rw [latchEdges_input, hhold]
  · rw [flag_latchEdges _ _ _ _ _ (by decide), hrails i hi h18]

end State

/-! ### Power on and off -/

namespace State

theorem flag_of_getR_zero (s : State) (f : Field) (i j : Nat) (h : s.getR (f.key i j) = 0) : s.flag f i j = false := by
  rw [flag, getF, h]
  simp [Field.get]

/-- The package reset of a power-up (R445); a shutdown that was not orderly counts as a failure. -/
def powerUp (s : State) : State := (if s.input.orderly then s else s.countFailure).packageReset 0

/-- Nothing kept of the loss bits (R224). -/
def clearLoss (s : State) : State := (s.setF BOOT_CLK_STATUS_LOST 0 0 0).setF BOOT_CLK_STATUS_ROOT_LOST 0 0 0

/-- The hub's rails good. -/
def hubRailsUp (s : State) : State := [4, 19, 30, 31].foldl (fun s i => s.railGood i true) s

theorem inrushDone_of_inrush (s : State) (h : s.input.inrush = true) :
    s.inrushDone = { s.powerUp.clearLoss.hubRailsUp with
      input := { s.powerUp.clearLoss.hubRailsUp.input with
        inrush := false, off := false, powerGood := true, uvSaid := false, ovSaid := false } } :=
  if_neg (by simp [h])

theorem getF_hubRailsUp (s : State) (f : Field) (i j : Nat) (h : f.reg ≠ .PWR_RAIL) :
    s.hubRailsUp.getF f i j = s.getF f i j :=
  List.foldlRecOn (motive := fun u : State => u.getF f i j = s.getF f i j) _ _ rfl fun u hu _ _ =>
    (getF_setF_of_reg u _ _ _ _ _ _ _ (Ne.symm h)).trans hu

theorem hubRailsUp_pending (s : State) : s.hubRailsUp.pending = s.pending :=
  List.foldlRecOn (motive := fun u : State => u.pending = s.pending) _ _ rfl fun _ hu _ _ => hu

theorem powerUp_pending (s : State) : s.powerUp.pending = s.pending := by
  have hrest : ∀ u : State, (u.packageReset 0).pending = u.pending := fun u => by rw [packageReset_rest]; rfl
  rw [powerUp, hrest]
  split <;> rfl

/-- After a power-up no rail reads good. -/
theorem flag_rail_powerUp (s : State) (i : Nat) : s.powerUp.flag PWR_RAIL_GOOD 0 i = false :=
  flag_of_getR_zero _ _ _ _ (getR_packageReset _ _ _ (by simp [Field.key, PWR_RAIL_GOOD]))

/-- What the module is once the inrush has ended: powered up from a reset, with only the hub's rails good. -/
theorem inrushDone_reads (s : State) (h : s.input.inrush = true) :
    s.inrushDone.input.inrush = false ∧ s.inrushDone.input.off = false ∧ s.inrushDone.input.powerGood = true ∧
    (∀ i, i < 32 → s.inrushDone.flag PWR_RAIL_GOOD 0 i = decide (i ∈ [4, 19, 30, 31])) ∧
    s.inrushDone.getF BOOT_CLK_STATUS_LOST 0 0 = 0 ∧ s.inrushDone.getF BOOT_CLK_STATUS_ROOT_LOST 0 0 = 0 ∧
    s.inrushDone.pending = s.pending := by
  have hin := congrArg State.input (inrushDone_of_inrush s h)
  refine ⟨congrArg InputSt.inrush hin, congrArg InputSt.off hin, congrArg InputSt.powerGood hin, ?_⟩
  rw [inrushDone_of_inrush s h]
  refine ⟨fun i _ => ?_, ?_, ?_, ?_⟩
  · rw [flag_update, hubRailsUp, flag_foldl_railGood, clearLoss, flag_setF_apart _ _ _ _ _ _ _ _ (by decide),
      flag_setF_apart _ _ _ _ _ _ _ _ (by decide), flag_rail_powerUp]
    simp
  · rw [getF_update, getF_hubRailsUp _ _ _ _ (by decide), clearLoss, getF_setF_apart _ _ _ _ _ _ _ _ (by decide),
      getF_setF_self _ _ _ _ _ (by decide), Nat.zero_mod]
  · rw [getF_update, getF_hubRailsUp _ _ _ _ (by decide), clearLoss, getF_setF_self _ _ _ _ _ (by decide), Nat.zero_mod]
  · show s.powerUp.clearLoss.hubRailsUp.pending = s.pending
    rw [hubRailsUp_pending, clearLoss, setF_pending, setF_pending, powerUp_pending]

theorem pwrEnDeassert_def (s : State) : s.pwrEnDeassert = { ((s.setF PWR_PINS_PWR_EN 0 0 0).quenchAll).goOff with
    input := { ((s.setF PWR_PINS_PWR_EN 0 0 0).quenchAll).goOff.input with orderly := true } } := (rfl)

theorem IsOff.orderly {t : State} (h : t.IsOff) : IsOff { t with input := { t.input with orderly := true } } := h

/-- The pins are not the registers of a quench, and not those of going off. -/
theorem not_quenchRegs_of_name (d : Nat) (k : RegKey)
    (h : k.name ∉ [.THM_STATUS, .PWR_LV_STATUS, .BOOT_CLK_STATUS, .PWR_STATUS, .HIC_ELOG_PROD, .HIC_ELOG_DROP,
      .HIC_MGMT_STATUS]) : ¬ quenchRegs d k := by
  simp only [List.mem_cons, List.not_mem_nil, or_false, not_or] at h
  obtain ⟨h1, h2, h3, h4, h5, h6, h7⟩ := h
  simp [quenchRegs, NotLog, h1, h2, h3, h4, h5, h6, h7]

theorem getR_goOff (s : State) (k : RegKey) (h : k.name ≠ .PWR_RAIL) (hp : k.name ≠ .HIC_PEND) :
    s.goOff.getR k = s.getR k := s.goOff_eq.2.1 k h hp

theorem flag_of_getR {s t : State} {f : Field} {i j : Nat} (h : t.getR (f.key i j) = s.getR (f.key i j)) :
    t.flag f i j = s.flag f i j := by
  rw [flag, getF, h, flag, getF]

theorem pwrEn_pwrEnDeassert (s : State) : s.pwrEnDeassert.flag PWR_PINS_PWR_EN 0 0 = false := by
  have hquench := getR_quenchAll (s.setF PWR_PINS_PWR_EN 0 0 0) (PWR_PINS_PWR_EN.key 0 0)
    fun d _ => not_quenchRegs_of_name d _ (by decide)
  rw [pwrEnDeassert_def, flag_update, flag_of_getR (getR_goOff _ _ (by decide) (by decide)), flag_of_getR hquench,
    flag_setF_zero _ _ _ _ (by decide)]

theorem closeSwitch_of_ready (s : State) (mv : Nat) (hen : s.flag PWR_PINS_PWR_EN 0 0 = true) (hmv : 44000 ≤ mv)
    (hopen : s.input.switchClosed = false) :
    s.closeSwitch mv = { s with input := { s.input with switchClosed := true, inrush := true } } :=
  if_pos (by simp [hen, hmv, hopen])

theorem closeSwitch_of_low (s : State) (mv : Nat) (hmv : mv < 44000) : s.closeSwitch mv = s :=
  if_neg (by simp [hmv])

end State

/-! ### The commands -/

theorem exec_pwrEnAssert (s : State) (mv : Nat) :
    exec (.pwrEnAssert mv) s = .next (s.latchEdges ((s.setF PWR_PINS_PWR_EN 0 0 1).closeSwitch mv)) := rfl

theorem exec_inputReturn (s : State) (mv : Nat) :
    exec (.inputReturn mv) s = .next (s.latchEdges (s.closeSwitch mv)) := rfl

theorem exec_inrushDone (s : State) : exec .inrushDone s = .next (s.latchEdges s.inrushDone) := rfl

theorem exec_pwrEnDeassert (s : State) : exec .pwrEnDeassert s = .next (s.latchEdges s.pwrEnDeassert) := rfl

theorem exec_inputOvervoltage (s : State) (mv : Nat) :
    exec (.inputOvervoltage mv) s = .next (s.latchEdges (s.inputOvervoltage mv)) := rfl

theorem exec_holdUpEnd (s : State) : exec .holdUpEnd s = .next (s.latchEdges s.holdUpEnd) := rfl

theorem exec_powerFail (s : State) (mv w : Nat) :
    exec (.powerFail mv w) s = .next (s.latchEdges (s.powerFail mv w)) := rfl

theorem exec_inputVoltageWarning (s : State) (mv : Nat) :
    exec (.inputVoltageWarning mv) s = .next (s.latchEdges (s.inputVoltageWarning mv)) := rfl

theorem exec_inputWarningClear (s : State) (mv : Nat) :
    exec (.inputWarningClear mv) s = .next (s.latchEdges (s.inputWarningClear mv)) := rfl

/-! ### Voltage warnings and power fail -/

namespace State

theorem inputOvervoltage_of_over (s : State) (mv : Nat) (h : 59000 < mv) :
    s.inputOvervoltage mv = (s.record
      { event := 0x0D02, sev := sevFailed, unit := unitModule, sub := 18,
        syn := Config.syndrome 0x0D02 [mv] }).goOff := if_pos h

/-- A power fail shows PFAIL, quenches every die and is recorded. -/
theorem powerFail_of_low (s : State) (mv w : Nat) (hmv : mv < 40000) (hon : s.input.off = false) :
    s.powerFail mv w =
      (({ s with input := { s.input with powerGood := false, holdUp := true } } : State).setF PWR_STATUS_PFAIL 0 0
        1).quenchAll.record
          { event := 0x0D03, sev := sevFailed, unit := unitModule, sub := 18, alert := true,
            syn := Config.syndrome 0x0D03 [mv, w] } :=
  if_neg (by simp [hon]; omega)

theorem inputVoltageWarning_of_low (s : State) (mv : Nat) (h : mv < 44000) :
    s.inputVoltageWarning mv =
      if s.input.uvSaid then ({ s with input := { s.input with uvSaid := true } } : State).setF PWR_STATUS_UV_WARN 0 0 1
      else (({ s with input := { s.input with uvSaid := true } } : State).setF PWR_STATUS_UV_WARN 0 0 1).record
        { event := 0x0D01, sev := sevDegraded, unit := unitModule, sub := 18, alert := true,
          syn := Config.syndrome 0x0D01 [mv] } := by
  rw [inputVoltageWarning, if_neg (by omega), if_pos h]

theorem inputVoltageWarning_of_high (s : State) (mv : Nat) (h1 : 58000 ≤ mv) (h2 : mv ≤ 59000) :
    s.inputVoltageWarning mv =
      if s.input.ovSaid then ({ s with input := { s.input with ovSaid := true } } : State).setF PWR_STATUS_OV_WARN 0 0 1
      else (({ s with input := { s.input with ovSaid := true } } : State).setF PWR_STATUS_OV_WARN 0 0 1).record
        { event := 0x0D02, sev := sevDegraded, unit := unitModule, sub := 18, syn := Config.syndrome 0x0D02 [mv] } :=
  if_pos ⟨h1, h2⟩

theorem inputWarningClear_of_range (s : State) (mv : Nat) (h1 : 46000 ≤ mv) (h2 : mv ≤ 58000) :
    s.inputWarningClear mv = (({ s with input := { s.input with uvSaid := false, ovSaid := false } } : State).setF
      PWR_STATUS_UV_WARN 0 0 0).setF PWR_STATUS_OV_WARN 0 0 0 := if_pos ⟨h1, h2⟩

end State

/-! ### Sensor samples (R393, R394) -/

namespace State

/-- The samples a reading is compared with: this one and those of the last RISE_US. -/
def samplesNow (s : State) (d i : Nat) (v : BitVec 16) : List (Nat × Int) :=
  (s.time, v.toInt) :: (s.sensorOf d i).samples.filter fun x => decide (s.time < x.1 + s.riseNs d)

/-- The lowest of them. -/
def lowestNow (s : State) (d i : Nat) (v : BitVec 16) : Int :=
  ((s.sensorOf d i).samples.filter fun x => decide (s.time < x.1 + s.riseNs d)).foldl (fun m x => min m x.2) v.toInt

/-- The sensor's own registers. -/
def showSample (s : State) (d i : Nat) (v : BitVec 16) : State :=
  ((s.setSensor d i ⟨s.samplesNow d i v⟩).setF THM_SENSOR_TEMP d i v.toNat).setF THM_SENSOR_REF d i
    (BitVec.ofInt 16 (s.lowestNow d i v)).toNat

/-- The die's hottest sensor. -/
def showHottest (s : State) (d : Nat) : State :=
  (s.setF THM_STATUS_HOT d 0 (s.hottest d)).setF THM_STATUS_TEMP_MAX d 0 (s.getF THM_SENSOR_TEMP d (s.hottest d))

def showRise (s : State) (d : Nat) : State :=
  s.setF THM_STATUS_C_RISE d 0 (if (List.range 64).any (s.riseAt d) then 1 else 0)

def showAbs (s : State) (d : Nat) : State :=
  s.setF THM_STATUS_C_ABS d 0 (if (List.range 64).any (s.hotAt d) then 1 else 0)

/-- A sample taken and shown, before anything is quenched. -/
def sampled (s : State) (d i : Nat) (v : BitVec 16) : State :=
  ((((s.showSample d i v).showHottest d).showRise d).showAbs d).offer d 0x06 i v.toInt
    ((((s.showSample d i v).showHottest d).showRise d).showAbs d).time

/-- A sensor over its rise threshold quenches its die. -/
def quenchRise (s : State) (d i : Nat) : State := if s.riseAt d i then s.quenchDie d .rise i else s

/-- A sensor over its temperature threshold quenches its die. -/
def quenchHot (s : State) (d i : Nat) : State := if s.hotAt d i then s.quenchDie d .absolute i else s

end State
theorem exec_sensorSample (s : State) (d : Fin 4) (i : Fin 64) (v : BitVec 16) :
    exec (.sensorSample d i v) s = .next (s.latchEdges (s.sensorSample d i v)) := rfl

namespace State
theorem sensorSample_eq (s : State) (d i : Nat) (v : BitVec 16) (h : s.inReset d = false) :
    s.sensorSample d i v = ((s.sampled d i v).quenchRise d i).quenchHot d i := by
  rw [sensorSample, if_neg (by simp [h])]
  rfl

theorem foldl_min_le (l : List (Nat × Int)) (m : Int) :
    l.foldl (fun m x => min m x.2) m ≤ m ∧ ∀ y ∈ l, l.foldl (fun m x => min m x.2) m ≤ y.2 := by
  induction l generalizing m with
  | nil => simp
  | cons x l ih =>
    obtain ⟨hm, hl⟩ := ih (min m x.2)
    refine ⟨hm.trans (min_le_left ..), fun y hy => ?_⟩
    rcases List.mem_cons.mp hy with rfl | hy
    · exact hm.trans (min_le_right ..)
    · exact hl y hy

theorem foldl_min_mem (l : List (Nat × Int)) (m : Int) :
    l.foldl (fun m x => min m x.2) m = m ∨ ∃ x ∈ l, l.foldl (fun m x => min m x.2) m = x.2 := by
  induction l generalizing m with
  | nil => exact .inl rfl
  | cons x l ih =>
    rw [List.foldl_cons]
    rcases ih (min m x.2) with h | ⟨y, hy, h⟩
    · rcases min_choice m x.2 with hx | hx
      · exact .inl (h.trans hx)
      · exact .inr ⟨x, List.mem_cons_self, h.trans hx⟩
    · exact .inr ⟨y, List.mem_cons_of_mem _ hy, h⟩

/-- The lowest sample is one of those kept and below all of them. -/
theorem lowestNow_isLeast (s : State) (d i : Nat) (v : BitVec 16) :
    (∃ x ∈ s.samplesNow d i v, s.lowestNow d i v = x.2) ∧ ∀ y ∈ s.samplesNow d i v, s.lowestNow d i v ≤ y.2 := by
  obtain ⟨hm, hl⟩ := foldl_min_le ((s.sensorOf d i).samples.filter fun x => decide (s.time < x.1 + s.riseNs d)) v.toInt
  refine ⟨?_, fun y hy => ?_⟩
  · rcases foldl_min_mem ((s.sensorOf d i).samples.filter fun x => decide (s.time < x.1 + s.riseNs d)) v.toInt with
      h | ⟨x, hx, h⟩
    · exact ⟨_, List.mem_cons_self, h⟩
    · exact ⟨x, List.mem_cons_of_mem _ hx, h⟩
  · rcases List.mem_cons.mp hy with rfl | hy
    · exact hm
    · exact hl y hy

/-- A reading of 16 bits reads back. -/
theorem sgn16_ofInt (r : Int) (h1 : -32768 ≤ r) (h2 : r < 32768) : sgn16 ((BitVec.ofInt 16 r).toNat % 2 ^ 16) = r := by
  rw [sgn16, Nat.mod_eq_of_lt (BitVec.isLt _), BitVec.ofNat_toNat, BitVec.setWidth_eq, BitVec.toInt_ofInt]
  exact Int.bmod_eq_of_le (by omega) (by omega)

end State

namespace State

theorem offer_regs (s : State) (d src n : Nat) (v : Int) (t0 : Nat) : (s.offer d src n v t0).regs = s.regs := (rfl)

/-- The registers a sample writes: the sensor's own and the die's. -/
theorem kept_sampled (s : State) (d i : Nat) (v : BitVec 16) :
    Kept (fun k => k = ⟨.THM_SENSOR, d, i⟩ ∨ k = ⟨.THM_STATUS, d, 0⟩) s (s.sampled d i v) := by
  have hsensor : Kept (fun k => k = ⟨.THM_SENSOR, d, i⟩ ∨ k = ⟨.THM_STATUS, d, 0⟩) s
      (s.setSensor d i ⟨s.samplesNow d i v⟩) := .trans_regs (.refl _ s) (setSensor_regs ..)
  have hshow := (hsensor.setF THM_SENSOR_TEMP d i v.toNat (.inl rfl) (by decide)).setF THM_SENSOR_REF d i
    (BitVec.ofInt 16 (s.lowestNow d i v)).toNat (.inl rfl) (by decide)
  exact ((((hshow.setF THM_STATUS_HOT d 0 _ (.inr rfl) (by decide)).setF THM_STATUS_TEMP_MAX d 0 _ (.inr rfl)
    (by decide)).setF THM_STATUS_C_RISE d 0 _ (.inr rfl) (by decide)).setF THM_STATUS_C_ABS d 0 _ (.inr rfl)
    (by decide)).trans_regs (offer_regs ..)

theorem getF_offer (s : State) (d src n : Nat) (v : Int) (t0 : Nat) (f : Field) (i j : Nat) :
    (s.offer d src n v t0).getF f i j = s.getF f i j := (rfl)

/-- Fields of a sensor after a sample. -/
theorem getF_sampled_sensor (s : State) (d i : Nat) (v : BitVec 16) (f : Field) (hf : f.reg = .THM_SENSOR) :
    (s.sampled d i v).getF f d i = (s.showSample d i v).getF f d i := by
  have hne : ∀ g : Field, g.reg = .THM_STATUS → g.reg ≠ f.reg := fun g hg => by rw [hg, hf]; decide
  rw [sampled, getF_offer, showAbs, getF_setF_of_reg _ _ _ _ _ _ _ _ (hne _ rfl), showRise,
    getF_setF_of_reg _ _ _ _ _ _ _ _ (hne _ rfl), showHottest, getF_setF_of_reg _ _ _ _ _ _ _ _ (hne _ rfl),
    getF_setF_of_reg _ _ _ _ _ _ _ _ (hne _ rfl)]

theorem sampled_reads (s : State) (d i : Nat) (v : BitVec 16) :
    (s.sampled d i v).getF THM_SENSOR_TEMP d i = v.toNat ∧
    (s.sampled d i v).getF THM_SENSOR_REF d i = (BitVec.ofInt 16 (s.lowestNow d i v)).toNat % 2 ^ 16 ∧
    ((s.sampled d i v).sensorOf d i).samples = s.samplesNow d i v ∧
    (s.sampled d i v).flag THM_STATUS_QUENCHED d 0 = s.flag THM_STATUS_QUENCHED d 0 := by
  refine ⟨?_, ?_, ?_, ?_⟩
  · rw [getF_sampled_sensor _ _ _ _ _ rfl, showSample, getF_setF_apart _ _ _ _ _ _ _ _ (by decide),
      getF_setF_self _ _ _ _ _ (by decide)]
    exact Nat.mod_eq_of_lt v.isLt
  · rw [getF_sampled_sensor _ _ _ _ _ rfl, showSample, getF_setF_self _ _ _ _ _ (by decide)]
    rfl
  · have hoffer : ∀ (u : State) src n x t0, (u.offer d src n x t0).sensorOf d i = u.sensorOf d i := fun _ _ _ _ _ => rfl
    rw [sampled, hoffer, showAbs, sensorOf_setF, showRise, sensorOf_setF, showHottest, sensorOf_setF, sensorOf_setF,
      showSample, sensorOf_setF, sensorOf_setF, sensorOf_setSensor, if_pos rfl]
  · rw [flag, sampled, getF_offer, showAbs, getF_setF_apart _ _ _ _ _ _ _ _ (by decide), showRise,
      getF_setF_apart _ _ _ _ _ _ _ _ (by decide), showHottest, getF_setF_apart _ _ _ _ _ _ _ _ (by decide),
      getF_setF_apart _ _ _ _ _ _ _ _ (by decide), showSample, getF_setF_apart _ _ _ _ _ _ _ _ (by decide),
      getF_setF_apart _ _ _ _ _ _ _ _ (by decide), getF_setSensor, flag]

/-- A quenched die is shown so. -/
theorem quenched_quenchDie (s : State) (d n : Nat) (c : QuenchCause) :
    (s.quenchDie d c n).flag THM_STATUS_QUENCHED d 0 = true := by
  cases h : s.flag THM_STATUS_QUENCHED d 0 with
  | true =>
    rw [quenchDie_of_quenched _ _ _ _ h, flag, getF_quenchMark _ _ _ _ _ _ (by cases c <;> decide)]
    exact h
  | false =>
    rw [quenchDie_of_running _ _ _ _ h, flag, getF_restate_apart _ _ _ _ (by decide),
      getF_quenchTell _ _ _ _ _ _ _ _ (by decide) (by decide), quenchShow,
      getF_setF_apart _ _ _ _ _ _ _ _ (by decide), ← flag, flag_setF_one _ _ _ _ (by decide)]

/-- The sensors' registers and settings decide whether a sensor is over its thresholds. -/
theorem thresholds_congr {s t : State} (d i : Nat)
    (h : ∀ k : RegKey, k.name ∈ [.THM_CFG, .THM_SENSOR] → t.getR k = s.getR k) :
    t.riseAt d i = s.riseAt d i ∧ t.hotAt d i = s.hotAt d i := by
  have hf : ∀ (f : Field) i j, f.reg ∈ [.THM_CFG, .THM_SENSOR] → t.getF f i j = s.getF f i j := fun f i j hf => by
    rw [getF, h _ hf, getF]
  rw [riseAt, hotAt, tMax, hf THM_CFG_RISE_C _ _ (by decide), hf THM_CFG_TMAX _ _ (by decide),
    hf THM_SENSOR_TEMP _ _ (by decide), hf THM_SENSOR_REF _ _ (by decide)]
  exact ⟨rfl, rfl⟩

theorem getR_quenchDie_thresholds (s : State) (d n : Nat) (c : QuenchCause) (k : RegKey)
    (h : k.name ∈ [.THM_CFG, .THM_SENSOR]) : (s.quenchDie d c n).getR k = s.getR k :=
  getR_quenchDie (not_quenchRegs_of_name d k (by rcases List.mem_pair.mp h with h | h <;> simp [h])) s c n

/-- What the two thresholds of a sensor do to its die. -/
def quenchSensor (s : State) (d i : Nat) : State := (s.quenchRise d i).quenchHot d i

theorem quenchRise_keeps (s : State) (d i : Nat) :
    (∀ k : RegKey, k.name ∈ [.THM_CFG, .THM_SENSOR] → (s.quenchRise d i).getR k = s.getR k) ∧
    (∀ e, e ≠ d → (s.quenchRise d i).getR ⟨.THM_STATUS, e, 0⟩ = s.getR ⟨.THM_STATUS, e, 0⟩) ∧
    QuenchFrame s (s.quenchRise d i) := by
  refine ⟨fun k hk => ?_, fun e he => ?_, .ite (quenchFrame_quenchDie ..) (.refl s)⟩
  · rw [quenchRise, getR_ite, getR_quenchDie_thresholds _ _ _ _ _ hk, ite_self]
  · rw [quenchRise, getR_ite, getR_quenchDie_of_ne _ _ _ _ _ he.symm _ (.inl rfl), ite_self]

theorem quenchHot_keeps (s : State) (d i : Nat) :
    (∀ k : RegKey, k.name ∈ [.THM_CFG, .THM_SENSOR] → (s.quenchHot d i).getR k = s.getR k) ∧
    (∀ e, e ≠ d → (s.quenchHot d i).getR ⟨.THM_STATUS, e, 0⟩ = s.getR ⟨.THM_STATUS, e, 0⟩) ∧
    QuenchFrame s (s.quenchHot d i) := by
  refine ⟨fun k hk => ?_, fun e he => ?_, .ite (quenchFrame_quenchDie ..) (.refl s)⟩
  · rw [quenchHot, getR_ite, getR_quenchDie_thresholds _ _ _ _ _ hk, ite_self]
  · rw [quenchHot, getR_ite, getR_quenchDie_of_ne _ _ _ _ _ he.symm _ (.inl rfl), ite_self]

theorem quenchSensor_keeps (s : State) (d i : Nat) :
    (∀ k : RegKey, k.name ∈ [.THM_CFG, .THM_SENSOR] → (s.quenchSensor d i).getR k = s.getR k) ∧
    (∀ e, e ≠ d → (s.quenchSensor d i).getR ⟨.THM_STATUS, e, 0⟩ = s.getR ⟨.THM_STATUS, e, 0⟩) ∧
    (s.quenchSensor d i).sensors = s.sensors := by
  obtain ⟨hr1, hr2, hr3⟩ := s.quenchRise_keeps d i
  obtain ⟨hh1, hh2, hh3⟩ := (s.quenchRise d i).quenchHot_keeps d i
  refine ⟨fun k hk => (hh1 k hk).trans (hr1 k hk), fun e he => (hh2 e he).trans (hr2 e he), ?_⟩
  obtain ⟨_, _, _, _, _, _, _, _, _, _, _, _, _, h⟩ := hr3.trans hh3
  rw [quenchSensor, h]

/-- A sensor over a threshold quenches its die; one under both leaves it as it is. -/
theorem quenchSensor_quenched (s : State) (d i : Nat) :
    ((s.riseAt d i = true ∨ s.hotAt d i = true) → (s.quenchSensor d i).flag THM_STATUS_QUENCHED d 0 = true) ∧
    (s.riseAt d i = false → s.hotAt d i = false →
      (s.quenchSensor d i).flag THM_STATUS_QUENCHED d 0 = s.flag THM_STATUS_QUENCHED d 0) := by
  have hhot : (s.quenchRise d i).hotAt d i = s.hotAt d i := (thresholds_congr d i (s.quenchRise_keeps d i).1).2
  refine ⟨fun h => ?_, fun hr hh => ?_⟩
  · rw [quenchSensor, quenchHot, hhot, flag_ite, quenched_quenchDie]
    split
    · rfl
    · rw [quenchRise, if_pos (h.resolve_right ‹_›), quenched_quenchDie]
  · rw [quenchSensor, quenchHot, hhot, if_neg (by simp [hh]), quenchRise, if_neg (by simp [hr])]

end State

/-! ### The commands of R394 -/

theorem exec_inputOverpower (s : State) (w : Nat) :
    exec (.inputOverpower w) s = .next (s.latchEdges (s.inputOverpower w)) := rfl

theorem exec_coolantOutletHigh (s : State) (a b : BitVec 16) :
    exec (.coolantOutletHigh a b) s = .next (s.latchEdges (s.coolantOutletHigh a b)) := rfl

namespace State

theorem inputOverpower_of_over (s : State) (w : Nat) (h : s.getF PWR_CFG_IN_MAX_W 0 0 < w) :
    s.inputOverpower w = (s.quenchAll.setF PWR_STATUS_OVERPOWER 0 0 1).record
      { event := 0x0D04, sev := sevDegraded, unit := unitModule, sub := 18, syn := Config.syndrome 0x0D04 [w] } := if_pos h

theorem coolantOutletHigh_of_hot (s : State) (a b : BitVec 16) (h : 960 ≤ b.toInt) :
    s.coolantOutletHigh a b = (s.coolant a b).quenchAll := if_pos h

theorem IsCut.latch {t : State} {d : Nat} (h : IsCut t d) (s : State) : IsCut (s.latchEdges t) d :=
  h.congr (getR_latch _ _ _ _ _ (by decide)) (getR_latch _ _ _ _ _ (by decide))
    (by rw [getF_latch _ _ _ _ _ (by decide)]) (by rw [getF_latch _ _ _ _ _ (by decide)]) (engine_latchEdges ..)
    fun _ _ => core_latchEdges ..

theorem IsCut.record {t : State} {d : Nat} (h : IsCut t d) (a : RecArg) : IsCut (t.record a) d :=
  h.congr (getR_record_apart _ _ _ _ _ (by decide)) (getR_record_apart _ _ _ _ _ (by decide))
    (by rw [getF_record_apart _ _ _ _ _ (by decide)]) (by rw [getF_record_apart _ _ _ _ _ (by decide)])
    (engine_record ..) fun _ _ => core_record ..

theorem IsCut.setOverpower {t : State} {d : Nat} (h : IsCut t d) (v : Nat) :
    IsCut (t.setF PWR_STATUS_OVERPOWER 0 0 v) d :=
  h.congr (getR_setF_apart _ _ _ _ _ _ _ _ (by decide)) (getR_setF_apart _ _ _ _ _ _ _ _ (by decide))
    (by rw [getF_setF_apart _ _ _ _ _ _ _ _ (by decide)]) (by rw [getF_setF_apart _ _ _ _ _ _ _ _ (by decide)])
    (engine_setF ..) fun _ _ => core_setF ..

theorem railsDown_rest (t : State) : t.railsDown.engines = t.engines ∧ t.railsDown.cores = t.cores :=
  List.foldlRecOn (motive := fun u : State => u.engines = t.engines ∧ u.cores = t.cores) _ _ ⟨rfl, rfl⟩
    fun _ hu _ _ => hu

theorem goOff_rest (t : State) : t.goOff.engines = t.engines ∧ t.goOff.cores = t.cores := by
  rw [goOff_def]
  dsimp only
  exact t.railsDown_rest

theorem IsCut.orderly {t : State} {d : Nat} (h : IsCut t d) :
    IsCut { t with input := { t.input with orderly := true } } d :=
  let ⟨h1, h2, h3, h4, h5, h6, h7⟩ := h
  ⟨h1, h2, h3, h4, h5, h6, h7⟩

/-- The marking of a cause writes no register. -/
theorem getR_markCause (s : State) (k : RegKey) : s.markCause.getR k = s.getR k := by
  rw [markCause, getR_ite]
  split
  · exact List.foldlRecOn (motive := fun u : State => u.getR k = s.getR k) _ _ rfl fun _ hu _ _ => hu
  · rfl

theorem IsCut.goOff {t : State} {d : Nat} (h : IsCut t d) : IsCut t.goOff d := by
  have hgetF : ∀ f : Field, f.reg ≠ .PWR_RAIL → f.reg ≠ .HIC_PEND → t.goOff.getF f 0 0 = t.getF f 0 0 := fun f h1 h2 =>
    congrArg f.get (getR_goOff t (f.key 0 0) h1 h2)
  exact h.congr (getR_goOff _ _ (by simp) (by simp)) (getR_goOff _ _ (by simp) (by simp))
    (by rw [hgetF _ (by decide) (by decide)]) (by rw [hgetF _ (by decide) (by decide)])
    (by simp only [engine, t.goOff_rest.1]) fun p _ => by simp only [coreAt, core, t.goOff_rest.2]

theorem flag_quenched_congr {s t : State} (h : ∀ d < 4, s.flag THM_STATUS_QUENCHED d 0 = false)
    (ht : ∀ d < 4, t.getR ⟨.THM_STATUS, d, 0⟩ = s.getR ⟨.THM_STATUS, d, 0⟩) :
    ∀ d < 4, t.flag THM_STATUS_QUENCHED d 0 = false := fun d hd => (flag_of_getR (ht d hd)).trans (h d hd)

/-- The four causes of the module (R394) cut every die that runs. -/
theorem isCut_moduleCauses (s : State) (hrun : ∀ d < 4, s.flag THM_STATUS_QUENCHED d 0 = false) (d : Nat) (hd : d < 4) :
    IsCut s.pwrEnDeassert d ∧
    (∀ mv w, mv < 40000 → s.input.off = false → IsCut (s.powerFail mv w) d) ∧
    (∀ w, s.getF PWR_CFG_IN_MAX_W 0 0 < w → IsCut (s.inputOverpower w) d) ∧
    (∀ a b, 960 ≤ b.toInt → IsCut (s.coolantOutletHigh a b) d) := by
  refine ⟨?_, fun mv w hmv hon => ?_, fun w hw => ?_, fun a b hb => ?_⟩
  · have hrun' : ∀ e < 4, (s.setF PWR_PINS_PWR_EN 0 0 0).flag THM_STATUS_QUENCHED e 0 = false :=
      flag_quenched_congr hrun fun e _ => getR_setF_apart _ _ _ _ _ _ _ _ (by decide)
    rw [pwrEnDeassert_def]
    exact (isCut_quenchAll _ hrun' d hd).goOff.orderly
  · rw [powerFail_of_low _ _ _ hmv hon]
    refine (isCut_quenchAll _ (flag_quenched_congr hrun fun e _ => ?_) d hd).record _
    rw [getR_setF_apart _ _ _ _ _ _ _ _ (by decide), getR_update]
  · rw [inputOverpower_of_over _ _ hw]
    exact ((isCut_quenchAll _ hrun d hd).setOverpower 1).record _
  · rw [coolantOutletHigh_of_hot _ _ _ hb]
    refine isCut_quenchAll _ (flag_quenched_congr hrun fun e _ => ?_) d hd
    exact ((s.onlyRegs_coolant a b).2.1 _ (by simp) (by simp)).trans (s.getR_markCause _)

end State

/-- Settles O17: going off is `isOff_goOff`, power-up `inrushDone_reads`. -/
theorem theInputVoltageIsWatched : Obligations.TheInputVoltageIsWatched := by
  refine ⟨fun s mv down hdown => ⟨fun hmv hopen u hu => ?_, fun hmv hopen hen => ?_, fun hmv => ?_, fun hin => ?_, ?_,
    fun hmv => ?_, fun hhold => ?_, fun w hmv hon => ?_⟩, fun s mv lo hi hlo hhi => ⟨fun hmv => ?_, fun h1 h2 => ?_,
    fun h1 h2 => ?_⟩⟩
  · have hen : (s.setF PWR_PINS_PWR_EN 0 0 1).flag PWR_PINS_PWR_EN 0 0 = true := State.flag_setF_one _ _ _ _ (by decide)
    rw [exec_pwrEnAssert, State.closeSwitch_of_ready _ _ hen hmv hopen, hu]; rfl
  · rw [exec_inputReturn, State.closeSwitch_of_ready _ _ hen hmv hopen]
    exact congrArg _ (latchEdges_of_levels_kept (fun _ _ => rfl) rfl rfl)
  · rw [exec_inputReturn, State.closeSwitch_of_low _ _ hmv, latchEdges_self]
  · obtain ⟨hinrush, hoff, hgood, hrails, hlost, hroot, hpend⟩ := s.inrushDone_reads hin
    refine ⟨_, exec_inrushDone s, ?_⟩
    simp (disch := decide) only [State.latchEdges_input, State.flag_latch, State.getF_latch, State.latchEdges_pending,
      hinrush, hoff, hgood, hlost, hroot, hpend, and_self, and_true, true_and]
    exact hrails
  · refine ⟨_, exec_pwrEnDeassert s, (hdown _).mpr ?_, ?_, ?_⟩
    · rw [s.pwrEnDeassert_def]
      exact (State.isOff_goOff _).orderly.latch s
    · rw [State.latchEdges_input, s.pwrEnDeassert_def]
    · rw [State.flag_latch _ _ _ _ _ (by decide), s.pwrEn_pwrEnDeassert]
  · refine ⟨_, exec_inputOvervoltage s mv, (hdown _).mpr ?_, ?_⟩
    · rw [s.inputOvervoltage_of_over mv hmv]
      exact (State.isOff_goOff _).latch s
    · rw [State.latchEdges_elog, s.inputOvervoltage_of_over mv hmv, (State.goOff_eq _).1, State.seq_record]
  · have hgo : s.holdUpEnd = s.goOff := if_pos hhold
    refine ⟨_, exec_holdUpEnd s, (hdown _).mpr ?_, ?_, ?_⟩
    · rw [hgo]
      exact s.isOff_goOff.latch s
    · rw [State.latchEdges_eq, hgo, s.goOff_eq.1]
    · rw [hgo]
      exact s.goOff_eq.2.latch s
  · refine ⟨_, exec_powerFail s mv w, ?_⟩
    rw [s.powerFail_of_low mv w hmv hon, State.latchEdges_input, State.record_input,
      State.flag_latch _ _ _ _ _ (by decide), State.flag_record_apart _ _ _ _ _ (by decide), State.flag,
      State.getF_quenchAll_apart _ _ _ _ (by decide) (by decide), ← State.flag, State.flag_setF_one _ _ _ _ (by decide)]
    obtain ⟨_, _, _, _, _, _, _, _, _, _, _, _, _, hall⟩ := State.quenchFrame_quenchAll
      (({ s with input := { s.input with powerGood := false, holdUp := true } } : State).setF PWR_STATUS_PFAIL 0 0 1)
    rw [hall]
    exact ⟨rfl, rfl, rfl⟩
  · rw [exec_inputVoltageWarning, s.inputVoltageWarning_of_low mv hmv, ← hlo]
  · rw [exec_inputVoltageWarning, s.inputVoltageWarning_of_high mv h1 h2, ← hhi]
  · refine ⟨_, exec_inputWarningClear s mv, ?_⟩
    rw [s.inputWarningClear_of_range mv h1 h2]
    refine ⟨by rw [State.latchEdges_eq]; rfl, ?_, ?_, ?_⟩
    · have hin : Kept (· = ⟨.PWR_STATUS, 0, 0⟩) s { s with input := { s.input with uvSaid := false, ovSaid := false } } :=
        .trans_regs (.refl _ s) rfl
      exact ((hin.setF PWR_STATUS_UV_WARN 0 0 0 rfl (by decide)).setF PWR_STATUS_OV_WARN 0 0 0 rfl (by decide)).latch s
    · simp (disch := decide)
    · simp (disch := decide)

/-- Settles O19: a module cause cuts every die (`isCut_moduleCauses`); a sample is shown as `sampled_reads` says, then
its sensor's thresholds decide (`quenchSensor_quenched`). -/
theorem quenchCutsOnTemperature : Obligations.QuenchCutsOnTemperature := by
  refine ⟨fun s mv w inl outl i hrun hi => ?_, fun s d i v hreset hsamples => ?_⟩
  · have hcut := s.isCut_moduleCauses hrun
    have hall : ∀ t : State, (∀ d < 4, State.IsCut t d) → ∀ d < 4,
        (s.latchEdges t).flag THM_STATUS_QUENCHED d 0 = true ∧ (s.latchEdges t).flag THM_STATUS_C_MODULE d 0 = true ∧
        (s.latchEdges t).getF PWR_LV_STATUS_GRANTED d 0 = 0 ∧ ((s.latchEdges t).engine d).issued = [] ∧
        (∀ p < 34, ((s.latchEdges t).coreAt d p).held = 0) ∧
        ((s.latchEdges t).getF BOOT_CLK_STATUS_ARRAY_HALF 0 0).testBit d = true ∧
        ((s.latchEdges t).getF PWR_STATUS_QUENCHED 0 0).testBit d = true := fun t ht d hd =>
      let ⟨h1, h2, h3, h4, h5, h6, h7⟩ := (ht d hd).latch s
      ⟨h1, h2, h3, h4, h5, h6, h7⟩
    rcases hi with rfl | ⟨rfl, hmv, hon⟩ | ⟨rfl, hw⟩ | ⟨rfl, hb⟩
    · exact ⟨_, exec_pwrEnDeassert s, hall _ fun d hd => (hcut d hd).1, nofun, nofun⟩
    · exact ⟨_, exec_powerFail s mv w, hall _ fun d hd => (hcut d hd).2.1 mv w hmv hon, nofun, nofun⟩
    · refine ⟨_, exec_inputOverpower s w, hall _ fun d hd => (hcut d hd).2.2.1 w hw, fun a ha => ?_, nofun⟩
      rw [State.flag_latch _ _ _ _ _ (by decide), s.inputOverpower_of_over w hw,
        State.flag_record_apart _ _ _ _ _ (by decide), State.flag_setF_one _ _ _ _ (by decide)]
    · refine ⟨_, exec_coolantOutletHigh s inl outl, hall _ fun d hd => (hcut d hd).2.2.2 inl outl hb, nofun, fun a b hab => ?_⟩
      cases hab
      obtain ⟨hinlet, houtlet, hrise⟩ := s.coolant_reads inl outl
      rw [s.coolantOutletHigh_of_hot inl outl hb]
      refine ⟨?_, ?_, ?_⟩
      · rw [State.getF_latch _ _ _ _ _ (by decide), State.getF_quenchAll_apart _ _ _ _ (by decide) (by decide), hinlet]
      · rw [State.getF_latch _ _ _ _ _ (by decide), State.getF_quenchAll_apart _ _ _ _ (by decide) (by decide), houtlet]
      · rw [State.getF_latch _ _ _ _ _ (by decide), State.getF_quenchAll_apart _ _ _ _ (by decide) (by decide), hrise]
  · obtain ⟨htemp, href, hsamp, hq⟩ := s.sampled_reads d i v
    obtain ⟨hkeep, hother, hsens⟩ := (s.sampled d i v).quenchSensor_keeps d i
    obtain ⟨hover, hunder⟩ := (s.sampled d i v).quenchSensor_quenched d i
    obtain ⟨⟨x, hx, hxlow⟩, hlow⟩ := s.lowestNow_isLeast d i v
    have heq : s.latchEdges (s.sensorSample d i v) = s.latchEdges ((s.sampled d i v).quenchSensor d i) :=
      congrArg _ (s.sensorSample_eq d i v hreset)
    have hsensors : ((s.latchEdges ((s.sampled d i v).quenchSensor d i)).sensorOf d i).samples = s.samplesNow d i v := by
      rw [State.sensorOf_latchEdges, State.sensorOf, hsens, ← State.sensorOf, hsamp]
    have hreg : ∀ k : RegKey, k.name ∈ [.THM_CFG, .THM_SENSOR] →
        (s.latchEdges ((s.sampled d i v).quenchSensor d i)).getR k = (s.sampled d i v).getR k := fun k hk => by
      rw [State.getR_latchEdges _ _ _ (by rcases List.mem_pair.mp hk with h | h <;> simp [h]), hkeep k hk]
    obtain ⟨hrise, hhot⟩ := State.thresholds_congr d i hreg
    have hbound : ∀ y ∈ s.samplesNow d i v, -32768 ≤ y.2 ∧ y.2 < 32768 := fun y hy => by
      rcases List.mem_cons.mp hy with rfl | hy
      · exact ⟨by simpa using v.le_toInt, by simpa using v.toInt_lt⟩
      · exact hsamples y (List.mem_filter.mp hy).1
    refine ⟨_, exec_sensorSample s d i v, ?_⟩
    rw [heq, hrise, hhot, hsensors]
    refine ⟨?_, rfl, ⟨x, hx, ?_, fun y hy => hxlow ▸ hlow y hy⟩, fun h => ?_, fun hr hh => ?_, fun e j hne => ?_, fun e he => ?_⟩
    · exact (congrArg THM_SENSOR_TEMP.get (hreg _ (by simp [Field.key, THM_SENSOR_TEMP]))).trans htemp
    · have hval := (congrArg THM_SENSOR_REF.get (hreg (THM_SENSOR_REF.key d i) (by simp [Field.key, THM_SENSOR_REF]))).trans href
      obtain ⟨h1, h2⟩ := hbound x hx
      rw [State.getF, hval, hxlow, State.sgn16_ofInt _ h1 h2]
    · rw [State.flag_latch _ _ _ _ _ (by decide), hover h]
    · rw [State.flag_latch _ _ _ _ _ (by decide), hunder hr hh, hq]
    · rw [hreg _ (by simp), (s.kept_sampled d i v).1 _ (by simpa using hne) (by simp)]
    · rw [State.getR_latch _ _ _ _ _ (by decide), hother e he, (s.kept_sampled d i v).1 _ (by simpa using he) (by simp)]

end Sys2Proof.Machine
end

section
/-! The hub watches the management link, the collector and the Forge windows (R403, R405, R414, R415), and the drives with
their DMA windows (R412, R413). -/

namespace Sys2Proof.Machine
namespace State

/-! ### Forge windows -/

/-- The cycles of a window by class, shown. -/
def showCycles (s : State) (cycles : List Nat) : State :=
  (List.range 5).foldl (fun s k => s.setF HIC_FORGE_CYC_COUNT 0 k (cycles.getD k 0)) s

/-- A window counted: overloaded ones in a row, or those without overload. -/
def countWindow (s : State) (overloaded : Bool) : State :=
  if overloaded then
    { s with hub := { s.hub with overRun := s.hub.overRun + 1, clearRun := 0 } }.addF HIC_FORGE_STATUS_WINDOWS_OVER 0 0 1
  else { s with hub := { s.hub with overRun := 0, clearRun := s.hub.clearRun + 1 } }

/-- Overload begun or ended by the windows counted. -/
def judgeOverload (s : State) : State :=
  if !s.flag HIC_FORGE_STATUS_OVERLOAD 0 0 && decide (3 ≤ s.hub.overRun) then
    ((s.setF HIC_FORGE_STATUS_OVERLOAD 0 0 1).setF ING_STATUS_PACED 0 0 1).hubRecord 0x0E01 sevDegraded 8 0 []
  else if s.flag HIC_FORGE_STATUS_OVERLOAD 0 0 && decide (100 ≤ s.hub.clearRun) then
    ((s.setF HIC_FORGE_STATUS_OVERLOAD 0 0 0).setF ING_STATUS_PACED 0 0 0).hubRecord 0x0E02 sevInfo 8 0 []
  else s

theorem flag_showCycles (s : State) (cycles : List Nat) (f : Field) (i j : Nat) (h : HIC_FORGE_CYC_COUNT.reg ≠ f.reg) :
    (s.showCycles cycles).flag f i j = s.flag f i j := by
  refine List.foldlRecOn (motive := fun u : State => u.flag f i j = s.flag f i j) _ _ rfl fun u hu k _ => ?_
  rw [flag_setF_apart _ _ _ _ _ _ _ _ (.inl h), hu]

theorem flag_countWindow (s : State) (overloaded : Bool) :
    (s.countWindow overloaded).flag HIC_FORGE_STATUS_OVERLOAD 0 0 = s.flag HIC_FORGE_STATUS_OVERLOAD 0 0 := by
  unfold countWindow
  split <;> simp (disch := decide)

/-- The third overloaded window in a row begins the overload. -/
theorem judgeOverload_begins (s : State) (hoff : s.flag HIC_FORGE_STATUS_OVERLOAD 0 0 = false) (h : 3 ≤ s.hub.overRun) :
    s.judgeOverload =
      ((s.setF HIC_FORGE_STATUS_OVERLOAD 0 0 1).setF ING_STATUS_PACED 0 0 1).hubRecord 0x0E01 sevDegraded 8 0 [] :=
  if_pos (by simp [hoff, h])

/-- The hundredth window without overload ends it. -/
theorem judgeOverload_ends (s : State) (hon : s.flag HIC_FORGE_STATUS_OVERLOAD 0 0 = true) (h : 100 ≤ s.hub.clearRun) :
    s.judgeOverload =
      ((s.setF HIC_FORGE_STATUS_OVERLOAD 0 0 0).setF ING_STATUS_PACED 0 0 0).hubRecord 0x0E02 sevInfo 8 0 [] := by
  rw [judgeOverload, if_neg (by simp [hon]), if_pos (by simp [hon, h])]

theorem judgeOverload_of_none (s : State) (hoff : s.flag HIC_FORGE_STATUS_OVERLOAD 0 0 = false)
    (h : s.hub.overRun < 3) : s.judgeOverload = s := by
  rw [judgeOverload, if_neg (by simp [h]), if_neg (by simp [hoff])]

theorem showCycles_of_five (s : State) (c0 c1 c2 c3 c4 : Nat) :
    s.showCycles [c0, c1, c2, c3, c4] =
      ((((s.setF HIC_FORGE_CYC_COUNT 0 0 c0).setF HIC_FORGE_CYC_COUNT 0 1 c1).setF HIC_FORGE_CYC_COUNT 0 2 c2).setF
        HIC_FORGE_CYC_COUNT 0 3 c3).setF HIC_FORGE_CYC_COUNT 0 4 c4 := rfl

/-! ### DMA windows (R412) -/

/-- The two windows a drive reaches. -/
theorem inForgeRegion_iff (a n : Nat) : inForgeRegion a n = true ↔ 0x0BC10000000 ≤ a ∧ a + n ≤ 0x0C000000000 :=
  decide_eq_true_iff

theorem dmaRequest_of_reached (s : State) (p : Nat) (write : Bool) (a : Nat) (data : List Byte)
    (h : 0x0BC10000000 ≤ a ∧ a + data.length ≤ 0x0C000000000 ∨ s.inT2Ring a data.length = true) :
    s.dmaRequest p write a data = if write then s.storeAll a data none
      else { s with readBytes := s.readBytesAt a data.length,
                    readPoison := (List.range data.length).map fun i => s.readBad (a + i) } :=
  if_pos (by rw [Bool.or_eq_true, inForgeRegion_iff]; exact h)

theorem dmaRequest_of_blocked (s : State) (p : Nat) (write : Bool) (a : Nat) (data : List Byte)
    (hforge : ¬ (0x0BC10000000 ≤ a ∧ a + data.length ≤ 0x0C000000000)) (hring : s.inT2Ring a data.length = false) :
    s.dmaRequest p write a data = (s.addF HIC_PCIE_STATUS_DMA_BLOCKED 0 p 1).hubRecord 0x0E08 sevInfo 8 p [p, a] :=
  if_neg (by rw [Bool.or_eq_true, inForgeRegion_iff, hring]; simpa using hforge)

end State

/-! ### The commands -/

theorem exec_forgeWindow (s : State) (cycles : List Nat) (overloaded : Bool) :
    exec (.forgeWindow cycles overloaded false) s =
      .next (s.latchEdges ((s.showCycles cycles).countWindow overloaded).judgeOverload) := rfl

theorem exec_collectorUnreachable (s : State) :
    exec .collectorUnreachable s = .next (s.latchEdges s.collectorUnreachable) := rfl

theorem exec_collectorReconnect (s : State) :
    exec .collectorReconnect s = .next (s.latchEdges s.collectorReconnect) := rfl

theorem exec_dmaRequest (s : State) (p : Fin 2) (write : Bool) (a : Nat) (data : List Byte) :
    exec (.dmaRequest p write a data) s = .next (s.latchEdges (s.dmaRequest p write a data)) := rfl

theorem exec_driveFail (s : State) (p : Fin 2) : exec (.driveFail p) s = .next (s.latchEdges (s.driveFail p)) := rfl

theorem exec_pcieLinkChange (s : State) (p : Fin 2) (up : Bool) (rate width : Nat) :
    exec (.pcieLinkChange p up rate width) s = .next (s.latchEdges (s.pcieLinkChange p up rate width)) := rfl

/-- Settles O7: a window is counted, then `judgeOverload` begins or ends the overload. -/
theorem theHubWatchesItsLinksAndForge : Obligations.TheHubWatchesItsLinksAndForge := by
  refine ⟨fun s => ⟨fun _ => ⟨rfl, rfl⟩, fun hup => ?_, fun e u he hu => ?_⟩, fun s r c0 c1 c2 c3 c4 u hu => ?_⟩
  · rw [exec_collectorUnreachable, State.collectorUnreachable, if_pos hup]
  · rw [exec_collectorReconnect, State.collectorReconnect, ← he]
    refine ⟨fun hd => ?_, fun hd => ?_⟩
    · rw [if_neg (by simp [hd]), hu]
    · rw [if_pos hd, hu]
  · rw [← s.showCycles_of_five] at hu
    have hflag : ∀ o, ((s.showCycles [c0, c1, c2, c3, c4]).countWindow o).flag HIC_FORGE_STATUS_OVERLOAD 0 0 =
        s.flag HIC_FORGE_STATUS_OVERLOAD 0 0 := fun o => by
      rw [State.flag_countWindow, State.flag_showCycles _ _ _ _ _ (by decide)]
    have hhub : u.hub = s.hub := by rw [hu]; rfl
    refine ⟨rfl, fun hoff hover => ?_, fun hon hclear => ?_, fun hoff => ?_⟩
    · rw [exec_forgeWindow, State.judgeOverload_begins _ ((hflag _).trans hoff), ← hu, State.countWindow, hhub, hover]
      · rfl
      · rw [← hu]
        show 3 ≤ u.hub.overRun + 1
        rw [hhub, hover]
    · rw [exec_forgeWindow, State.judgeOverload_ends _ ((hflag _).trans hon), ← hu, State.countWindow, hhub, hclear]
      · rfl
      · rw [← hu]
        show 100 ≤ u.hub.clearRun + 1
        rw [hhub, hclear]
    · rw [exec_forgeWindow, State.judgeOverload_of_none _ ((hflag _).trans hoff), ← hu, State.countWindow, hhub]
      · rfl
      · exact Nat.zero_lt_succ 2

/-- Settles O8: a request within the two windows is performed (`dmaRequest_of_reached`), any other blocked. -/
theorem drivesReachOnlyTheirWindows : Obligations.DrivesReachOnlyTheirWindows := by
  refine ⟨fun s p a data => ⟨fun h => ⟨?_, fun b q hb hq => ?_⟩, fun hforge hring write => ?_⟩, fun s p =>
    ⟨fun both u hu hboth => ?_, fun rate width => rfl, fun rate width hdown => ?_⟩⟩
  · rw [exec_dmaRequest, s.dmaRequest_of_reached p true a data h, if_pos rfl]
  · rw [exec_dmaRequest, s.dmaRequest_of_reached p false a data h, if_neg Bool.false_ne_true, hb, hq]
    exact congrArg _ (latchEdges_of_levels_kept (fun _ _ => rfl) rfl rfl)
  · rw [exec_dmaRequest, s.dmaRequest_of_blocked p write a data hforge hring]
  · rw [exec_driveFail, hboth, hu]; rfl
  · have hlower : (!true || (s.flag HIC_PCIE_STATUS_UP 0 p && (decide (rate < s.getF HIC_PCIE_STATUS_RATE 0 p) ||
        decide (width < s.getF HIC_PCIE_STATUS_WIDTH 0 p)))) = false := by rw [hdown]; rfl
    rw [exec_pcieLinkChange, State.pcieLinkChange, hlower]; rfl

end Sys2Proof.Machine
end

section
/-! The leave arbiter (R385 to R388): which request comes first, what a grant does, and when it takes effect. -/

namespace Sys2Proof.Machine
namespace State

/-! ### The order of requests (R385) -/

theorem leaveBefore_iff (a b : LeaveReq) :
    leaveBefore a b = true ↔ b.prio < a.prio ∨ b.prio = a.prio ∧ a.since < b.since := by
  simp [leaveBefore]

theorem leaveHead_mem (l : List LeaveReq) : ∀ h, leaveHead l = some h → h ∈ l := by
  induction l with
  | nil => exact nofun
  | cons r l ih =>
    intro h hh
    rw [leaveHead] at hh
    cases hl : leaveHead l with
    | none => rw [hl] at hh; exact Option.some.inj hh ▸ List.mem_cons_self
    | some x =>
      rw [hl] at hh
      dsimp only at hh
      split at hh
      · exact List.mem_cons_of_mem _ (ih h (hl.trans hh))
      · exact Option.some.inj hh ▸ List.mem_cons_self

/-- The request that stands before every other one is the head. -/
theorem leaveHead_of_first (l : List LeaveReq) (h : LeaveReq) (hmem : h ∈ l)
    (hfirst : ∀ x ∈ l, x ≠ h → leaveBefore h x = true) : leaveHead l = some h := by
  induction l with
  | nil => cases hmem
  | cons r l ih =>
    obtain ⟨hr, hl⟩ := List.forall_mem_cons.mp hfirst
    rw [leaveHead]
    by_cases hrh : r = h
    · subst hrh
      cases hx : leaveHead l with
      | none => rfl
      | some x =>
        dsimp only
        split
        · by_cases hxr : x = r
          · rw [hxr]
          · have h1 := (leaveBefore_iff ..).mp (hl x (leaveHead_mem l x hx) hxr)
            have h2 := (leaveBefore_iff ..).mp ‹leaveBefore x r = true›
            omega
        · rfl
    · rw [ih (List.mem_of_ne_of_mem (Ne.symm hrh) hmem) hl]
      exact if_pos (hr hrh)

theorem leaveOrder_of_head (l : List LeaveReq) (h : LeaveReq) (hl : leaveHead l = some h) :
    leaveOrder l.length l = h :: leaveOrder (l.length - 1) (l.erase h) := by
  have hpos : l.length = l.length - 1 + 1 := by
    have := List.length_pos_of_mem (leaveHead_mem l h hl)
    omega
  rw [hpos, leaveOrder, hl]
  rfl

/-- The arbiter picks the head when it fits. -/
theorem leavePick_head (s : State) (d : Nat) (h : LeaveReq) (hl : leaveHead (s.engine d).waitq = some h)
    (hb : s.fitsBudget d h.tokens = true) (hr : s.fitsRamp d h.tokens = true) : s.leavePick d = some h := by
  rw [leavePick, leaveOrder_of_head _ _ hl]
  exact if_pos (by simp [hb, hr])

/-- A later request goes before a head that does not fit and does not hold the queue. -/
theorem leavePick_backfill (s : State) (d : Nat) (h g : LeaveReq) (hq : (s.engine d).waitq = [h, g])
    (hl : leaveHead (s.engine d).waitq = some h) (hh : s.fitsBudget d h.tokens = false)
    (hlock : s.headLocked d h = false) (hb : s.fitsBudget d g.tokens = true) (hr : s.fitsRamp d g.tokens = true) :
    s.leavePick d = some g := by
  have hord : leaveOrder [h, g].length [h, g] = [h, g] := by
    rw [leaveOrder_of_head _ _ (hq ▸ hl), List.erase_cons_head]
    rfl
  rw [leavePick, hq, hord]
  simp [hh, hlock, hb, hr]

/-- Nothing is picked while a head that does not fit holds the queue. -/
theorem leavePick_locked (s : State) (d : Nat) (h : LeaveReq) (hl : leaveHead (s.engine d).waitq = some h)
    (hr : s.fitsRamp d h.tokens = false) (hlock : s.headLocked d h = true) : s.leavePick d = none := by
  rw [leavePick, leaveOrder_of_head _ _ hl]
  simp [hr, hlock]

/-! ### Grants (R386) -/

/-- The power state is kept in PWR_STATUS alone. -/
theorem restate_eq (s : State) : s.restate = { s with regs := s.restate.regs } := by
  unfold restate
  extract_lets st
  split <;> rfl

/-- Does a grant of a request other than the head stop backfill? -/
def lockAfter (s : State) (d : Nat) (r : LeaveReq) : Bool :=
  (s.engine d).backfilled && !(leaveHead (s.engine d).waitq == some r)

/-- A request moved from the queue to the grants issued. -/
def issueGrant (s : State) (d : Nat) (r : LeaveReq) : State :=
  s.setEngine d { s.engine d with
    waitq := (s.engine d).waitq.erase r
    issued := (s.engine d).issued ++ [⟨r.task, r.tokens, r.core, r.since⟩]
    backfilled := s.lockAfter d r }

theorem leaveGrant_of_pick (s : State) (d : Nat) (r : LeaveReq) (hq : s.flag THM_STATUS_QUENCHED d 0 = false)
    (hp : s.flag PWR_STATUS_PFAIL 0 0 = false) (hpick : s.leavePick d = some r) :
    s.leaveGrant d = (((s.issueGrant d r).setF PWR_LV_STATUS_GRANTED d 0 (s.granted d + r.tokens)).notify d r.tokens
      (s.time + 40000)).restate := by
  rw [leaveGrant, if_neg (by simp [hq, hp]), hpick]
  rfl

theorem leaveGrant_reads (s : State) (d : Nat) (r : LeaveReq) (hq : s.flag THM_STATUS_QUENCHED d 0 = false)
    (hp : s.flag PWR_STATUS_PFAIL 0 0 = false) (hpick : s.leavePick d = some r)
    (hfit : s.fitsBudget d r.tokens = true) :
    ((s.leaveGrant d).engine d).waitq = (s.engine d).waitq.erase r ∧
    ((s.leaveGrant d).engine d).issued = (s.engine d).issued ++ [⟨r.task, r.tokens, r.core, r.since⟩] ∧
    (s.leaveGrant d).getF PWR_LV_STATUS_GRANTED d 0 = s.granted d + r.tokens ∧
    Tab.getN [] (s.leaveGrant d).light.notices d = Tab.getN [] s.light.notices d ++ [⟨r.tokens, s.time + 40000⟩] ∧
    (∀ e, e ≠ d → (s.leaveGrant d).engine e = s.engine e) ∧ (s.leaveGrant d).mem = s.mem ∧
    (s.leaveGrant d).dram = s.dram ∧ (s.leaveGrant d).elog = s.elog := by
  have hlt : s.granted d + r.tokens < 2 ^ 16 := by
    have hle : s.granted d + r.tokens ≤ s.getF PWR_LV_STATUS_BUDGET d 0 := by simpa [fitsBudget] using hfit
    exact Nat.lt_of_le_of_lt hle (Field.get_lt PWR_LV_STATUS_BUDGET _)
  have hengine : ∀ e, (s.leaveGrant d).engine e = (s.issueGrant d r).engine e := fun e => by
    rw [leaveGrant_of_pick s d r hq hp hpick, engine_restate, engine_notify, engine_setF]
  refine ⟨?_, ?_, ?_, ?_, fun e he => ?_, ?_⟩
  · rw [hengine, issueGrant, engine_setEngine, if_pos rfl]
  · rw [hengine, issueGrant, engine_setEngine, if_pos rfl]
  · rw [leaveGrant_of_pick s d r hq hp hpick, getF_restate _ _ _ _ (by decide), getF_notify,
      getF_setF_self _ _ _ _ _ (by decide)]
    exact Nat.mod_eq_of_lt hlt
  · rw [leaveGrant_of_pick s d r hq hp hpick, restate_eq]
    exact (Tab.getN_putN ..).trans (if_pos rfl)
  · rw [hengine, issueGrant, engine_setEngine, if_neg (Ne.symm he)]
  · rw [leaveGrant_of_pick s d r hq hp hpick, restate_eq]
    exact ⟨rfl, rfl, rfl⟩

/-- A head that fails on the ramp alone sets RAMPED. -/
theorem leaveGrant_of_ramped (s : State) (d : Nat) (h : LeaveReq) (hq : s.flag THM_STATUS_QUENCHED d 0 = false)
    (hp : s.flag PWR_STATUS_PFAIL 0 0 = false) (hl : leaveHead (s.engine d).waitq = some h)
    (hb : s.fitsBudget d h.tokens = true) (hr : s.fitsRamp d h.tokens = false) (hlock : s.headLocked d h = true) :
    s.leaveGrant d = s.setF PWR_LV_STATUS_RAMPED d 0 1 := by
  rw [leaveGrant, if_neg (by simp [hq, hp]), leavePick_locked s d h hl hr hlock]
  dsimp only
  rw [hl]
  exact if_pos (by rw [hb, hr]; rfl)

/-! ### A grant in effect -/

/-- A task put back under its own index is the one found there. -/
theorem task?_setTask (s : State) (n : TaskId) (x y : Task) (hx : s.task? n = some x) (hy : y.idx = n.idx) :
    (s.setTask n y).task? n = some y := by
  have hgraph : (s.setTask n y).graph n.d n.g =
      { s.graph n.d n.g with
        tasks := (s.graph n.d n.g).tasks.map fun z => if z.idx = n.idx then y else z } := by
    rw [setTask, setGraph, graph, engine_setEngine, if_pos rfl]
    exact (Tab.getN_putN ..).trans (if_pos rfl)
  have hfind : ∀ l : List Task, (l.find? fun z => z.idx = n.idx) = some x →
      ((l.map fun z => if z.idx = n.idx then y else z).find? fun z => z.idx = n.idx) = some y := fun l => by
    induction l with
    | nil => exact nofun
    | cons z l ih =>
      intro h
      by_cases hz : z.idx = n.idx
      · simp [hz, hy]
      · rw [List.find?_cons_of_neg (by simpa using hz)] at h
        rw [List.map_cons, if_neg hz, List.find?_cons_of_neg (by simpa using hz), ih h]
  rw [task?, hgraph]
  exact hfind _ hx

theorem idx_of_task? (s : State) (n : TaskId) (x : Task) (hx : s.task? n = some x) : x.idx = n.idx := by
  simpa using List.find?_some hx

/-- A grant taken from those issued. -/
def takeGrant (s : State) (n : TaskId) (g : Grant) : State :=
  s.setEngine n.d { s.engine n.d with issued := (s.engine n.d).issued.erase g }

/-- Its tokens on their core. -/
def holdTokens (s : State) (d : Nat) (g : Grant) : State :=
  if g.core < 34 then s.setCoreAt d g.core { s.coreAt d g.core with held := (s.coreAt d g.core).held + g.tokens } else s

/-- The state in which a grant's task has started. -/
def startGranted (s : State) (n : TaskId) (g : Grant) (x : Task) : State :=
  ((s.takeGrant n g).setTask n { x with started := true, startedAt := s.time }).holdTokens n.d g

theorem grantTakesEffect_of_issued (s : State) (n : TaskId) (g : Grant) (x : Task)
    (hissued : (s.engine n.d).issued = [g]) (hg : g.task = n) (hx : s.task? n = some x) :
    ∃ v : Int, s.grantTakesEffect n = ((s.startGranted n g x).addF PWR_LV_WAIT_COUNT n.d 0
      (((s.startGranted n g x).time - g.since) / 1000)).offer n.d 0x02 g.core v g.since := by
  have hfind : ([g].find? fun x => x.task = n) = some g := by simp [hg]
  have htake : s.setEngine n.d { s.engine n.d with issued := [g].erase g } = s.takeGrant n g := by
    rw [takeGrant, hissued]
  have htask : (s.takeGrant n g).task? n = some x := by
    rw [← hx, takeGrant, task?, graph, engine_setEngine, if_pos rfl]
    rfl
  refine ⟨((s.startGranted n g x).time - g.since : Nat), ?_⟩
  unfold grantTakesEffect
  simp only [hissued, hfind, htake, htask]
  rfl

theorem startGranted_time (s : State) (n : TaskId) (g : Grant) (x : Task) : (s.startGranted n g x).time = s.time := by
  rw [startGranted, holdTokens, apply_ite State.time]
  exact ite_self _

theorem startGranted_reads (s : State) (n : TaskId) (g : Grant) (x : Task) (hissued : (s.engine n.d).issued = [g])
    (hx : s.task? n = some x) (hcore : g.core < 34) :
    ((s.startGranted n g x).engine n.d).issued = [] ∧
    (s.startGranted n g x).task? n = some { x with started := true, startedAt := s.time } ∧
    ((s.startGranted n g x).coreAt n.d g.core).held = (s.coreAt n.d g.core).held + g.tokens ∧
    ∀ k, (s.startGranted n g x).getR k = s.getR k := by
  have htask : (s.takeGrant n g).task? n = some x := by
    rw [← hx, takeGrant, task?, graph, engine_setEngine, if_pos rfl]
    rfl
  have hset : ∀ (u : State) y k, (u.setTask n y).core k = u.core k ∧ ∀ r, (u.setTask n y).getR r = u.getR r :=
    fun u y k => ⟨core_setEngine .., fun r => getR_setEngine ..⟩
  rw [startGranted, holdTokens, if_pos hcore]
  refine ⟨?_, ?_, ?_, fun k => ?_⟩
  · rw [setCoreAt, engine_setCore, setTask, setGraph, engine_setEngine, if_pos rfl, takeGrant, engine_setEngine,
      if_pos rfl, hissued, List.erase_cons_head]
  · rw [setCoreAt, task?_setCore]
    exact task?_setTask _ _ _ _ htask (s.idx_of_task? n x hx)
  · rw [coreAt, setCoreAt, core_setCore, if_pos rfl, coreAt, (hset _ _ _).1, takeGrant, core_setEngine, coreAt]
  · rw [setCoreAt, getR_setCore, (hset _ _ 0).2, takeGrant, getR_setEngine]

theorem getR_offer (s : State) (d src n : Nat) (v : Int) (t0 : Nat) (k : RegKey) :
    (s.offer d src n v t0).getR k = s.getR k := (rfl)

/-! ### Tokens released (R387) -/

theorem releaseKept_of_over (s : State) (d p : Nat) (h : s.inUse d p < (s.coreAt d p).held) :
    s.releaseKept d p = (s.setCoreAt d p { s.coreAt d p with held := s.inUse d p }).releaseTokens d
      ((s.coreAt d p).held - s.inUse d p) := if_neg (by omega)

theorem releaseTokens_of_pos (s : State) (d n : Nat) (h : 0 < n) :
    s.releaseTokens d n =
      ((s.setF PWR_LV_STATUS_GRANTED d 0 (s.granted d - n)).notify d (-(n : Int)) s.time).restate :=
  if_neg (by omega)

theorem releaseKept_reads (s : State) (d p : Nat) (h : s.inUse d p < (s.coreAt d p).held)
    (hle : (s.coreAt d p).held ≤ s.granted d) :
    ((s.releaseKept d p).coreAt d p).held = s.inUse d p ∧
    (s.releaseKept d p).getF PWR_LV_STATUS_GRANTED d 0 + (s.coreAt d p).held = s.granted d + s.inUse d p ∧
    (∀ q, q ≠ p → (s.releaseKept d p).coreAt d q = s.coreAt d q) ∧ (s.releaseKept d p).engines = s.engines := by
  have hlt : s.granted d < 2 ^ 16 := Field.get_lt PWR_LV_STATUS_GRANTED _
  have hcore : ∀ k, (s.releaseKept d p).core k =
      (s.setCoreAt d p { s.coreAt d p with held := s.inUse d p }).core k := fun k => by
    rw [releaseKept_of_over s d p h, releaseTokens_of_pos _ _ _ (by omega), core_restate, core_notify, core_setF]
  refine ⟨?_, ?_, fun q hq => ?_, ?_⟩
  · rw [coreAt, hcore, setCoreAt, core_setCore, if_pos rfl]
  · rw [releaseKept_of_over s d p h, releaseTokens_of_pos _ _ _ (by omega), getF_restate _ _ _ _ (by decide), getF_notify,
      getF_setF_self _ _ _ _ _ (by decide)]
    have hgr : (s.setCoreAt d p { s.coreAt d p with held := s.inUse d p }).granted d = s.granted d := getF_setCore ..
    have hmod : (s.granted d - ((s.coreAt d p).held - s.inUse d p)) % 2 ^ PWR_LV_STATUS_GRANTED.width =
        s.granted d - ((s.coreAt d p).held - s.inUse d p) := Nat.mod_eq_of_lt (show _ < 2 ^ 16 by omega)
    rw [hgr, hmod]
    omega
  · rw [coreAt, hcore, setCoreAt, core_setCore, if_neg (by omega), coreAt]
  · rw [releaseKept_of_over s d p h, releaseTokens_of_pos _ _ _ (by omega), restate_eq]
    rfl

end State

/-! ### The commands -/

theorem exec_leaveGrant (s : State) (d : Fin 4) : exec (.leaveGrant d) s = .next (s.latchEdges (s.leaveGrant d)) := rfl

theorem exec_backfillExpiry (s : State) (d : Fin 4) :
    exec (.backfillExpiry d) s = .next (s.latchEdges (s.backfillExpiry d)) := rfl

theorem exec_grantTakesEffect (s : State) (n : TaskId) :
    exec (.grantTakesEffect n) s = .next (s.latchEdges (s.grantTakesEffect n)) := rfl

theorem exec_leaveHoldExpiry (s : State) (d : Fin 4) (p : Fin 34) :
    exec (.leaveHoldExpiry d p) s = .next (s.latchEdges (s.releaseKept d p)) := rfl

/-- Settles O21: the first request is the head of the queue (`leaveHead_of_first`), what is picked is granted as
`leaveGrant_reads` says, and tokens are released as in `releaseKept_reads`. -/
theorem leaveIsGrantedInOrder : Obligations.LeaveIsGrantedInOrder := by
  intro s d e he hq hp
  subst he
  refine ⟨fun h hmem hfirst => ?_, fun hne => ?_, fun x n g hn hg hissued hx hcore => ?_, fun p hover hle => ?_⟩
  · have hhead : State.leaveHead (s.engine d).waitq = some h :=
      State.leaveHead_of_first _ h hmem fun x hx hxh => (State.leaveBefore_iff ..).mpr (hfirst x hx hxh)
    refine ⟨fun g hg hb hr hcase => ?_, fun hb hr hlock => ?_⟩
    · have hpick : s.leavePick d = some g := by
        rcases hcase with rfl | ⟨hwait, hhb, hlock⟩
        · exact s.leavePick_head d g hhead hb hr
        · exact s.leavePick_backfill d h g hwait hhead hhb hlock hb hr
      obtain ⟨hwaitq, hissue, hgranted, hnotice, hother, hmem', hdram, helog⟩ := s.leaveGrant_reads d g hq hp hpick hb
      refine ⟨_, exec_leaveGrant s d, ?_⟩
      simp (disch := decide) only [State.engine_latchEdges, State.getF_latch, State.latchEdges_light,
        State.latchEdges_mem, State.latchEdges_dram, State.latchEdges_elog, hwaitq, hissue, hgranted, hnotice, hmem',
        hdram, helog, true_and, and_true]
      exact fun e he => hother e fun h => he (Fin.ext h)
    · rw [exec_leaveGrant, s.leaveGrant_of_ramped d h hq hp hhead hb hr hlock]
  · rw [exec_backfillExpiry, State.backfillExpiry]
    exact congrArg (commit s) (if_neg hne)
  · subst hg
    rw [← hn] at hissued
    obtain ⟨v, heffect⟩ := s.grantTakesEffect_of_issued g.task g x hissued rfl hx
    obtain ⟨hissued', htask, hheld, hregs⟩ := s.startGranted_reads g.task g x hissued hx hcore
    refine ⟨_, exec_grantTakesEffect s g.task, ?_⟩
    rw [heffect, s.startGranted_time, ← hn]
    refine ⟨?_, ?_, ?_, ?_, ?_⟩
    · exact (congrArg Engine.issued (State.engine_latchEdges ..)).trans hissued'
    · exact (State.task?_latchEdges ..).trans htask
    · exact (congrArg CoreSt.held (State.core_latchEdges ..)).trans hheld
    · rw [State.getF_latch _ _ _ _ _ (by decide), State.getF_offer, State.getF_addF_self _ _ _ _ _ (by decide), State.getF,
        hregs]
      rfl
    · rw [State.getR_latch _ _ _ _ _ (by decide), State.getR_offer, State.addF, State.getR_setF_apart _ _ _ _ _ _ _ _ (by decide), hregs]
  · obtain ⟨hheld, hgranted, hother, hengines⟩ := s.releaseKept_reads d p hover hle
    refine ⟨_, exec_leaveHoldExpiry s d p, ?_⟩
    simp (disch := decide) only [State.coreAt, State.core_latchEdges, State.getF_latch, State.latchEdges_engines]
    exact ⟨hheld, hgranted, fun q hq => hother q hq, hengines⟩

end Sys2Proof.Machine
end

section
/-! Domains held in reset and released, and the reset sequencer (R224 to R227). -/

namespace Sys2Proof.Machine
namespace State

/-! ### Bits of a mask -/

theorem testBit_clear (m i j : Nat) : (m - (m &&& 2 ^ i)).testBit j = (m.testBit j && i != j) := by
  induction i generalizing m j with
  | zero =>
    have hand : m - (m &&& 2 ^ 0) = 2 * (m / 2) := by rw [Nat.pow_zero, Nat.and_one_is_mod]; omega
    rw [hand]
    cases j with
    | zero => simp
    | succ j => simp [Nat.testBit_succ]
  | succ i ih =>
    have hand : m &&& 2 ^ (i + 1) = 2 * (m / 2 &&& 2 ^ i) := by
      rw [Nat.and_two_pow, Nat.and_two_pow, Nat.testBit_succ, Nat.pow_succ]; ring
    have hle : m / 2 &&& 2 ^ i ≤ m / 2 := Nat.and_le_left
    cases j with
    | zero => simp [hand, Nat.testBit_zero]; omega
    | succ j =>
      have hdiv : (m - 2 * (m / 2 &&& 2 ^ i)) / 2 = m / 2 - (m / 2 &&& 2 ^ i) := by omega
      rw [hand, Nat.testBit_succ, hdiv, ih, Nat.testBit_succ]
      simp

/-! ### A domain held in reset -/

/-- A domain's registers, units and memory gone. -/
def emptied (s : State) (i : Nat) : State :=
  { s with
    regs := s.regs.filter fun e => e.1.domain ≠ i
    engines := Tab.erase s.engines i
    cores := s.cores.filter fun e => e.1 / 34 ≠ i
    chans := s.chans.filter fun e => e.1 / 16 ≠ i
    quench := Tab.erase s.quench i
    sensors := s.sensors.filter fun e => e.1 / 64 ≠ i
    mons := s.mons.filter fun e => e.1 / 64 ≠ i
    ports := s.ports.filter fun e => e.1 / 2 ≠ i
    mem := s.mem.filter fun e =>
      !((isPoolAddr e.1 && (e.1 - 0x10000000000) / 0x8000000 = i) || (isScratchAddr e.1 && (scratchCore e.1).1 = i))
    linePoison := s.linePoison.filter fun e =>
      !((isPoolAddr (e.1 * 64) && (e.1 * 64 - 0x10000000000) / 0x8000000 = i) ||
        (isScratchAddr (e.1 * 64) && (scratchCore (e.1 * 64)).1 = i))
    stackTab := s.stackTab.filter fun e => 6 + e.1 ≠ i
    dram := s.dram.filter fun e => 6 + e.1 / 2 ^ 36 ≠ i
    granPoison := s.granPoison.filter fun e => 6 + e.1 * 32 / 2 ^ 36 ≠ i
    packed := s.packed.filter fun e =>
      match s.findRegion e.1 with
      | some r => 6 + ((s.region r).place (e.1 - (s.region r).base)).stack ≠ i
      | none => true
    light := if i = 5 then { carts := s.light.carts, baseline := s.light.baseline, farBase := s.light.farBase } else s.light }

/-- The bays' senses put back when the light layer is held. -/
def keepBays (s t : State) (i : Nat) : State := if i = 5 then s.keepCarts t else t

/-- The array of a die goes back to full speed. -/
def fullSpeed (s : State) (i : Nat) : State :=
  if i < 4 then s.setF BOOT_CLK_STATUS_ARRAY_HALF 0 0
    (s.getF BOOT_CLK_STATUS_ARRAY_HALF 0 0 - (s.getF BOOT_CLK_STATUS_ARRAY_HALF 0 0 &&& 2 ^ i)) else s

/-- The edges of a domain at reset. -/
def edgesDown (s : State) (i : Nat) : State := (edgesOf i).foldl (fun s x => s.edgeReset x.1 x.2) s

theorem domainHold_eq (s : State) (i : Nat) :
    s.domainHold i = (((s.keepBays (s.emptied i) i).fullSpeed i).setInReset i true).edgesDown i := rfl

/-- One edge's window at reset. -/
def windowDown (s : State) (x : Nat × Nat) : State :=
  let t := s.putR ⟨.BRZ_STATUS, x.1 * 8 + x.2, 0⟩ (RegKey.reset ⟨.BRZ_STATUS, x.1 * 8 + x.2, 0⟩)
  { t with links := Tab.putN {} (Tab.putN {} t.links (linkKey x.1 x.2 false) {}) (linkKey x.1 x.2 true) {} }

theorem edgeReset_eq (s : State) (d e : Nat) : s.edgeReset d e = (edgeEnds d e).foldl windowDown s := rfl

/-- Edges going down change BRZ_STATUS and the links alone. -/
def EdgeFrame (s u : State) : Prop :=
  (∀ k, k.name ≠ .BRZ_STATUS → u.getR k = s.getR k) ∧ u.engines = s.engines ∧ u.stackTab = s.stackTab ∧ u.boot = s.boot

theorem EdgeFrame.putR_links {s u : State} (h : EdgeFrame s u) (k : RegKey) (v : Word) (l : Tab Nat LinkSt)
    (hname : k.name = .BRZ_STATUS) : EdgeFrame s { u.putR k v with links := l } := by
  obtain ⟨hregs, hrest⟩ := h
  refine ⟨fun k' hk => ?_, hrest⟩
  rw [getR_update, getR_putR, if_neg (by rintro rfl; exact hk hname)]
  exact hregs k' hk

theorem edgesDown_frame (s : State) (i : Nat) : EdgeFrame s (s.edgesDown i) :=
  List.foldlRecOn (motive := EdgeFrame s) _ _ ⟨fun _ _ => rfl, rfl, rfl, rfl⟩ fun u hu x _ => by
    rw [edgeReset_eq]
    exact List.foldlRecOn (motive := EdgeFrame s) _ _ hu fun v hv y _ => hv.putR_links _ _ _ rfl

theorem keepBays_frame (s t : State) (i : Nat) :
    (∀ k, k.name ≠ .LC_STATUS → (s.keepBays t i).getR k = t.getR k) ∧
    s.keepBays t i = { t with regs := (s.keepBays t i).regs } := by
  unfold keepBays
  split
  · exact ⟨fun k hk => s.getR_keepCarts t k hk, (s.onlyRegs_keepCarts t).1⟩
  · exact ⟨fun _ _ => rfl, rfl⟩

theorem fullSpeed_frame (s : State) (i : Nat) :
    (∀ f : Field, f.reg ≠ .BOOT_CLK_STATUS ∨ BOOT_CLK_STATUS_ARRAY_HALF.hi < f.lo ∨ f.hi < BOOT_CLK_STATUS_ARRAY_HALF.lo →
      (s.fullSpeed i).getF f 0 0 = s.getF f 0 0) ∧ s.fullSpeed i = { s with regs := (s.fullSpeed i).regs } := by
  unfold fullSpeed
  split
  · refine ⟨fun f hf => getF_setF_apart _ _ _ _ _ _ _ _ ?_, rfl⟩
    exact hf.imp Ne.symm (Or.symm)
  · exact ⟨fun _ _ => rfl, rfl⟩

/-- The hub's own registers read as before when another domain empties. -/
theorem getR_emptied (s : State) (i : Nat) (k : RegKey) (h : k.domain ≠ i) : (s.emptied i).getR k = s.getR k :=
  (Tab.get_filter_key RegKey.reset s.regs (fun k => decide (k.domain ≠ i)) k).trans (if_pos (decide_eq_true h))

theorem engine_emptied (s : State) (i e : Nat) : (s.emptied i).engine e = if e = i then {} else s.engine e :=
  (Tab.get_erase (fun _ => ({} : Engine)) s.engines i e).trans (if_congr eq_comm rfl rfl)

theorem stack_emptied (s : State) (i m : Nat) : (s.emptied i).stack m = if 6 + m = i then {} else s.stack m := by
  have h : (s.emptied i).stack m = if decide (6 + m ≠ i) then s.stack m else {} :=
    Tab.get_filter_key (fun _ => ({} : StackSt)) s.stackTab (fun m => decide (6 + m ≠ i)) m
  rw [h]
  by_cases hm : 6 + m = i <;> simp [hm]

/-- Holding a domain but the hub's in reset sets its bit of IN_RESET and empties its units. -/
theorem domainHold_reads (s : State) (i : Nat) (hi : i ≠ 4) :
    (s.domainHold i).getF BOOT_RST_STATUS_IN_RESET 0 0 = (s.getF BOOT_RST_STATUS_IN_RESET 0 0 ||| 2 ^ i) % 2 ^ 18 ∧
    (s.domainHold i).getF BOOT_CLK_STATUS_LOCK 0 0 = s.getF BOOT_CLK_STATUS_LOCK 0 0 ∧
    (s.domainHold i).getF BOOT_CLK_STATUS_LOST 0 0 = s.getF BOOT_CLK_STATUS_LOST 0 0 ∧
    (s.domainHold i).boot = s.boot ∧
    (∀ e, (s.domainHold i).engine e = if e = i then {} else s.engine e) ∧
    (∀ m, (s.domainHold i).stack m = if 6 + m = i then {} else s.stack m) := by
  obtain ⟨hdown, hengines, hstacks, hboot⟩ := edgesDown_frame
    (((s.keepBays (s.emptied i) i).fullSpeed i).setInReset i true) i
  obtain ⟨hspeed, hspeedRest⟩ := fullSpeed_frame (s.keepBays (s.emptied i) i) i
  obtain ⟨hbays, hbaysRest⟩ := keepBays_frame s (s.emptied i) i
  have hsame : ∀ f : Field, f.reg = .BOOT_RST_STATUS ∨ f.reg = .BOOT_CLK_STATUS →
      f.reg ≠ .BOOT_CLK_STATUS ∨ BOOT_CLK_STATUS_ARRAY_HALF.hi < f.lo ∨ f.hi < BOOT_CLK_STATUS_ARRAY_HALF.lo →
      ((s.keepBays (s.emptied i) i).fullSpeed i).getF f 0 0 = s.getF f 0 0 := fun f hreg hf => by
    have hdomain : (f.key 0 0).domain = 4 := by rcases hreg with h | h <;> rw [Field.key, h] <;> rfl
    have hlc : f.reg ≠ .LC_STATUS := by rcases hreg with h | h <;> simp [h]
    rw [hspeed f hf, getF, hbays _ hlc, getR_emptied _ _ _ (hdomain ▸ Ne.symm hi)]
    rfl
  have hdownF : ∀ f : Field, f.reg ≠ .BRZ_STATUS → (s.domainHold i).getF f 0 0 =
      (((s.keepBays (s.emptied i) i).fullSpeed i).setInReset i true).getF f 0 0 := fun f hf =>
    congrArg f.get (hdown (f.key 0 0) hf)
  refine ⟨?_, ?_, ?_, ?_, fun e => ?_, fun m => ?_⟩
  · rw [hdownF _ (by decide), setInReset, getF_setF_self _ _ _ _ _ (by decide), if_pos rfl,
      hsame _ (.inl rfl) (.inl (by decide))]
    rfl
  · rw [hdownF _ (by decide), setInReset, getF_setF_apart _ _ _ _ _ _ _ _ (by decide),
      hsame _ (.inr rfl) (.inr (by decide))]
  · rw [hdownF _ (by decide), setInReset, getF_setF_apart _ _ _ _ _ _ _ _ (by decide),
      hsame _ (.inr rfl) (.inr (by decide))]
  · rw [domainHold_eq, hboot, setInReset, setF_boot, hspeedRest, hbaysRest]
    rfl
  · rw [domainHold_eq, engine, hengines, setInReset, setF_engines, hspeedRest, hbaysRest]
    exact s.engine_emptied i e
  · rw [domainHold_eq, stack, hstacks, setInReset, setF_stackTab, hspeedRest, hbaysRest]
    exact s.stack_emptied i m

end State
end Sys2Proof.Machine
end

section
/-! The reset sequencer (R226): what it holds, what it releases and where it ends. -/

namespace Sys2Proof.Machine
namespace State

/-! ### Domains held together (R227) -/

/-- A domain is held: its bit of IN_RESET set and its engine or stack empty. -/
def IsHeld (s : State) (i : Nat) : Prop :=
  (s.getF BOOT_RST_STATUS_IN_RESET 0 0).testBit i = true ∧ s.engine i = {} ∧ (6 ≤ i → s.stack (i - 6) = {})

theorem isHeld_domainHold (s : State) (i : Nat) (hi : i ≠ 4) (hlt : i < 18) : (s.domainHold i).IsHeld i := by
  obtain ⟨hreset, -, -, -, hengine, hstack⟩ := s.domainHold_reads i hi
  refine ⟨by rw [hreset]; exact testBit_or_two_pow_same _ _ _ hlt, ?_, fun h6 => ?_⟩
  · rw [hengine, if_pos rfl]
  · rw [hstack, if_pos (by omega)]

theorem IsHeld.domainHold {s : State} {i : Nat} (h : s.IsHeld i) (j : Nat) (hj : j ≠ 4) (hlt : i < 18) :
    (s.domainHold j).IsHeld i := by
  obtain ⟨hreset, -, -, -, hengine, hstack⟩ := s.domainHold_reads j hj
  obtain ⟨hbit, hempty, hstackEmpty⟩ := h
  refine ⟨?_, ?_, fun h6 => ?_⟩
  · rw [hreset, Nat.testBit_mod_two_pow, Nat.testBit_or, hbit]
    simp [hlt]
  · rw [hengine, hempty]
    exact ite_self _
  · rw [hstack, hstackEmpty h6]
    exact ite_self _

/-- The domains of a mask held in turn. -/
def holdMask (s : State) (mask : Nat) (l : List Nat) : State :=
  l.foldl (fun s i => if mask.testBit i then s.domainHold i else s) s

theorem holdMask_reads (mask : Nat) (h4 : mask.testBit 4 = false) (l : List Nat) :
    ∀ s : State, (s.holdMask mask l).boot = s.boot ∧
      ∀ i < 18, s.IsHeld i ∨ i ∈ l ∧ mask.testBit i = true → (s.holdMask mask l).IsHeld i := by
  induction l with
  | nil => exact fun s => ⟨rfl, fun i _ h => h.elim id fun h => nomatch h.1⟩
  | cons j l ih =>
    intro s
    by_cases hj : mask.testBit j = true
    · have hj4 : j ≠ 4 := by rintro rfl; rw [h4] at hj; cases hj
      have heq : s.holdMask mask (j :: l) = (s.domainHold j).holdMask mask l := by
        simp only [holdMask, List.foldl_cons, if_pos hj]
      obtain ⟨hboot, hheld⟩ := ih (s.domainHold j)
      rw [heq]
      refine ⟨hboot.trans (s.domainHold_reads j hj4).2.2.2.1, fun i hi h => hheld i hi ?_⟩
      rcases h with h | ⟨hmem, hbit⟩
      · exact .inl (h.domainHold j hj4 hi)
      · rcases List.mem_cons.mp hmem with rfl | hmem
        · exact .inl (s.isHeld_domainHold i hj4 hi)
        · exact .inr ⟨hmem, hbit⟩
    · have heq : s.holdMask mask (j :: l) = s.holdMask mask l := by
        simp only [holdMask, List.foldl_cons, if_neg hj]
      obtain ⟨hboot, hheld⟩ := ih s
      rw [heq]
      refine ⟨hboot, fun i hi h => hheld i hi (h.imp_right fun ⟨hmem, hbit⟩ => ⟨?_, hbit⟩)⟩
      rcases List.mem_cons.mp hmem with rfl | hmem
      · exact absurd hbit hj
      · exact hmem

theorem sequence_reads (s : State) (mask : Nat) :
    (s.sequence mask).getF BOOT_RST_STATUS_PHASE 0 0 = 2 ∧ (s.sequence mask).flag BOOT_RST_STATUS_SEQ_DONE 0 0 = false ∧
    (s.sequence mask).boot.seqMask = s.boot.seqMask ||| mask ∧
    (∀ f : Field, f.reg ≠ .BOOT_RST_STATUS ∨ f.hi < 60 → (s.sequence mask).getF f 0 0 = s.getF f 0 0) ∧
    (s.sequence mask).engines = s.engines ∧ (s.sequence mask).stackTab = s.stackTab := by
  refine ⟨?_, ?_, ?_, fun f hf => ?_, ?_, ?_⟩
  · rw [sequence, getF_setF_apart _ _ _ _ _ _ _ _ (by decide), getF_setF_self _ _ _ _ _ (by decide)]
    rfl
  · rw [sequence, flag_setF_zero _ _ _ _ (by decide)]
  · rw [sequence, setF_boot, setF_boot]
  · have hdone : BOOT_RST_STATUS_SEQ_DONE.reg ≠ f.reg ∨ f.hi < 60 ∨ 60 < f.lo := hf.imp Ne.symm .inl
    have hphase : BOOT_RST_STATUS_PHASE.reg ≠ f.reg ∨ f.hi < 61 ∨ 63 < f.lo := hf.imp Ne.symm fun h => .inl (by omega)
    rw [sequence, getF_setF_apart _ _ _ _ _ _ _ _ hdone, getF_setF_apart _ _ _ _ _ _ _ _ hphase, getF_update]
  · rw [sequence, setF_engines, setF_engines]
  · rw [sequence, setF_stackTab, setF_stackTab]

/-! ### Domains released (R226) -/

/-- A register the edges do not show reads the same once the edges train. -/
theorem edgeTrain_frame (s : State) (d e : Nat) :
    (∀ k, k.name ≠ .BRZ_STATUS → (s.edgeTrain d e).getR k = s.getR k) ∧ (s.edgeTrain d e).boot = s.boot := by
  unfold edgeTrain
  split
  · exact ⟨fun _ _ => rfl, rfl⟩
  · refine List.foldlRecOn (motive := fun u : State => (∀ k, k.name ≠ .BRZ_STATUS → u.getR k = s.getR k) ∧ u.boot = s.boot)
      _ _ ⟨fun _ _ => rfl, rfl⟩ fun u ⟨hregs, hboot⟩ x _ => ⟨fun k hk => ?_, (setF_boot ..).trans hboot⟩
    rw [getR_setF_of_reg _ _ _ _ _ _ hk, hregs k hk]

/-- The fields that reset to the profile's, taken by the domain released. -/
def adoptFields (s : State) (i : Nat) : State :=
  if i < 4 then s.setF PWR_LV_CFG_RAMP i 0 s.boot.prof.ramp
  else if 6 ≤ i then s.setF CRU_VER_CFG_RESERVE (i - 6) 0 s.boot.prof.reserve
  else s

theorem domainRelease_eq (s : State) (i : Nat) :
    s.domainRelease i = (edgesOf i).foldl (fun s x => s.edgeTrain x.1 x.2) ((s.adoptFields i).setInReset i false) := rfl

theorem adoptFields_frame (s : State) (i : Nat) :
    (∀ k, k.name ≠ .PWR_LV_CFG → k.name ≠ .CRU_VER_CFG → (s.adoptFields i).getR k = s.getR k) ∧
    (s.adoptFields i).boot = s.boot := by
  unfold adoptFields
  split
  · exact ⟨fun k h _ => getR_setF_of_reg _ _ _ _ _ _ h, setF_boot ..⟩
  · split
    · exact ⟨fun k _ h => getR_setF_of_reg _ _ _ _ _ _ h, setF_boot ..⟩
    · exact ⟨fun _ _ _ => rfl, rfl⟩

theorem domainRelease_reads (s : State) (i : Nat) :
    (s.domainRelease i).getF BOOT_RST_STATUS_IN_RESET 0 0 =
      (s.getF BOOT_RST_STATUS_IN_RESET 0 0 - (s.getF BOOT_RST_STATUS_IN_RESET 0 0 &&& 2 ^ i)) % 2 ^ 18 ∧
    (s.domainRelease i).getF BOOT_RST_STATUS_PHASE 0 0 = s.getF BOOT_RST_STATUS_PHASE 0 0 ∧
    (s.domainRelease i).getF BOOT_CLK_STATUS_LOCK 0 0 = s.getF BOOT_CLK_STATUS_LOCK 0 0 ∧
    (s.domainRelease i).boot = s.boot := by
  obtain ⟨htake, htakeBoot⟩ := s.adoptFields_frame i
  have htakeF : ∀ f : Field, f.reg ≠ .PWR_LV_CFG → f.reg ≠ .CRU_VER_CFG → (s.adoptFields i).getF f 0 0 = s.getF f 0 0 :=
    fun f h1 h2 => congrArg f.get (htake (f.key 0 0) h1 h2)
  obtain ⟨htrain, htrainBoot⟩ : (∀ k, k.name ≠ .BRZ_STATUS →
      (s.domainRelease i).getR k = ((s.adoptFields i).setInReset i false).getR k) ∧
      (s.domainRelease i).boot = ((s.adoptFields i).setInReset i false).boot := by
    rw [domainRelease_eq]
    generalize (s.adoptFields i).setInReset i false = t
    refine List.foldlRecOn (motive := fun u : State => (∀ k, k.name ≠ .BRZ_STATUS → u.getR k = t.getR k) ∧ u.boot = t.boot)
      _ _ ⟨fun _ _ => rfl, rfl⟩ fun u ⟨hregs, hboot⟩ x _ => ?_
    obtain ⟨htrain, htrainBoot⟩ := u.edgeTrain_frame x.1 x.2
    exact ⟨fun k hk => (htrain k hk).trans (hregs k hk), htrainBoot.trans hboot⟩
  have htrainF : ∀ f : Field, f.reg ≠ .BRZ_STATUS →
      (s.domainRelease i).getF f 0 0 = ((s.adoptFields i).setInReset i false).getF f 0 0 :=
    fun f h => congrArg f.get (htrain (f.key 0 0) h)
  refine ⟨?_, ?_, ?_, ?_⟩
  · rw [htrainF _ (by decide), setInReset, getF_setF_self _ _ _ _ _ (by decide), htakeF _ (by decide) (by decide)]
    rfl
  · rw [htrainF _ (by decide), setInReset, getF_setF_apart _ _ _ _ _ _ _ _ (by decide),
      htakeF _ (by decide) (by decide)]
  · rw [htrainF _ (by decide), setInReset, getF_setF_apart _ _ _ _ _ _ _ _ (by decide),
      htakeF _ (by decide) (by decide)]
  · rw [htrainBoot, setInReset, setF_boot, htakeBoot]

/-- A released domain is out of reset, and no other goes into it. -/
theorem inReset_domainRelease (s : State) (i j : Nat)
    (h : j = i ∨ (s.getF BOOT_RST_STATUS_IN_RESET 0 0).testBit j = false) :
    ((s.domainRelease i).getF BOOT_RST_STATUS_IN_RESET 0 0).testBit j = false := by
  rw [(s.domainRelease_reads i).1, Nat.testBit_mod_two_pow, testBit_clear]
  rcases h with rfl | h <;> simp [*]

/-- The domains of a phase released in turn. -/
def releaseAll (s : State) (l : List Nat) : State :=
  l.foldl (fun s i => if s.boot.seqMask.testBit i then s.domainRelease i else s) s

theorem releaseAll_reads (l : List Nat) (hl : ∀ i ∈ l, i < 18) :
    ∀ s : State, s.boot.seqMask = 2 ^ 18 - 1 →
      (s.releaseAll l).getF BOOT_RST_STATUS_PHASE 0 0 = s.getF BOOT_RST_STATUS_PHASE 0 0 ∧
      (s.releaseAll l).getF BOOT_CLK_STATUS_LOCK 0 0 = s.getF BOOT_CLK_STATUS_LOCK 0 0 ∧
      ∀ j, j ∈ l ∨ (s.getF BOOT_RST_STATUS_IN_RESET 0 0).testBit j = false →
        ((s.releaseAll l).getF BOOT_RST_STATUS_IN_RESET 0 0).testBit j = false := by
  induction l with
  | nil => exact fun s _ => ⟨rfl, rfl, fun j h => h.elim (nomatch ·) id⟩
  | cons i l ih =>
    intro s hmask
    obtain ⟨hi, hl⟩ := List.forall_mem_cons.mp hl
    have hbit : s.boot.seqMask.testBit i = true := by rw [hmask, Nat.testBit_two_pow_sub_one]; exact decide_eq_true hi
    have heq : s.releaseAll (i :: l) = (s.domainRelease i).releaseAll l := by
      simp only [releaseAll, List.foldl_cons, if_pos hbit]
    obtain ⟨-, hphase, hlock, hboot⟩ := s.domainRelease_reads i
    obtain ⟨hphase', hlock', hout⟩ := ih hl (s.domainRelease i) (hboot ▸ hmask)
    rw [heq]
    refine ⟨hphase'.trans hphase, hlock'.trans hlock, fun j h => hout j ?_⟩
    rcases h with h | h
    · rcases List.mem_cons.mp h with rfl | h
      · exact .inr (s.inReset_domainRelease j j (.inl rfl))
      · exact .inl h
    · exact .inr (s.inReset_domainRelease i j (.inr h))

theorem seqEnter_of_lt (s : State) (p : Nat) (hp : p ≠ 6) :
    s.seqEnter p = (s.setF BOOT_RST_STATUS_PHASE 0 0 p).releaseAll (phaseDomains p) := by
  rw [seqEnter]
  exact if_neg hp

/-- With every domain to be brought up, a phase releases all it names. -/
theorem seqEnter_reads (s : State) (p : Nat) (hp : p < 6) (hmask : s.boot.seqMask = 2 ^ 18 - 1) :
    (s.seqEnter p).getF BOOT_RST_STATUS_PHASE 0 0 = p ∧
    (s.seqEnter p).getF BOOT_CLK_STATUS_LOCK 0 0 = s.getF BOOT_CLK_STATUS_LOCK 0 0 ∧
    ∀ i ∈ phaseDomains p, ((s.seqEnter p).getF BOOT_RST_STATUS_IN_RESET 0 0).testBit i = false := by
  have hdomains : ∀ i ∈ phaseDomains p, i < 18 := by
    have hall : ∀ p < 6, ∀ i ∈ phaseDomains p, i < 18 := by decide
    exact hall p hp
  obtain ⟨hphase, hlock, hout⟩ := releaseAll_reads (phaseDomains p) hdomains (s.setF BOOT_RST_STATUS_PHASE 0 0 p)
    ((congrArg BootSt.seqMask (setF_boot ..)).trans hmask)
  rw [seqEnter_of_lt s p (by omega)]
  refine ⟨?_, ?_, fun i hi => hout i (.inl hi)⟩
  · rw [hphase, getF_setF_self _ _ _ _ _ (by decide)]
    exact Nat.mod_eq_of_lt (show p < 8 by omega)
  · rw [hlock, getF_setF_apart _ _ _ _ _ _ _ _ (by decide)]

theorem nextPhase_of_all (s : State) (hmask : s.boot.seqMask = 2 ^ 18 - 1) : s.nextPhase 2 = 3 ∧ s.nextPhase 3 = 4 := by
  rw [nextPhase, nextPhase, hmask]
  decide

/-! ### Bundles left untrained (R226) -/

theorem edgeFail_boot (s : State) (d e : Nat) : (s.edgeFail d e).boot = s.boot := by
  have hfold : ∀ l : List (Nat × Nat), (l.foldl (fun s x => s.setF BRZ_STATUS_STATE (brz x.1 x.2) 0 3) s).boot = s.boot :=
    fun l => List.foldlRecOn (motive := fun u : State => u.boot = s.boot) _ _ rfl fun u hu x _ => (setF_boot ..).trans hu
  unfold edgeFail
  extract_lets u ms dropped st v
  have hu : u.boot = s.boot := hfold _
  clear_value u
  split
  · rw [record_boot, hu]
  · rw [record_boot]
    exact hu

theorem retireBundle_boot (s : State) (d e b : Nat) : (s.retireBundle d e b).boot = s.boot := by
  unfold retireBundle
  split
  · rfl
  · extract_lets u v w n
    have hu : u.boot = s.boot := List.foldlRecOn (motive := fun u : State => u.boot = s.boot) _ _ rfl fun u hu x _ =>
      (setF_boot ..).trans ((setF_boot ..).trans hu)
    clear_value u
    have hv : v.boot = u.boot := List.foldlRecOn (motive := fun v : State => v.boot = u.boot) _ _ rfl fun v hv k _ => hv
    clear_value v
    have hw : w.boot = s.boot := (record_boot ..).trans (hv.trans hu)
    clear_value w
    split
    · rw [edgeFail_boot, hw]
    · exact hw

theorem edgeUp_boot (s : State) (d e : Nat) : (s.edgeUp d e).boot = s.boot := by
  unfold edgeUp
  split
  · exact List.foldlRecOn (motive := fun u : State => u.boot = s.boot) _ _ rfl fun u hu x _ => (setF_boot ..).trans hu
  · rfl

theorem bundleTrainingFail_boot (s : State) (d e b : Nat) : (s.bundleTrainingEnd d e b false).boot = s.boot := by
  unfold bundleTrainingEnd
  split
  · rfl
  · rw [if_neg Bool.false_ne_true, edgeUp_boot, retireBundle_boot]
    exact List.foldlRecOn (motive := fun u : State => u.boot = s.boot) _ _ rfl fun u hu x _ => (setF_boot ..).trans hu

theorem retireUntrained_boot (s : State) (p : Nat) : (s.retireUntrained p).boot = s.boot := by
  unfold retireUntrained
  refine List.foldlRecOn (motive := fun u : State => u.boot = s.boot) _ _ rfl fun u hu x _ => ?_
  have hedge : ∀ (c : Bool) (v : State), v.boot = s.boot → (if c then v else u).boot = s.boot := fun c v hv => by
    cases c
    · exact hu
    · exact hv
  refine hedge _ _ (List.foldlRecOn (motive := fun u : State => u.boot = s.boot) _ _ hu fun v hv b _ => ?_)
  split
  · exact hv
  · rw [bundleTrainingFail_boot, hv]

end State
end Sys2Proof.Machine
end

section
/-! What the resets and the sequencer's commands leave (R224 to R227). -/

namespace Sys2Proof.Machine
namespace State

/-! ### The package reset -/

/-- What a package reset leaves of `s`: nothing of the units and the memory, and the registers at reset but for those
the pins, the bays, the flash counters, the nonce and the loss bits hold. -/
def IsPackageReset (s t : State) (c : Nat) : Prop :=
  t.getF BOOT_RST_STATUS_CAUSE 0 0 = c ∧ t.pending = s.pending ∧ t.mem = [] ∧ t.dram = [] ∧ t.engines = [] ∧
  t.cores = [] ∧ t.stackTab = [] ∧ t.ports = [] ∧ t.chans = [] ∧ t.time = 0 ∧
  (∀ k, k.name ∉ [.BOOT_CTR, .PWR_PINS, .PWR_IN, .THM_PLATE, .BOOT_CLK_STATUS, .BOOT_RST_STATUS, .DBG_NONCE0,
    .DBG_NONCE1, .LC_STATUS, .HIC_PEND] → t.getR k = k.reset) ∧
  t.getF BOOT_CLK_STATUS_LOST 0 0 = s.getF BOOT_CLK_STATUS_LOST 0 0

theorem isPackageReset (s : State) (c : Nat) (hc : c < 4) : IsPackageReset s (s.packageReset c) c := by
  obtain ⟨hlost, -, hcause⟩ := s.getF_packageReset_clk c
  refine ⟨hcause.trans (Nat.mod_eq_of_lt hc), ?_, ?_, ?_, ?_, ?_, ?_, ?_, ?_, ?_, fun k hk => ?_, hlost⟩
  case refine_10 =>
    simp only [List.mem_cons, List.not_mem_nil, or_false, not_or] at hk
    exact s.getR_packageReset c k (by simp [hk])
  all_goals
    rw [packageReset_rest]
    rfl

theorem IsPackageReset.setF {s t : State} {c : Nat} (h : IsPackageReset s t c) (f : Field) (v : Nat)
    (hname : f.reg ∈ [.PWR_PINS, .BOOT_CLK_STATUS]) (hlost : f.reg ≠ .BOOT_CLK_STATUS ∨ f.hi < 46) :
    IsPackageReset s (t.setF f 0 0 v) c := by
  obtain ⟨hcause, hpend, hmem, hdram, hengines, hcores, hstacks, hports, hchans, htime, hregs, hlost'⟩ := h
  have hne : f.reg ≠ .BOOT_RST_STATUS := by rintro h; rw [h] at hname; revert hname; decide
  refine ⟨?_, ?_, ?_, ?_, ?_, ?_, ?_, ?_, ?_, ?_, fun k hk => ?_, ?_⟩
  · rw [getF_setF_apart _ _ _ _ _ _ _ _ (.inl hne), hcause]
  case refine_11 =>
    rw [getR_setF_of_reg _ _ _ _ _ _ (by rintro h; rw [h] at hk; revert hname hk; simp; grind), hregs k hk]
  case refine_12 =>
    rw [getF_setF_apart _ _ _ _ _ _ _ _ (hlost.imp id .inr), hlost']
  all_goals simpa

theorem IsPackageReset.latch {s t : State} {c : Nat} (h : IsPackageReset s t c) (u : State) :
    IsPackageReset s (u.latchEdges t) c := by
  obtain ⟨hcause, hpend, hmem, hdram, hengines, hcores, hstacks, hports, hchans, htime, hregs, hlost⟩ := h
  refine ⟨?_, ?_, ?_, ?_, ?_, ?_, ?_, ?_, ?_, ?_, fun k hk => ?_, ?_⟩
  · rw [getF_latch _ _ _ _ _ (by decide), hcause]
  case refine_11 => rw [getR_latchEdges _ _ _ (by rintro h; simp [h] at hk), hregs k hk]
  case refine_12 => rw [getF_latch _ _ _ _ _ (by decide), hlost]
  all_goals simpa

/-! ### The sequencer's steps -/

/-- The states of a local PLL's loss: the lock bit off and the loss bit on, the domain held, and the sequencer set. -/
def pllLost (s : State) (i : Nat) : State :=
  (s.setF BOOT_CLK_STATUS_LOCK 0 0 (s.getF BOOT_CLK_STATUS_LOCK 0 0 - (s.getF BOOT_CLK_STATUS_LOCK 0 0 &&& 2 ^ i))).setF
    BOOT_CLK_STATUS_LOST 0 0 ((s.setF BOOT_CLK_STATUS_LOCK 0 0 (s.getF BOOT_CLK_STATUS_LOCK 0 0 -
      (s.getF BOOT_CLK_STATUS_LOCK 0 0 &&& 2 ^ i))).getF BOOT_CLK_STATUS_LOST 0 0 ||| 2 ^ i)

theorem localPllLoss_of_locked (s : State) (i : Nat) (hi : i ≠ 4) (hl : (s.getF BOOT_CLK_STATUS_LOCK 0 0).testBit i = true) :
    s.localPllLoss i = (((s.pllLost i).domainHold i).sequence (2 ^ i)).hubRecord 0x0704 sevFailed 1 i [i] :=
  if_neg (by simp [hi, hl])

theorem pllLost_reads (s : State) (i : Nat) (hlt : i < 18) :
    ((s.pllLost i).getF BOOT_CLK_STATUS_LOCK 0 0).testBit i = false ∧
    ((s.pllLost i).getF BOOT_CLK_STATUS_LOST 0 0).testBit i = true ∧ (s.pllLost i).boot = s.boot := by
  refine ⟨?_, ?_, ?_⟩
  · rw [pllLost, getF_setF_apart _ _ _ _ _ _ _ _ (by decide), getF_setF_self _ _ _ _ _ (by decide),
      Nat.testBit_mod_two_pow, testBit_sub_and_two_pow, Bool.and_false]
  · rw [pllLost, getF_setF_self _ _ _ _ _ (by decide)]
    exact testBit_or_two_pow_same _ _ _ hlt
  · rw [pllLost, setF_boot, setF_boot]

theorem localPllLoss_reads (s : State) (i : Nat) (hi : i ≠ 4) (hlt : i < 18)
    (hl : (s.getF BOOT_CLK_STATUS_LOCK 0 0).testBit i = true) :
    ((s.localPllLoss i).getF BOOT_RST_STATUS_IN_RESET 0 0).testBit i = true ∧
    (s.localPllLoss i).getF BOOT_RST_STATUS_PHASE 0 0 = 2 ∧
    ((s.localPllLoss i).getF BOOT_CLK_STATUS_LOCK 0 0).testBit i = false ∧
    ((s.localPllLoss i).getF BOOT_CLK_STATUS_LOST 0 0).testBit i = true ∧
    (s.localPllLoss i).boot.seqMask = s.boot.seqMask ||| 2 ^ i ∧
    (s.localPllLoss i).flag BOOT_RST_STATUS_SEQ_DONE 0 0 = false := by
  obtain ⟨hlock, hlost, hboot⟩ := s.pllLost_reads i hlt
  obtain ⟨-, hlock', hlost', hboot', -⟩ := (s.pllLost i).domainHold_reads i hi
  obtain ⟨hheld, -⟩ := (s.pllLost i).isHeld_domainHold i hi hlt
  obtain ⟨hphase, hdone, hmask, hsame, -⟩ := ((s.pllLost i).domainHold i).sequence_reads (2 ^ i)
  rw [s.localPllLoss_of_locked i hi hl, hubRecord]
  refine ⟨?_, ?_, ?_, ?_, ?_, ?_⟩
  · rw [getF_record_apart _ _ _ _ _ (by decide), hsame _ (.inr (by decide)), hheld]
  · rw [getF_record_apart _ _ _ _ _ (by decide), hphase]
  · rw [getF_record_apart _ _ _ _ _ (by decide), hsame _ (.inl (by decide)), hlock', hlock]
  · rw [getF_record_apart _ _ _ _ _ (by decide), hsame _ (.inl (by decide)), hlost', hlost]
  · rw [record_boot, hmask, hboot', hboot]
  · rw [flag_record_apart _ _ _ _ _ (by decide), hdone]

/-- Phase 1 ends: the root PLL and the hub's lock, and device time at 0. -/
def rootLocked (s : State) : State :=
  let t := { s with time := 0, frac := 0 }.setF BOOT_CLK_STATUS_ROOT_LOCK 0 0 1
  t.setF BOOT_CLK_STATUS_LOCK 0 0 (t.getF BOOT_CLK_STATUS_LOCK 0 0 ||| 16)

/-- Phase 2 ends: the local PLLs of the domains being brought up lock. -/
def localsLocked (s : State) : State :=
  s.setF BOOT_CLK_STATUS_LOCK 0 0 (s.getF BOOT_CLK_STATUS_LOCK 0 0 ||| s.boot.seqMask)

/-- A cartridge present begins to warm up. -/
def warmBay (s : State) (i : Nat) : State := if s.flag LC_STATUS_PRESENT 0 i then s.setF LC_STATUS_STATE 0 i 1 else s

/-- Phase 5 ends: the light layer's start-up begins. -/
def lightStarts (s : State) : State := [0, 1, 2].foldl warmBay (s.setF LL_STATUS_START_PHASE 0 0 1)

section Phases

variable (s : State) (hseq : s.sequencing = true)
include hseq

theorem seqPhaseEnd_one (hp : s.getF BOOT_RST_STATUS_PHASE 0 0 = 1) :
    s.seqPhaseEnd = s.rootLocked.setF BOOT_RST_STATUS_PHASE 0 0 2 := by
  rw [seqPhaseEnd, if_neg (by simp [hseq]), hp]
  rfl

theorem seqPhaseEnd_two (hp : s.getF BOOT_RST_STATUS_PHASE 0 0 = 2) :
    s.seqPhaseEnd = s.localsLocked.seqEnter (s.localsLocked.nextPhase 2) := by
  rw [seqPhaseEnd, if_neg (by simp [hseq]), hp]
  rfl

theorem seqPhaseEnd_three (hp : s.getF BOOT_RST_STATUS_PHASE 0 0 = 3) :
    s.seqPhaseEnd = (s.retireUntrained 3).seqEnter (s.nextPhase 3) := by
  rw [seqPhaseEnd, if_neg (by simp [hseq]), hp]
  rfl

theorem seqPhaseEnd_five (hp : s.getF BOOT_RST_STATUS_PHASE 0 0 = 5) : s.seqPhaseEnd = s.lightStarts.seqEnter 6 := by
  rw [seqPhaseEnd, if_neg (by simp [hseq]), hp]
  rfl

end Phases

theorem rootLocked_reads (s : State) :
    s.rootLocked.time = 0 ∧ s.rootLocked.flag BOOT_CLK_STATUS_ROOT_LOCK 0 0 = true ∧
    s.rootLocked.getF BOOT_CLK_STATUS_LOCK 0 0 = s.getF BOOT_CLK_STATUS_LOCK 0 0 ||| 16 := by
  refine ⟨?_, ?_, ?_⟩
  · rw [rootLocked, setF_time, setF_time]
  · rw [rootLocked, flag_setF_apart _ _ _ _ _ _ _ _ (by decide), flag_setF_one _ _ _ _ (by decide)]
  · rw [rootLocked, getF_setF_self _ _ _ _ _ (by decide), getF_setF_apart _ _ _ _ _ _ _ _ (by decide), getF_update]
    exact Nat.mod_eq_of_lt (Nat.or_lt_two_pow (Field.get_lt BOOT_CLK_STATUS_LOCK _) (show 16 < 2 ^ 18 by omega))

theorem localsLocked_reads (s : State) (hmask : s.boot.seqMask = 2 ^ 18 - 1) :
    s.localsLocked.getF BOOT_CLK_STATUS_LOCK 0 0 = 2 ^ 18 - 1 ∧ s.localsLocked.boot = s.boot := by
  refine ⟨?_, setF_boot ..⟩
  rw [localsLocked, getF_setF_self _ _ _ _ _ (by decide), hmask]
  refine Nat.eq_of_testBit_eq fun i => ?_
  rw [show BOOT_CLK_STATUS_LOCK.width = 18 from rfl, Nat.testBit_mod_two_pow, Nat.testBit_or, Nat.testBit_two_pow_sub_one]
  by_cases h : i < 18 <;> simp [h]

theorem warmBay_reads (s : State) (i : Nat) :
    (∀ k, k ≠ ⟨.LC_STATUS, 0, i⟩ → (s.warmBay i).getR k = s.getR k) ∧
    (s.flag LC_STATUS_PRESENT 0 i = true → (s.warmBay i).getF LC_STATUS_STATE 0 i = 1) ∧ (s.warmBay i).boot = s.boot := by
  unfold warmBay
  split
  · refine ⟨fun k hk => (getR_setF ..).trans (if_neg fun h => hk h.symm), fun _ => ?_, setF_boot ..⟩
    rw [getF_setF_self _ _ _ _ _ (by decide)]
    rfl
  · next h => exact ⟨fun _ _ => rfl, fun hp => absurd hp h, rfl⟩

theorem lightStarts_reads (s : State) :
    s.lightStarts.getF LL_STATUS_START_PHASE 0 0 = 1 ∧ s.lightStarts.boot = s.boot ∧
    ∀ i < 3, s.flag LC_STATUS_PRESENT 0 i = true → s.lightStarts.getF LC_STATUS_STATE 0 i = 1 := by
  have hstart : ∀ i, (s.setF LL_STATUS_START_PHASE 0 0 1).flag LC_STATUS_PRESENT 0 i = s.flag LC_STATUS_PRESENT 0 i :=
    fun i => flag_setF_apart _ _ _ _ _ _ _ _ (by decide)
  have hphase : (s.setF LL_STATUS_START_PHASE 0 0 1).getF LL_STATUS_START_PHASE 0 0 = 1 := by
    rw [getF_setF_self _ _ _ _ _ (by decide)]
    rfl
  have hboot : (s.setF LL_STATUS_START_PHASE 0 0 1).boot = s.boot := setF_boot ..
  rw [lightStarts]
  generalize s.setF LL_STATUS_START_PHASE 0 0 1 = t at hstart hphase hboot ⊢
  obtain ⟨h0, hstate0, hboot0⟩ := t.warmBay_reads 0
  obtain ⟨h1, hstate1, hboot1⟩ := (t.warmBay 0).warmBay_reads 1
  obtain ⟨h2, hstate2, hboot2⟩ := ((t.warmBay 0).warmBay 1).warmBay_reads 2
  have hregs : ∀ k, k.name ≠ .LC_STATUS → (((t.warmBay 0).warmBay 1).warmBay 2).getR k = t.getR k := fun k hk => by
    rw [h2 k (by rintro rfl; exact hk rfl), h1 k (by rintro rfl; exact hk rfl), h0 k (by rintro rfl; exact hk rfl)]
  refine ⟨?_, hboot2.trans (hboot1.trans (hboot0.trans hboot)), fun i hi hp => ?_⟩
  · exact (congrArg LL_STATUS_START_PHASE.get (hregs _ (by decide))).trans hphase
  · rw [← hstart] at hp
    have hp1 : ∀ i, i ≠ 0 → (t.warmBay 0).flag LC_STATUS_PRESENT 0 i = t.flag LC_STATUS_PRESENT 0 i := fun i hi =>
      flag_of_getR (h0 _ (by simpa [Field.key, LC_STATUS_PRESENT] using hi))
    have hp2 : ∀ i, i ≠ 1 → ((t.warmBay 0).warmBay 1).flag LC_STATUS_PRESENT 0 i =
        (t.warmBay 0).flag LC_STATUS_PRESENT 0 i := fun i hi => flag_of_getR (h1 _ (by simpa [Field.key, LC_STATUS_PRESENT] using hi))
    obtain rfl | rfl | rfl : i = 0 ∨ i = 1 ∨ i = 2 := by omega
    · refine (congrArg LC_STATUS_STATE.get ((h2 _ (by decide)).trans (h1 _ (by decide)))).trans (hstate0 hp)
    · exact (congrArg LC_STATUS_STATE.get (h2 _ (by decide))).trans (hstate1 ((hp1 1 (by omega)).trans hp))
    · exact hstate2 ((hp2 2 (by omega)).trans ((hp1 2 (by omega)).trans hp))

/-- The last phase ends with SEQ_DONE and no domain left to bring up. -/
theorem seqEnter_six (s : State) :
    s.seqEnter 6 = { s.setF BOOT_RST_STATUS_PHASE 0 0 6 with
      boot := { (s.setF BOOT_RST_STATUS_PHASE 0 0 6).boot with seqMask := 0 } }.setF BOOT_RST_STATUS_SEQ_DONE 0 0 1 := rfl

theorem seqEnter_six_reads (s : State) :
    (s.seqEnter 6).getF BOOT_RST_STATUS_PHASE 0 0 = 6 ∧ (s.seqEnter 6).flag BOOT_RST_STATUS_SEQ_DONE 0 0 = true ∧
    (s.seqEnter 6).boot.seqMask = 0 ∧ ∀ f : Field, f.reg ≠ .BOOT_RST_STATUS → ∀ i, (s.seqEnter 6).getF f 0 i = s.getF f 0 i := by
  rw [seqEnter_six]
  refine ⟨?_, ?_, ?_, fun f hf i => ?_⟩
  · rw [getF_setF_apart _ _ _ _ _ _ _ _ (by decide), getF_update, getF_setF_self _ _ _ _ _ (by decide)]
    rfl
  · rw [flag_setF_one _ _ _ _ (by decide)]
  · rw [setF_boot]
  · rw [getF_setF_apart _ _ _ _ _ _ _ _ (.inl hf.symm), getF_update, getF_setF_apart _ _ _ _ _ _ _ _ (.inl hf.symm)]

end State

/-! ### The commands -/

theorem exec_resetNAssert (s : State) :
    exec .resetNAssert s = .next (s.latchEdges ((s.packageReset 1).setF PWR_PINS_RESET_N 0 0 0)) := rfl

theorem exec_rootPllLoss (s : State) : exec .rootPllLoss s = .next (s.latchEdges
    (((if s.input.orderly then s else s.countFailure).packageReset 2).setF BOOT_CLK_STATUS_ROOT_LOST 0 0 1)) := rfl

theorem exec_domainRst (s : State) (r : Requester) (m : BitVec 18) :
    exec (.domainRst r m) s = .next (s.latchEdges (s.domainRst m.toNat)) := rfl

theorem exec_localPllLoss (s : State) (i : Fin 18) :
    exec (.localPllLoss i) s = .next (s.latchEdges (s.localPllLoss i)) := rfl

theorem exec_seqGo (s : State) (r : Requester) : exec (.seqGo r) s = .next (s.latchEdges (s.seqGo r)) := rfl

theorem exec_seqPhaseEnd (s : State) : exec .seqPhaseEnd s = .next (s.latchEdges s.seqPhaseEnd) := rfl

theorem exec_seqPhaseTimeout (s : State) : exec .seqPhaseTimeout s = .next (s.latchEdges s.seqPhaseTimeout) := rfl

namespace State

/-- The three package resets (R226, R227) and what they leave. -/
theorem exec_packageReset (s : State) (i : Instr) (c : Nat)
    (h : i = .resetNAssert ∧ c = 1 ∨ i = .rootPllLoss ∧ c = 2 ∨
      c = 3 ∧ s.domainRstAllowed = true ∧ ∃ (r : Requester) (m : BitVec 18), m.getLsbD 4 = true ∧ i = .domainRst r m) :
    ∃ t, exec i s = .next t ∧ s.IsPackageReset t c ∧
      (i = .rootPllLoss → t.flag BOOT_CLK_STATUS_ROOT_LOST 0 0 = true) ∧
      (i = .resetNAssert → t.flag PWR_PINS_RESET_N 0 0 = false) := by
  rcases h with ⟨rfl, rfl⟩ | ⟨rfl, rfl⟩ | ⟨rfl, hallowed, r, m, hm, rfl⟩
  · refine ⟨_, exec_resetNAssert s, ((s.isPackageReset 1 (by omega)).setF _ _ (by decide) (.inl (by decide))).latch s, nofun,
      fun _ => ?_⟩
    rw [flag_latch _ _ _ _ _ (by decide), flag_setF_zero _ _ _ _ (by decide)]
  · have hcounted : s.IsPackageReset ((if s.input.orderly then s else s.countFailure).packageReset 2) 2 := by
      cases s.input.orderly
      · exact s.countFailure.isPackageReset 2 (by omega)
      · exact s.isPackageReset 2 (by omega)
    refine ⟨_, exec_rootPllLoss s, (hcounted.setF _ _ (by decide) (.inr (by decide))).latch s, fun _ => ?_, nofun⟩
    rw [flag_latch _ _ _ _ _ (by decide), flag_setF_one _ _ _ _ (by decide)]
  · have hne : m.toNat ≠ 0 := fun h0 => by
      have h4 : m.toNat.testBit 4 = true := hm
      rw [h0] at h4
      cases h4
    have heffect : s.domainRst m.toNat = s.packageReset 3 := by
      rw [domainRst, if_neg hne, if_neg (by simp [hallowed]),
        if_pos (show m.toNat.testBit 4 = true from hm)]
    refine ⟨_, exec_domainRst s r m, ?_, nofun, nofun⟩
    rw [heffect]
    exact (s.isPackageReset 3 (by omega)).latch s

theorem inReset_latch (s t : State) (i : Nat) (hi : i ≠ 4)
    (h : (t.getF BOOT_RST_STATUS_IN_RESET 0 0).testBit i = true) : (s.latchEdges t).inReset i = true := by
  rw [inReset, getF_latch _ _ _ _ _ (by decide), h]
  simpa using hi

/-- DOMAIN_RST of domains other than the hub's holds each and sets the sequencer (R227). -/
theorem domainRst_holds (s : State) (m : BitVec 18) (hne : m ≠ 0) (hallowed : s.domainRstAllowed = true)
    (h4 : m.getLsbD 4 = false) :
    (s.domainRst m.toNat).getF BOOT_RST_STATUS_PHASE 0 0 = 2 ∧
    (s.domainRst m.toNat).boot.seqMask = s.boot.seqMask ||| m.toNat ∧
    ∀ i : Fin 18, m.getLsbD i = true → (s.domainRst m.toNat).IsHeld i := by
  have heffect : s.domainRst m.toNat = (s.holdMask m.toNat (List.range 18)).sequence m.toNat := by
    have hne' : m.toNat ≠ 0 := fun h => hne (BitVec.eq_of_toNat_eq h)
    rw [domainRst, if_neg hne', if_neg (by simp [hallowed]),
      if_neg (by rw [show m.toNat.testBit 4 = false from h4]; exact Bool.false_ne_true)]
    rfl
  obtain ⟨hboot, hheld⟩ := holdMask_reads m.toNat h4 (List.range 18) s
  obtain ⟨hphase, -, hmask, hsame, hengines, hstacks⟩ := (s.holdMask m.toNat (List.range 18)).sequence_reads m.toNat
  rw [heffect]
  refine ⟨hphase, hmask.trans (by rw [hboot]), fun i hi => ?_⟩
  obtain ⟨hbit, hengine, hstack⟩ := hheld i i.isLt (.inr ⟨List.mem_range.mpr i.isLt, hi⟩)
  refine ⟨?_, ?_, fun h6 => ?_⟩
  · rw [hsame _ (.inr (by decide)), hbit]
  · rw [engine, hengines]
    exact hengine
  · rw [stack, hstacks]
    exact hstack h6

end State

/-- Settles O23: the resets leave what `isPackageReset` says, a domain is held as in `domainHold_reads`, and the phases
release the domains they name (`seqEnter_reads`). -/
theorem resetsAndTheSequencer : Obligations.ResetsAndTheSequencer := by
  refine ⟨fun s i c h => ?_, fun s => ⟨fun i hi hl => ?_, fun hidle => ⟨?_, ?_⟩, fun r hr => ?_, fun p hseq hp => ?_,
    fun r m hm => ⟨fun hnot => ?_, fun hallowed h4 => ?_⟩⟩⟩
  · obtain ⟨t, ht, ⟨hcause, hpend, hmem, hdram, hengines, hcores, hstacks, hports, hchans, htime, hregs, hlost⟩, hroot, hpin⟩ :=
      s.exec_packageReset i c h
    exact ⟨t, ht, hcause, hpend, hmem, hdram, hengines, hcores, hstacks, hports, hchans, htime, hregs, hlost, hroot, hpin⟩
  · obtain ⟨hreset, hphase, hlock, hlost, hmask, hdone⟩ := s.localPllLoss_reads i hi i.isLt hl
    refine ⟨_, exec_localPllLoss s i, s.inReset_latch _ i hi hreset, ?_⟩
    rw [State.getF_latch _ _ _ _ _ (by decide), State.getF_latch _ _ _ _ _ (by decide),
      State.getF_latch _ _ _ _ _ (by decide), State.flag_latch _ _ _ _ _ (by decide), State.latchEdges_boot]
    exact ⟨hphase, hlock, hlost, hmask, hdone⟩
  · rw [exec_seqPhaseEnd, State.seqPhaseEnd, if_pos (by simp [hidle]), latchEdges_self]
  · rw [exec_seqGo, State.seqGo, if_neg (by simp), if_neg (by simp [hidle])]
  · rw [exec_seqGo, State.seqGo, if_pos hr]
    rfl
  · refine ⟨?_, ?_, ?_, ?_, fun hle => ?_⟩
    · rintro rfl
      obtain ⟨htime, hroot, hlock⟩ := s.rootLocked_reads
      refine ⟨_, exec_seqPhaseEnd s, ?_⟩
      rw [s.seqPhaseEnd_one hseq hp, State.latchEdges_time, State.flag_latch _ _ _ _ _ (by decide),
        State.getF_latch _ _ _ _ _ (by decide), State.getF_latch _ _ _ _ _ (by decide), State.setF_time,
        State.flag_setF_apart _ _ _ _ _ _ _ _ (by decide), State.getF_setF_self _ _ _ _ _ (by decide),
        State.getF_setF_apart _ _ _ _ _ _ _ _ (by decide)]
      exact ⟨htime, hroot, rfl, hlock⟩
    · rintro rfl hmask
      obtain ⟨hlock, hboot⟩ := s.localsLocked_reads hmask
      have hmask' : s.localsLocked.boot.seqMask = 2 ^ 18 - 1 := hboot ▸ hmask
      obtain ⟨hphase, hlock', hout⟩ := s.localsLocked.seqEnter_reads 3 (by omega) hmask'
      refine ⟨_, exec_seqPhaseEnd s, ?_⟩
      rw [s.seqPhaseEnd_two hseq hp, (State.nextPhase_of_all _ hmask').1, State.getF_latch _ _ _ _ _ (by decide),
        State.getF_latch _ _ _ _ _ (by decide), State.getF_latch _ _ _ _ _ (by decide)]
      refine ⟨hphase, hlock'.trans hlock, fun i hi => hout i ?_⟩
      have hall : ∀ i < 5, i ∈ State.phaseDomains 3 := by decide
      exact hall i hi
    · rintro rfl hmask
      obtain ⟨hphase, -, hout⟩ := (s.retireUntrained 3).seqEnter_reads 4 (by omega) (by rw [s.retireUntrained_boot, hmask])
      refine ⟨_, exec_seqPhaseEnd s, ?_⟩
      rw [s.seqPhaseEnd_three hseq hp, (s.nextPhase_of_all hmask).2, State.getF_latch _ _ _ _ _ (by decide),
        State.getF_latch _ _ _ _ _ (by decide)]
      refine ⟨hphase, fun i h6 hi => hout i ?_⟩
      have hall : ∀ i < 18, 6 ≤ i → i ∈ State.phaseDomains 4 := by decide
      exact hall i hi h6
    · rintro rfl
      obtain ⟨hstart, -, hwarm⟩ := s.lightStarts_reads
      obtain ⟨hphase, hdone, hmask, hsame⟩ := s.lightStarts.seqEnter_six_reads
      refine ⟨_, exec_seqPhaseEnd s, ?_⟩
      rw [s.seqPhaseEnd_five hseq hp, State.getF_latch _ _ _ _ _ (by decide), State.flag_latch _ _ _ _ _ (by decide),
        State.getF_latch _ _ _ _ _ (by decide), State.latchEdges_boot]
      refine ⟨hphase, hdone, (hsame _ (by decide) 0).trans hstart, hmask, fun i hi hpresent => ?_⟩
      rw [State.getF_latch _ _ _ _ _ (by decide), hsame _ (by decide) i, hwarm i hi hpresent]
    · rw [exec_seqPhaseTimeout, State.seqPhaseTimeout, if_pos ⟨hseq, hp ▸ hle⟩, hp]
  · have hne : m.toNat ≠ 0 := fun h => hm (BitVec.eq_of_toNat_eq h)
    rw [exec_domainRst, State.domainRst, if_neg hne, if_pos (by simp [hnot])]
  · obtain ⟨hphase, hmask, hheld⟩ := s.domainRst_holds m hm hallowed h4
    refine ⟨_, exec_domainRst s r m, ?_, ?_, fun i hi => ?_⟩
    · rw [State.getF_latch _ _ _ _ _ (by decide), hphase]
    · rw [State.latchEdges_boot, hmask]
    · obtain ⟨hbit, hengine, hstack⟩ := hheld i hi
      have hi4 : i.val ≠ 4 := fun h => by rw [h, h4] at hi; cases hi
      refine ⟨s.inReset_latch _ i hi4 hbit, fun _ => ?_, fun h6 => ?_⟩
      · rw [State.engine_latchEdges, hengine]
      · rw [State.stack_latchEdges, hstack h6]

end Sys2Proof.Machine
end

section
/-! Graphs: the doorbells SUBMIT and RETIRE, and the validation of queued graphs (R111 to R113, R125). -/

namespace Sys2Proof.Machine
namespace State

/-! ### Graphs of a die's engine -/

theorem graph_of_engine {s t : State} {d : Nat} (h : t.engine d = s.engine d) (g : Nat) : t.graph d g = s.graph d g := by
  rw [graph, h, graph]

theorem graph_setGraph (s : State) (d g k : Nat) (x : Graph) :
    (s.setGraph d g x).graph d k = if k = g then x else s.graph d k := by
  rw [setGraph, graph, engine_setEngine, if_pos rfl]
  exact (Tab.getN_putN ..).trans (if_congr eq_comm rfl rfl)

/-- An engine's slots are its graphs, whatever else of it changes. -/
theorem graph_setEngine (s : State) (d g : Nat) (e : Engine) (h : e.graphs = (s.engine d).graphs) :
    (s.setEngine d e).graph d g = s.graph d g := by
  rw [graph, engine_setEngine, if_pos rfl, h, graph]

theorem slotState_record (s : State) (a : RecArg) (d g : Nat) : (s.record a).slotState d g = s.slotState d g :=
  getF_record_apart _ _ _ _ _ (by decide)

theorem slotState_latch (s t : State) (d g : Nat) : (s.latchEdges t).slotState d g = t.slotState d g :=
  getF_latch _ _ _ _ _ (by decide)

/-- Latching keeps a statement that only the registers and the engines differ. -/
theorem rest_latch {s t : State} (h : t = { s with regs := t.regs, engines := t.engines }) :
    s.latchEdges t = { s with regs := (s.latchEdges t).regs, engines := (s.latchEdges t).engines } := by
  rw [latchEdges_engines, latchEdges_eq, h]

/-! ### Doorbells -/

/-- A graph put into its slot. -/
def putGraph (s : State) (d g start count : Nat) : State :=
  s.setGraph d g { start := start % 65536, count := count % 131072
                   clash := s.rangeClash d (start % 65536) (count % 131072) }

theorem putGraph_engine (s : State) (d g start count : Nat) :
    (s.putGraph d g start count).engine d = { s.engine d with graphs := ((s.putGraph d g start count).engine d).graphs } := by
  rw [putGraph, setGraph, engine_setEngine, if_pos rfl]

theorem submit_first (s : State) (r : Requester) (d g start count : Nat) (hen : s.flag GE_CTRL_EN d 0 = true)
    (hidle : s.slotState d g = 0) (hv : (s.engine d).validating = none) (hs : (s.engine d).submitted = []) :
    s.submit r d g start count = ((s.putGraph d g start count).setEngine d
      { (s.putGraph d g start count).engine d with validating := some g }).setF GE_GRAPH_STATUS_STATE d g 2 := by
  rw [submit, if_neg (by simp [hen, hidle])]
  refine if_pos ?_
  rw [show s.setGraph d g _ = s.putGraph d g start count from rfl, putGraph_engine]
  simp [hv, hs]

theorem submit_waits (s : State) (r : Requester) (d g start count : Nat) (hen : s.flag GE_CTRL_EN d 0 = true)
    (hidle : s.slotState d g = 0) (h : (s.engine d).validating ≠ none ∨ (s.engine d).submitted ≠ []) :
    s.submit r d g start count = ((s.putGraph d g start count).setEngine d
      { (s.putGraph d g start count).engine d with
        submitted := ((s.putGraph d g start count).engine d).submitted ++ [g] }).setF GE_GRAPH_STATUS_STATE d g 1 := by
  rw [submit, if_neg (by simp [hen, hidle])]
  refine if_neg ?_
  rw [show s.setGraph d g _ = s.putGraph d g start count from rfl, putGraph_engine]
  simpa [or_iff_not_imp_left] using h

/-- What a submitted slot and its engine hold, whichever queue the graph went to. -/
theorem putGraph_reads (s : State) (d g start count v : Nat) (e : Engine)
    (he : e.graphs = ((s.putGraph d g start count).engine d).graphs) :
    let t := s.latchEdges (((s.putGraph d g start count).setEngine d e).setF GE_GRAPH_STATUS_STATE d g v)
    t = { s with regs := t.regs, engines := t.engines } ∧
    t.graph d g = { start := start % 65536, count := count % 131072
                    clash := s.rangeClash d (start % 65536) (count % 131072) } ∧
    (∀ k, k ≠ g → t.graph d k = s.graph d k) ∧ t.engine d = e ∧ t.slotState d g = v % 2 ^ 3 ∧
    Kept (· = ⟨.GE_GRAPH_STATUS, d, g⟩) s t := by
  intro t
  have hengine : t.engine d = e := by rw [engine_latchEdges, engine_setF, engine_setEngine, if_pos rfl]
  have hgraph : ∀ k, t.graph d k = (s.putGraph d g start count).graph d k := fun k => by
    rw [graph, hengine, he, graph]
  refine ⟨rest_latch rfl, ?_, fun k hk => ?_, hengine, ?_, ?_⟩
  · rw [hgraph, putGraph, graph_setGraph, if_pos rfl]
  · rw [hgraph, putGraph, graph_setGraph, if_neg hk]
  · exact (slotState_latch ..).trans (getF_setF_self _ _ _ _ _ (by decide))
  · have hkept : Kept (· = ⟨.GE_GRAPH_STATUS, d, g⟩) s ((s.putGraph d g start count).setEngine d e) :=
      .trans_regs (.refl _ s) rfl
    exact (hkept.setF GE_GRAPH_STATUS_STATE d g v rfl (by decide)).latch s

theorem retire_of_ended (s : State) (r : Requester) (d g : Nat) (hen : s.flag GE_CTRL_EN d 0 = true)
    (hended : 4 ≤ s.slotState d g) : s.retire r d g = (s.setGraph d g {}).putR ⟨.GE_GRAPH_STATUS, d, g⟩ 0 :=
  if_neg (by simp [hen]; omega)

theorem retired_reads (s : State) (d g : Nat) :
    let t := s.latchEdges ((s.setGraph d g {}).putR ⟨.GE_GRAPH_STATUS, d, g⟩ 0)
    t = { s with regs := t.regs, engines := t.engines } ∧ t.graph d g = {} ∧ t.getR ⟨.GE_GRAPH_STATUS, d, g⟩ = 0 ∧
    (∀ k, k ≠ g → t.graph d k = s.graph d k) ∧ Kept (· = ⟨.GE_GRAPH_STATUS, d, g⟩) s t := by
  intro t
  have hgraph : ∀ k, t.graph d k = (s.setGraph d g {}).graph d k :=
    graph_of_engine ((engine_latchEdges ..).trans (engine_putR ..))
  refine ⟨rest_latch rfl, ?_, ?_, fun k hk => ?_, ?_⟩
  · rw [hgraph, graph_setGraph, if_pos rfl]
  · rw [getR_latch _ _ _ _ _ (by decide), getR_putR, if_pos rfl]
  · rw [hgraph, graph_setGraph, if_neg hk]
  · have hkept : Kept (· = ⟨.GE_GRAPH_STATUS, d, g⟩) s (s.setGraph d g {}) := .trans_regs (.refl _ s) rfl
    exact (hkept.putR _ _ rfl (by simp)).latch s

/-! ### Validation (R113, R125) -/

theorem validationStart_of_queued (s : State) (d k : Nat) (l : List Nat) (hv : (s.engine d).validating = none)
    (hs : (s.engine d).submitted = k :: l) :
    s.validationStart d =
      (s.setEngine d { s.engine d with validating := some k, submitted := l }).setF GE_GRAPH_STATUS_STATE d k 2 := by
  rw [validationStart, hv, hs]

/-- The engine with no graph in validation. -/
def endValidating (s : State) (d : Nat) : State := s.setEngine d { s.engine d with validating := none }

theorem engine_endValidating (s : State) (d : Nat) :
    (s.endValidating d).engine d = { s.engine d with validating := none } := by
  rw [endValidating, engine_setEngine, if_pos rfl]

/-- A graph rejected with its first error. -/
def rejectGraph (s : State) (d g n code : Nat) : State :=
  (((s.setF GE_GRAPH_STATUS_STATE d g 5).setF GE_GRAPH_STATUS_ERR_CODE d g code).setF
    GE_GRAPH_STATUS_ERR_TASK d g n).dieRecord 0x0402 sevInfo d g [g, code, n]

theorem validationEnd_of_error (s : State) (d g n code : Nat) (hv : (s.engine d).validating = some g)
    (he : s.graphError d g = some (n, code)) : s.validationEnd d = (s.endValidating d).rejectGraph d g n code := by
  rw [validationEnd, hv]
  dsimp only
  rw [he]
  rfl

theorem rejectGraph_reads (s : State) (d g n code : Nat) :
    (s.rejectGraph d g n code).slotState d g = 5 ∧ (s.rejectGraph d g n code).engine d = s.engine d ∧
    (s.rejectGraph d g n code).getF GE_GRAPH_STATUS_ERR_CODE d g = code % 256 ∧
    (s.rejectGraph d g n code).getF GE_GRAPH_STATUS_ERR_TASK d g = n % 65536 := by
  rw [rejectGraph, dieRecord]
  refine ⟨?_, ?_, ?_, ?_⟩
  · rw [slotState_record, slotState, getF_setF_apart _ _ _ _ _ _ _ _ (by decide),
      getF_setF_apart _ _ _ _ _ _ _ _ (by decide), getF_setF_self _ _ _ _ _ (by decide)]
    rfl
  · rw [engine_record, engine_setF, engine_setF, engine_setF]
  · rw [getF_record_apart _ _ _ _ _ (by decide), getF_setF_apart _ _ _ _ _ _ _ _ (by decide),
      getF_setF_self _ _ _ _ _ (by decide)]
    rfl
  · rw [getF_record_apart _ _ _ _ _ (by decide), getF_setF_self _ _ _ _ _ (by decide)]
    rfl

/-- A graph running with every task of its range loaded. -/
def loadGraph (s : State) (d g : Nat) : State :=
  ((s.setGraph d g { s.graph d g with tasks := (s.readGraph d g).map fun (t : Task) => { t with ext := [] } }).setF
    GE_GRAPH_STATUS_STATE d g 3).setF GE_GRAPH_STATUS_REMAINING d g
    ((s.readGraph d g).map fun (t : Task) => { t with ext := [] }).length

theorem validationEnd_of_good (s : State) (d g : Nat) (hv : (s.engine d).validating = some g)
    (he : s.graphError d g = none) : s.validationEnd d = ((s.endValidating d).loadGraph d g).checkReady d g
      ((((s.endValidating d).readGraph d g).map fun (t : Task) => { t with ext := [] }).map (·.idx)) := by
  rw [validationEnd, hv]
  dsimp only
  rw [he]
  rfl

/-- The tasks of a graph are those of its slot range. -/
theorem readGraph_idx (s : State) (d g : Nat) :
    (s.readGraph d g).map (·.idx) = (List.range (s.graph d g).count).map fun k => ((s.graph d g).start + k) % 65536 := by
  simp [readGraph, readTask, Function.comp_def]

theorem loadGraph_reads (s : State) (d g : Nat) :
    ((s.loadGraph d g).graph d g).tasks.map (·.idx) = (s.readGraph d g).map (·.idx) ∧
    ((s.loadGraph d g).engine d).validating = (s.engine d).validating ∧ (s.loadGraph d g).slotState d g = 3 ∧
    (s.loadGraph d g).getF GE_GRAPH_STATUS_REMAINING d g = (s.readGraph d g).length % 131072 := by
  refine ⟨?_, ?_, ?_, ?_⟩
  · have hgraph : (s.loadGraph d g).graph d g =
        { s.graph d g with tasks := (s.readGraph d g).map fun (t : Task) => { t with ext := [] } } := by
      rw [graph, loadGraph, engine_setF, engine_setF]
      exact (s.graph_setGraph d g g _).trans (if_pos rfl)
    rw [hgraph]
    simp [Function.comp_def]
  · rw [loadGraph, engine_setF, engine_setF, setGraph, engine_setEngine, if_pos rfl]
  · rw [slotState, loadGraph, getF_setF_apart _ _ _ _ _ _ _ _ (by decide), getF_setF_self _ _ _ _ _ (by decide)]
    rfl
  · rw [loadGraph, getF_setF_self _ _ _ _ _ (by decide), List.length_map]
    rfl

/-- A task reported as unplaceable shows in GE_UNPLACED and its slot's bit alone. -/
theorem reportUnplaced_frame (s : State) (d : Nat) (t : TaskId × Task) :
    (s.reportUnplaced d t).engine d = s.engine d ∧
    ∀ f ∈ [GE_GRAPH_STATUS_STATE, GE_GRAPH_STATUS_REMAINING], ∀ g, (s.reportUnplaced d t).getF f d g = s.getF f d g := by
  unfold reportUnplaced
  extract_lets u v
  have hu : u.engine d = s.engine d ∧ ∀ f ∈ [GE_GRAPH_STATUS_STATE, GE_GRAPH_STATUS_REMAINING], ∀ g,
      u.getF f d g = s.getF f d g := by
    refine ⟨engine_setF .., fun f hf g => ?_⟩
    simp only [List.mem_cons, List.not_mem_nil, or_false] at hf
    rcases hf with rfl | rfl <;> exact getF_setF_apart _ _ _ _ _ _ _ _ (by decide)
  have hv : v.engine d = u.engine d ∧ ∀ f : Field, f.reg = .GE_GRAPH_STATUS → ∀ g, v.getF f d g = u.getF f d g := by
    by_cases h : u.flag GE_UNPLACED_VALID d 0 = true
    · rw [show v = u from if_pos h]
      exact ⟨rfl, fun _ _ _ => rfl⟩
    · rw [show v = _ from if_neg h]
      refine ⟨by rw [engine_setF, engine_setF, engine_setF], fun f hf g => ?_⟩
      rw [getF_setF_of_reg _ _ _ _ _ _ _ _ (by simp [hf, GE_UNPLACED_TASK]),
        getF_setF_of_reg _ _ _ _ _ _ _ _ (by simp [hf, GE_UNPLACED_G]),
        getF_setF_of_reg _ _ _ _ _ _ _ _ (by simp [hf, GE_UNPLACED_VALID])]
  refine ⟨by rw [dieRecord, engine_record, hv.1, hu.1], fun f hf g => ?_⟩
  have hreg : f.reg = .GE_GRAPH_STATUS := by
    simp only [List.mem_cons, List.not_mem_nil, or_false] at hf
    rcases hf with rfl | rfl <;> rfl
  rw [dieRecord, getF_record_apart _ _ _ _ _ (by simp [hreg]), hv.2 f hreg g, hu.2 f hf g]

theorem checkReady_frame (s : State) (d g : Nat) (l : List Nat) :
    (s.checkReady d g l).engine d = s.engine d ∧
    ∀ f ∈ [GE_GRAPH_STATUS_STATE, GE_GRAPH_STATUS_REMAINING], ∀ k, (s.checkReady d g l).getF f d k = s.getF f d k :=
  List.foldlRecOn (motive := fun u : State => u.engine d = s.engine d ∧
    ∀ f ∈ [GE_GRAPH_STATUS_STATE, GE_GRAPH_STATUS_REMAINING], ∀ k, u.getF f d k = s.getF f d k) _ _
    ⟨rfl, fun _ _ _ => rfl⟩ fun u ⟨hengine, hregs⟩ t _ =>
      ⟨(u.reportUnplaced_frame d t).1.trans hengine, fun f hf k =>
        ((u.reportUnplaced_frame d t).2 f hf k).trans (hregs f hf k)⟩

end State

/-! ### The commands -/

theorem exec_submit (s : State) (r : Requester) (d : Fin 4) (g : Fin 16) (start count : Nat) (h : s.inReset d = false) :
    exec (.submit r d g start count) s = .next (s.latchEdges (s.submit r d g start count)) := by
  have hreg := s.atReg_dieReg (s.submit r d g start count) r d 0x10 (by omega)
  rw [if_neg (by simp [h])] at hreg
  exact congrArg (commit s) hreg

theorem exec_retire (s : State) (r : Requester) (d : Fin 4) (g : Fin 16) (h : s.inReset d = false) :
    exec (.retire r d g) s = .next (s.latchEdges (s.retire r d g)) := by
  have hreg := s.atReg_dieReg (s.retire r d g) r d 0x10 (by omega)
  rw [if_neg (by simp [h])] at hreg
  exact congrArg (commit s) hreg

theorem exec_validationStart (s : State) (d : Fin 4) :
    exec (.validationStart d) s = .next (s.latchEdges (s.validationStart d)) := rfl

theorem exec_validationEnd (s : State) (d : Fin 4) :
    exec (.validationEnd d) s = .next (s.latchEdges (s.validationEnd d)) := rfl

/-- Settles O24: a submitted slot holds what `putGraph_reads` says, a retired one what `retired_reads` says, and a
validation ends as in `rejectGraph_reads` or `loadGraph_reads`. -/
theorem graphsEnterThroughValidation : Obligations.GraphsEnterThroughValidation := by
  intro s r d g start count e he hreset
  subst he
  refine ⟨fun hen hidle => ?_, fun hen hended => ?_, fun u hu => ⟨fun h => ?_, fun h => ?_⟩, fun k l hv hs => ?_,
    fun hv => ⟨fun n code herr => ?_, fun herr => ?_⟩⟩
  · have hsub : ((s.putGraph d g start count).engine d).submitted = (s.engine d).submitted := by
      rw [s.putGraph_engine]
    have hval : ((s.putGraph d g start count).engine d).validating = (s.engine d).validating := by
      rw [s.putGraph_engine]
    refine ⟨_, exec_submit s r d g start count hreset, ?_⟩
    by_cases h : (s.engine d).validating = none ∧ (s.engine d).submitted = []
    · obtain ⟨hv, hs⟩ := h
      rw [s.submit_first r d g start count hen hidle hv hs]
      obtain ⟨hrest, hgraph, hother, hengine, hstate, hkept⟩ := s.putGraph_reads d g start count 2
        { (s.putGraph d g start count).engine d with validating := some g.val } rfl
      exact ⟨hrest, congrArg Graph.start hgraph, congrArg Graph.count hgraph, congrArg Graph.tasks hgraph,
        fun _ _ => ⟨hstate, congrArg Engine.validating hengine, (congrArg Engine.submitted hengine).trans (hsub.trans hs)⟩,
        fun h => absurd h (by simp [hv, hs]), hother, hkept⟩
    · have hwait : (s.engine d).validating ≠ none ∨ (s.engine d).submitted ≠ [] := by
        rwa [not_and_or] at h
      rw [s.submit_waits r d g start count hen hidle hwait]
      obtain ⟨hrest, hgraph, hother, hengine, hstate, hkept⟩ := s.putGraph_reads d g start count 1
        { (s.putGraph d g start count).engine d with
          submitted := ((s.putGraph d g start count).engine d).submitted ++ [g.val] } rfl
      exact ⟨hrest, congrArg Graph.start hgraph, congrArg Graph.count hgraph, congrArg Graph.tasks hgraph,
        fun hv hs => absurd ⟨hv, hs⟩ h, fun _ => ⟨hstate, (congrArg Engine.validating hengine).trans hval,
          (congrArg Engine.submitted hengine).trans (congrArg (· ++ [g.val]) hsub)⟩, hother, hkept⟩
  · obtain ⟨hrest, hgraph, hreg, hother, hkept⟩ := s.retired_reads d g
    refine ⟨_, exec_retire s r d g hreset, ?_⟩
    rw [s.retire_of_ended r d g hen hended]
    exact ⟨hrest, hgraph, hreg, hother, hkept⟩
  · rw [exec_submit s r d g start count hreset, State.submit, if_pos (by simpa [or_comm] using h), hu]
    rfl
  · rw [exec_retire s r d g hreset, State.retire, if_pos (by simpa [or_comm] using h), hu]
    rfl
  · rw [exec_validationStart, s.validationStart_of_queued d k l hv hs]
  · obtain ⟨hstate, hengine, hcode, htask⟩ := (s.endValidating d).rejectGraph_reads d g n code
    refine ⟨_, exec_validationEnd s d, ?_⟩
    rw [s.validationEnd_of_error d g n code hv herr, State.slotState_latch, State.engine_latchEdges,
      State.getF_latch _ _ _ _ _ (by decide), State.getF_latch _ _ _ _ _ (by decide)]
    exact ⟨hstate, hengine.trans (s.engine_endValidating d), hcode, htask⟩
  · obtain ⟨htasks, hvalidating, hstate, hremaining⟩ := (s.endValidating d).loadGraph_reads d g
    have hgraph : (s.endValidating d).graph d g = s.graph d g := s.graph_setEngine d g _ rfl
    have hidx : ((s.endValidating d).readGraph d g).map (·.idx) = (s.readGraph d g).map (·.idx) := by
      rw [State.readGraph_idx, State.readGraph_idx, hgraph]
    have hlen : ((s.endValidating d).readGraph d g).length = (s.readGraph d g).length := by
      simpa using congrArg List.length hidx
    refine ⟨_, exec_validationEnd s d, ?_⟩
    rw [s.validationEnd_of_good d g hv herr]
    obtain ⟨hengine, hregs⟩ := ((s.endValidating d).loadGraph d g).checkReady_frame d g
      ((((s.endValidating d).readGraph d g).map fun (t : Task) => { t with ext := [] }).map (·.idx))
    rw [State.slotState_latch, State.getF_latch _ _ _ _ _ (by decide), State.engine_latchEdges,
      State.graph_of_engine (State.engine_latchEdges ..), State.graph_of_engine hengine, hengine, htasks, hidx,
      hvalidating, hregs _ (by simp), hremaining, hlen, s.engine_endValidating]
    exact ⟨(hregs _ (by simp) g).trans hstate, rfl, rfl, rfl⟩

end Sys2Proof.Machine
end

section
/-! The graphs of the dies: what leaves the task tables and the slot states as they are. -/

namespace Sys2Proof.Machine

/-- `t` holds the graphs of `s`: the same tasks in every slot, and the same slot states. -/
def KeepsGraphs (s t : State) : Prop :=
  (∀ d, (t.engine d).graphs = (s.engine d).graphs) ∧
  ∀ d g, t.getR ⟨.GE_GRAPH_STATUS, d, g⟩ = s.getR ⟨.GE_GRAPH_STATUS, d, g⟩

namespace KeepsGraphs

variable {s t u : State}

theorem refl (s : State) : KeepsGraphs s s := ⟨fun _ => rfl, fun _ _ => rfl⟩

theorem trans (h : KeepsGraphs s t) (h' : KeepsGraphs t u) : KeepsGraphs s u :=
  ⟨fun d => (h'.1 d).trans (h.1 d), fun d g => (h'.2 d g).trans (h.2 d g)⟩

theorem graph (h : KeepsGraphs s t) (d g : Nat) : t.graph d g = s.graph d g := by
  rw [State.graph, h.1, State.graph]

theorem slotState (h : KeepsGraphs s t) (d g : Nat) : t.slotState d g = s.slotState d g :=
  congrArg GE_GRAPH_STATUS_STATE.get (h.2 d g)

theorem task? (h : KeepsGraphs s t) (n : TaskId) : t.task? n = s.task? n := by
  rw [State.task?, h.graph, State.task?]

/-! ### Branches and folds -/

/-- Neither the registers nor the engines change. -/
theorem other (h : KeepsGraphs s t) (hregs : u.regs = t.regs) (hengines : u.engines = t.engines) :
    KeepsGraphs s u :=
  ⟨fun d => (congrArg (fun x => (Tab.getN ({} : Engine) x d).graphs) hengines).trans (h.1 d), fun d g =>
    (congrArg (Tab.get RegKey.reset · _) hregs).trans (h.2 d g)⟩

theorem ifEither {c : Prop} {_ : Decidable c} (ht : KeepsGraphs s t) (hu : KeepsGraphs s u) :
    KeepsGraphs s (if c then t else u) := by
  split; exacts [ht, hu]

theorem ifThen {c : Prop} {_ : Decidable c} (h : KeepsGraphs s t) (hu : KeepsGraphs s t → KeepsGraphs s u) :
    KeepsGraphs s (if c then u else t) := ifEither (hu h) h

theorem ifElse {c : Prop} {_ : Decidable c} (h : KeepsGraphs s t) (hu : KeepsGraphs s t → KeepsGraphs s u) :
    KeepsGraphs s (if c then t else u) := ifEither h (hu h)

theorem foldl {α : Type} (h : KeepsGraphs s t) (f : State → α → State)
    (hf : ∀ u x, KeepsGraphs s u → KeepsGraphs s (f u x)) (l : List α) : KeepsGraphs s (l.foldl f t) :=
  List.foldlRecOn (motive := fun u : State => KeepsGraphs s u) _ _ h fun u hu x _ => hf u x hu

/-! ### Registers, cores, stacks and ports -/

theorem putR (h : KeepsGraphs s t) (k : RegKey) (v : Word) (hk : k.name ≠ .GE_GRAPH_STATUS) :
    KeepsGraphs s (t.putR k v) :=
  ⟨h.1, fun d g => (State.getR_putR ..).trans ((if_neg (by rintro rfl; exact hk rfl)).trans (h.2 d g))⟩

theorem setF (h : KeepsGraphs s t) (f : Field) (i j v : Nat) (hf : f.reg ≠ .GE_GRAPH_STATUS := by decide) :
    KeepsGraphs s (t.setF f i j v) := h.putR _ _ hf

theorem addF (h : KeepsGraphs s t) (f : Field) (i j v : Nat) (hf : f.reg ≠ .GE_GRAPH_STATUS := by decide) :
    KeepsGraphs s (t.addF f i j v) := h.putR _ _ hf

theorem pulse (h : KeepsGraphs s t) (g i : Nat) : KeepsGraphs s (t.pulse g i) := h.putR _ _ (by simp)

theorem record (h : KeepsGraphs s t) (a : RecArg) : KeepsGraphs s (t.record a) :=
  ⟨fun d => (congrArg Engine.graphs (State.engine_record ..)).trans (h.1 d), fun d g =>
    (State.getR_record_of_name _ _ _ (by simp)).trans (h.2 d g)⟩

theorem setStack (h : KeepsGraphs s t) (k : Nat) (x : StackSt) : KeepsGraphs s (t.setStack k x) := h.other rfl rfl
theorem setPort (h : KeepsGraphs s t) (k : Nat) (x : PortSt) : KeepsGraphs s (t.setPort k x) := h.other rfl rfl
theorem setCore (h : KeepsGraphs s t) (k : Nat) (x : CoreSt) : KeepsGraphs s (t.setCore k x) := h.other rfl rfl
theorem setChan (h : KeepsGraphs s t) (d c : Nat) (x : ChanSt) : KeepsGraphs s (t.setChan d c x) := h.other rfl rfl

theorem setEngine (h : KeepsGraphs s t) (d : Nat) (e : Engine) (he : e.graphs = (t.engine d).graphs := by rfl) :
    KeepsGraphs s (t.setEngine d e) := by
  refine ⟨fun k => ?_, h.2⟩
  rw [State.engine_setEngine]
  split
  · next hk => rw [he, h.1, hk]
  · exact h.1 k

end KeepsGraphs

end Sys2Proof.Machine
end

section
/-! What the storage side and the fabric leave alone. Writing to memory, retracting in a stack and sending a frame change
neither the engines nor the sealer, and only registers of their own: a property of the state that other parts decide holds
after them as before. -/

namespace Sys2Proof.Machine

/-- The registers that writes to memory, frames sent and the ingot engine leave, but for the mark of a waiting write. -/
def guarded : List RegName :=
  [.GE_GRAPH_STATUS, .GE_REGION_BUSY, .GE_TOKEN, .COL_RETRACT, .COL_SEAL_STATE, .CRU_VER_STATUS, .CRU_ROW_DST,
    .CRU_ROW_CFG, .CRU_ROW_PARK, .CRU_ROW_STATE, .PORT_STATUS]

/-- The parts of the state that neither the stacks, the fabric nor the ingot engine touch are as before. -/
structure Untouched (s t : State) : Prop where
  regs : t.regs = s.regs := by rfl
  engines : t.engines = s.engines := by rfl
  sealer : t.sealer = s.sealer := by rfl
  cores : t.cores = s.cores := by rfl
  chans : t.chans = s.chans := by rfl
  fresh : s.fresh ≤ t.fresh := by exact Nat.le_refl _
  time : t.time = s.time := by rfl

/-- `P` depends on the guarded registers, the records and the untouched parts alone. -/
structure Stable (P : State → Prop) : Prop where
  putR : ∀ (s : State) (k : RegKey) (v : Word), k.name ∉ guarded → P s → P (s.putR k v)
  waiting : ∀ (s : State) (ms v : Nat), P s → P (s.setF CRU_VER_STATUS_WAITING ms 0 v)
  parts : ∀ s t : State, P s → Untouched s t → P t
  record : ∀ (s : State) (a : RecArg), P s → P (s.record a)

namespace Stable

variable {P : State → Prop} (hP : Stable P) {s t : State}
include hP

/-! ### Branches, folds and primitive updates -/

omit hP in
theorem foldl {α : Type} {f : State → α → State} {l : List α} (h : P s) (hf : ∀ u x, P u → P (f u x)) :
    P (l.foldl f s) :=
  List.foldlRecOn (motive := P) _ _ h fun u hu x _ => hf u x hu

omit hP in
theorem ifEither {c : Prop} {_ : Decidable c} (ht : P t) (hs : P s) : P (if c then t else s) := by
  split; exacts [ht, hs]

theorem setF {f : Field} {i j v : Nat} (h : P s) (hf : f.reg ∉ guarded := by decide) : P (s.setF f i j v) :=
  hP.putR _ _ _ hf h

theorem addF {f : Field} {i j v : Nat} (h : P s) (hf : f.reg ∉ guarded := by decide) : P (s.addF f i j v) :=
  hP.putR _ _ _ hf h

theorem pulse {g i : Nat} (h : P s) : P (s.pulse g i) := hP.putR _ _ _ (by simp [guarded]) h

theorem setStack {k : Nat} {x : StackSt} (h : P s) : P (s.setStack k x) := hP.parts _ _ h {}
theorem setPort {k : Nat} {x : PortSt} (h : P s) : P (s.setPort k x) := hP.parts _ _ h {}
theorem setDram {p : Place} {b : Byte} (h : P s) : P (s.setDram p b) := hP.parts _ _ h {}
theorem setGranBad {p : Place} {b : Bool} (h : P s) : P (s.setGranBad p b) := hP.parts _ _ h {}

end Stable

/-- A property that writes to the versions of a stack keep: it looks at neither the stacks nor their DRAM, and no record and
no wait of a write changes it. -/
structure Versioning (P : State → Prop) : Prop where
  setStack : ∀ {s : State} {k : Nat} {x : StackSt}, P s → P (s.setStack k x)
  setDram : ∀ {s : State} {p : Place} {b : Byte}, P s → P (s.setDram p b)
  setGranBad : ∀ {s : State} {p : Place} {b : Bool}, P s → P (s.setGranBad p b)
  record : ∀ (s : State) (a : RecArg), P s → P (s.record a)
  waiting : ∀ (s : State) (ms v : Nat), P s → P (s.setF CRU_VER_STATUS_WAITING ms 0 v)
  waitUs : ∀ {s : State} {ms n : Nat}, P s → P (s.addF ING_RD_WAIT_US 0 ms n)

namespace Versioning

variable {P : State → Prop} (hP : Versioning P) {s t : State}
include hP

/-! ### The buffers of the stacks -/

theorem storeLineByte {line : Nat} {x : Nat × Option (Byte × Option Nat)} (h : P s) : P (State.storeLineByte line s x) := by
  unfold State.storeLineByte
  split
  · exact hP.setDram h
  · exact h

theorem clearGran {line : Nat} {b : Tab Nat (Option (Byte × Option Nat))} {g : Nat} (h : P s) :
    P (State.clearGran line b s g) := by
  unfold State.clearGran
  split
  · exact Stable.ifEither (hP.setGranBad h) h
  · exact h

theorem markGran {line g : Nat} (h : P s) : P (State.markGran line s g) := by
  unfold State.markGran
  split
  · exact hP.setGranBad h
  · exact h

theorem storeLine {l : WcbLine} (h : P s) : P (s.storeLine l) :=
  Stable.foldl (Stable.foldl (Stable.foldl h fun _ _ h => hP.storeLineByte h) fun _ _ h => hP.clearGran h) fun _ _ h => hP.markGran h

theorem writeBack {ms : Nat} {l : WcbLine} (h : P s) : P (s.writeBack ms l) := hP.setStack (hP.storeLine h)

theorem flushStack {ms : Nat} (h : P s) : P (s.flushStack ms) := Stable.foldl h fun _ _ h => hP.writeBack h

theorem wcbEnter {ms a : Nat} {data : List Byte} {e : Option Nat} {p : List Nat} (h : P s) :
    P (s.wcbEnter ms a data e p) := by
  unfold State.wcbEnter
  extract_lets st
  split
  · exact hP.setStack h
  · refine hP.setStack ?_
    show P (match st.wcb with
      | l :: _ => if 256 ≤ st.wcb.length then s.writeBack ms l else s
      | [] => s)
    split
    · exact Stable.ifEither (hP.writeBack h) h
    · exact h

/-! ### Versions (R204 to R208) -/

theorem giveFrame {ms f : Nat} (h : P s) : P (s.giveFrame ms f) := hP.setStack h
theorem setPageVer {ms p : Nat} {v : PageVer} (h : P s) : P (s.setPageVer ms p v) := hP.setStack h

theorem takeFrame {ms f : Nat} (h : P s) (he : s.takeFrame ms = some (f, t)) : P t := by
  unfold State.takeFrame at he
  extract_lets st at he
  split at he
  · cases he; exact hP.setStack h
  · split at he
    · cases he; exact hP.setStack h
    · cases he

theorem startCopy {ms p e : Nat} (h : P s) : P (s.startCopy ms p e) := by
  unfold State.startCopy
  refine Stable.ifEither h ?_
  split
  next he => exact hP.setStack (hP.takeFrame h he)
  next => exact h

theorem verTry {ms : Nat} {w : WriteReq} (h : P s) : P (State.verTry ms s w) :=
  Stable.ifEither (hP.setStack h) (Stable.ifEither (hP.startCopy (hP.setStack h)) (hP.wcbEnter (Stable.ifEither (hP.record _ _ h) h)))

theorem showWait {ms : Nat} (h : P s) : P (s.showWait ms) := by
  unfold State.showWait
  extract_lets st
  refine Stable.ifEither ?_ ?_
  · split
    · exact h
    · exact hP.waiting _ _ _ (hP.setStack h)
  · split
    · exact hP.waiting _ _ _ (Stable.ifEither (hP.waitUs (hP.setStack h)) (hP.setStack h))
    · exact h

theorem pump {ms : Nat} (h : P s) : P (s.pump ms) := hP.showWait (Stable.foldl (hP.setStack h) fun _ _ h => hP.verTry h)

theorem dropRetained {ms p : Nat} {drop : Retained → Bool} (h : P s) : P (s.dropRetained ms p drop) :=
  Stable.foldl (hP.setPageVer h) fun _ _ h => hP.giveFrame h

theorem unpin {ms p frame : Nat} (h : P s) : P (s.unpin ms p frame) :=
  Stable.ifEither (hP.setPageVer h) (hP.pump (hP.dropRetained (hP.setPageVer h)))

end Versioning

/-! ### Frames sent on the fabric (R268 to R276) -/

/-- A property that a port's sending keeps: it looks at no queue of a port and at no counter of sent frames. -/
structure Sending (P : State → Prop) : Prop where
  unack : ∀ (s : State) (p v : Nat), P s → P (s.setF PORT_IL_STATUS_TX_UNACK p 0 v)
  bytes : ∀ (s : State) (p i n : Nat), P s → P (s.addF PORT_IL_TX_BYTES_COUNT p i n)
  port : ∀ (s : State) (p : Nat) (x : PortSt), x.peer = (s.port p).peer → P s → P (s.setPort p x)

namespace Sending

variable {P : State → Prop} (hP : Sending P) {s : State}
include hP

theorem owe {p cls n : Nat} (h : P s) : P (s.owe p cls n) := hP.port _ _ _ (by rfl) h

theorem transmit {p : Nat} {t : TxItem} (h : P s) : P (s.transmit p t) := by
  unfold State.transmit
  extract_lets x c g f owed s1 s2 v s3
  have h3 : P s3 := hP.bytes _ _ _ _ (hP.unack _ _ _ (hP.port _ _ _ (by rfl) h))
  split
  · exact hP.owe h3
  · exact h3

theorem pumpItems {p : Nat} {l : List TxItem} {held : List Nat} (h : P s) : P (State.pumpItems p l held s).1 := by
  induction l generalizing held s with
  | nil => exact h
  | cons i l ih =>
    rw [State.pumpItems]
    split
    · exact ih (hP.transmit h)
    · exact ih h

theorem pumpPort {p : Nat} (h : P s) : P (s.pumpPort p) := hP.port _ _ _ rfl (hP.pumpItems h)

theorem enqueue {p : Nat} {t : TxItem} (h : P s) : P (s.enqueue p t) := hP.pumpPort (hP.port _ _ _ (by rfl) h)

end Sending

namespace Stable

variable {P : State → Prop} (hP : Stable P) {s t : State}
include hP

theorem versioning : Versioning P where
  setStack h := hP.setStack h
  setDram h := hP.setDram h
  setGranBad h := hP.setGranBad h
  record := hP.record
  waiting := hP.waiting
  waitUs h := hP.addF h

theorem sending : Sending P where
  unack _ _ _ h := hP.setF h
  bytes _ _ _ _ h := hP.addF h
  port _ _ _ _ h := hP.setPort h

/-! ### Late writes and what a retract takes back (R204 to R208) -/

theorem noteLate {ms : Nat} {w : WriteReq} (h : P s) : P (s.noteLate ms w) := ifEither (hP.record _ _ (hP.addF h)) h

theorem verWrite {ms : Nat} {w : WriteReq} (h : P s) : P (s.verWrite ms w) :=
  ifEither h (hP.versioning.showWait (hP.versioning.verTry (hP.noteLate h)))

theorem restorePage {ms e : Nat} {x : Nat × PageVer} (h : P s) : P (State.restorePage ms e s x) := by
  unfold State.restorePage
  extract_lets v
  refine ifEither h ?_
  split
  · exact h
  · exact foldl (hP.versioning.setPageVer (hP.versioning.giveFrame h)) fun _ _ h => hP.versioning.giveFrame h

theorem stackRetract {ms e : Nat} (h : P s) : P (s.stackRetract ms e) := by
  unfold State.stackRetract
  extract_lets s1 st gone s2 s3 s4
  have hs2 : P s2 := hP.setStack (ifEither (hP.record _ _ h) h)
  have hs4 : P s4 := hP.setStack (foldl hs2 fun _ _ h => hP.versioning.giveFrame h)
  exact hP.versioning.pump (foldl hs4 fun _ _ h => hP.restorePage h)

/-! ### Writes (R187) -/

theorem storeLocal {a : Nat} {data : List Byte} (h : P s) : P (s.storeLocal a data) := by
  unfold State.storeLocal
  extract_lets s1
  have h1 : P s1 := foldl h fun _ _ h => hP.parts _ _ h {}
  exact ifEither (hP.parts _ _ h1 {}) h1

theorem losslessWrite {e a : Nat} {data : List Byte} (h : P s) : P (s.losslessWrite e a data) := by
  unfold State.losslessWrite
  extract_lets r g ms old base cur bs s1 n
  have hs1 : P s1 := ifEither (hP.parts _ _ h { fresh := Nat.le_add_right .. }) h
  clear_value s1
  split
  · exact hP.setStack (hP.parts _ _ hs1 {})
  · exact hP.pulse (hP.record _ _ (hP.addF (hP.parts _ _ hs1 {})))

theorem markPacked {w : WriteReq} (h : P s) : P (s.markPacked w) := foldl h fun _ _ h => hP.parts _ _ h {}

theorem enterCounts {d slot e : Nat} {x : SlotDelta} (h : P s) : P (s.enterCounts d slot e x) := by
  have hfield : ∀ p, (bankNonempty p).reg ∉ guarded ∧ (bankTag p).reg ∉ guarded ∧
      (bankMixed p).reg ∉ guarded ∧ liveBank p ∉ guarded := fun p => by
    unfold bankNonempty bankTag bankMixed liveBank
    split <;> decide
  obtain ⟨hnonempty, htag, hmixed, hlive⟩ := hfield (e % 2)
  have hword : ∀ (u : State) i f, P u → P (u.slotWord (liveBank (e % 2)) d i f) := fun u i f hu =>
    hP.putR _ _ _ hlive hu
  exact ifEither h (hword _ _ _ (hword _ _ _ (hword _ _ _ (hword _ _ _
    (ifEither (hP.setF (hP.setF h hnonempty) htag) (ifEither (hP.setF h hmixed) h))))))

theorem reducedWrite {e : Nat} {w : WriteReq} (h : P s) : P (s.reducedWrite e w) := by
  have hpoke : ∀ (u : State) a b, P u → P (u.pokeDram e a b) := fun u a b hu => hP.setGranBad (hP.setDram hu)
  unfold State.reducedWrite
  extract_lets r ms
  split
  · exact ifEither (hP.record _ _ h) (hP.enterCounts (hpoke _ _ _ (foldl h fun u _ hu => hpoke u _ _ hu)))
  · exact hP.record _ _ h

theorem unmapped {w : WriteReq} (h : P s) : P (s.unmapped w) := by
  unfold State.unmapped
  split
  · exact hP.record _ _ h
  · exact h

theorem write {w : WriteReq} (h : P s) : P (s.write w) := by
  unfold State.write
  refine ifEither (hP.unmapped h) (ifEither ?_ ?_)
  · exact ifEither (hP.storeLocal h) (hP.parts _ _ (hP.storeLocal h) {})
  · split
    · exact h
    · exact ifEither h (ifEither (hP.markPacked (hP.losslessWrite h)) (ifEither (hP.reducedWrite h)
        (ifEither (hP.verWrite h) (hP.versioning.wcbEnter h))))

theorem writePlain {a : Nat} {data : List Byte} {e : Option Nat} {n : Nat} {o : Option TaskId} (h : P s) :
    P (s.writePlain a data e n o) := foldl h fun _ _ h => hP.write h

/-! ### Frames refused, and frames of this module sent (R275, R276, R278) -/

theorem refuseFrame {p : Nat} {l : List Nat} (h : P s) : P (s.refuseFrame p l) :=
  ifEither (hP.addF h) (hP.record _ _ (hP.setPort (hP.addF h)))

theorem send {f : Frame} (h : P s) : P (s.send f) := by
  unfold State.send
  refine ifEither (hP.parts _ _ h {}) ?_
  split
  · exact h
  · exact ifEither (hP.refuseFrame h) (hP.sending.enqueue h)

/-! ### The ingot engine (R331, R341) -/

theorem showPins (h : P s) : P s.showPins := foldl h fun _ _ h => hP.setF h

theorem voidIngot {c : Nat} (h : P s) : P (s.voidIngot c) := by
  unfold State.voidIngot
  refine ifEither h ?_
  extract_lets s1 i s3 s4
  have h3 : P s4 := hP.setF (hP.setF (hP.setF (hP.parts _ _ (foldl h fun _ _ h => hP.versioning.unpin h) {})))
  exact hP.showPins (ifEither (hP.record _ _ h3) h3)

theorem emptySlot {k : Nat} (h : P s) : P (s.emptySlot k) := hP.setF (hP.parts _ _ h {})

theorem ingotRetract {e : Nat} (h : P s) : P (s.ingotRetract e) := by
  unfold State.ingotRetract
  extract_lets i u s1
  have h1 : P s1 := ifEither (ifEither (hP.send (hP.voidIngot h)) (hP.voidIngot h)) h
  exact foldl h1 fun _ _ h => ifEither (hP.emptySlot h) h

end Stable
end Sys2Proof.Machine
end

section
/-! What a cancel leaves alone (R130, R131). Stopping a task gives up what it holds of its core, its channel and its stack;
cancelling changes tasks by stopping them, and ends graphs. -/

namespace Sys2Proof.Machine

/-- A stable property that does not look at an engine beyond its graphs. -/
structure Loose (P : State → Prop) : Prop extends Stable P where
  engine : ∀ (s : State) (d : Nat) (e : Engine), e.graphs = (s.engine d).graphs → P s → P (s.setEngine d e)
  core : ∀ (s : State) (k : Nat) (x : CoreSt), P s → P (s.setCore k x)
  context : ∀ (s : State) (ms c v : Nat), P s → P (s.setF CRU_ROW_CFG_VALID ms c v)
  chan : ∀ (s : State) (d c : Nat) (x : ChanSt), P s → P (s.setChan d c x)

/-- A property that holds as before where running slots end. -/
structure Ending (P : State → Prop) : Prop extends Loose P where
  remaining : ∀ (s : State) (d g v : Nat), P s → P (s.setF GE_GRAPH_STATUS_REMAINING d g v)
  ended : ∀ (s : State) (d g v : Nat), v = 4 ∨ v = 6 → P s → P (s.setF GE_GRAPH_STATUS_STATE d g v)

/-- A property that cancelling keeps: tasks that live may be marked or cancelled. -/
structure Cancellable (P : State → Prop) : Prop extends Ending P where
  setTask : ∀ (s : State) (n : TaskId) (x y : Task), s.task? n = some x → x.live = true → y.idx = n.idx →
    y.status = x.status ∨ y.status = .cancelled → P s → P (s.setTask n y)

namespace Loose

variable {P : State → Prop} (hP : Loose P) {s t : State}
include hP

/-! ### Leave, fetches and arrays of a task that stops -/

theorem setEngine {d : Nat} {e : Engine} (h : P s) (he : e.graphs = (s.engine d).graphs) : P (s.setEngine d e) :=
  hP.engine _ _ _ he h

theorem setCore {k : Nat} {x : CoreSt} (h : P s) : P (s.setCore k x) := hP.core _ _ _ h

theorem setChan {d c : Nat} {x : ChanSt} (h : P s) : P (s.setChan d c x) := hP.chan _ _ _ _ h

theorem restate (h : P s) : P s.restate := Stable.ifEither (hP.setF h) h

theorem releaseTokens {d n : Nat} (h : P s) : P (s.releaseTokens d n) :=
  Stable.ifEither h (hP.restate (hP.parts _ _ (hP.toStable.setF (s := s) (f := PWR_LV_STATUS_GRANTED) (i := d) (j := 0)
    (v := s.granted d - n) h) {}))

theorem releaseKept {d p : Nat} (h : P s) : P (s.releaseKept d p) :=
  Stable.ifEither h (hP.releaseTokens (hP.setCore h))

theorem dropLeave {n : TaskId} {x : Task} (h : P s) : P (s.dropLeave n x) := by
  unfold State.dropLeave
  extract_lets e issued s1 s2
  have h2 : P s2 := hP.releaseTokens (hP.setEngine h rfl)
  clear_value s2
  refine Stable.ifEither ?_ h2
  split
  · exact hP.releaseTokens (hP.setCore h2)
  · exact Stable.ifEither h2 (hP.releaseTokens h2)

theorem dropFetch {d p : Nat} {n : TaskId} (h : P s) : P (s.dropFetch d p n) := hP.setCore h

theorem dropArray {d p : Nat} {n : TaskId} (h : P s) : P (s.dropArray d p n) :=
  Stable.ifEither (hP.setF (hP.setCore h)) (hP.setCore h)

theorem releaseTile {d p g i : Nat} (h : P s) : P (s.releaseTile d p g i) := hP.setCore h

theorem releaseRings {d p g : Nat} (h : P s) : P (s.releaseRings d p g) := Stable.foldl h fun _ _ h => hP.releaseTile h

theorem releaseGraph {d g : Nat} (h : P s) : P (s.releaseGraph d g) :=
  Stable.foldl h fun _ _ h => Stable.foldl h fun _ _ h => hP.releaseTile h

/-! ### Channels -/

theorem dropContexts {n : TaskId} (h : P s) : P (s.dropContexts n) :=
  Stable.foldl h fun _ _ h => hP.setStack (Stable.foldl h fun _ _ h => hP.context _ _ _ _ h)

theorem freeChannel {d c : Nat} (h : P s) : P (s.freeChannel d c) :=
  hP.setF (hP.setF (hP.setF (hP.setF (hP.setChan h))))

theorem abandon {n : TaskId} {c : Nat} (h : P s) : P (s.abandon n c) :=
  Stable.ifEither (hP.setChan (hP.freeChannel (hP.dropContexts h))) h

/-! ### Engines after their tasks changed -/

theorem checkHalted {d : Nat} (h : P s) : P (s.checkHalted d) := Stable.ifEither (hP.setF h) h

theorem dropTwins {d : Nat} (h : P s) : P (s.dropTwins d) :=
  Stable.foldl (hP.setEngine h rfl) fun _ _ h => hP.record _ _ (hP.addF h)

/-- What a stopped task gives up, before it is marked. -/
theorem stopTask_frees {n : TaskId} {x : Task} (h : P s) :
    ∃ u, P u ∧ s.stopTask n x = u.setTask n { x with status := .cancelled, started := false, fin := false } := by
  unfold State.stopTask
  extract_lets s1 s2 s3 s4
  have h1 : P s1 := hP.dropLeave h
  clear_value s1
  have h2 : P s2 := by
    unfold s2
    split
    · split
      · exact hP.releaseTile (hP.setCore (hP.dropArray (hP.dropFetch h1)))
      · exact Stable.ifEither (hP.releaseRings (hP.setCore (hP.dropArray (hP.dropFetch h1))))
          (hP.setCore (hP.dropArray (hP.dropFetch h1)))
    · exact h1
  clear_value s2
  have h3 : P s3 := by
    unfold s3
    split
    · exact hP.abandon h2
    · exact h2
  clear_value s3
  exact ⟨s4, Stable.foldl h3 fun _ _ h => hP.setStack (Stable.ifEither (hP.setF (hP.setStack h)) h), rfl⟩

end Loose

theorem loose_keepsGraphs (s : State) : Loose (KeepsGraphs s) where
  putR t k v hk h := h.putR k v (by rintro h; simp [guarded, h] at hk)
  waiting t ms v h := h.setF ..
  context t ms c v h := h.setF ..
  parts t u h hu := h.other hu.regs hu.engines
  record t a h := h.record a
  engine t d e he h := h.setEngine d e he
  core t k x h := h.setCore k x
  chan t d c x h := h.setChan d c x

namespace Ending

variable {P : State → Prop} (hP : Ending P) {s : State}
include hP

theorem endGraph {d g : Nat} (h : P s) : P (s.endGraph d g) := by
  unfold State.endGraph
  refine Stable.ifEither h (Stable.ifEither (hP.remaining _ _ _ _ h) (hP.releaseGraph (hP.ended _ _ _ _ ?_
    (hP.remaining _ _ _ _ h))))
  split
  · exact .inr rfl
  · exact .inl rfl

theorem endGraphs {d : Nat} (h : P s) : P (s.endGraphs d) :=
  Stable.foldl (Stable.foldl h fun _ _ h => hP.endGraph h) fun _ _ h => hP.dropTwins h

end Ending

namespace Cancellable

variable {P : State → Prop} (hP : Cancellable P) {s : State}
include hP

theorem stopTask {n : TaskId} {x : Task} (hx : s.task? n = some x) (hlive : x.live = true) (h : P s) :
    P (s.stopTask n x) := by
  have hboth : Loose fun u => P u ∧ KeepsGraphs s u :=
    { putR := fun u k v hk h => ⟨hP.putR u k v hk h.1, (loose_keepsGraphs s).putR u k v hk h.2⟩
      parts := fun u w h hw => ⟨hP.parts u w h.1 hw, (loose_keepsGraphs s).parts u w h.2 hw⟩
      record := fun u a h => ⟨hP.record u a h.1, h.2.record a⟩
      engine := fun u d e he h => ⟨hP.engine u d e he h.1, h.2.setEngine d e he⟩
      waiting := fun u ms v h => ⟨hP.waiting u ms v h.1, h.2.setF ..⟩
      context := fun u ms c v h => ⟨hP.context u ms c v h.1, h.2.setF ..⟩
      core := fun u k x h => ⟨hP.core u k x h.1, h.2.setCore k x⟩
      chan := fun u d c x h => ⟨hP.chan u d c x h.1, h.2.setChan d c x⟩ }
  obtain ⟨u, ⟨hu, hkeep⟩, heq⟩ := hboth.stopTask_frees (n := n) (x := x) ⟨h, .refl s⟩
  rw [heq]
  exact hP.setTask u n x _ ((hkeep.task? n).trans hx) hlive (s.idx_of_task? n x hx) (.inr rfl) hu

theorem cancelFrom (k : Nat) : ∀ (l : List TaskId) (s : State), P s → P (State.cancelFrom k l s) := by
  induction k with
  | zero => exact fun _ _ h => h
  | succ k ih =>
    intro l s h
    cases l with
    | nil => exact h
    | cons n l =>
      rw [State.cancelFrom]
      split
      · exact ih _ _ h
      · next x hx =>
        by_cases hlive : x.live = true
        · rw [if_neg (by simp [hlive])]
          split
          · exact ih _ _ (hP.setTask s n x _ hx hlive (s.idx_of_task? n x hx) (.inl rfl) h)
          · exact ih _ _ (hP.stopTask hx hlive h)
        · rw [if_pos (by simpa using hlive)]
          exact ih _ _ h

theorem cancelWhere {d : Nat} {sel : Task → Bool} (h : P s) : P (s.cancelWhere d sel) :=
  hP.checkHalted (hP.endGraphs (hP.cancelFrom _ _ _ h))

theorem cancelEpoch {e : Nat} (h : P s) : P (s.cancelEpoch e) := Stable.foldl h fun _ _ h => hP.cancelWhere h

end Cancellable
end Sys2Proof.Machine
end

section
/-! Dispatch (R126 to R128, R427): what a dispatched task shows, and that the tasks queued behind it are others. -/

namespace Sys2Proof.Machine

/-- Slot `n` lists a task of that index, and every task it lists under it meets `Q`. -/
def AllAt (s : State) (n : TaskId) (Q : Task → Prop) : Prop :=
  (∃ z ∈ (s.graph n.d n.g).tasks, z.idx = n.idx) ∧ ∀ z ∈ (s.graph n.d n.g).tasks, z.idx = n.idx → Q z

namespace State

theorem graph_setTask (s : State) (n : TaskId) (x : Task) (d g : Nat) :
    (s.setTask n x).graph d g = if d = n.d ∧ g = n.g then
      { s.graph n.d n.g with tasks := (s.graph n.d n.g).tasks.map fun y => if y.idx = n.idx then x else y }
    else s.graph d g := by
  by_cases hd : d = n.d
  · subst hd
    rw [setTask, graph_setGraph]
    simp
  · rw [if_neg (fun h => hd h.1), graph, setTask, setGraph, engine_setEngine, if_neg (Ne.symm hd), graph]

theorem mem_tasksOf {s : State} {d : Nat} {y : TaskId × Task} (h : y ∈ s.tasksOf d) :
    y.1.d = d ∧ y.1.g < 16 ∧ y.2.idx = y.1.idx ∧ y.2 ∈ (s.graph d y.1.g).tasks := by
  simp only [tasksOf, List.mem_flatMap, List.mem_range, List.mem_map] at h
  obtain ⟨g, hg, x, hx, rfl⟩ := h
  exact ⟨rfl, hg, rfl, hx⟩

theorem exists_of_task? {s : State} {n : TaskId} {x : Task} (h : s.task? n = some x) :
    ∃ z ∈ (s.graph n.d n.g).tasks, z.idx = n.idx := ⟨x, List.mem_of_find?_eq_some h, s.idx_of_task? n x h⟩

end State

namespace AllAt

variable {s t : State} {n : TaskId} {Q : Task → Prop}

theorem task? (h : AllAt s n Q) : ∃ y, s.task? n = some y ∧ Q y := by
  obtain ⟨⟨z, hz, hidx⟩, hall⟩ := h
  cases hf : s.task? n with
  | none => exact absurd hidx (by simpa using List.find?_eq_none.mp hf z hz)
  | some y => exact ⟨y, rfl, hall y (List.mem_of_find?_eq_some hf) (s.idx_of_task? n y hf)⟩

theorem mono {Q' : Task → Prop} (h : AllAt s n Q) (hq : ∀ z, Q z → Q' z) : AllAt s n Q' :=
  ⟨h.1, fun z hz hi => hq z (h.2 z hz hi)⟩

theorem keeps (h : AllAt s n Q) (hk : KeepsGraphs s t) : AllAt t n Q := by
  rw [AllAt, hk.graph]
  exact h

/-- A task put under its own index is the only one there. -/
theorem put (hex : ∃ z ∈ (s.graph n.d n.g).tasks, z.idx = n.idx) (y : Task) (hy : y.idx = n.idx) :
    AllAt (s.setTask n y) n (· = y) := by
  obtain ⟨z, hz, hidx⟩ := hex
  rw [AllAt, State.graph_setTask, if_pos ⟨rfl, rfl⟩]
  refine ⟨⟨y, List.mem_map.mpr ⟨z, hz, if_pos hidx⟩, hy⟩, fun w hw hi => ?_⟩
  obtain ⟨v, -, rfl⟩ := List.mem_map.mp hw
  split
  · rfl
  · next h => rw [if_neg h] at hi; exact absurd hi h

/-- Another task's change leaves it, and a change of its own keeps what the new task meets. -/
theorem setTask (h : AllAt s n Q) (m : TaskId) (y : Task) (hy : y.idx = m.idx) (hQ : m = n → Q y) :
    AllAt (s.setTask m y) n Q := by
  by_cases hm : n.d = m.d ∧ n.g = m.g
  · obtain ⟨⟨z, hz, hidx⟩, hall⟩ := h
    obtain ⟨hd, hg⟩ := hm
    rw [hd, hg] at hz hall
    rw [AllAt, State.graph_setTask, if_pos ⟨hd, hg⟩]
    refine ⟨⟨_, List.mem_map.mpr ⟨z, hz, rfl⟩, ?_⟩, fun w hw hi => ?_⟩
    · split
      · next hzm => rw [hy, ← hzm, hidx]
      · exact hidx
    · obtain ⟨v, hv, rfl⟩ := List.mem_map.mp hw
      split
      · next hvm =>
        rw [if_pos hvm, hy] at hi
        refine hQ ?_
        cases m
        cases n
        simp_all
      · next hvm =>
        rw [if_neg hvm] at hi
        exact hall v hv hi
  · rw [AllAt, State.graph_setTask, if_neg hm]
    exact h

end AllAt

namespace State

/-! ### Queueing (R126) -/

theorem idx_reread (s : State) (d : Nat) (x : Task) : (s.reread d x).idx = x.idx ∧ (s.reread d x).pred = x.pred := by
  unfold reread
  extract_lets w y z
  split <;> exact ⟨rfl, rfl⟩

theorem w_reread (s : State) (d : Nat) (x : Task) : (s.reread d x).w =
    (List.range 8).map fun i => if i < 4 then x.word i else s.readWord (s.descAddr d x.idx + 8 * i) := by
  unfold reread
  extract_lets w y z
  split <;> rfl

/-- The second reading leaves the first four words. -/
theorem kind_reread (s : State) (d : Nat) (x : Task) : (s.reread d x).kind = x.kind := by
  have hword : (s.reread d x).word 0 = x.word 0 := by rw [Task.word, w_reread]; rfl
  rw [Task.kind, Task.kindCode, hword, Task.kind, Task.kindCode]

/-- A task as it stands once it is queued on core `p`. -/
def queuedTask (s : State) (n : TaskId) (x : Task) (p : Nat) : Task :=
  { s.reread n.d x with status := .queued, core := some p }

theorem queueTask_eq (s : State) (n : TaskId) (x : Task) (p : Nat) :
    s.queueTask n x p = (s.setTask n (s.queuedTask n x p)).setCoreAt n.d p
      { s.coreAt n.d p with runAhead := (s.coreAt n.d p).runAhead ++ [n] } := rfl

theorem chainNext_mem {s : State} {d p : Nat} {y : TaskId × Task} (h : s.chainNext d p = some y) :
    y ∈ s.tasksOf d ∧ y.2.status = .waiting := by
  refine ⟨List.mem_of_find?_eq_some h, ?_⟩
  have hy := List.find?_some h
  simp only [Bool.and_eq_true, decide_eq_true_eq] at hy
  exact hy.1.1.1.1

end State

/-- Queueing tasks behind another keeps what holds of a task that waits once it is queued. -/
theorem AllAt.queueChain {n : TaskId} {Q : Task → Prop}
    (hq : ∀ z w, Q z → z.status = .waiting → w.pred = z.pred → Q w) (k d p : Nat) :
    ∀ s : State, AllAt s n Q → AllAt (State.queueChain k d p s) n Q := by
  induction k with
  | zero => exact fun _ h => h
  | succ k ih =>
    intro s h
    rw [State.queueChain]
    split
    · exact h
    · split
      · next y hy =>
        obtain ⟨hmem, hwait⟩ := State.chainNext_mem hy
        obtain ⟨hd, -, hidx, htask⟩ := State.mem_tasksOf hmem
        have hput := h.setTask y.1 (s.queuedTask y.1 y.2 p) ((s.idx_reread y.1.d y.2).1.trans hidx) fun hn =>
          hq y.2 _ (h.2 y.2 (by rw [← hn, hd]; exact htask) (by rw [← hn, hidx])) hwait (s.idx_reread y.1.d y.2).2
        rw [s.queueTask_eq]
        exact ih _ (hput.keeps (KeepsGraphs.setCore (.refl _) ..))
      · exact h

namespace State

/-! ### What a dispatch changes beside its task -/

theorem keepsGraphs_bindTile (s : State) (n : TaskId) (x : Task) (p : Nat) : KeepsGraphs s (s.bindTile n x p) := by
  unfold bindTile
  split
  · exact KeepsGraphs.ifElse (.refl s) fun h => h.other rfl rfl
  · exact .refl s

theorem keepsGraphs_setSched (s : State) (d c : Nat) (x : Sched) : KeepsGraphs s (s.setSched d c x) :=
  (KeepsGraphs.refl s).setEngine _ _

theorem keepsGraphs_joinPort (s : State) (n : TaskId) (x : Task) (p : Nat) : KeepsGraphs s (s.joinPort n x p) :=
  KeepsGraphs.ifThen (.refl s) fun h => h.other rfl rfl

theorem keepsGraphs_retractOver (s : State) (e : Nat) : KeepsGraphs s (s.retractOver e) :=
  KeepsGraphs.ifThen (.refl s) fun h => h.other rfl rfl

theorem keepsGraphs_showSeal (s : State) : KeepsGraphs s s.showSeal := by
  unfold showSeal
  split
  · exact ((((KeepsGraphs.refl s).setF ..).setF ..).setF ..).setF ..
  · exact ((KeepsGraphs.refl s).setF ..).setF ..

theorem keepsGraphs_setStep (s : State) (v : StepVerdict) : KeepsGraphs s (s.setStep v) :=
  KeepsGraphs.ifElse (.refl s) fun h => (h.other rfl rfl).trans (keepsGraphs_showSeal _)

theorem keepsGraphs_openStep (s : State) (e : Nat) : KeepsGraphs s (s.openStep e) :=
  KeepsGraphs.ifElse (.refl s) fun _ => s.keepsGraphs_setStep _

theorem keepsGraphs_takeChannel (s : State) (n : TaskId) (c : Nat) : KeepsGraphs s (s.takeChannel n c) :=
  (((((KeepsGraphs.refl s).setChan ..).setF ..).setF ..).setF ..).setF ..

theorem bindTile_time (s : State) (n : TaskId) (x : Task) (p : Nat) : (s.bindTile n x p).time = s.time := by
  unfold bindTile
  split
  · split <;> rfl
  · rfl

/-- Tying RESUMEs to a core only changes the core of tasks. -/
theorem tieResumes_frame (s : State) (m n : TaskId) (x : Task) (p : Nat) (h : AllAt s n fun _ => True) :
    AllAt (s.tieResumes m x p) n (fun _ => True) ∧ (s.tieResumes m x p).time = s.time := by
  unfold tieResumes
  split
  · exact List.foldlRecOn (motive := fun u : State => AllAt u n (fun _ => True) ∧ u.time = s.time) _ _ ⟨h, rfl⟩
      fun u ⟨hu, htime⟩ r _ => ⟨hu.setTask _ _ rfl fun _ => trivial, htime⟩
  · exact ⟨h, rfl⟩

theorem joinPort_time (s : State) (n : TaskId) (x : Task) (p : Nat) : (s.joinPort n x p).time = s.time := by
  unfold joinPort
  split <;> rfl

theorem openChain_of_not_fused (s : State) (n : TaskId) (x : Task) (p : Nat) (h : x.kind ≠ .fused) :
    s.openChain n x p = s := if_neg h

/-! ### The dispatched task (R127, R128) -/

/-- What a dispatched task shows: its core, the time, and that it has started if it asks for no leave. -/
def IsDispatched (x : Task) (time : Nat) (y : Task) : Prop :=
  y.status = .dispatched ∧ y.core = x.core ∧ y.dispatchedAt = time ∧ (y.leave = 0 → y.started = true)

/-- The step a dispatch opens and the channels it takes. -/
def openWork (s : State) (n : TaskId) (x : Task) : State :=
  (s.channelsOf n.d x).foldl (fun s c => s.takeChannel n c) s

theorem keepsGraphs_openWork (s : State) (n : TaskId) (x : Task) : KeepsGraphs s (s.openWork n x) :=
  KeepsGraphs.foldl (.refl s) _ (fun u c hu => hu.trans (u.keepsGraphs_takeChannel n c)) _

/-- The state in which a dispatched task asks for its leave. -/
def beforeLeave (s : State) (n : TaskId) (x : Task) : State :=
  let t := s.setTask n { x with status := .dispatched, dispatchedAt := s.time }
  let u := t.setEngine n.d { t.engine n.d with top := max (t.engine n.d).top (x.epoch + 1) }
  ((u.retractOver x.epoch).openStep x.epoch).openWork n x

theorem dispatchTask_eq (s : State) (n : TaskId) (x : Task) : s.dispatchTask n x = (s.beforeLeave n x).askLeave n x := rfl

theorem beforeLeave_task (s : State) (n : TaskId) (x : Task) (hex : ∃ z ∈ (s.graph n.d n.g).tasks, z.idx = n.idx)
    (hx : x.idx = n.idx) :
    AllAt (s.beforeLeave n x) n (· = { x with status := .dispatched, dispatchedAt := s.time }) := by
  have hput := AllAt.put hex { x with status := .dispatched, dispatchedAt := s.time } hx
  unfold beforeLeave
  extract_lets t e u
  have hu : KeepsGraphs t u := (KeepsGraphs.refl t).setEngine _ _
  exact hput.keeps ((hu.trans (u.keepsGraphs_retractOver _)).trans
    ((keepsGraphs_openStep _ _).trans (keepsGraphs_openWork ..)))

theorem startTask_of_task? (s : State) (n : TaskId) (x : Task) (h : s.task? n = some x) :
    s.startTask n = s.setTask n { x with started := true, startedAt := s.time } := by
  rw [startTask, h]

theorem dispatchTask_task (s : State) (n : TaskId) (x : Task) (hex : ∃ z ∈ (s.graph n.d n.g).tasks, z.idx = n.idx)
    (hx : x.idx = n.idx) : AllAt (s.dispatchTask n x) n (IsDispatched x s.time) := by
  have hbefore : AllAt (s.beforeLeave n x) n fun y => y.idx = n.idx ∧ y.status = .dispatched ∧ y.core = x.core ∧
      y.dispatchedAt = s.time ∧ y.leave = x.leave :=
    (s.beforeLeave_task n x hex hx).mono fun z hz => by rw [hz]; exact ⟨hx, rfl, rfl, rfl, rfl⟩
  rw [dispatchTask_eq]
  generalize s.beforeLeave n x = b at hbefore ⊢
  unfold askLeave
  extract_lets k p kept e
  split
  · obtain ⟨y, hy, hidx, hstatus, hcore, htime, -⟩ := hbefore.task?
    rw [b.startTask_of_task? n y hy]
    exact (AllAt.put hbefore.1 { y with started := true, startedAt := b.time } hidx).mono fun z hz => by
      rw [hz]
      exact ⟨hstatus, hcore, htime, fun _ => rfl⟩
  · next hleave =>
    refine (hbefore.keeps ((KeepsGraphs.refl b).setEngine _ _)).mono fun z ⟨_, hstatus, hcore, htime, heq⟩ => ?_
    exact ⟨hstatus, hcore, htime, fun h0 => absurd (.inl (heq ▸ h0)) hleave⟩

/-- A task dispatched to a core, before the tasks of its chain queue behind it. -/
def placed? (s : State) (c p : Nat) (n : TaskId) (x : Task) : State :=
  let u := (s.bindTile n x p).tieResumes n x p
  ((u.setSched n.d c { u.schedOf n.d c with topEpoch := max (u.schedOf n.d c).topEpoch x.epoch }).joinPort n x p).openChain n x p

theorem dispatchCore_of_waiting (s : State) (d c p : Nat) (n : TaskId) (x : Task) (hd : n.d = d)
    (hwait : x.status = .waiting) (hq : (s.queueTask n x p).task? n = some (s.queuedTask n x p)) :
    s.dispatchCore d c p (n, x) = queueChain 16 d p
      (((s.queueTask n x p).placed? c p n (s.queuedTask n x p)).dispatchTask n (s.queuedTask n x p)) := by
  subst hd
  unfold dispatchCore
  rw [if_neg (by rw [hwait]; decide)]
  dsimp only
  rw [hq]
  rfl

theorem placed?_frame (s : State) (c p : Nat) (n : TaskId) (x : Task) (hkind : x.kind ≠ .fused)
    (h : AllAt s n fun _ => True) :
    AllAt (s.placed? c p n x) n (fun _ => True) ∧ (s.placed? c p n x).time = s.time := by
  obtain ⟨htied, htime⟩ := (s.bindTile n x p).tieResumes_frame n n x p (h.keeps (s.keepsGraphs_bindTile n x p))
  unfold placed?
  extract_lets u
  rw [openChain_of_not_fused _ _ _ _ hkind]
  refine ⟨htied.keeps ((u.keepsGraphs_setSched ..).trans (keepsGraphs_joinPort ..)), ?_⟩
  rw [joinPort_time]
  exact htime.trans (bindTile_time ..)

/-- A core task dispatched from where it waited. -/
theorem dispatchCore_task (s : State) (d c p : Nat) (n : TaskId) (x : Task) (hmem : (n, x) ∈ s.tasksOf d)
    (hwait : x.status = .waiting) (hkind : x.kind ≠ .fused) :
    AllAt (s.dispatchCore d c p (n, x)) n (IsDispatched { x with core := some p } s.time) := by
  obtain ⟨hd, -, hidx, htask⟩ := mem_tasksOf hmem
  dsimp only at hd hidx htask
  subst hd
  have hqidx : (s.queuedTask n x p).idx = n.idx := (s.idx_reread n.d x).1.trans hidx
  have hqueued : AllAt (s.queueTask n x p) n (· = s.queuedTask n x p) :=
    (AllAt.put ⟨x, htask, hidx⟩ (s.queuedTask n x p) hqidx).keeps (KeepsGraphs.setCore (.refl _) ..)
  obtain ⟨y, hy, rfl⟩ := hqueued.task?
  have hqkind : (s.queuedTask n x p).kind ≠ .fused := (s.kind_reread n.d x).symm ▸ hkind
  obtain ⟨hplaced, htime⟩ := (s.queueTask n x p).placed?_frame c p n (s.queuedTask n x p) hqkind
    (hqueued.mono fun _ _ => trivial)
  rw [s.dispatchCore_of_waiting n.d c p n x rfl hwait hy]
  have hdispatched := dispatchTask_task _ n (s.queuedTask n x p) hplaced.1 hqidx
  rw [htime] at hdispatched
  exact (hdispatched.mono fun z hz => hz).queueChain
    (fun z w hz hw _ => by rw [hz.1] at hw; cases hw) 16 n.d p _

/-- A halted engine dispatches nothing. -/
theorem dispatchTo_of_not (s : State) (d c : Nat) (h : s.mayDispatch d = false) : s.dispatchTo d c = s :=
  if_pos (by rw [h]; rfl)

theorem dispatchEngine_of_not (s : State) (n : TaskId) (h : s.mayDispatch n.d = false) : s.dispatchEngine n = s :=
  if_pos (by rw [h]; rfl)

theorem dispatchTo_of_pick (s : State) (d c p : Nat) (n : TaskId) (x : Task) (hmay : s.mayDispatch d = true)
    (hpick : (s.picks d).find? (fun y => y.1 = c) = some (c, n, x)) (hphys : s.physOf d c = some p) :
    s.dispatchTo d c =
      if s.breaksAt n then (s.setF DBG_GE_CTRL_HALT 0 d 1).checkHalted d else s.dispatchCore d c p (n, x) := by
  rw [dispatchTo, if_neg (by simp [hmay]), hpick, hphys]

/-- The engine halts before the task it breaks at. -/
theorem halted_reads (s : State) (d : Nat) :
    ((s.setF DBG_GE_CTRL_HALT 0 d 1).checkHalted d).flag DBG_GE_CTRL_HALT 0 d = true ∧
    ((s.setF DBG_GE_CTRL_HALT 0 d 1).checkHalted d).engines = s.engines := by
  unfold checkHalted
  split
  · exact ⟨by rw [flag_setF_apart _ _ _ _ _ _ _ _ (by decide), flag_setF_one _ _ _ _ (by decide)], rfl⟩
  · exact ⟨by rw [flag_setF_one _ _ _ _ (by decide)], rfl⟩

theorem firstTask_mem (l : List (TaskId × Task)) : ∀ y, firstTask l = some y → y ∈ l := by
  induction l with
  | nil => exact nofun
  | cons x l ih =>
    intro y hy
    rw [firstTask] at hy
    split at hy
    · next z hz =>
      split at hy
      · exact List.mem_cons_of_mem _ (Option.some.inj hy ▸ ih z hz)
      · exact Option.some.inj hy ▸ List.mem_cons_self
    · exact Option.some.inj hy ▸ List.mem_cons_self

/-- What a core picks is a task of the die. -/
theorem picks_mem (s : State) (d : Nat) : ∀ y ∈ s.picks d, y.2 ∈ s.tasksOf d :=
  List.foldlRecOn (motive := fun l : List (Nat × (TaskId × Task)) => ∀ y ∈ l, y.2 ∈ s.tasksOf d) _ _ nofun
    fun l hl c _ => by
      split
      · next t ht =>
        intro y hy
        rcases List.mem_append.mp hy with hy | hy
        · exact hl y hy
        · rw [List.mem_singleton.mp hy]
          exact (List.mem_filter.mp (firstTask_mem _ _ ht)).1
      · exact hl

end State
end Sys2Proof.Machine
end

section
/-! Completion (R116, R120): what a completed task leaves behind, the count of its successors, and the end of its graph. -/

namespace Sys2Proof.Machine

/-! ### Properties of the graphs alone -/

/-- A property of the graphs that ending slots and cancelling tasks keep. -/
theorem cancellable_of_graphs {P : State → Prop} (hg : ∀ s t, KeepsGraphs s t → P s → P t)
    (setTask : ∀ (s : State) (n : TaskId) (x y : Task), s.task? n = some x → x.live = true → y.idx = n.idx →
      y.status = x.status ∨ y.status = .cancelled → P s → P (s.setTask n y))
    (remaining : ∀ (s : State) (d g v : Nat), P s → P (s.setF GE_GRAPH_STATUS_REMAINING d g v))
    (ended : ∀ (s : State) (d g v : Nat), v = 4 ∨ v = 6 → P s → P (s.setF GE_GRAPH_STATUS_STATE d g v)) :
    Cancellable P where
  putR s k v hk h := hg s _ ((loose_keepsGraphs s).putR s k v hk (.refl s)) h
  parts s t h ht := hg s t ((loose_keepsGraphs s).parts s t (.refl s) ht) h
  record s a h := hg s _ ((loose_keepsGraphs s).record s a (.refl s)) h
  engine s d e he h := hg s _ ((loose_keepsGraphs s).engine s d e he (.refl s)) h
  waiting s ms v h := hg s _ ((loose_keepsGraphs s).waiting s ms v (.refl s)) h
  context s ms c v h := hg s _ ((loose_keepsGraphs s).context s ms c v (.refl s)) h
  core s k x h := hg s _ ((loose_keepsGraphs s).core s k x (.refl s)) h
  chan s d c x h := hg s _ ((loose_keepsGraphs s).chan s d c x (.refl s)) h
  remaining := remaining
  ended := ended
  setTask := setTask

/-- A slot that lists a task goes on listing it. -/
theorem cancellable_listed (n : TaskId) : Cancellable fun s => AllAt s n fun _ => True :=
  cancellable_of_graphs (fun _ _ hk h => h.keeps hk) (fun _ _ _ _ _ _ hy _ h => h.setTask _ _ hy fun _ => trivial)
    (fun _ _ _ _ h => h) fun _ _ _ _ _ h => h

/-- A slot whose state is one of `l`, and 4 and 6 are among them, keeps a state of `l`. -/
theorem cancellable_slot (d g : Nat) (l : List Nat) (h4 : 4 ∈ l) (h6 : 6 ∈ l) :
    Cancellable fun s => s.slotState d g ∈ l :=
  cancellable_of_graphs (fun _ _ hk h => by rwa [hk.slotState]) (fun _ _ _ _ _ _ _ _ h => h)
    (fun s d' g' v h => by
      rw [State.slotState, State.getF_setF_apart _ _ _ _ _ _ _ _ (by decide)]
      exact h)
    fun s d' g' v hv h => by
      by_cases hk : d = d' ∧ g = g'
      · obtain ⟨rfl, rfl⟩ := hk
        rw [State.slotState, State.getF_setF_self _ _ _ _ _ (by decide)]
        rcases hv with rfl | rfl
        · exact h4
        · exact h6
      · have hne : (GE_GRAPH_STATUS_STATE.key d' g' : RegKey) ≠ GE_GRAPH_STATUS_STATE.key d g := fun he => by
          simp only [Field.key, RegKey.mk.injEq] at he
          exact hk ⟨he.2.1.symm, he.2.2.symm⟩
        have hsame : (s.setF GE_GRAPH_STATUS_STATE d' g' v).slotState d g = s.slotState d g :=
          congrArg GE_GRAPH_STATUS_STATE.get ((State.getR_setF ..).trans (if_neg hne))
        rwa [hsame]

/-- The tasks of every slot stay while slots end. -/
theorem ending_sameTasks (s : State) : Ending fun t => ∀ d, (t.engine d).graphs = (s.engine d).graphs where
  putR _ _ _ _ h := h
  parts t u h hu d := by rw [State.engine, hu.engines]; exact h d
  record t a h d := by rw [State.engine_record]; exact h d
  engine t d e he h d' := by
    rw [State.engine_setEngine]
    split
    · next hd => rw [he, h, hd]
    · exact h d'
  waiting _ _ _ h := h
  context _ _ _ _ h := h
  core _ _ _ h := h
  chan _ _ _ _ h := h
  remaining _ _ _ _ h := h
  ended _ _ _ _ _ h := h

/-! ### A retract, part by part (R322) -/

namespace State

/-- The retract's frames sent. -/
def tellRetract (s : State) (e reason die xyz : Nat) : State :=
  s.retractTargets.foldl (fun s c => s.send (s.sealFrame c s.here e 0 (sealTag 1 0 0 0 reason die xyz))) s

/-- The retract latched in its registers. -/
def latchRetract (s : State) (e reason die xyz : Nat) : State :=
  ((((((s.setF COL_RETRACT_EPOCH 0 0 e).setF COL_RETRACT_REASON 0 0 reason).setF COL_RETRACT_SUSPECT_DIE 0 0 die).setF
    COL_RETRACT_SUSPECT 0 0 xyz).setF COL_RETRACT_VALID 0 0 1).setF COL_SEAL_STATE_RETRACTING 0 0 1).setF
    COL_SEAL_STATE_RETRACT_DONE 0 0 0

/-- The sealer while a retract is in progress. -/
def dropSteps (s : State) (e : Nat) : State :=
  { s with sealer := {
      steps := s.sealer.steps.filter fun v => v.epoch < e, retracting := some e, lastRetract := some e } }

def stacksRetract (s : State) (e : Nat) : State := (List.range 12).foldl (fun s ms => s.stackRetract ms e) s

/-- What the engines keep of the retracted steps. -/
def enginesRetract (s : State) (e : Nat) : State :=
  (List.range 4).foldl (fun s d => s.setEngine d { s.engine d with
    top := min (s.engine d).top e, boundary := min (s.engine d).boundary e
    unmatched := (s.engine d).unmatched.filter fun r => r.1 < e
    twins := (s.engine d).twins.filter fun r => r.epoch < e }) s

theorem retractStep_of_new (s : State) (e reason die xyz : Nat) (h : s.retractNew e = true) :
    s.retractStep e reason die xyz = ((((((((s.tellRetract e reason die xyz).latchRetract e reason die xyz).dropSteps
      e).cancelEpoch e).stacksRetract e).enginesRetract e).ingotRetract e).showSeal) := by
  rw [retractStep, if_neg (by simp [h])]
  rfl

theorem retractStep_of_covered (s : State) (e reason die xyz : Nat) (h : s.retractNew e = false) :
    s.retractStep e reason die xyz = s := by
  rw [retractStep, if_pos (by simp [h])]

theorem keepsGraphs_latchRetract (s : State) (e reason die xyz : Nat) :
    KeepsGraphs s (s.latchRetract e reason die xyz) :=
  (((((((KeepsGraphs.refl s).setF ..).setF ..).setF ..).setF ..).setF ..).setF ..).setF ..

theorem keepsGraphs_dropSteps (s : State) (e : Nat) : KeepsGraphs s (s.dropSteps e) := (KeepsGraphs.refl s).other rfl rfl

end State

namespace Loose

variable {P : State → Prop} (hP : Loose P) {s : State}
include hP

theorem tellRetract {e reason die xyz : Nat} (h : P s) : P (s.tellRetract e reason die xyz) :=
  Stable.foldl h fun _ _ h => hP.send h

theorem stacksRetract {e : Nat} (h : P s) : P (s.stacksRetract e) := Stable.foldl h fun _ _ h => hP.stackRetract h

theorem enginesRetract {e : Nat} (h : P s) : P (s.enginesRetract e) := Stable.foldl h fun _ _ h => hP.setEngine h rfl

end Loose

/-- Cancelling tasks and ending slots is all a retract does to the graphs. -/
theorem retractStep_keeps {P : State → Prop} (hP : Cancellable P) (hg : ∀ s t, KeepsGraphs s t → P s → P t) {s : State}
    {e reason die xyz : Nat} (h : P s) : P (s.retractStep e reason die xyz) := by
  cases hnew : s.retractNew e with
  | false => rwa [s.retractStep_of_covered _ _ _ _ hnew]
  | true =>
    rw [s.retractStep_of_new _ _ _ _ hnew]
    have hdropped := hg _ _ (State.keepsGraphs_dropSteps _ e)
      (hg _ _ (State.keepsGraphs_latchRetract _ e reason die xyz) (hP.tellRetract (e := e) (reason := reason) (die := die) (xyz := xyz) h))
    exact hg _ _ (State.keepsGraphs_showSeal _)
      (hP.ingotRetract (hP.enginesRetract (hP.stacksRetract (hP.cancelEpoch hdropped))))

/-! ### A digest at completion (R353, R355) -/

/-- A record noted as not yet compared. -/
def State.noteUnmatched (s : State) (n : TaskId) (k : Nat × Nat × Nat) : State :=
  s.setEngine n.d { s.engine n.d with unmatched := ((s.engine n.d).unmatched.filter fun l => l ≠ k) ++ [k] }

/-- A log record is bytes written, and a note of the engine. -/
theorem State.writeLog_eq (s : State) (n : TaskId) (x : Task) (core : Nat) :
    ∃ a bs, s.writeLog n x core = (s.writePlain a bs none 0 none).noteUnmatched n (x.epoch, n.g, n.idx) := ⟨_, _, rfl⟩

section Digests

variable {P : State → Prop} (hP : Cancellable P) (hg : ∀ s t, KeepsGraphs s t → P s → P t) {s : State}
include hP hg

theorem failStep_keeps {e reason : Nat} {x : Nat × Nat} (h : P s) : P (s.failStep e reason (some x)) :=
  Stable.ifEither (hP.record _ _ h) (retractStep_keeps hP hg (hg _ _ (s.keepsGraphs_setStep _) h))

theorem digestMismatch_keeps {d : Nat} {x : TwinEntry} {dig core : Nat} (h : P s) : P (s.digestMismatch d x dig core) := by
  unfold State.digestMismatch
  extract_lets p s1 s2 s3 s4 details task s5
  have h3 : P s3 := Stable.ifEither h (hP.setF (hP.setF (hP.setF (hP.setF (hP.setF (hP.setF (hP.setF (hP.setF h))))))))
  clear_value s3
  have h4 : P s4 := hP.addF h3
  clear_value s4
  have h5 : P s5 := by
    unfold s5
    split
    · exact hP.record _ _ h4
    · exact hP.record _ _ h4
  exact failStep_keeps hP hg h5

theorem compareTwin_keeps {d : Nat} {x : TwinEntry} (h : P s) : P (s.compareTwin d x) := by
  unfold State.compareTwin
  split
  · exact Stable.ifEither (hP.setEngine (hP.addF h) rfl) (digestMismatch_keeps hP hg h)
  · exact hP.setEngine h rfl

omit hg in
theorem writeLog_keeps {n : TaskId} {x : Task} {core : Nat} (h : P s) : P (s.writeLog n x core) := by
  obtain ⟨a, bs, heq⟩ := s.writeLog_eq n x core
  rw [heq, State.noteUnmatched]
  exact hP.setEngine (hP.writePlain h) rfl

theorem digestDone_keeps {n : TaskId} {x : Task} {core : Nat} (h : P s) : P (s.digestDone n x core) :=
  Stable.ifEither h (Stable.ifEither (compareTwin_keeps hP hg h) (writeLog_keeps hP h))

end Digests

/-! ### What a completed task leaves behind -/

namespace Loose

variable {P : State → Prop} (hP : Loose P) {s : State}
include hP

theorem leaveCore {n : TaskId} {x : Task} (h : P s) : P (s.leaveCore n x) := by
  unfold State.leaveCore
  split
  · exact h
  · extract_lets c u
    have hu : P u := hP.setCore h
    exact Stable.ifEither (hP.releaseRings hu) (Stable.ifEither (hP.releaseTile hu) hu)

theorem leaveChannels {n : TaskId} {x : Task} (h : P s) : P (s.leaveChannels n x) := by
  unfold State.leaveChannels
  split
  · exact h
  · exact Stable.foldl (hP.dropContexts h) fun _ _ h => Stable.ifEither (hP.freeChannel h) h

theorem endLeave {n : TaskId} {x : Task} (h : P s) : P (s.endLeave n x) := by
  unfold State.endLeave
  split
  · extract_lets held
    exact Stable.ifEither (hP.releaseKept h) h
  · exact Stable.ifEither h (hP.releaseTokens h)

end Loose

namespace State

/-- The core a digest names. -/
def digestCore (s : State) (n : TaskId) (x : Task) : Nat :=
  match x.core with
  | some p => (s.logicalOf n.d p).getD 0
  | none => 0

/-- A completed task, digested and off its core, its channels and its leave. -/
def wrapUp (s : State) (n : TaskId) (x : Task) : State :=
  let t := (((s.digestDone n x (s.digestCore n x)).setTask n { x with status := .completed }).leaveCore n x).leaveChannels n x
    |>.endLeave n x
  t.offer n.d 0x01 (x.kindCode * 4096 + t.latencyUnit n x) ((t.time - x.dispatchedAt : Nat) : Int) x.dispatchedAt

/-- Its successors counted down, those that nothing can take reported, and the next of its chain queued. -/
def releaseNext (s : State) (n : TaskId) (x : Task) : State :=
  let t := x.succ.foldl (decrement n) s
  let u := t.checkReady n.d n.g (x.succ.filter fun i => (t.task? ⟨n.d, n.g, i⟩).any fun y => y.pred = 0)
  match x.core with
  | some p => queueChain 16 n.d p u
  | none => u

theorem taskComplete_of_done (s : State) (n : TaskId) (x : Task) (hx : s.task? n = some x) (hst : x.status = .dispatched)
    (hstarted : x.started = true) (hfin : x.fin = true) (hstop : x.stopAtYield = false) (hw : s.writeWaits n = false) :
    s.taskComplete n = (((s.wrapUp n x).releaseNext n x).endGraphs n.d).stepOver n.d := by
  unfold taskComplete
  rw [hx]
  dsimp only
  rw [if_neg (by simp [hst, hstarted, hfin, hw]), if_neg (by simp [hstop])]
  rfl

/-! ### The completed task, its successors and its slot -/

theorem task?_setTask_ne (s : State) (n m : TaskId) (y : Task) (hy : y.idx = n.idx)
    (h : m.d ≠ n.d ∨ m.g ≠ n.g ∨ m.idx ≠ n.idx) : (s.setTask n y).task? m = s.task? m := by
  rw [task?, graph_setTask]
  split
  · next hdg =>
    obtain ⟨hd, hg⟩ := hdg
    have hidx : m.idx ≠ n.idx := by
      rcases h with h | h | h
      · exact absurd hd h
      · exact absurd hg h
      · exact h
    rw [task?, hd, hg]
    dsimp only
    induction (s.graph n.d n.g).tasks with
    | nil => rfl
    | cons z l ih =>
      rw [List.map_cons, List.find?_cons, List.find?_cons, ih]
      by_cases hz : z.idx = n.idx
      · rw [if_pos hz, hy, hz]
        simp [hidx.symm]
      · rw [if_neg hz]
  · rfl

/-- After the digest and the mark of completion, only what the graphs do not show changes. -/
theorem wrapUp_keeps (s : State) (n : TaskId) (x : Task) :
    KeepsGraphs ((s.digestDone n x (s.digestCore n x)).setTask n { x with status := .completed }) (s.wrapUp n x) := by
  have hP := loose_keepsGraphs ((s.digestDone n x (s.digestCore n x)).setTask n { x with status := .completed })
  unfold wrapUp
  extract_lets u
  have hu := hP.endLeave (n := n) (x := x) (hP.leaveChannels (n := n) (x := x) (hP.leaveCore (n := n) (x := x) (.refl _)))
  exact hu.other rfl rfl

theorem wrapUp_task (s : State) (n : TaskId) (x : Task) (hx : s.task? n = some x) :
    AllAt (s.wrapUp n x) n fun y => y.status = .completed := by
  have hlisted : AllAt (s.digestDone n x (s.digestCore n x)) n fun _ => True :=
    digestDone_keeps (cancellable_listed n) (fun _ _ hk h => h.keeps hk) ⟨exists_of_task? hx, fun _ _ _ => trivial⟩
  exact ((AllAt.put hlisted.1 { x with status := .completed } (s.idx_of_task? n x hx)).keeps (s.wrapUp_keeps n x)).mono
    fun z hz => by rw [hz]

theorem wrapUp_slot (s : State) (n : TaskId) (x : Task) (l : List Nat) (h4 : 4 ∈ l) (h6 : 6 ∈ l)
    (h : s.slotState n.d n.g ∈ l) : (s.wrapUp n x).slotState n.d n.g ∈ l := by
  rw [(s.wrapUp_keeps n x).slotState]
  exact digestDone_keeps (n := n) (x := x) (core := s.digestCore n x) (cancellable_slot n.d n.g l h4 h6)
    (fun _ _ hk h => by rwa [hk.slotState]) h

theorem wrapUp_other (s : State) (n m : TaskId) (x : Task) (hx : s.task? n = some x) (hoff : s.digestOn = false)
    (h : m.d ≠ n.d ∨ m.g ≠ n.g ∨ m.idx ≠ n.idx) : (s.wrapUp n x).task? m = s.task? m := by
  have hdigest : s.digestDone n x (s.digestCore n x) = s := if_pos (by simp [hoff])
  have hkeeps := s.wrapUp_keeps n x
  rw [hdigest] at hkeeps
  rw [hkeeps.task?]
  exact task?_setTask_ne _ _ _ { x with status := .completed } (s.idx_of_task? n x hx) h

/-- Counting a task down leaves its index and its status. -/
theorem decrement_task (s : State) (n m : TaskId) (i : Nat) (Q : Task → Prop)
    (hQ : ∀ z : Task, Q z → Q { z with pred := z.pred - 1 }) (h : AllAt s m Q) : AllAt (decrement n s i) m Q := by
  unfold decrement
  split
  · next y hy =>
    refine h.setTask _ _ (s.idx_of_task? _ y hy) fun hm => hQ y ?_
    exact h.2 y (hm ▸ List.mem_of_find?_eq_some hy) (hm ▸ s.idx_of_task? _ y hy)
  · exact h

theorem decrement_regs (s : State) (n : TaskId) (i : Nat) : (decrement n s i).regs = s.regs := by
  unfold decrement
  split <;> rfl

theorem queueChain_regs (k d p : Nat) : ∀ s : State, (queueChain k d p s).regs = s.regs := by
  induction k with
  | zero => exact fun _ => rfl
  | succ k ih =>
    intro s
    rw [queueChain]
    split
    · rfl
    · split
      · rw [ih]
        rfl
      · rfl

/-- The next tasks of the chain of a task's core. -/
def queueNext (s : State) (n : TaskId) (x : Task) : State :=
  match x.core with
  | some p => queueChain 16 n.d p s
  | none => s

theorem queueNext_regs (s : State) (n : TaskId) (x : Task) : (s.queueNext n x).regs = s.regs := by
  unfold queueNext
  split
  · exact queueChain_regs ..
  · rfl

theorem queueNext_task (s : State) (n m : TaskId) (x : Task) (Q : Task → Prop)
    (hq : ∀ z w, Q z → z.status = .waiting → w.pred = z.pred → Q w) (h : AllAt s m Q) : AllAt (s.queueNext n x) m Q := by
  unfold queueNext
  split
  · exact h.queueChain hq ..
  · exact h

/-- Successors counted down. -/
def countDown (s : State) (n : TaskId) (x : Task) : State := x.succ.foldl (decrement n) s

theorem releaseNext_eq (s : State) (n : TaskId) (x : Task) : s.releaseNext n x =
    ((s.countDown n x).checkReady n.d n.g
      (x.succ.filter fun i => ((s.countDown n x).task? ⟨n.d, n.g, i⟩).any fun y => y.pred = 0)).queueNext n x := rfl

theorem AllAt.checkReady {s : State} {m : TaskId} {Q : Task → Prop} (h : AllAt s m Q) (g : Nat) (l : List Nat) :
    AllAt (s.checkReady m.d g l) m Q := by
  rw [AllAt, graph_of_engine (s.checkReady_frame m.d g l).1]
  exact h

theorem releaseNext_task (s : State) (n : TaskId) (x : Task) (h : AllAt s n fun y => y.status = .completed) :
    AllAt (s.releaseNext n x) n fun y => y.status = .completed := by
  rw [releaseNext_eq]
  refine queueNext_task _ n n x _ (fun z w hz hw _ => by rw [hz] at hw; cases hw) (AllAt.checkReady ?_ _ _)
  exact List.foldlRecOn (motive := fun u : State => AllAt u n fun y => y.status = .completed) _ _ h
    fun u hu i _ => u.decrement_task n n i _ (fun _ hz => hz) hu

theorem releaseNext_slot (s : State) (n : TaskId) (x : Task) :
    (s.releaseNext n x).slotState n.d n.g = s.slotState n.d n.g := by
  have hcount : (s.countDown n x).regs = s.regs :=
    List.foldlRecOn (motive := fun u : State => u.regs = s.regs) _ _ rfl fun u hu i _ => (u.decrement_regs n i).trans hu
  rw [releaseNext_eq]
  generalize (x.succ.filter fun i => ((s.countDown n x).task? ⟨n.d, n.g, i⟩).any fun y => y.pred = 0) = l
  have hqueue : ((((s.countDown n x).checkReady n.d n.g l).queueNext n x)).slotState n.d n.g =
      ((s.countDown n x).checkReady n.d n.g l).slotState n.d n.g := by
    rw [slotState, getF, getR, queueNext_regs, slotState, getF, getR]
  rw [hqueue, slotState, ((s.countDown n x).checkReady_frame n.d n.g l).2 _ (by simp), getF, getR, hcount, slotState, getF,
    getR]

theorem releaseNext_succ (s : State) (n : TaskId) (x y : Task) (i : Nat) (hsucc : x.succ = [i])
    (hy : s.task? ⟨n.d, n.g, i⟩ = some y) : AllAt (s.releaseNext n x) ⟨n.d, n.g, i⟩ fun z => z.pred = y.pred - 1 := by
  have hcount : s.countDown n x = s.setTask ⟨n.d, n.g, i⟩ { y with pred := y.pred - 1 } := by
    rw [countDown, hsucc, List.foldl_cons, List.foldl_nil, decrement, hy]
  rw [releaseNext_eq]
  refine queueNext_task _ n _ x _ (fun z w hz _ hw => hw.trans hz) (AllAt.checkReady (m := ⟨n.d, n.g, i⟩) ?_ _ _)
  rw [hcount]
  exact (AllAt.put (n := ⟨n.d, n.g, i⟩) (exists_of_task? hy) { y with pred := y.pred - 1 } (s.idx_of_task? _ y hy)).mono
    fun z hz => by rw [hz]

/-! ### The end of a graph (R111) -/

theorem endGraphs_tasks (s : State) (d : Nat) : ∀ k, ((s.endGraphs d).engine k).graphs = (s.engine k).graphs :=
  (ending_sameTasks s).endGraphs fun _ => rfl

theorem remaining_congr {s t : State} (h : ∀ d, (t.engine d).graphs = (s.engine d).graphs) (d g : Nat) :
    t.remaining d g = s.remaining d g := by
  rw [remaining, graph, h, remaining, graph]

theorem endGraph_ends (s : State) (d g : Nat) (h : s.slotState d g ∈ [3, 4, 6]) (hrem : s.remaining d g = 0) :
    (s.endGraph d g).slotState d g ∈ [4, 6] := by
  by_cases h3 : s.slotState d g = 3
  · have hkeep := loose_keepsGraphs
    unfold endGraph
    rw [if_neg (by simp [h3])]
    extract_lets k u dead
    rw [if_neg (by simpa [k] using hrem)]
    have hend : ∀ (t : State) (v : Nat), v = 4 ∨ v = 6 →
        ((t.setF GE_GRAPH_STATUS_STATE d g v).releaseGraph d g).slotState d g ∈ [4, 6] := fun t v hv => by
      rw [((loose_keepsGraphs _).releaseGraph (d := d) (g := g) (.refl (t.setF GE_GRAPH_STATUS_STATE d g v))).slotState,
        slotState, getF_setF_self _ _ _ _ _ (by decide)]
      rcases hv with rfl | rfl <;> decide
    refine hend u _ ?_
    split
    · exact .inr rfl
    · exact .inl rfl
  · rw [endGraph, if_pos h3]
    simpa [h3] using h

/-- The slots of `l` looked at. -/
def endSlots (s : State) (d : Nat) (l : List Nat) : State := l.foldl (fun s g => s.endGraph d g) s

def dropAllTwins (s : State) : State := [0, 1, 2, 3].foldl (fun s k => s.dropTwins k) s

theorem endGraphs_eq (s : State) (d : Nat) : s.endGraphs d = (s.endSlots d (List.range 16)).dropAllTwins := rfl

theorem endSlots_through (s : State) (d g : Nat) (l₁ l₂ : List Nat) :
    s.endSlots d (l₁ ++ g :: l₂) = ((s.endSlots d l₁).endGraph d g).endSlots d l₂ := List.foldl_append

end State

namespace Ending

variable {P : State → Prop} (hP : Ending P)
include hP

theorem endSlots (d : Nat) (l : List Nat) {s : State} (h : P s) : P (s.endSlots d l) :=
  Stable.foldl h fun _ _ h => hP.endGraph h

theorem dropAllTwins {s : State} (h : P s) : P s.dropAllTwins := Stable.foldl h fun _ _ h => hP.dropTwins h

end Ending

namespace State

/-- A slot that ran or has ended has ended once none of its tasks lives. -/
theorem endGraphs_ends (s : State) (d g : Nat) (hg : g < 16) (h : s.slotState d g ∈ [3, 4, 6])
    (hrem : (s.endGraphs d).remaining d g = 0) : (s.endGraphs d).slotState d g ∈ [4, 6] := by
  obtain ⟨l₁, l₂, hl⟩ := List.append_of_mem (List.mem_range.mpr hg)
  have hopen := (cancellable_slot d g [3, 4, 6] (by decide) (by decide)).toEnding
  have hended := (cancellable_slot d g [4, 6] (by decide) (by decide)).toEnding
  rw [remaining_congr (s.endGraphs_tasks d)] at hrem
  have hbefore : (s.endSlots d l₁).slotState d g ∈ [3, 4, 6] := hopen.endSlots d l₁ h
  have htasks := (ending_sameTasks s).endSlots d l₁ fun _ => rfl
  have hone := (s.endSlots d l₁).endGraph_ends d g hbefore ((remaining_congr htasks d g).trans hrem)
  rw [s.endGraphs_eq, hl, s.endSlots_through]
  exact hended.dropAllTwins (hended.endSlots d l₂ hone)

theorem keepsGraphs_stepOver (s : State) (d : Nat) : KeepsGraphs s (s.stepOver d) :=
  (loose_keepsGraphs s).checkHalted ((KeepsGraphs.refl s).setEngine _ _)

end State

theorem KeepsGraphs.latch {s t : State} (h : KeepsGraphs s t) (u : State) : KeepsGraphs s (u.latchEdges t) :=
  ⟨fun d => (congrArg Engine.graphs (State.engine_latchEdges ..)).trans (h.1 d), fun d g =>
    (State.getR_latch _ _ _ _ _ (by decide)).trans (h.2 d g)⟩

end Sys2Proof.Machine
end

section
/-! The tasks' way through the engine: O25. -/

namespace Sys2Proof.Machine

theorem exec_taskDispatch_core (d : Fin 4) (c : Fin 32) (s : State) :
    exec (.taskDispatch d (.core c)) s = .next (s.latchEdges (s.dispatchTo d c)) := rfl

theorem exec_taskDispatch_engine (d : Fin 4) (n : TaskId) (s : State) :
    exec (.taskDispatch d (.engine n)) s = .next (s.latchEdges (if n.d = d.val then s.dispatchEngine n else s)) := rfl

theorem exec_taskComplete (n : TaskId) (s : State) :
    exec (.taskComplete n) s = .next (s.latchEdges (s.taskComplete n)) := rfl

theorem exec_quantumOverrun (n : TaskId) (s : State) :
    exec (.quantumOverrun n) s = .next (s.latchEdges (s.quantumOverrun n)) := rfl

/-- The end of a command shows the tasks its effect left. -/
theorem AllAt.latch {s : State} {n : TaskId} {Q : Task → Prop} (h : AllAt s n Q) (u : State) : AllAt (u.latchEdges s) n Q :=
  h.keeps ((KeepsGraphs.refl s).latch u)

namespace State

/-- A picked task waits on the list it was picked from. -/
theorem picked_mem {s : State} {d c : Nat} {n : TaskId} {x : Task}
    (h : (s.picks d).find? (fun y => y.1 = c) = some (c, n, x)) : (n, x) ∈ s.tasksOf d :=
  s.picks_mem d _ (List.mem_of_find?_eq_some h)

theorem dispatchEngine_of_next (s : State) (n : TaskId) (x : Task) (hmay : s.mayDispatch n.d = true)
    (hnext : s.nextEngine n = true) (hbreak : s.breaksAt n = false) (hx : s.task? n = some x) :
    s.dispatchEngine n = s.dispatchTask n (s.reread n.d x) := by
  rw [dispatchEngine, if_neg (by simp [hmay, hnext]), if_neg (by simp [hbreak]), hx]

theorem dispatch_of_not (s : State) (d : Fin 4) (u : DispatchUnit) (h : s.mayDispatch d = false) :
    exec (.taskDispatch d u) s = .next s := by
  cases u with
  | core c => rw [exec_taskDispatch_core, s.dispatchTo_of_not _ _ h, latchEdges_self s]
  | engine n =>
    rw [exec_taskDispatch_engine]
    split
    · next hn => rw [s.dispatchEngine_of_not n (hn ▸ h), latchEdges_self s]
    · rw [latchEdges_self s]

/-- What `TASK_COMPLETE` leaves of a task, beside the ends of graphs. -/
def completed (s : State) (n : TaskId) (x : Task) : State := (s.wrapUp n x).releaseNext n x

/-- The ends of graphs and of a STEP leave the tasks. -/
theorem keepsTasks_ending (s : State) (d : Nat) {m : TaskId} {Q : Task → Prop} (h : AllAt s m Q) :
    AllAt ((s.endGraphs d).stepOver d) m Q := by
  have hends : AllAt (s.endGraphs d) m Q := by
    rw [AllAt, graph, endGraphs_tasks]
    exact h
  exact hends.keeps (keepsGraphs_stepOver _ d)

theorem completed_ends (s : State) (n : TaskId) (x : Task) (hg : n.g < 16) (h : s.slotState n.d n.g = 3)
    (hrem : (((s.completed n x).endGraphs n.d).stepOver n.d).remaining n.d n.g = 0) :
    (((s.completed n x).endGraphs n.d).stepOver n.d).slotState n.d n.g ∈ [4, 6] := by
  have hstep := keepsGraphs_stepOver ((s.completed n x).endGraphs n.d) n.d
  rw [remaining_congr hstep.1] at hrem
  rw [hstep.slotState]
  refine endGraphs_ends _ n.d n.g hg ?_ hrem
  rw [completed, releaseNext_slot]
  exact s.wrapUp_slot n x [3, 4, 6] (by decide) (by decide) (by simp [h])

theorem completed_succ (s : State) (n : TaskId) (x y : Task) (i : Nat) (hx : s.task? n = some x)
    (hoff : s.digestOn = false) (hsucc : x.succ = [i]) (hi : i ≠ n.idx) (hy : s.task? ⟨n.d, n.g, i⟩ = some y) :
    AllAt (s.completed n x) ⟨n.d, n.g, i⟩ fun z => z.pred = y.pred - 1 := by
  refine releaseNext_succ _ n x y i hsucc ?_
  rw [s.wrapUp_other n ⟨n.d, n.g, i⟩ x hx hoff (.inr (.inr hi))]
  exact hy

theorem AllAt.any {s : State} {n : TaskId} {p : Task → Bool} (h : AllAt s n fun y => p y = true) :
    (s.task? n).any p = true := by
  obtain ⟨y, hy, hp⟩ := h.task?
  rw [hy]
  exact hp

theorem quantumOverrun_of_over (s : State) (n : TaskId) (x : Task) (hx : s.task? n = some x) (h : x.overrun = true) :
    s.quantumOverrun n = s := by
  rw [quantumOverrun, hx]
  exact if_neg (by simp [h])

theorem quantumOverrun_of_running (s : State) (n : TaskId) (x : Task) (hx : s.task? n = some x)
    (hst : x.status = .dispatched) (hstarted : x.started = true) (hover : x.overrun = false)
    (hcore : x.kind.isCore = true) : s.quantumOverrun n =
      (s.setTask n { x with overrun := true }).dieRecord 0x0404 sevInfo n.d 0 [n.g, n.idx] x.epoch (recTask n x) := by
  rw [quantumOverrun, hx]
  exact if_pos (by simp [hst, hstarted, hover, hcore])

end State

/-- Settles O25: the dispatched task reads as `dispatchTask` leaves it, since the rest of a dispatch keeps the task
lists; a completed one stays completed through the cancellations a digest mismatch may cause; and the slot that has no
task left has been looked at by `endGraphs`. -/
theorem tasksAreDispatchedAndComplete : Obligations.TasksAreDispatchedAndComplete := by
  intro s
  refine ⟨fun d c n x p hmay hpick hphys hwait => ⟨fun hbreak hkind => ?_, fun hbreak => ?_⟩,
    fun d u h => s.dispatch_of_not d u h, fun d n x hd hmay hnext hbreak hx _ _ => ?_,
    fun n x hx _ hg hst hstarted hfin hstop hw => ?_, fun n x hx => ⟨fun hst hstarted hover hcore => ?_, fun h => ?_⟩⟩
  · have hdone := s.dispatchCore_task d c p n x (State.picked_mem hpick) hwait hkind
    obtain ⟨y, hy, hstatus, hcore, htime, hleave⟩ := (hdone.latch s).task?
    refine ⟨_, y, ?_, hy, hstatus, hcore, htime, hleave⟩
    rw [exec_taskDispatch_core, s.dispatchTo_of_pick d c p n x hmay hpick hphys, if_neg (by simp [hbreak])]
  · obtain ⟨hhalt, hengines⟩ := s.halted_reads d
    refine ⟨_, exec_taskDispatch_core d c s, ?_⟩
    rw [s.dispatchTo_of_pick d c p n x hmay hpick hphys, if_pos hbreak]
    exact ⟨(State.flag_latch _ _ _ _ _ (by decide)).trans hhalt, (State.latchEdges_engines _ _).trans hengines⟩
  · rw [← hd] at hmay
    have hdone := s.dispatchTask_task n (s.reread n.d x) (State.exists_of_task? hx)
      ((s.idx_reread n.d x).1.trans (s.idx_of_task? n x hx))
    obtain ⟨y, hy, hstatus, -, htime, hleave⟩ := (hdone.latch s).task?
    refine ⟨_, y, ?_, hy, hstatus, htime, hleave⟩
    rw [exec_taskDispatch_engine, if_pos hd, s.dispatchEngine_of_next n x hmay hnext hbreak hx]
  · have heq : s.taskComplete n = ((s.completed n x).endGraphs n.d).stepOver n.d :=
      s.taskComplete_of_done n x hx hst hstarted hfin hstop hw
    refine ⟨_, exec_taskComplete n s, ?_⟩
    rw [heq]
    have hlatch := (KeepsGraphs.refl (((s.completed n x).endGraphs n.d).stepOver n.d)).latch s
    refine ⟨?_, fun hslot hrem => ?_, fun i y hoff hsucc hi hy => ?_⟩
    · have hcompleted := State.releaseNext_task _ n x (s.wrapUp_task n x hx)
      exact State.AllAt.any (((State.keepsTasks_ending _ n.d hcompleted).latch s).mono fun z hz => by simp [hz])
    · rw [State.remaining_congr hlatch.1] at hrem
      rw [hlatch.slotState]
      simpa using s.completed_ends n x hg hslot hrem
    · have hdown := s.completed_succ n x y i hx hoff hsucc hi hy
      exact State.AllAt.any (((State.keepsTasks_ending _ n.d hdown).latch s).mono fun z hz => by simp [hz])
  · rw [exec_quantumOverrun, s.quantumOverrun_of_running n x hx hst hstarted hover hcore]
  · rw [exec_quantumOverrun, s.quantumOverrun_of_over n x hx h, latchEdges_self s]

end Sys2Proof.Machine
end

section
/-! Bytes stored in DRAM, and buffers emptied into it (R188). -/

namespace Sys2Proof.Machine

/-- `t` is `s` but for bytes and poison marks of DRAM. -/
def IntoDram (s t : State) : Prop := ∃ d g, t = { s with dram := d, granPoison := g }

/-- `t` is `s` but for what the stacks hold, DRAM and buffers. -/
def IntoStacks (s t : State) : Prop := ∃ d g k, t = { s with dram := d, granPoison := g, stackTab := k }

namespace IntoDram

theorem refl (s : State) : IntoDram s s := ⟨_, _, rfl⟩

theorem trans {s t u : State} (h : IntoDram s t) (h2 : IntoDram t u) : IntoDram s u := by
  obtain ⟨_, _, rfl⟩ := h
  obtain ⟨_, _, rfl⟩ := h2
  exact ⟨_, _, rfl⟩

theorem foldl {α : Type} (l : List α) (f : State → α → State) (hf : ∀ u x, IntoDram u (f u x)) (s : State) :
    IntoDram s (l.foldl f s) :=
  List.foldlRecOn (motive := fun u => IntoDram s u) l f (.refl s) fun u hu x _ => hu.trans (hf u x)

theorem storeLineByte (line : Nat) (s : State) (x : Nat × Option (Byte × Option Nat)) :
    IntoDram s (State.storeLineByte line s x) := by
  unfold State.storeLineByte
  split
  · exact ⟨_, _, rfl⟩
  · exact .refl s

theorem clearGran (line : Nat) (b : Tab Nat (Option (Byte × Option Nat))) (s : State) (g : Nat) :
    IntoDram s (State.clearGran line b s g) := by
  unfold State.clearGran
  split
  · split
    · exact ⟨_, _, rfl⟩
    · exact .refl s
  · exact .refl s

theorem markGran (line : Nat) (s : State) (g : Nat) : IntoDram s (State.markGran line s g) := by
  unfold State.markGran
  split
  · exact ⟨_, _, rfl⟩
  · exact .refl s

theorem storeLine (s : State) (l : WcbLine) : IntoDram s (s.storeLine l) :=
  ((foldl _ _ (storeLineByte _) s).trans (foldl _ _ (clearGran _ _) _)).trans (foldl _ _ (markGran _) _)

theorem stack {s t : State} (h : IntoDram s t) (m : Nat) : t.stack m = s.stack m := by
  obtain ⟨_, _, rfl⟩ := h
  rfl

end IntoDram

namespace IntoStacks

theorem refl (s : State) : IntoStacks s s := ⟨_, _, _, rfl⟩

theorem trans {s t u : State} (h : IntoStacks s t) (h2 : IntoStacks t u) : IntoStacks s u := by
  obtain ⟨_, _, _, rfl⟩ := h
  obtain ⟨_, _, _, rfl⟩ := h2
  exact ⟨_, _, _, rfl⟩

theorem foldl {α : Type} (l : List α) (f : State → α → State) (hf : ∀ u x, IntoStacks u (f u x)) (s : State) :
    IntoStacks s (l.foldl f s) :=
  List.foldlRecOn (motive := fun u => IntoStacks s u) l f (.refl s) fun u hu x _ => hu.trans (hf u x)

theorem writeBack (s : State) (ms : Nat) (l : WcbLine) : IntoStacks s (s.writeBack ms l) := by
  obtain ⟨d, g, h⟩ := IntoDram.storeLine s l
  rw [State.writeBack, h]
  exact ⟨_, _, _, rfl⟩

theorem flushStack (s : State) (ms : Nat) : IntoStacks s (s.flushStack ms) := foldl _ _ (fun u l => writeBack u ms l) s

theorem task? {s t : State} (h : IntoStacks s t) (n : TaskId) : t.task? n = s.task? n := by
  obtain ⟨_, _, _, rfl⟩ := h
  rfl

/-- The end of a command adds nothing to what the stacks took. -/
theorem latch {s t : State} (h : IntoStacks s t) : s.latchEdges t = t := by
  obtain ⟨_, _, _, rfl⟩ := h
  exact latchEdges_of_levels_kept (fun _ _ => rfl) rfl rfl

theorem eq {s t : State} (h : IntoStacks s t) :
    t = { s with dram := t.dram, granPoison := t.granPoison, stackTab := t.stackTab } := by
  obtain ⟨_, _, _, rfl⟩ := h
  rfl

end IntoStacks

namespace State

/-! ### The buffer after write-backs -/

theorem stack_writeBack (s : State) (ms : Nat) (l : WcbLine) (m : Nat) : (s.writeBack ms l).stack m =
    if ms = m then { s.stack ms with wcb := (s.stack ms).wcb.filter fun x => x.line ≠ l.line } else s.stack m := by
  have hstack := (IntoDram.storeLine s l).stack
  rw [writeBack]
  dsimp only
  rw [stack_setStack, hstack, hstack]

theorem wcb_writeBacks (ms : Nat) (l : List WcbLine) : ∀ s : State,
    ((l.foldl (fun s x => s.writeBack ms x) s).stack ms).wcb = (s.stack ms).wcb.filter fun x => ∀ y ∈ l, x.line ≠ y.line := by
  induction l with
  | nil => exact fun s => by simp
  | cons y l ih =>
    intro s
    rw [List.foldl_cons, ih, stack_writeBack, if_pos rfl, List.filter_filter]
    exact List.filter_congr fun x _ => by simp [Bool.and_comm]

theorem wcb_flushStack (s : State) (ms : Nat) : ((s.flushStack ms).stack ms).wcb = [] := by
  rw [flushStack, wcb_writeBacks, List.filter_eq_nil_iff]
  intro x hx h
  exact of_decide_eq_true h x hx rfl

theorem stack_flushStack_ne (s : State) (ms m : Nat) (h : m ≠ ms) : (s.flushStack ms).stack m = s.stack m :=
  List.foldlRecOn (motive := fun u : State => u.stack m = s.stack m) _ _ rfl fun u hu l _ => by
    rw [stack_writeBack, if_neg (Ne.symm h), hu]

/-- The stacks of a list flushed. -/
def flushAll (s : State) (l : List Nat) : State := l.foldl (fun s ms => s.flushStack ms) s

theorem intoStacks_flushAll (s : State) (l : List Nat) : IntoStacks s (s.flushAll l) :=
  IntoStacks.foldl _ _ (fun u ms => IntoStacks.flushStack u ms) s

theorem stack_flushAll_ne (l : List Nat) (m : Nat) (hm : m ∉ l) (s : State) : (s.flushAll l).stack m = s.stack m :=
  List.foldlRecOn (motive := fun u : State => u.stack m = s.stack m) _ _ rfl fun u hu ms hms => by
    rw [stack_flushStack_ne _ _ _ (fun h : m = ms => hm (h ▸ hms)), hu]

theorem wcb_flushAll (l : List Nat) (m : Nat) (hm : m ∈ l) : ∀ s : State, ((s.flushAll l).stack m).wcb = [] := by
  induction l with
  | nil => exact absurd hm List.not_mem_nil
  | cons ms l ih =>
    intro s
    by_cases hl : m ∈ l
    · exact ih hl (s.flushStack ms)
    · obtain rfl := (List.mem_cons.mp hm).resolve_right hl
      exact (congrArg StackSt.wcb (stack_flushAll_ne l m hl (s.flushStack m))).trans (s.wcb_flushStack m)

end State
end Sys2Proof.Machine
end

section
/-! Tokens, WAITs, SIGNALs and FENCEs (R116, R121 to R123): O26. -/

namespace Sys2Proof.Machine

theorem exec_tokenIncrement (d : Fin 4) (k : Fin 4096) (inc : BitVec 16) (s : State) :
    exec (.tokenIncrement d k inc) s = .next (s.latchEdges (s.tokenIncrement d k inc.toNat)) := rfl

theorem exec_wait (n : TaskId) (s : State) : exec (.wait n) s = .next (s.latchEdges (s.wait n)) := rfl

theorem exec_signal (n : TaskId) (s : State) : exec (.signal n) s = .next (s.latchEdges (s.signal n)) := rfl

theorem exec_fence (n : TaskId) (s : State) : exec (.fence n) s = .next (s.latchEdges (s.fence n)) := rfl

namespace State

/-- A running task is one of the slot, dispatched and of that kind. -/
theorem running?_some {s : State} {n : TaskId} {k : Kind} {x : Task} (h : s.running? n k = some x) :
    s.task? n = some x ∧ x.status = .dispatched ∧ x.started = true ∧ x.fin = false ∧ x.kind = k := by
  obtain ⟨hx, hp⟩ := Option.filter_eq_some_iff.mp h
  simpa [and_assoc] using And.intro hx hp

theorem finish_of_task? (s : State) (n : TaskId) (x : Task) (h : s.task? n = some x) :
    s.finish n = s.setTask n { x with fin := true } := by
  rw [finish, h]

/-- A finished task shows its work done. -/
theorem finish_fin (s : State) (n : TaskId) (x : Task) (h : s.task? n = some x) :
    AllAt (s.finish n) n fun y => y = { x with fin := true } := by
  rw [s.finish_of_task? n x h]
  exact AllAt.put (exists_of_task? h) { x with fin := true } (s.idx_of_task? n x h)

/-- The tasks of a die after one was put back: those there were, or the one put. -/
theorem tasksOf_setTask (s : State) (n : TaskId) (x : Task) (d : Nat) (y : TaskId × Task)
    (h : y ∈ (s.setTask n x).tasksOf d) : y.2 = x ∨ y ∈ s.tasksOf d := by
  obtain ⟨hd, hg, hidx, hmem⟩ := mem_tasksOf h
  have hin : ∀ z ∈ (s.graph d y.1.g).tasks, z = y.2 → y ∈ s.tasksOf d := fun z hz hzy => by
    rw [tasksOf, List.mem_flatMap]
    refine ⟨y.1.g, List.mem_range.mpr hg, List.mem_map.mpr ⟨z, hz, ?_⟩⟩
    rw [hzy, hidx, ← hd]
  rw [graph_setTask] at hmem
  split at hmem
  · next hdg =>
    obtain ⟨z, hz, hzy⟩ := List.mem_map.mp hmem
    split at hzy
    · exact .inl hzy.symm
    · exact .inr (hin z (by rw [hdg.1, hdg.2]; exact hz) hzy)
  · exact .inr (hin y.2 hmem rfl)

/-- A finished task is no WAIT that still waits, so a token nothing waits on stays one. -/
theorem waitsOn_finish (s : State) (n : TaskId) (x : Task) (hx : s.task? n = some x) (d k : Nat) (h : s.waitsOn d k = []) :
    (s.finish n).waitsOn d k = [] := by
  rw [s.finish_of_task? n x hx]
  rw [waitsOn, List.filter_eq_nil_iff] at h ⊢
  intro y hy hwaits
  obtain ⟨hmem, hst⟩ := List.mem_filter.mp hy
  rcases s.tasksOf_setTask n _ d y hmem with heq | hold
  · rw [heq] at hwaits
    simp at hwaits
  · exact h y (List.mem_filter.mpr ⟨hold, hst⟩) hwaits

/-- What waits on a token is the engines' to say. -/
theorem waitsOn_congr {s t : State} (h : t.engines = s.engines) (d k : Nat) : t.waitsOn d k = s.waitsOn d k := by
  simp only [waitsOn, dispatchedOf, tasksOf, graph, engine, h]

theorem tokenIncrement_of_runtime (s : State) (d k inc : Nat) (hk : k < 4032) (h : s.waitsOn d k = []) :
    s.tokenIncrement d k inc = s.setF GE_TOKEN_COUNT d k (s.getF GE_TOKEN_COUNT d k + inc) := by
  rw [tokenIncrement, if_neg (Nat.not_le.mpr hk), serveWaits, waitsOn_congr (setF_engines ..), h, List.foldl_nil]

theorem tokenIncrement_of_system (s : State) (d k inc : Nat) (hk : 4032 ≤ k) : s.tokenIncrement d k inc = s := if_pos hk

/-- How far a token has passed the threshold of a WAIT, as 32 bits. -/
def passedBy (s : State) (n : TaskId) (x : Task) : BitVec 32 :=
  BitVec.ofNat 32 (s.getF GE_TOKEN_COUNT n.d x.waToken) - BitVec.ofNat 32 x.waThreshold

theorem wait_alone (s : State) (n : TaskId) (x : Task) (hrun : s.running? n .wait = some x)
    (h : s.waitsOn n.d x.waToken = [(n, x)]) : s.wait n =
      if (s.passedBy n x).toInt < 0 then s
      else if x.waConsume then
        (s.setTask n { x with fin := true }).setF GE_TOKEN_COUNT n.d x.waToken (s.passedBy n x).toNat
      else s.setTask n { x with fin := true } := by
  rw [wait, hrun]
  dsimp only
  rw [serveWaits, h, List.foldl_cons, List.foldl_nil, serveWait, passedBy]

theorem signal_local (s : State) (n : TaskId) (x : Task) (hrun : s.running? n .signal = some x) (h : x.sgLocal = true) :
    s.signal n = (s.finish n).tokenIncrement x.sgDie x.sgToken x.sgInc := by
  rw [signal, hrun]
  exact if_pos (by simp [h])

theorem finish_regs (s : State) (n : TaskId) : (s.finish n).regs = s.regs := by
  unfold finish
  split <;> rfl

theorem signal_unplaced (s : State) (n : TaskId) (x : Task) (hrun : s.running? n .signal = some x)
    (hlocal : x.sgLocal = false) (hplaced : s.placed = false) :
    s.signal n = (s.finish n).dieRecord 0x0406 sevDegraded n.d 0
      [x.sgX * 65536 + x.sgY * 256 + x.sgZ, x.sgDie, x.sgToken] x.epoch (recTask n x) := by
  have hp : (s.finish n).placed = false := by
    rw [placed, flag, getF, getR, finish_regs]
    exact hplaced
  rw [signal, hrun]
  dsimp only
  rw [if_neg (by simp [hlocal, hp]), if_neg (by simp [reachable, hp])]

theorem fence_of_running (s : State) (n : TaskId) (x : Task) (hrun : s.running? n .fence = some x) :
    s.fence n = (s.flushAll ((List.range 12).filter x.feMask.testBit)).finish n := by
  rw [fence, hrun]
  rfl

theorem stack_finish (s : State) (n : TaskId) (m : Nat) : (s.finish n).stack m = s.stack m := by
  unfold finish
  split <;> rfl

theorem finish_rest (s : State) (n : TaskId) : s.finish n = { s with engines := (s.finish n).engines } := by
  unfold finish
  split <;> rfl

end State

/-- Settles O26: each unit looks at one token, whose WAITs are those the hypothesis lists; a FENCE flushes the stacks of
its mask one by one, and a flushed buffer stays empty. -/
theorem tokensWaitsAndFences : Obligations.TokensWaitsAndFences := by
  intro s n x
  refine ⟨fun d k inc hk h => ?_, fun d k inc hk => ?_, fun hrun h w hw => ?_, fun hrun =>
    ⟨fun hlocal hk h => ?_, fun hlocal hplaced => ?_⟩, fun hrun => ?_⟩
  · rw [exec_tokenIncrement, s.tokenIncrement_of_runtime d k _ hk h]
  · rw [exec_tokenIncrement, s.tokenIncrement_of_system d k _ hk, latchEdges_self s]
  · obtain rfl : w = s.passedBy n x := hw
    rw [exec_wait, s.wait_alone n x hrun h]
    refine ⟨fun hpos hkeep => ?_, fun hpos htake => ?_, fun hneg => ?_⟩
    · rw [if_neg (by omega), hkeep, if_neg Bool.false_ne_true]
    · rw [if_neg (by omega), if_pos htake]
    · rw [if_pos hneg, latchEdges_self s]
  · obtain ⟨hx, -⟩ := State.running?_some hrun
    refine ⟨_, exec_signal n s, ?_⟩
    rw [s.signal_local n x hrun hlocal,
      State.tokenIncrement_of_runtime _ _ _ _ hk (s.waitsOn_finish n x hx _ _ h)]
    have hfin := (s.finish_fin n x hx).keeps ((KeepsGraphs.refl _).setF GE_TOKEN_COUNT x.sgDie x.sgToken
      ((s.finish n).getF GE_TOKEN_COUNT x.sgDie x.sgToken + x.sgInc))
    refine ⟨State.AllAt.any ((hfin.latch s).mono fun z hz => by rw [hz]), ?_, ?_⟩
    · rw [State.getF_latch _ _ _ _ _ (by decide), State.getF_setF_self _ _ _ _ _ (by decide)]
      rw [State.getF, State.getR, s.finish_regs]
      rfl
    · refine State.rest_latch ?_
      rw [s.finish_rest n]
      rfl
  · rw [exec_signal, s.signal_unplaced n x hrun hlocal hplaced]
  · obtain ⟨hx, -⟩ := State.running?_some hrun
    have hflushed := s.intoStacks_flushAll ((List.range 12).filter x.feMask.testBit)
    refine ⟨_, exec_fence n s, ?_⟩
    rw [s.fence_of_running n x hrun]
    refine ⟨?_, fun ms hms hbit => ?_, fun ms hms hbit => ?_⟩
    · exact State.AllAt.any (((State.finish_fin _ n x ((hflushed.task? n).trans hx)).latch s).mono fun z hz => by rw [hz])
    · rw [State.stack_latchEdges, State.stack_finish]
      exact State.wcb_flushAll _ _ (List.mem_filter.mpr ⟨List.mem_range.mpr hms, hbit⟩) s
    · rw [State.stack_latchEdges, State.stack_finish]
      exact State.stack_flushAll_ne _ _ (fun hmem => by simp [hbit] at hmem) s

end Sys2Proof.Machine
end

section
/-! What a cancel does (R130): the region is marked, its tasks and their successors are cancelled. -/

namespace Sys2Proof.Machine

/-- The registers of the engines, of the sealer and of the ports' lanes, but for the graphs', that a cancel leaves. -/
def cancelKeeps : List RegName := [.GE_REGION_BUSY, .GE_TOKEN, .COL_RETRACT, .COL_SEAL_STATE, .PORT_STATUS]

theorem mem_guarded_of_cancelKeeps {n : RegName} (h : n ∈ cancelKeeps) : n ∈ guarded := by
  revert h
  cases n <;> simp [cancelKeeps, guarded]

theorem cancellable_guarded (k : RegKey) (v : Word) (hk : k.name ∈ cancelKeeps) :
    Cancellable fun s => s.getR k = v where
  putR s k' w hk' h := by
    rw [State.getR_putR, if_neg (fun he : k' = k => hk' (he ▸ mem_guarded_of_cancelKeeps hk))]
    exact h
  waiting s ms v h := by
    rw [State.getR_setF, if_neg (fun he : CRU_VER_STATUS_WAITING.key ms 0 = k =>
      absurd (he ▸ hk) (by simp [Field.key, CRU_VER_STATUS_WAITING, cancelKeeps]))]
    exact h
  context s ms c v h := by
    rw [State.getR_setF, if_neg (fun he : CRU_ROW_CFG_VALID.key ms c = k =>
      absurd (he ▸ hk) (by simp [Field.key, CRU_ROW_CFG_VALID, cancelKeeps]))]
    exact h
  parts s t h ht := by rw [State.getR, ht.regs]; exact h
  record s a h := by
    rw [s.getR_record_of_name a k (fun hn => by revert hk hn; cases k.name <;> simp [cancelKeeps])]
    exact h
  engine _ _ _ _ h := h
  core _ _ _ h := h
  chan _ _ _ _ h := h
  remaining s d g w h := by
    rw [State.getR_setF, if_neg (fun he : GE_GRAPH_STATUS_REMAINING.key d g = k => absurd (he ▸ hk) (by simp [Field.key, GE_GRAPH_STATUS_REMAINING, cancelKeeps]))]
    exact h
  ended s d g w _ h := by
    rw [State.getR_setF, if_neg (fun he : GE_GRAPH_STATUS_STATE.key d g = k => absurd (he ▸ hk) (by simp [Field.key, GE_GRAPH_STATUS_STATE, cancelKeeps]))]
    exact h
  setTask _ _ _ _ _ _ _ _ h := h

/-- A cancelled task stays one. -/
theorem cancellable_cancelled (n : TaskId) : Cancellable fun s => AllAt s n fun z => z.status = .cancelled :=
  cancellable_of_graphs (fun _ _ hk h => h.keeps hk)
    (fun s m x y hx _ hidx hst h => h.setTask m y hidx fun hm => by
      have hcancelled : x.status = .cancelled :=
        h.2 x (hm ▸ List.mem_of_find?_eq_some hx) (hm ▸ s.idx_of_task? m x hx)
      rcases hst with hst | hst
      · rw [hst, hcancelled]
      · exact hst)
    (fun _ _ _ _ h => h) fun _ _ _ _ _ h => h

namespace State

/-! ### A region's mark -/

theorem regionBusy_setRegionBusy (s : State) (d k : Nat) : (s.setRegionBusy d k true).regionBusy d k = true := by
  have hk : k % 64 < 64 := Nat.mod_lt _ (by decide)
  rw [regionBusy, setRegionBusy, getR_putR, if_pos rfl]
  simp [hk]

theorem slotState_setRegionBusy (s : State) (d k d' g : Nat) : (s.setRegionBusy d k true).slotState d' g = s.slotState d' g :=
  getF_putR_apart _ _ _ _ _ _ _ _ (by decide)

theorem cancelRegion_marks (s : State) (d k : Nat) : (s.cancelRegion d k).regionBusy d k = true := by
  have hguarded := cancellable_guarded ⟨.GE_REGION_BUSY, d, k / 64⟩
    ((s.setRegionBusy d k true).getR ⟨.GE_REGION_BUSY, d, k / 64⟩) (by simp [cancelKeeps])
  have hkept := hguarded.cancelWhere (s := s.setRegionBusy d k true) (d := d) (sel := fun x => decide (x.region = k)) rfl
  rw [regionBusy, cancelRegion, hkept]
  exact s.regionBusy_setRegionBusy d k

theorem liveTasks_setRegionBusy (s : State) (d k : Nat) (sel : Task → Bool) :
    (s.setRegionBusy d k true).liveTasks d sel = s.liveTasks d sel := by
  simp only [liveTasks, slotState_setRegionBusy]
  rfl

theorem regionCancelDone_of_none (s : State) (d k : Nat) (hbusy : s.regionBusy d k = true)
    (h : (s.liveTasks d fun x => decide (x.region = k)) = []) : s.regionCancelDone d k = s.setRegionBusy d k false :=
  if_pos (by rw [hbusy, h]; rfl)

theorem regionCancelDone_of_live (s : State) (d k : Nat) (h : (s.liveTasks d fun x => decide (x.region = k)) ≠ []) :
    s.regionCancelDone d k = s := if_neg (by simp [h])

/-! ### A stopped task, and one more behind it -/

theorem stopTask_frame (s : State) (n : TaskId) (x : Task) : ∃ u, KeepsGraphs s u ∧
    s.stopTask n x = u.setTask n { x with status := .cancelled, started := false, fin := false } :=
  (loose_keepsGraphs s).stopTask_frees (.refl s)

theorem stopTask_cancels (s : State) (n : TaskId) (x : Task) (hx : s.task? n = some x) :
    AllAt (s.stopTask n x) n fun z => z.status = .cancelled := by
  obtain ⟨u, hkeep, heq⟩ := s.stopTask_frame n x
  rw [heq]
  exact (AllAt.put (exists_of_task? ((hkeep.task? n).trans hx))
    { x with status := .cancelled, started := false, fin := false } (s.idx_of_task? n x hx)).mono fun z hz => by rw [hz]

theorem stopTask_other (s : State) (n m : TaskId) (x : Task) (hx : s.task? n = some x)
    (h : m.d ≠ n.d ∨ m.g ≠ n.g ∨ m.idx ≠ n.idx) : (s.stopTask n x).task? m = s.task? m := by
  obtain ⟨u, hkeep, heq⟩ := s.stopTask_frame n x
  rw [heq, task?_setTask_ne u n m { x with status := .cancelled, started := false, fin := false } (s.idx_of_task? n x hx) h]
  exact hkeep.task? m

theorem cancelFrom_stops (k : Nat) (n : TaskId) (l : List TaskId) (s : State) (x : Task) (hx : s.task? n = some x)
    (hlive : x.live = true) (hrun : runsOn x = false) :
    cancelFrom (k + 1) (n :: l) s = cancelFrom k (l ++ x.succ.map fun i => ⟨n.d, n.g, i⟩) (s.stopTask n x) := by
  rw [cancelFrom, hx]
  dsimp only
  rw [if_neg (by simp [hlive]), if_neg (by simp [hrun])]

/-- A task and its one successor cancelled, as far as the work list was given room for both. -/
theorem cancelFrom_pair (k : Nat) (s : State) (n : TaskId) (x y : Task) (i : Nat) (hx : s.task? n = some x)
    (hlive : x.live = true) (hrun : runsOn x = false) (hsucc : x.succ = [i]) (hi : i ≠ n.idx)
    (hy : s.task? ⟨n.d, n.g, i⟩ = some y) (hylive : y.live = true) (hyrun : runsOn y = false) :
    AllAt (cancelFrom (k + 2) [n] s) n (fun z => z.status = .cancelled) ∧
    AllAt (cancelFrom (k + 2) [n] s) ⟨n.d, n.g, i⟩ fun z => z.status = .cancelled := by
  have hfirst := s.stopTask_cancels n x hx
  have hy' := (s.stopTask_other n ⟨n.d, n.g, i⟩ x hx (.inr (.inr hi))).trans hy
  have hsecond := (s.stopTask n x).stopTask_cancels ⟨n.d, n.g, i⟩ y hy'
  rw [cancelFrom_stops (k + 1) n [] s x hx hlive hrun, hsucc, List.nil_append, List.map_cons, List.map_nil,
    cancelFrom_stops k ⟨n.d, n.g, i⟩ [] _ y hy' hylive hyrun]
  exact ⟨(cancellable_cancelled n).cancelFrom k _ _ ((cancellable_cancelled n).stopTask hy' hylive hfirst),
    (cancellable_cancelled ⟨n.d, n.g, i⟩).cancelFrom k _ _ hsecond⟩

theorem cancelFuel_pos (s : State) (d : Nat) : ∃ k, s.cancelFuel d = k + 1 := by
  have hfold : 1 ≤ (s.tasksOf d).foldl (fun n t => n + t.2.succ.length) 1 :=
    List.foldlRecOn (motive := fun n => 1 ≤ n) _ _ le_rfl fun n hn t _ => Nat.le_add_right_of_le hn
  exact ⟨_, (Nat.sub_add_cancel (Nat.le_add_left_of_le hfold)).symm⟩

theorem cancelRegion_cancels (s : State) (d k : Nat) (n : TaskId) (x y : Task) (i : Nat)
    (hlist : (s.liveTasks d fun x => decide (x.region = k)) = [n]) (hx : s.task? n = some x) (hlive : x.live = true)
    (hrun : runsOn x = false) (hsucc : x.succ = [i]) (hi : i ≠ n.idx) (hy : s.task? ⟨n.d, n.g, i⟩ = some y)
    (hylive : y.live = true) (hyrun : runsOn y = false) :
    AllAt (s.cancelRegion d k) n (fun z => z.status = .cancelled) ∧
    AllAt (s.cancelRegion d k) ⟨n.d, n.g, i⟩ fun z => z.status = .cancelled := by
  obtain ⟨fuel, hfuel⟩ := (s.setRegionBusy d k true).cancelFuel_pos d
  obtain ⟨hn, hi'⟩ := cancelFrom_pair fuel (s.setRegionBusy d k true) n x y i hx hlive hrun hsucc hi hy hylive hyrun
  have heq : s.cancelRegion d k =
      ((cancelFrom (fuel + 2) [n] (s.setRegionBusy d k true)).endGraphs d).checkHalted d := by
    rw [cancelRegion, cancelWhere, liveTasks_setRegionBusy, hlist, hfuel]
    rfl
  have hends : ∀ m, AllAt (cancelFrom (fuel + 2) [n] (s.setRegionBusy d k true)) m (fun z => z.status = .cancelled) →
      AllAt (s.cancelRegion d k) m fun z => z.status = .cancelled := fun m hm => by
    rw [heq]
    exact (cancellable_cancelled m).checkHalted ((cancellable_cancelled m).endGraphs hm)
  exact ⟨hends n hn, hends _ hi'⟩

end State
end Sys2Proof.Machine
end

section
/-! Cancels, yield points and core holds (R130, R133, R135, R137): O27. -/

namespace Sys2Proof.Machine

/-! ### The commands -/

theorem exec_cancel (r : Requester) (d : Fin 4) (k : Fin 256) (s : State) (h : s.inReset d = false) :
    exec (.cancel r d k) s = .next (s.latchEdges (s.cancelRegion d k)) := by
  have hreg := s.atReg_dieReg (s.cancelRegion d k) r d 0x18 (by omega)
  rw [if_neg (by simp [h])] at hreg
  exact congrArg (commit s) hreg

theorem exec_cancel_inReset (r : Requester) (d : Fin 4) (k : Fin 256) (s : State) (h : s.inReset d = true) :
    exec (.cancel r d k) s = .next (s.latchEdges (s.accessRecord 0x0102 r (dieReg d 0x18))) := by
  have hreg := s.atReg_dieReg (s.cancelRegion d k) r d 0x18 (by omega)
  rw [if_pos h] at hreg
  exact congrArg (commit s) hreg

theorem exec_regionCancelDone (d : Fin 4) (k : Fin 256) (s : State) :
    exec (.regionCancelDone d k) s = .next (s.latchEdges (s.regionCancelDone d k)) := rfl

theorem exec_yieldPoint (n : TaskId) (s : State) : exec (.yieldPoint n) s = .next (s.latchEdges (s.yieldPoint n)) := rfl

theorem exec_coreHold (r : Requester) (d : Fin 4) (mask : BitVec 32) (s : State) (h : s.inReset d = false) :
    exec (.coreHold r d mask) s = .next (s.latchEdges (s.coreHold d mask.toNat)) := by
  have hreg := s.atReg_dieReg (s.coreHold d mask.toNat) r d 0x28 (by omega)
  rw [if_neg (by simp [h])] at hreg
  exact congrArg (commit s) hreg

theorem exec_coreRelease (r : Requester) (d : Fin 4) (mask : BitVec 32) (s : State) (h : s.inReset d = false) :
    exec (.coreRelease r d mask) s = .next (s.latchEdges (s.coreRelease d mask.toNat)) := by
  have hreg := s.atReg_dieReg (s.coreRelease d mask.toNat) r d 0x30 (by omega)
  rw [if_neg (by simp [h])] at hreg
  exact congrArg (commit s) hreg

namespace State

/-! ### Yield points -/

theorem core_releaseTokens (s : State) (d n k : Nat) : (s.releaseTokens d n).core k = s.core k := by
  unfold releaseTokens
  split
  · rfl
  · rw [core_restate, core_notify, core_setF]

/-- A leave given up leaves the chains of the cores. -/
theorem chain_dropLeave (s : State) (n : TaskId) (x : Task) (d p : Nat) :
    ((s.dropLeave n x).coreAt d p).chain = (s.coreAt d p).chain := by
  unfold dropLeave
  extract_lets e issued s1 s2
  have hcore : ∀ k, s2.core k = s.core k := fun k => by rw [core_releaseTokens, core_setEngine]
  clear_value s2
  split
  · split
    · next q _ =>
      extract_lets c m
      rw [coreAt, core_releaseTokens, setCoreAt, core_setCore]
      split
      · next hk => rw [coreAt, ← hk, ← hcore]; rfl
      · rw [hcore, coreAt]
    · rw [coreAt, coreAt, core_ite, core_releaseTokens, hcore, ite_self]
  · rw [coreAt, coreAt, hcore]

theorem chain_dropFetch (s : State) (n : TaskId) (d p : Nat) :
    ((s.dropFetch d p n).coreAt d p).chain = (s.coreAt d p).chain := by
  rw [dropFetch, coreAt, setCoreAt, core_setCore, if_pos rfl]

/-- The channels of a task given back. -/
def freeChannels (s : State) (n : TaskId) (x : Task) : State :=
  (s.channelsOf n.d x).foldl (fun s k => if (s.chan n.d k).task = some n then s.freeChannel n.d k else s) s

/-- A task stopped on its core, its item noted. -/
def stopOn (s : State) (n : TaskId) (x : Task) (p : Nat) (item : Nat) : State :=
  let c := s.coreAt n.d p
  let t := s.setCoreAt n.d p { c with chain := if c.chain.any (fun (y : Chain) => y.task = n) then none else c.chain }
  (((t.releaseRings n.d p n.g).freeChannels n x).setTask n
    { x with status := .waiting, started := false, item := item }).checkHalted n.d

theorem yieldTask_eq (s : State) (n : TaskId) (x : Task) (p : Nat) (hcore : x.core = some p)
    (hchain : (s.coreAt n.d p).chain = none) :
    s.yieldTask n x = ((s.dropLeave n x).dropFetch n.d p n).stopOn n x p x.item := by
  have hnone : (((s.dropLeave n x).dropFetch n.d p n).coreAt n.d p).chain = none := by
    rw [chain_dropFetch, chain_dropLeave, hchain]
  rw [yieldTask, hcore]
  dsimp only
  generalize (s.dropLeave n x).dropFetch n.d p n = t at hnone ⊢
  rw [stopOn, hnone]
  dsimp only
  rw [hcore]
  rfl

theorem stopOn_task (s : State) (n : TaskId) (x : Task) (p item : Nat) (h : AllAt s n fun _ => True) (hx : x.idx = n.idx) :
    AllAt (s.stopOn n x p item) n (· = { x with status := .waiting, started := false, item := item }) := by
  have hP := loose_keepsGraphs s
  unfold stopOn
  extract_lets c t
  have hfreed : KeepsGraphs s ((t.releaseRings n.d p n.g).freeChannels n x) :=
    Stable.foldl (hP.releaseRings (hP.setCore (.refl s))) fun _ _ h => Stable.ifEither (hP.freeChannel h) h
  have hput := AllAt.put (h.keeps hfreed).1 { x with status := .waiting, started := false, item := item } hx
  exact hput.keeps ((loose_keepsGraphs _).checkHalted (.refl _))

theorem yieldTask_task (s : State) (n : TaskId) (x : Task) (p : Nat) (hx : s.task? n = some x) (hcore : x.core = some p)
    (hchain : (s.coreAt n.d p).chain = none) :
    AllAt (s.yieldTask n x) n (· = { x with status := .waiting, started := false }) := by
  have hP := loose_keepsGraphs s
  rw [s.yieldTask_eq n x p hcore hchain]
  have hlisted : AllAt ((s.dropLeave n x).dropFetch n.d p n) n fun _ => True :=
    AllAt.keeps (s := s) ⟨exists_of_task? hx, fun _ _ _ => trivial⟩ (hP.dropFetch (hP.dropLeave (.refl s)))
  exact stopOn_task _ n x p x.item hlisted (s.idx_of_task? n x hx)

theorem yieldPoint_of_alone (s : State) (n : TaskId) (x : Task) (hx : s.task? n = some x) (hst : x.status = .dispatched)
    (hstarted : x.started = true) (hfin : x.fin = false) (hyields : x.yields = true) (hstop : x.stopAtYield = false)
    (hpre : s.preempted n x = false) : s.yieldPoint n = s := by
  rw [yieldPoint, hx]
  exact if_pos (by simp [hst, hstarted, hfin, hyields, hstop, hpre])

theorem yieldPoint_of_preempted (s : State) (n : TaskId) (x : Task) (p : Nat) (hx : s.task? n = some x)
    (hst : x.status = .dispatched) (hstarted : x.started = true) (hfin : x.fin = false) (hyields : x.yields = true)
    (hstop : x.stopAtYield = false) (hpre : s.preempted n x = true) (hcore : x.core = some p)
    (hchain : (s.coreAt n.d p).chain = none) : s.yieldPoint n = s.yieldTask n x := by
  have hbind : (x.core.bind fun p => (s.coreAt n.d p).chain.map fun y => (p, y)) = none := by
    rw [hcore, Option.bind_some, hchain, Option.map_none]
  rw [yieldPoint, hx]
  dsimp only
  rw [if_neg (by simp [hst, hstarted, hfin, hyields, hpre]), hbind]
  dsimp only
  rw [if_neg (by simp [hstop])]

/-! ### Core holds -/

/-- Nothing but registers, cores and the light layer differs, and the holds stay. -/
def KeepsHolds (s t : State) : Prop :=
  t = { s with regs := t.regs, cores := t.cores, light := t.light } ∧
  ∀ d, t.getF GE_CORE_HOLD_HOLD d 0 = s.getF GE_CORE_HOLD_HOLD d 0

theorem KeepsHolds.trans {s t u : State} (h : KeepsHolds s t) (h2 : KeepsHolds t u) : KeepsHolds s u := by
  obtain ⟨hrest, hhold⟩ := h
  obtain ⟨hrest2, hhold2⟩ := h2
  refine ⟨?_, fun d => (hhold2 d).trans (hhold d)⟩
  rw [hrest2, hrest]

theorem keepsHolds_releaseTokens (s : State) (d n : Nat) : KeepsHolds s (s.releaseTokens d n) := by
  unfold releaseTokens
  split
  · exact ⟨rfl, fun _ => rfl⟩
  · refine ⟨?_, fun k => ?_⟩
    · rw [restate_eq]
      rfl
    · rw [getF_restate _ _ _ _ (by decide), getF_notify, getF_setF_apart _ _ _ _ _ _ _ _ (by decide)]

theorem keepsHolds_releaseKept (s : State) (d p : Nat) : KeepsHolds s (s.releaseKept d p) := by
  unfold releaseKept
  extract_lets c need
  split
  · exact ⟨rfl, fun _ => rfl⟩
  · exact KeepsHolds.trans (t := s.setCoreAt d p { c with held := need }) ⟨rfl, fun _ => rfl⟩ (keepsHolds_releaseTokens _ d _)

/-- Latching keeps a statement that only registers, cores and the light layer differ. -/
theorem cores_latch {s t : State} (h : t = { s with regs := t.regs, cores := t.cores, light := t.light }) :
    s.latchEdges t = { s with
      regs := (s.latchEdges t).regs, cores := (s.latchEdges t).cores, light := (s.latchEdges t).light } := by
  rw [latchEdges_cores, latchEdges_light, latchEdges_eq, h]

/-- A held core gives up what it keeps. -/
def giveUpKept (s : State) (d c : Nat) : State :=
  match s.physOf d c with
  | some p => s.releaseKept d p
  | none => s

theorem keepsHolds_giveUpKept (s : State) (d c : Nat) : KeepsHolds s (s.giveUpKept d c) := by
  unfold giveUpKept
  split
  · exact s.keepsHolds_releaseKept d _
  · exact ⟨rfl, fun _ => rfl⟩

theorem coreHold_eq (s : State) (d m : Nat) : s.coreHold d m = ((List.range 32).filter m.testBit).foldl
    (fun s c => s.giveUpKept d c) (s.setF GE_CORE_HOLD_HOLD d 0 (s.getF GE_CORE_HOLD_HOLD d 0 ||| m)) := rfl

theorem coreHold_reads (s : State) (d : Nat) (mask : BitVec 32) :
    s.coreHold d mask.toNat = { s with
      regs := (s.coreHold d mask.toNat).regs
      cores := (s.coreHold d mask.toNat).cores
      light := (s.coreHold d mask.toNat).light } ∧
    (s.coreHold d mask.toNat).getF GE_CORE_HOLD_HOLD d 0 = s.getF GE_CORE_HOLD_HOLD d 0 ||| mask.toNat := by
  rw [coreHold_eq]
  generalize hm : s.getF GE_CORE_HOLD_HOLD d 0 ||| mask.toNat = m
  have hlt : m < 2 ^ 32 := hm ▸ Nat.or_lt_two_pow (Field.get_lt ..) mask.isLt
  obtain ⟨hrest, hhold⟩ : KeepsHolds (s.setF GE_CORE_HOLD_HOLD d 0 m) (((List.range 32).filter mask.toNat.testBit).foldl
      (fun s c => s.giveUpKept d c) (s.setF GE_CORE_HOLD_HOLD d 0 m)) :=
    List.foldlRecOn (motive := fun u => KeepsHolds _ u) _ _ ⟨rfl, fun _ => rfl⟩ fun u hu c _ =>
      hu.trans (u.keepsHolds_giveUpKept d c)
  refine ⟨hrest, ?_⟩
  rw [hhold, getF_setF_self _ _ _ _ _ (by decide)]
  exact Nat.mod_eq_of_lt hlt

/-! ### Core releases -/

theorem testBit_clearAll (m : Nat) : ∀ (h j : Nat), (h - (h &&& m)).testBit j = (h.testBit j && !m.testBit j) := by
  intro h j
  induction j generalizing h m with
  | zero =>
    have hle : h &&& m ≤ h := Nat.and_le_left
    have hlow : (h &&& m) % 2 = if h % 2 = 1 ∧ m % 2 = 1 then 1 else 0 := by
      rw [Nat.and_mod_two_pow (n := 1)]
      rcases Nat.mod_two_eq_zero_or_one h with hh | hh <;> rcases Nat.mod_two_eq_zero_or_one m with hm | hm <;>
        simp [hh, hm]
    have hbit : (h - (h &&& m)) % 2 = 1 ↔ h % 2 = 1 ∧ ¬ m % 2 = 1 := by
      split at hlow <;> omega
    simp only [Nat.testBit_zero, hbit, Bool.decide_and, decide_not]
  | succ j ih =>
    have hle : h / 2 &&& m / 2 ≤ h / 2 := Nat.and_le_left
    have hhalf : (h &&& m) / 2 = h / 2 &&& m / 2 := Nat.and_div_two
    have hlow : (h &&& m) % 2 ≤ h % 2 := by
      rw [Nat.and_mod_two_pow (n := 1)]
      exact Nat.and_le_left
    have hdiv : ∀ z w, z / 2 = w → w ≤ h / 2 → z % 2 ≤ h % 2 → (h - z) / 2 = h / 2 - w := by omega
    rw [Nat.testBit_succ, hdiv _ _ hhalf hle hlow, ih, Nat.testBit_succ, Nat.testBit_succ]

theorem schedOf_setSched (s : State) (d c k : Nat) (x : Sched) :
    (s.setSched d c x).schedOf d k = if c = k then x else s.schedOf d k := by
  rw [schedOf, setSched, engine_setEngine, if_pos rfl]
  exact Tab.getN_putN ..

/-- A test hold that a failure left, ended. -/
def endFailedHold (s : State) (d c : Nat) : State := s.setSched d c { s.schedOf d c with failedHold := false }

theorem endFailedHolds_reads (s : State) (d : Nat) (l : List Nat) :
    (l.foldl (fun s c => s.endFailedHold d c) s).regs = s.regs ∧
    (l.foldl (fun s c => s.endFailedHold d c) s) =
      { s with engines := (l.foldl (fun s c => s.endFailedHold d c) s).engines } :=
  List.foldlRecOn (motive := fun u : State => u.regs = s.regs ∧ u = { s with engines := u.engines }) _ _ ⟨rfl, rfl⟩
    fun u ⟨hregs, hrest⟩ c _ => ⟨hregs, by
      conv_lhs => rw [hrest]
      rfl⟩

theorem endFailedHolds_other (s : State) (d c : Nat) (l : List Nat) (h : c ∉ l) :
    (l.foldl (fun s c => s.endFailedHold d c) s).schedOf d c = s.schedOf d c :=
  List.foldlRecOn (motive := fun u : State => u.schedOf d c = s.schedOf d c) _ _ rfl fun u hu k hk => by
    rw [endFailedHold, schedOf_setSched, if_neg (fun he : k = c => h (he ▸ hk)), hu]

theorem endFailedHolds_ends (d c : Nat) (l : List Nat) (h : c ∈ l) : ∀ s : State,
    ((l.foldl (fun s c => s.endFailedHold d c) s).schedOf d c).failedHold = false := by
  induction l with
  | nil => exact absurd h List.not_mem_nil
  | cons k l ih =>
    intro s
    rw [List.foldl_cons]
    by_cases hl : c ∈ l
    · exact ih hl _
    · obtain rfl := (List.mem_cons.mp h).resolve_right hl
      rw [endFailedHolds_other _ d c l hl, endFailedHold, schedOf_setSched, if_pos rfl]

theorem coreRelease_eq (s : State) (d : Nat) (m : Nat) : s.coreRelease d m =
    ((List.range 32).filter m.testBit).foldl (fun s c => s.endFailedHold d c)
      (s.setF GE_CORE_HOLD_HOLD d 0 (s.getF GE_CORE_HOLD_HOLD d 0 - (s.getF GE_CORE_HOLD_HOLD d 0 &&& m))) := rfl

theorem coreRelease_reads (s : State) (d : Nat) (mask : BitVec 32) :
    s.coreRelease d mask.toNat = { s with
      regs := (s.coreRelease d mask.toNat).regs
      engines := (s.coreRelease d mask.toNat).engines } ∧
    Kept (· = ⟨.GE_CORE_HOLD, d, 0⟩) s (s.coreRelease d mask.toNat) ∧
    ∀ c < 32, ((s.coreRelease d mask.toNat).forgeHeld d c = (s.forgeHeld d c && !mask.getLsbD c)) ∧
      (mask.getLsbD c = true → ((s.coreRelease d mask.toNat).schedOf d c).failedHold = false) ∧
      (mask.getLsbD c = false → (s.coreRelease d mask.toNat).schedOf d c = s.schedOf d c) := by
  rw [coreRelease_eq]
  generalize hm : s.getF GE_CORE_HOLD_HOLD d 0 - (s.getF GE_CORE_HOLD_HOLD d 0 &&& mask.toNat) = m
  obtain ⟨hregs, hrest⟩ := (s.setF GE_CORE_HOLD_HOLD d 0 m).endFailedHolds_reads d ((List.range 32).filter mask.toNat.testBit)
  have hbit : ∀ c, mask.toNat.testBit c = mask.getLsbD c := fun c => BitVec.testBit_toNat mask
  refine ⟨?_, ?_, fun c hc => ⟨?_, fun hset => ?_, fun hclear => ?_⟩⟩
  · conv_lhs => rw [hrest]
    rw [hregs]
    rfl
  · exact .trans_regs (((Kept.refl _ s)).setF GE_CORE_HOLD_HOLD d 0 m rfl (by decide)) hregs
  · have hread : ∀ t : State, t.regs = (s.setF GE_CORE_HOLD_HOLD d 0 m).regs → t.forgeHeld d c = (m % 2 ^ 32).testBit c :=
      fun t ht => by
        rw [forgeHeld, getF, getR, ht]
        exact congrArg (Nat.testBit · c) (getF_setF_self s GE_CORE_HOLD_HOLD d 0 m (by decide))
    rw [hread _ hregs, Nat.testBit_mod_two_pow, ← hm, testBit_clearAll, hbit, forgeHeld]
    simp [hc]
  · exact endFailedHolds_ends d c _ (List.mem_filter.mpr ⟨List.mem_range.mpr hc, (hbit c).trans hset⟩) _
  · exact endFailedHolds_other _ d c _ fun hmem => by simp [hbit, hclear] at hmem

end State

/-- Settles O27: a cancel's work list has room for the region's task and its successor, and no later step of it revives
a cancelled task; a preempted task is put back as it waits; a released hold is a bit cleared. -/
theorem cancelsAndYieldPoints : Obligations.CancelsAndYieldPoints := by
  intro s r d k sel hsel
  obtain rfl : sel = fun x => decide (x.region = k.val) := funext hsel
  refine ⟨fun h => ⟨_, exec_cancel r d k s h, ?_, fun n x i y hlist hx _ hlive hrun hsucc hi hy hylive hyrun _ => ?_⟩,
    exec_cancel_inReset r d k s, fun hbusy hnone => ?_, fun hlive => ?_, fun n x hx hst hstarted hfin hyields hstop =>
      ⟨fun hpre => ?_, fun p hpre hcore hchain => ?_⟩, fun mask h => ⟨?_, ?_⟩⟩
  · rw [State.regionBusy, State.getR_latch _ _ _ _ _ (by simp)]
    exact s.cancelRegion_marks d k
  · obtain ⟨hn, hi⟩ := s.cancelRegion_cancels d k n x y i hlist hx hlive hrun hsucc hi hy hylive hyrun
    exact ⟨State.AllAt.any ((hn.latch s).mono fun z hz => by simp [hz]),
      State.AllAt.any ((hi.latch s).mono fun z hz => by simp [hz])⟩
  · rw [exec_regionCancelDone, s.regionCancelDone_of_none d k hbusy hnone]
  · rw [exec_regionCancelDone, s.regionCancelDone_of_live d k hlive, latchEdges_self s]
  · rw [exec_yieldPoint, s.yieldPoint_of_alone n x hx hst hstarted hfin hyields hstop hpre, latchEdges_self s]
  · refine ⟨_, exec_yieldPoint n s, ?_⟩
    rw [s.yieldPoint_of_preempted n x p hx hst hstarted hfin hyields hstop hpre hcore hchain]
    obtain ⟨y, hy, rfl⟩ := ((s.yieldTask_task n x p hx hcore hchain).latch s).task?
    exact hy
  · obtain ⟨hrest, hhold⟩ := s.coreHold_reads d mask
    refine ⟨_, exec_coreHold r d mask s h, ?_, ?_⟩
    · exact State.cores_latch hrest
    · rw [State.getF_latch _ _ _ _ _ (by decide), hhold]
  · obtain ⟨hrest, hkept, hcores⟩ := s.coreRelease_reads d mask
    refine ⟨_, exec_coreRelease r d mask s h, State.rest_latch hrest, hkept.latch s, fun c hc => ?_⟩
    obtain ⟨hheld, hset, hclear⟩ := hcores c hc
    have hsched : (s.latchEdges (s.coreRelease d mask.toNat)).schedOf d c = (s.coreRelease d mask.toNat).schedOf d c := by
      rw [State.schedOf, State.engine_latchEdges, State.schedOf]
    rw [State.forgeHeld, State.getF_latch _ _ _ _ _ (by decide), hsched]
    exact ⟨hheld, hset, hclear⟩

end Sys2Proof.Machine
end

section
/-! Registers alone changed: how such changes compose. Cores, their tiles and their accumulators: reads after writes. -/

namespace Sys2Proof.Machine

/-- `t` is `s` but for its registers. -/
def RegsOnly (s t : State) : Prop := ∃ r, t = { s with regs := r }

namespace RegsOnly

variable {s t u : State}

theorem refl (s : State) : RegsOnly s s := ⟨_, rfl⟩

theorem trans (h : RegsOnly s t) (h2 : RegsOnly t u) : RegsOnly s u := by
  obtain ⟨_, rfl⟩ := h
  obtain ⟨_, rfl⟩ := h2
  exact ⟨_, rfl⟩

theorem putR (h : RegsOnly s t) (k : RegKey) (v : Word) : RegsOnly s (t.putR k v) := h.trans ⟨_, rfl⟩
theorem setF (h : RegsOnly s t) (f : Field) (i j v : Nat) : RegsOnly s (t.setF f i j v) := h.trans ⟨_, rfl⟩
theorem addF (h : RegsOnly s t) (f : Field) (i j v : Nat) : RegsOnly s (t.addF f i j v) := h.trans ⟨_, rfl⟩

theorem ifThen {p : Prop} [Decidable p] (h : RegsOnly s t) (hu : RegsOnly s u) : RegsOnly s (if p then t else u) := by
  split; exacts [h, hu]

theorem foldl {α : Type} (h : RegsOnly s t) (f : State → α → State) (hf : ∀ v x, RegsOnly v (f v x)) (l : List α) :
    RegsOnly s (l.foldl f t) :=
  List.foldlRecOn (motive := fun v => RegsOnly s v) _ _ h fun v hv x _ => hv.trans (hf v x)

theorem latch (h : RegsOnly s t) (v : State) : RegsOnly s (v.latchEdges t) := by
  rw [State.latchEdges_eq]
  exact h.trans ⟨_, rfl⟩

theorem enterCounts (h : RegsOnly s t) (d slot e : Nat) (x : SlotDelta) : RegsOnly s (t.enterCounts d slot e x) := by
  refine ifThen h (h.trans ?_)
  have hbank : RegsOnly t (if !t.flag (bankNonempty (e % 2)) d 0 then
      (t.setF (bankNonempty (e % 2)) d 0 1).setF (bankTag (e % 2)) d 0 e
      else if t.getF (bankTag (e % 2)) d 0 ≠ e then t.setF (bankMixed (e % 2)) d 0 1 else t) :=
    ifThen (((refl t).setF ..).setF ..) (ifThen ((refl t).setF ..) (refl t))
  exact (((hbank.putR ..).putR ..).putR ..).putR ..

end RegsOnly

namespace State

/-- Latching keeps a statement that only registers and cores differ. -/
theorem array_latch {s t : State} (h : t = { s with regs := t.regs, cores := t.cores }) :
    s.latchEdges t = { s with regs := (s.latchEdges t).regs, cores := (s.latchEdges t).cores } := by
  rw [latchEdges_cores, latchEdges_eq, h]

theorem coreAt_latchEdges (s t : State) (d p : Nat) : (s.latchEdges t).coreAt d p = t.coreAt d p := by
  rw [coreAt, core, latchEdges_cores, coreAt, core]

theorem coreAt_setCoreAt (s : State) (d p q : Nat) (c : CoreSt) :
    (s.setCoreAt d p c).coreAt d q = if p = q then c else s.coreAt d q := by
  rw [coreAt, setCoreAt, core_setCore]
  by_cases h : p = q
  · rw [if_pos h, if_pos (by rw [h])]
  · rw [if_neg h, if_neg (by omega), coreAt]

theorem coreAt_setCoreAt_self (s : State) (d p : Nat) (c : CoreSt) : (s.setCoreAt d p c).coreAt d p = c := by
  rw [coreAt_setCoreAt, if_pos rfl]

/-! ### Accumulator entries (R87) -/

theorem accAt_setAcc (s : State) (d p i j : Nat) (v : F32) :
    (s.setAcc d p i v).accAt d p j = if i = j then v else s.accAt d p j := by
  rw [accAt, setAcc, coreAt_setCoreAt_self, Tab.getN_putN]
  by_cases h : i = j
  · rw [if_pos h, if_pos h]
  · rw [if_neg h, if_neg h, accAt]

/-- `t` is `s` but for accumulator entries of one core. -/
def AccOnly (d p : Nat) (s t : State) : Prop :=
  (∃ c, t = { s with cores := c }) ∧ (∀ q, q ≠ p → t.coreAt d q = s.coreAt d q) ∧
  (t.coreAt d p).foot = (s.coreAt d p).foot ∧ (t.coreAt d p).tiles = (s.coreAt d p).tiles

theorem AccOnly.refl (d p : Nat) (s : State) : AccOnly d p s s := ⟨⟨_, rfl⟩, fun _ _ => rfl, rfl, rfl⟩

theorem AccOnly.setAcc {d p : Nat} {s t : State} (h : AccOnly d p s t) (i : Nat) (v : F32) :
    AccOnly d p s (t.setAcc d p i v) := by
  obtain ⟨⟨c, hrest⟩, hother, hfoot, htiles⟩ := h
  refine ⟨⟨_, by rw [hrest]; rfl⟩, fun q hq => ?_, ?_, ?_⟩
  · rw [State.setAcc, coreAt_setCoreAt, if_neg (Ne.symm hq), hother q hq]
  · rw [State.setAcc, coreAt_setCoreAt_self, hfoot]
  · rw [State.setAcc, coreAt_setCoreAt_self, htiles]

/-- The entries of element `n` of a token: of a pair two. -/
def holds (b : Bound) (m n j : Nat) : Prop := j = b.entry m n ∨ b.pair = true ∧ j = b.entry m n + 1

theorem holds_unique {b : Bound} {m n k j : Nat} (hn : holds b m n j) (hk : holds b m k j) : n = k := by
  unfold holds Bound.entry at hn hk
  cases hpair : b.pair <;> simp only [hpair] at hn hk <;> simp at hn hk <;> omega

section
variable (d p : Nat) (b : Bound) (h : Hand)

theorem accOnly_handElem (s t : State) (n : Nat) (hs : AccOnly d p s t) : AccOnly d p s (handElem d p b h [] t n) := by
  unfold handElem
  extract_lets i x hi r
  split
  · split
    · exact (hs.setAcc i r.2).setAcc (i + 1) r.1
    · exact (hs.setAcc i 0).setAcc (i + 1) x
  · split
    · exact hs.setAcc i _
    · exact hs.setAcc i x

theorem handElem_apart (s : State) (n j : Nat) (hj : ¬ holds b h.m n j) :
    (handElem d p b h [] s n).accAt d p j = s.accAt d p j := by
  have hlo : ¬ b.entry h.m n = j := fun he => hj (.inl he.symm)
  unfold handElem
  extract_lets i x hi r
  split
  · next hpair =>
    have hhi : ¬ b.entry h.m n + 1 = j := fun he => hj (.inr ⟨hpair, he.symm⟩)
    split <;> rw [accAt_setAcc, if_neg hhi, accAt_setAcc, if_neg hlo]
  · split <;> rw [accAt_setAcc, if_neg hlo]

/-- What an element takes depends on its own entries alone. -/
theorem handElem_congr (s t : State) (n j : Nat) (hj : holds b h.m n j)
    (heq : ∀ i, holds b h.m n i → t.accAt d p i = s.accAt d p i) :
    (handElem d p b h [] t n).accAt d p j = (handElem d p b h [] s n).accAt d p j := by
  unfold handElem
  dsimp only [eccBad, List.any_nil, Bool.false_or]
  split
  · next hpair =>
    rw [heq _ (.inl rfl), heq _ (.inr ⟨hpair, rfl⟩)]
    split
    · simp only [accAt_setAcc]
      grind [holds]
    · simp only [accAt_setAcc]
      grind [holds]
  · next hpair =>
    obtain rfl : j = b.entry h.m n := by simpa [holds, hpair] using hj
    rw [heq _ (.inl rfl)]
    split <;> rw [accAt_setAcc, accAt_setAcc, if_pos rfl, if_pos rfl]

/-- Elements handed over in turn, no entry found in error. -/
def handElems (s : State) (l : List Nat) : State := l.foldl (handElem d p b h []) s

theorem accOnly_handElems (s : State) (l : List Nat) : AccOnly d p s (handElems d p b h s l) :=
  List.foldlRecOn (motive := fun t => AccOnly d p s t) _ _ (.refl d p s) fun t ht n _ => accOnly_handElem d p b h s t n ht

theorem handElems_apart (s : State) (l : List Nat) (j : Nat) (hj : ∀ n ∈ l, ¬ holds b h.m n j) :
    (handElems d p b h s l).accAt d p j = s.accAt d p j :=
  List.foldlRecOn (motive := fun t : State => t.accAt d p j = s.accAt d p j) _ _ rfl fun t ht n hn =>
    (handElem_apart d p b h t n j (hj n hn)).trans ht

/-- Each element of the list takes what it would take alone. -/
theorem handElems_takes (l : List Nat) (hl : l.Nodup) (n j : Nat) (hn : n ∈ l) (hj : holds b h.m n j) : ∀ s : State,
    (handElems d p b h s l).accAt d p j = (handElem d p b h [] s n).accAt d p j := by
  induction l with
  | nil => exact absurd hn List.not_mem_nil
  | cons k l ih =>
    intro s
    obtain ⟨hk, hl⟩ := List.nodup_cons.mp hl
    have hstep : handElems d p b h s (k :: l) = handElems d p b h (handElem d p b h [] s k) l := rfl
    rw [hstep]
    by_cases hnk : n = k
    · subst hnk
      exact handElems_apart d p b h _ l j fun i hi hij => hk (holds_unique hij hj ▸ hi)
    · rw [ih hl ((List.mem_cons.mp hn).resolve_left hnk)]
      exact handElem_congr d p b h s _ n j hj fun i hi =>
        handElem_apart d p b h s k i fun hki => hnk (holds_unique hi hki)

theorem eccBad_nil (i : Nat) : eccBad [] i = false := rfl

theorem handElem_single (s : State) (n : Nat) (hpair : b.pair = false) :
    (handElem d p b h [] s n).accAt d p (b.entry h.m n) =
      if h.add then fadd (s.accAt d p (b.entry h.m n)) (h.sums.getD n 0) else h.sums.getD n 0 := by
  simp only [handElem, hpair, eccBad_nil, Bool.false_eq_true, if_false]
  split <;> rw [accAt_setAcc, if_pos rfl]

theorem handElem_pair_write (s : State) (n : Nat) (hpair : b.pair = true) (hadd : h.add = false) :
    (handElem d p b h [] s n).accAt d p (b.entry h.m n) = 0 ∧
    (handElem d p b h [] s n).accAt d p (b.entry h.m n + 1) = h.sums.getD n 0 := by
  rw [handElem]
  dsimp only
  rw [if_pos hpair, if_neg (by simp [hadd])]
  exact ⟨by rw [accAt_setAcc, if_neg (by omega), accAt_setAcc, if_pos rfl], by rw [accAt_setAcc, if_pos rfl]⟩

theorem handElem_pair_add (s : State) (n : Nat) (hpair : b.pair = true) (hadd : h.add = true) (y : F32 × F32)
    (hy : y = pairAdd (s.accAt d p (b.entry h.m n + 1)) (s.accAt d p (b.entry h.m n)) (h.sums.getD n 0)) :
    (handElem d p b h [] s n).accAt d p (b.entry h.m n + 1) = y.1 ∧
    (handElem d p b h [] s n).accAt d p (b.entry h.m n) = y.2 := by
  simp only [handElem, hpair, hadd, eccBad_nil, Bool.or_self, Bool.false_eq_true, if_true, if_false, ← hy]
  exact ⟨by rw [accAt_setAcc, if_pos rfl], by rw [accAt_setAcc, if_neg (by omega), accAt_setAcc, if_pos rfl]⟩

end

end State
end Sys2Proof.Machine
end

section
/-! Tiles, tokens and their sums (R33, R36 to R40, R92 to R94): O31. -/

namespace Sys2Proof.Machine

theorem exec_shadowLoad (n : TaskId) (s : State) : exec (.shadowLoad n) s = .next (s.latchEdges (s.shadowLoad n)) := rfl

theorem exec_tileSwap (d : Fin 4) (p : Fin 34) (s : State) :
    exec (.tileSwap d p) s = .next (s.latchEdges (s.tileSwap d p)) := rfl

theorem exec_matmul (n : TaskId) (s : State) : exec (.matmul n) s = .next (s.latchEdges (s.matmul n)) := rfl

theorem exec_handOver (d : Fin 4) (p : Fin 34) (ecc : List EntryEcc) (s : State) :
    exec (.handOver d p ecc) s = .next (s.latchEdges (s.handOver d p ecc)) := rfl

namespace State

/-! ### The shadow tile loaded (R33, R36) -/

theorem regsOnly_showShadow (s : State) (d p : Nat) : RegsOnly s (s.showShadow d p) :=
  (((RegsOnly.refl s).setF ..).setF ..).putR ..

theorem showShadow_valid (s : State) (d p : Nat) (h : (s.coreAt d p).shadow.valid = true) :
    (s.showShadow d p).flag CORE_ARRAY_STATUS_SHADOW_VALID (d * 34 + p) 0 = true := by
  rw [flag, showShadow, getF_putR_apart _ _ _ _ _ _ _ _ (by decide), getF_setF_apart _ _ _ _ _ _ _ _ (by decide),
    getF_setF_self _ _ _ _ _ (by decide), h]
  rfl

/-- A core with the tile of a MATMUL in its shadow registers. -/
def loadedCore (s : State) (d p : Nat) (n : TaskId) (x : Task) : CoreSt :=
  let c := s.coreAt d p
  let k := 64 * ((linesNeeded (x.wRows ++ x.wScaleRows)).filter fun l => !s.ownScratch d p (64 * l)).length
  { c with
    shadow := s.loadTile d p n x
    resv := c.resv.map fun r => if r.task = n then { r with bytes := r.bytes - min k r.bytes } else r }

theorem shadowLoad_of_next (s : State) (d p : Nat) (n : TaskId) (x : Task) (hd : n.d = d) (hx : s.task? n = some x)
    (hcore : x.core = some p) (hfree : (s.coreAt d p).shadow.valid = false)
    (hnext : (s.loadNext d p).any (fun y => y.1 = n) = true) (hmay : s.mayFetch n x = true)
    (hfetched : s.fetched d p n x = true) :
    s.shadowLoad n = (s.setCoreAt d p (s.loadedCore d p n x)).showShadow d p := by
  subst hd
  rw [shadowLoad, hx]
  dsimp only
  rw [hcore]
  dsimp only
  rw [if_pos (by rw [hfree, hnext, hmay, hfetched]; rfl)]
  rfl

theorem shadowLoad_reads (s : State) (d p : Nat) (n : TaskId) (x : Task) :
    ∃ r, (s.setCoreAt d p (s.loadedCore d p n x)).showShadow d p =
      { s with regs := r, cores := (s.setCoreAt d p (s.loadedCore d p n x)).cores } := by
  obtain ⟨r, h⟩ := (s.setCoreAt d p (s.loadedCore d p n x)).regsOnly_showShadow d p
  exact ⟨r, h⟩

/-! ### The swap (R40) -/

theorem regsOnly_showActive (s : State) (d p : Nat) : RegsOnly s (s.showActive d p) := ((RegsOnly.refl s).setF ..).putR ..

/-- What a swap shows after the tiles were counted and exchanged. -/
def showSwap (s : State) (d p : Nat) (w : WTile) : State :=
  let k := d * 34 + p
  let t := ((s.showActive d p).setF CORE_ARRAY_STATUS_SHADOW_VALID k 0 0).setF CORE_ARRAY_STATUS_SHADOW_MODE k 0 (min w.mode 3)
  let r := t.getR ⟨.CORE_ARRAY_CODEBOOK, k, 0⟩
  t.putR ⟨.CORE_ARRAY_CODEBOOK, k, 0⟩ (BitVec.ofNat 64 (w.codebook * 65536 + r.toNat % 65536))

theorem regsOnly_showSwap (s : State) (d p : Nat) (w : WTile) : RegsOnly s (s.showSwap d p w) :=
  (((s.regsOnly_showActive d p).setF ..).setF ..).putR ..

/-- The bubble and the tile counted. -/
def countSwap (s : State) (d p : Nat) : State :=
  let w := (s.coreAt d p).active
  (if w.valid then s.addF CORE_ARRAY_CYC_BUBBLE_COUNT (d * 34 + p) 0 (bubble w.mode) else s).addF CORE_ARRAY_TILES_COUNT
    (d * 34 + p) 0 1

theorem regsOnly_countSwap (s : State) (d p : Nat) : RegsOnly s (s.countSwap d p) :=
  (RegsOnly.ifThen ((RegsOnly.refl s).addF ..) (RegsOnly.refl s)).addF ..

theorem swapTiles_eq (s : State) (d p : Nat) : s.swapTiles d p =
    ((s.countSwap d p).setCoreAt d p
      { s.coreAt d p with active := (s.coreAt d p).shadow, shadow := {} }).showSwap d p (s.coreAt d p).active := rfl

theorem showSwap_reads (s : State) (d p : Nat) (w : WTile) :
    (s.showSwap d p w).flag CORE_ARRAY_STATUS_SHADOW_VALID (d * 34 + p) 0 = false ∧
    (s.showSwap d p w).getF CORE_ARRAY_TILES_COUNT (d * 34 + p) 0 = s.getF CORE_ARRAY_TILES_COUNT (d * 34 + p) 0 := by
  unfold showSwap
  dsimp only
  constructor
  · rw [flag, getF_putR_apart _ _ _ _ _ _ _ _ (by decide), getF_setF_apart _ _ _ _ _ _ _ _ (by decide),
      getF_setF_self _ _ _ _ _ (by decide)]
    rfl
  · rw [getF_putR_apart _ _ _ _ _ _ _ _ (by decide), getF_setF_apart _ _ _ _ _ _ _ _ (by decide),
      getF_setF_apart _ _ _ _ _ _ _ _ (by decide), showActive, getF_putR_apart _ _ _ _ _ _ _ _ (by decide), getF_setF_apart _ _ _ _ _ _ _ _ (by decide)]

theorem countSwap_reads (s : State) (d p : Nat) : (s.countSwap d p).getF CORE_ARRAY_TILES_COUNT (d * 34 + p) 0 =
    min (s.getF CORE_ARRAY_TILES_COUNT (d * 34 + p) 0 + 1) (2 ^ 64 - 1) := by
  rw [countSwap, getF_addF_same _ _ _ _ _ (by decide)]
  split
  · rw [getF_addF_apart _ _ _ _ _ _ _ _ (by decide)]
    rfl
  · rfl

/-! ### Tokens entering (R38, R94) -/

/-- The counts of a pass. -/
def countPass (s : State) (d p : Nat) (x : Task) (out : List (Hand × SlotDelta)) (k : Nat) : State :=
  (out.foldl (fun s o => s.enterCounts d x.mmXSlot x.epoch o.2) s).addF CORE_ARRAY_CYC_BUSY_COUNT (d * 34 + p) 0
    (if 3 ≤ x.mmMode then 2 * k else k)

theorem regsOnly_countPass (s : State) (d p : Nat) (x : Task) (out : List (Hand × SlotDelta)) (k : Nat) :
    RegsOnly s (s.countPass d p x out k) :=
  ((RegsOnly.refl s).foldl (fun (s : State) (o : Hand × SlotDelta) => s.enterCounts d x.mmXSlot x.epoch o.2)
    (fun v o => (RegsOnly.refl v).enterCounts d x.mmXSlot x.epoch o.2) out).addF ..

/-- The tokens of a pass in the foot, counted in flight. -/
def enterFoot (s : State) (d p : Nat) (n : TaskId) (tile : Nat) (out : List Hand) : State :=
  (s.setCoreAt d p { s.coreAt d p with foot := (s.coreAt d p).foot ++ out }).inflightAdd d p n.g tile out.length

theorem enterFoot_reads (s : State) (d p : Nat) (n : TaskId) (tile : Nat) (out : List Hand) :
    (∃ c, s.enterFoot d p n tile out = { s with cores := c }) ∧ (s.enterFoot d p n tile out).coreAt d p =
      { s.coreAt d p with
        foot := (s.coreAt d p).foot ++ out
        tiles := (s.coreAt d p).tiles.map fun b =>
          if b.g = n.g ∧ b.tile = tile then { b with inflight := b.inflight + out.length } else b } := by
  refine ⟨⟨_, rfl⟩, ?_⟩
  rw [enterFoot, inflightAdd, coreAt_setCoreAt_self, coreAt_setCoreAt_self]

theorem passTokens_eq (s : State) (d p : Nat) (n : TaskId) (x : Task) (w : WTile) (tile : Nat) :
    s.passTokens d p n x w tile = (s.enterFoot d p n tile ((x.openRows.map (s.passToken d p n x w tile)).map (·.1))).countPass d p x
      (x.openRows.map (s.passToken d p n x w tile)) x.openRows.length := by
  rw [enterFoot, List.length_map, List.length_map]
  rfl

theorem matmul_of_masked (s : State) (n : TaskId) (x : Task) (p : Nat) (hrun : s.running? n .matmul = some x)
    (hcore : x.core = some p) (hall : x.allMasked = true) (hadd : x.mmAdd = true) : s.matmul n = s.finish n := by
  obtain ⟨-, -, -, -, hkind⟩ := running?_some hrun
  rw [matmul, hrun]
  simp only [hcore, Task.tileOf, hkind, hall, if_true, zeroMasked, hadd]

theorem openRows_of_no_mask (x : Task) (h : x.mask = []) : x.openRows = List.range x.mmM := by
  rw [Task.openRows, List.filter_eq_self]
  intro m _
  simp [Task.masked, h]

theorem zeroMasked_of_no_mask (s : State) (d p : Nat) (x : Task) (b : Bound) (h : x.mask = []) :
    s.zeroMasked d p x b = s := by
  have hnone : (List.range x.mmM).filter x.masked = [] := List.filter_eq_nil_iff.mpr fun m _ => by simp [Task.masked, h]
  rw [zeroMasked, hnone, List.foldl_nil, ite_self]

theorem matmul_of_served (s : State) (n : TaskId) (x : Task) (p : Nat) (hrun : s.running? n .matmul = some x)
    (hcore : x.core = some p) (hall : x.allMasked = false) (hmask : x.mask = [])
    (hserves : serves (s.coreAt n.d p).active x = true) (howner : (s.coreAt n.d p).active.owner = some n)
    (hfetched : s.fetched n.d p n x = true) :
    s.matmul n = (s.passTokens n.d p n x (s.coreAt n.d p).active x.mmTile).finish n := by
  obtain ⟨-, -, -, -, hkind⟩ := running?_some hrun
  rw [matmul, hrun]
  simp only [hcore, Task.tileOf, hkind, hall, Bool.false_eq_true, if_false]
  rw [if_pos (by simp [hserves, howner, hfetched]), zeroMasked_of_no_mask _ _ _ _ _ hmask]

theorem passTokens_reads (s : State) (d p : Nat) (n : TaskId) (x : Task) (w : WTile) (tile : Nat) (hmask : x.mask = []) :
    (∃ r c, s.passTokens d p n x w tile = { s with regs := r, cores := c }) ∧
    (s.passTokens d p n x w tile).coreAt d p = { s.coreAt d p with
      foot := (s.coreAt d p).foot ++ (List.range x.mmM).map fun m => (s.passToken d p n x w tile m).1
      tiles := (s.coreAt d p).tiles.map fun b =>
        if b.g = n.g ∧ b.tile = tile then { b with inflight := b.inflight + x.mmM } else b } := by
  rw [s.passTokens_eq, openRows_of_no_mask x hmask]
  generalize hout : (List.range x.mmM).map (s.passToken d p n x w tile) = out
  have hlen : (out.map (·.1)).length = x.mmM := by rw [List.length_map, ← hout, List.length_map, List.length_range]
  have hhands : out.map (·.1) = (List.range x.mmM).map fun m => (s.passToken d p n x w tile m).1 := by
    rw [← hout, List.map_map]
    rfl
  obtain ⟨⟨c, hfoot⟩, hcore⟩ := s.enterFoot_reads d p n tile (out.map (·.1))
  obtain ⟨r, hcount⟩ := (s.enterFoot d p n tile (out.map (·.1))).regsOnly_countPass d p x out (List.range x.mmM).length
  refine ⟨⟨r, c, ?_⟩, ?_⟩
  · rw [hcount, hfoot]
  · have hsame : ((s.enterFoot d p n tile (out.map (·.1))).countPass d p x out (List.range x.mmM).length).coreAt d p =
        (s.enterFoot d p n tile (out.map (·.1))).coreAt d p := by
      rw [hcount]
      rfl
    rw [hsame, hcore, hlen, hhands]

/-! ### The hand-over (R93) -/

/-- The first token handed over to its tile, before it is counted out. -/
def handed (s : State) (d p : Nat) (h : Hand) (rest : List Hand) (b : Bound) : State :=
  let t := s.setCoreAt d p { s.coreAt d p with foot := rest }
  if h.discard then t else handElems d p b h t (List.range b.n)

theorem handOver_of_bound (s : State) (d p : Nat) (h : Hand) (rest : List Hand) (b : Bound)
    (hfoot : (s.coreAt d p).foot = h :: rest) (htiles : (s.coreAt d p).tiles = [b]) (hg : b.g = h.task.g)
    (htile : b.tile = h.tile) (hrel : b.releasing = false) (hkeep : ((s.handed d p h rest b).coreAt d p).tiles = [b]) :
    s.handOver d p [] = (s.handed d p h rest b).setCoreAt d p
      { (s.handed d p h rest b).coreAt d p with tiles := [{ b with inflight := b.inflight - 1 }] } := by
  unfold handOver
  extract_lets c
  have hc : c.foot = h :: rest := hfoot
  rw [hc]
  dsimp only
  have hfind : c.tiles.find? (fun y => decide (y.g = h.task.g ∧ y.tile = h.tile)) = some b := by
    have hct : c.tiles = [b] := htiles
    rw [hct]
    simp [hg, htile]
  rw [hfind]
  have heq : (if h.discard = true then s.setCoreAt d p { c with foot := rest }
      else (List.range b.n).foldl (handElem d p b h []) (s.setCoreAt d p { c with foot := rest })) = s.handed d p h rest b := rfl
  dsimp only [List.filter_nil, List.foldl_nil]
  have hcounted : [b].map (fun y : Bound => if decide (y.g = h.task.g ∧ y.tile = h.tile) = true then
      { y with inflight := y.inflight - 1 } else y) = [{ b with inflight := b.inflight - 1 }] := by simp [hg, htile]
  rw [heq, hkeep, hcounted, List.filter_cons_of_pos (by simp [hrel]), List.filter_nil]

theorem accOnly_handed (s : State) (d p : Nat) (h : Hand) (rest : List Hand) (b : Bound) :
    AccOnly d p (s.setCoreAt d p { s.coreAt d p with foot := rest }) (s.handed d p h rest b) := by
  rw [handed]
  split
  · exact .refl ..
  · exact accOnly_handElems ..

theorem handed_core (s : State) (d p : Nat) (h : Hand) (rest : List Hand) (b : Bound) :
    ((s.handed d p h rest b).coreAt d p).foot = rest ∧
    ((s.handed d p h rest b).coreAt d p).tiles = (s.coreAt d p).tiles ∧
    (∀ q, q ≠ p → (s.handed d p h rest b).coreAt d q = s.coreAt d q) ∧
    ∃ c, s.handed d p h rest b = { s with cores := c } := by
  obtain ⟨⟨c, hrest⟩, hother, hfoot, htiles⟩ := s.accOnly_handed d p h rest b
  rw [coreAt_setCoreAt_self] at hfoot htiles
  refine ⟨hfoot, htiles, fun q hq => ?_, c, hrest⟩
  rw [hother q hq, coreAt_setCoreAt, if_neg (Ne.symm hq)]

/-- A foot that moves up leaves the accumulators. -/
theorem accAt_footed (s : State) (d p : Nat) (rest : List Hand) (i : Nat) :
    (s.setCoreAt d p { s.coreAt d p with foot := rest }).accAt d p i = s.accAt d p i := by
  rw [accAt, coreAt_setCoreAt_self, accAt]

theorem accAt_tiles (s : State) (d p : Nat) (l : List Bound) (i : Nat) :
    (s.setCoreAt d p { s.coreAt d p with tiles := l }).accAt d p i = s.accAt d p i := by
  rw [accAt, coreAt_setCoreAt_self, accAt]

end State

/-- What a hand-over shows, said of the state it leaves. -/
theorem handOver_reads (s : State) (d : Fin 4) (p : Fin 34) (h : Hand) (rest : List Hand) (b : Bound)
    (hfoot : (s.coreAt d p).foot = h :: rest) (htiles : (s.coreAt d p).tiles = [b]) (hg : b.g = h.task.g)
    (htile : b.tile = h.tile) (hrel : b.releasing = false) :
    exec (.handOver d p []) s = .next ((s.handed d p h rest b).setCoreAt d p
      { (s.handed d p h rest b).coreAt d p with tiles := [{ b with inflight := b.inflight - 1 }] }) := by
  obtain ⟨-, hkeep, -, c, heq⟩ := s.handed_core d p h rest b
  rw [exec_handOver, s.handOver_of_bound d p h rest b hfoot htiles hg htile hrel (hkeep.trans htiles)]
  refine congrArg _ (latchEdges_of_levels_kept (fun k _ => ?_) ?_ ?_)
  all_goals rw [heq]; rfl

/-- Settles O31: a pass puts its tokens in the foot and counts them; a hand-over runs over the elements of its row, whose
entries are distinct, so each takes what it would take alone. -/
theorem tilesPassAndAccumulate : Obligations.TilesPassAndAccumulate := by
  refine ⟨fun s d p n x c hc hd => ?_, fun s d p c h rest b hc hfoot htiles hg htile hrel => ?_⟩
  · subst hc
    refine ⟨fun hx hcore hfree hnext hmay hfetched => ?_, fun hvalid hbusy => ?_, fun hfree => ?_,
      fun hrun hcore => ⟨fun hall hadd => ?_, fun hall hmask hserves howner hfetched => ?_⟩⟩
    · obtain ⟨r, hr⟩ := s.shadowLoad_reads d p n x
      have hread : ((s.setCoreAt d p (s.loadedCore d p n x)).showShadow d p).coreAt d p = s.loadedCore d p n x := by
        rw [hr]
        exact s.coreAt_setCoreAt_self d p _
      refine ⟨_, exec_shadowLoad n s, ?_⟩
      rw [s.shadowLoad_of_next d p n x hd hx hcore hfree hnext hmay hfetched]
      refine ⟨State.array_latch (by rw [hr]), ?_⟩
      rw [State.coreAt_latchEdges, hread, State.flag_latch _ _ _ _ _ (by decide)]
      exact ⟨rfl, rfl, rfl, State.showShadow_valid _ d p (by rw [State.coreAt_setCoreAt_self]; rfl)⟩
    · obtain ⟨r, hshow⟩ := State.regsOnly_showSwap ((s.countSwap d p).setCoreAt d p
        { s.coreAt d p with active := (s.coreAt d p).shadow, shadow := {} }) d p (s.coreAt d p).active
      obtain ⟨r', hcount⟩ := s.regsOnly_countSwap d p
      obtain ⟨hflag, htiles⟩ := State.showSwap_reads ((s.countSwap d p).setCoreAt d p
        { s.coreAt d p with active := (s.coreAt d p).shadow, shadow := {} }) d p (s.coreAt d p).active
      have hswap : s.tileSwap d p = s.swapTiles d p := if_pos (by rw [hvalid, hbusy]; rfl)
      refine ⟨_, exec_tileSwap d p s, ?_⟩
      rw [hswap, s.swapTiles_eq]
      refine ⟨State.array_latch ?_, ?_, ?_, ?_⟩
      · rw [hshow, hcount]
        rfl
      · rw [State.coreAt_latchEdges, hshow]
        exact State.coreAt_setCoreAt_self ..
      · rw [State.flag_latch _ _ _ _ _ (by decide), hflag]
      · rw [State.getF_latch _ _ _ _ _ (by decide), htiles]
        exact s.countSwap_reads d p
    · have hswap : s.tileSwap d p = s := if_neg (by simp [hfree])
      rw [exec_tileSwap, hswap, latchEdges_self s]
    · rw [exec_matmul, s.matmul_of_masked n x p hrun hcore hall hadd]
    · rw [← hd] at hserves howner hfetched ⊢
      obtain ⟨⟨r, c, hpass⟩, hcoreAt⟩ := s.passTokens_reads n.d p n x (s.coreAt n.d p).active x.mmTile hmask
      obtain ⟨hx, -⟩ := State.running?_some hrun
      have hfin := State.finish_rest (s.passTokens n.d p n x (s.coreAt n.d p).active x.mmTile) n
      have hread : ((s.passTokens n.d p n x (s.coreAt n.d p).active x.mmTile).finish n).coreAt n.d p =
          (s.passTokens n.d p n x (s.coreAt n.d p).active x.mmTile).coreAt n.d p := by
        rw [hfin]
        rfl
      refine ⟨_, exec_matmul n s, ?_⟩
      rw [s.matmul_of_served n x p hrun hcore hall hmask hserves howner hfetched]
      refine ⟨?_, ?_⟩
      · rw [State.latchEdges_engines, State.latchEdges_cores, State.latchEdges_eq, hfin, hpass]
      · rw [State.coreAt_latchEdges, hread, hcoreAt]
        refine ⟨rfl, rfl, ?_, rfl⟩
        have htask : (s.passTokens n.d p n x (s.coreAt n.d p).active x.mmTile).task? n = some x := by
          rw [hpass]
          exact hx
        exact State.AllAt.any (((State.finish_fin _ n x htask).latch s).mono fun z hz => by rw [hz])
  · subst hc
    obtain ⟨hfoot', -, hother, c, heq⟩ := s.handed_core d p h rest b
    refine ⟨_, handOver_reads s d p h rest b hfoot htiles hg htile hrel, ?_, ?_, ?_, fun q hq => ?_, fun hdis => ?_,
      fun hdis hpair => ⟨fun n hn => ?_, fun i hi => ?_⟩, fun hdis hpair n hn => ⟨fun hadd => ?_, fun hadd y hy => ?_⟩⟩
    · rw [heq]
      rfl
    · rw [State.coreAt_setCoreAt_self, hfoot']
    · rw [State.coreAt_setCoreAt_self]
    · rw [State.coreAt_setCoreAt, if_neg (Ne.symm hq), hother q hq]
    · rw [State.coreAt_setCoreAt_self, State.handed, if_pos hdis, State.coreAt_setCoreAt_self]
    · rw [State.accAt_tiles, State.handed, if_neg (by simp [hdis]),
        State.handElems_takes d p b h _ List.nodup_range n _ (List.mem_range.mpr hn) (.inl rfl),
        State.handElem_single d p b h _ n hpair, State.accAt_footed]
    · rw [State.accAt_tiles, State.handed, if_neg (by simp [hdis]),
        State.handElems_apart d p b h _ _ i, State.accAt_footed]
      intro n hn hhold
      refine hi n (List.mem_range.mp hn) ?_
      simpa [State.holds, hpair] using hhold
    · have htake := State.handElems_takes d p b h _ List.nodup_range n (s := s.setCoreAt d p { s.coreAt d p with foot := rest })
        (hn := List.mem_range.mpr hn)
      obtain ⟨hlo, hhi⟩ := State.handElem_pair_write d p b h (s.setCoreAt d p { s.coreAt d p with foot := rest }) n hpair hadd
      rw [State.accAt_tiles, State.accAt_tiles, State.handed, if_neg (by simp [hdis]), htake _ (.inl rfl),
        htake _ (.inr ⟨hpair, rfl⟩)]
      exact ⟨hlo, hhi⟩
    · have htake := State.handElems_takes d p b h _ List.nodup_range n (s := s.setCoreAt d p { s.coreAt d p with foot := rest })
        (hn := List.mem_range.mpr hn)
      obtain ⟨hhi, hlo⟩ := State.handElem_pair_add d p b h (s.setCoreAt d p { s.coreAt d p with foot := rest }) n hpair hadd y
        (by rw [State.accAt_footed, State.accAt_footed]; exact hy)
      rw [State.accAt_tiles, State.accAt_tiles, State.handed, if_neg (by simp [hdis]), htake _ (.inl rfl),
        htake _ (.inr ⟨hpair, rfl⟩)]
      exact ⟨hhi, hlo⟩

end Sys2Proof.Machine
end

section
/-! Fetch requests and their returns (R143, R147, R148). -/

namespace Sys2Proof.Machine

theorem exec_fetchReadIssue (d : Fin 4) (p : Fin 34) (s : State) :
    exec (.fetchReadIssue d p) s = .next (s.latchEdges (s.fetchIssue d p)) := rfl

theorem exec_fetchReadReturn (d : Fin 4) (p : Fin 34) (i : Fin 384) (s : State) :
    exec (.fetchReadReturn d p i []) s = .next (s.latchEdges (s.fetchReturn d p i [])) := rfl

namespace State

/-! ### A request issued -/

theorem resvOf_single (s : State) (d p : Nat) (n : TaskId) (r : Reservation) (hresv : (s.coreAt d p).resv = [r])
    (hr : r.task = n) : s.resvOf d p n = some r := by
  rw [resvOf, hresv, List.find?_cons_of_pos (by simp [hr])]

theorem fetchQueue_single (s : State) (d p : Nat) (n : TaskId) (x : Task) (hahead : (s.coreAt d p).runAhead = [n])
    (hx : s.task? n = some x) : s.fetchQueue d p = [(n, x)] := by
  rw [fetchQueue, hahead]
  simp [hx]

/-- A task with its reservation takes none. -/
theorem reserveAll_single (s : State) (d p : Nat) (n : TaskId) (x : Task) (r : Reservation)
    (h : s.resvOf d p n = some r) : reserveAll d p [(n, x)] s = s := by
  rw [reserveAll, if_pos (by rw [h]; rfl), reserveAll]

/-- A read of `ls` counted. -/
def countRead (s : State) (d p k : Nat) : State :=
  (s.addF FE_RD_REQ_COUNT (d * 34 + p) 0 1).addF FE_RD_BYTES_COUNT (d * 34 + p) 0 k

theorem countRead_reads (s : State) (d p k : Nat) :
    (s.countRead d p k).getF FE_RD_REQ_COUNT (d * 34 + p) 0 =
      min (s.getF FE_RD_REQ_COUNT (d * 34 + p) 0 + 1) (2 ^ 64 - 1) ∧
    (s.countRead d p k).getF FE_RD_BYTES_COUNT (d * 34 + p) 0 =
      min (s.getF FE_RD_BYTES_COUNT (d * 34 + p) 0 + k) (2 ^ 64 - 1) := by
  rw [countRead, getF_addF_apart _ _ _ _ _ _ _ _ (by decide), getF_addF_same _ _ _ _ _ (by decide),
    getF_addF_same _ _ _ _ _ (by decide), getF_addF_apart _ _ _ _ _ _ _ _ (by decide)]
  exact ⟨rfl, rfl⟩

/-- The entry of a read of `ls`. -/
def readEntry (s : State) (d p : Nat) (n : TaskId) (ls : List Nat) : FetchEntry :=
  { task := n, addr := 64 * (ls.headD 0), len := 64 * ls.length, issuedAt := s.time,
    sampled := s.getF FE_RD_REQ_COUNT (d * 34 + p) 0 % 64 = 0 }

theorem fetchIssue_of_next (s : State) (d p : Nat) (n : TaskId) (x : Task) (r : Reservation) (ls : List Nat)
    (hahead : (s.coreAt d p).runAhead = [n]) (hx : s.task? n = some x) (hresv : (s.coreAt d p).resv = [r])
    (hr : r.task = n) (htodo : r.todo ≠ []) (hmay : s.mayFetch n x = true)
    (hls : ls = requestLines (s.flag FE_CFG_MERGE_EN (d * 34 + p) 0) r.todo)
    (hroom : s.entriesUsed d p + (64 * ls.length + 255) / 256 ≤ 384) :
    s.fetchIssue d p = (s.countRead d p (64 * ls.length)).setCoreAt d p { s.coreAt d p with
      entries := (s.coreAt d p).entries ++ [(s.countRead d p (64 * ls.length)).readEntry d p n ls]
      resv := [{ r with todo := r.todo.drop ls.length }] } := by
  have hof := s.resvOf_single d p n r hresv hr
  unfold fetchIssue
  rw [s.fetchQueue_single d p n x hahead hx]
  dsimp only
  rw [s.reserveAll_single d p n x r hof, List.find?_cons_of_pos (by simp [hmay, hof, htodo])]
  dsimp only
  rw [hof]
  dsimp only
  rw [← hls, if_neg (by omega)]
  have hcore : (s.countRead d p (64 * ls.length)).coreAt d p = s.coreAt d p := rfl
  have hmap : (s.coreAt d p).resv.map (fun y : Reservation =>
      if y.task = n then { y with todo := y.todo.drop ls.length } else y) = [{ r with todo := r.todo.drop ls.length }] := by
    rw [hresv, List.map_cons, List.map_nil, if_pos hr]
  rw [← hmap]
  rfl

/-! ### A read returned -/

/-- Bytes put into a table one by one, those at `a` on. -/
theorem getN_fill (f : Nat → Byte × Bool) (a j : Nat) (l : List Nat) (hl : l.Nodup) (hj : j ∈ l) :
    ∀ t : Tab Nat (Option (Byte × Bool)),
      Tab.getN none (l.foldl (fun t i => Tab.putN none t (a + i) (some (f i))) t) (a + j) = some (f j) := by
  have hapart : ∀ (l : List Nat), j ∉ l → ∀ t : Tab Nat (Option (Byte × Bool)),
      Tab.getN none (l.foldl (fun t i => Tab.putN none t (a + i) (some (f i))) t) (a + j) = Tab.getN none t (a + j) :=
    fun l hnot t => List.foldlRecOn (motive := fun u => Tab.getN none u (a + j) = Tab.getN none t (a + j)) _ _ rfl
      fun u hu i hi => by rw [Tab.getN_putN, if_neg (fun he : a + i = a + j => hnot (Nat.add_left_cancel he ▸ hi)), hu]
  induction l with
  | nil => exact absurd hj List.not_mem_nil
  | cons i l ih =>
    intro t
    obtain ⟨hi, hl⟩ := List.nodup_cons.mp hl
    rw [List.foldl_cons]
    by_cases hij : j = i
    · subst hij
      rw [hapart l hi, Tab.getN_putN, if_pos rfl]
    · exact ih hl ((List.mem_cons.mp hj).resolve_left hij) _

/-- A line's bytes taken into a reservation. -/
def fillLine (s : State) (a : Nat) (t : Tab Nat (Option (Byte × Bool))) : Tab Nat (Option (Byte × Bool)) :=
  (List.range 64).foldl (fun t j => Tab.putN none t (a + j) (some (s.readByte (a + j), false))) t

theorem stageLine_kept (s : State) (d p : Nat) (e : FetchEntry) (hdis : e.discard = false)
    (hbad : s.anyBad e.addr 64 = false) : stageLine d p e [] s 0 =
      s.setCoreAt d p { s.coreAt d p with
        resv := (s.coreAt d p).resv.map fun r =>
          if r.task = e.task then { r with have_ := s.fillLine e.addr r.have_ } else r } := by
  unfold stageLine
  simp only [Nat.mul_zero, Nat.add_zero, List.contains_nil, Bool.false_and, Bool.false_eq_true, if_false, hbad,
    Bool.or_self, hdis]
  rfl

theorem stageLine_discarded (s : State) (d p : Nat) (e : FetchEntry) (hdis : e.discard = true)
    (hbad : s.anyBad e.addr 64 = false) : stageLine d p e [] s 0 = s := by
  unfold stageLine
  simp only [Nat.mul_zero, Nat.add_zero, List.contains_nil, Bool.false_and, Bool.false_eq_true, if_false, hbad,
    Bool.or_self, hdis, if_true]

/-- A sampled latency offered to the monitors. -/
def offerLatency (s : State) (d p : Nat) (e : FetchEntry) : State :=
  if e.sampled then s.offer d 0x05 ((s.logicalOf d p).getD 0) ((s.time - e.issuedAt : Nat) : Int) e.issuedAt else s

theorem offerLatency_rest (s : State) (d p : Nat) (e : FetchEntry) : ∃ m, s.offerLatency d p e = { s with mons := m } := by
  unfold offerLatency
  split
  · exact ⟨_, rfl⟩
  · exact ⟨_, rfl⟩

theorem fetchReturn_kept (s : State) (d p i : Nat) (e : FetchEntry) (he : (s.coreAt d p).entries[i]? = some e)
    (hdis : e.discard = false) (hlen : e.len = 64) :
    s.fetchReturn d p i [] = ((stageLine d p e [] s 0).setCoreAt d p { (stageLine d p e [] s 0).coreAt d p with
      entries := ((stageLine d p e [] s 0).coreAt d p).entries.eraseIdx i }).offerLatency d p e := by
  unfold fetchReturn
  rw [he]
  dsimp only
  rw [hlen]
  simp only [hdis, Bool.false_and, Bool.false_eq_true, if_false]
  rfl

theorem fetchReturn_discarded (s : State) (d p i : Nat) (e : FetchEntry) (he : (s.coreAt d p).entries[i]? = some e)
    (hdis : e.discard = true) (hlen : e.len = 64) (hbad : s.anyBad e.addr 64 = false) :
    ∃ l, s.fetchReturn d p i [] = ((s.setCoreAt d p { s.coreAt d p with
      entries := (s.coreAt d p).entries.eraseIdx i, resv := l }).addF FE_RD_DISCARD_COUNT (d * 34 + p) 0 64).offerLatency
        d p e := by
  have hfold : (List.range (e.len / 64)).foldl (stageLine d p e []) s = s := by
    rw [hlen]
    exact s.stageLine_discarded d p e hdis hbad
  unfold fetchReturn
  rw [he]
  dsimp only
  rw [hfold, hdis, hlen]
  exact ⟨_, rfl⟩

theorem countDiscard_reads (s : State) (k : Nat) : (s.addF FE_RD_DISCARD_COUNT k 0 64).getF FE_RD_DISCARD_COUNT k 0 =
    min (s.getF FE_RD_DISCARD_COUNT k 0 + 64) (2 ^ 64 - 1) := getF_addF_same s _ k 0 64 (by decide)

/-- Where neither registers nor engines nor the error log changed, the end of a command adds nothing. -/
theorem latchEdges_of_parts {s t : State} (hregs : t.regs = s.regs) (hengines : t.engines = s.engines)
    (helog : t.elog = s.elog) : s.latchEdges t = t :=
  latchEdges_of_levels_kept (fun k _ => by rw [getR, hregs, getR]) hengines helog

end State

/-- The bytes of a line once it was taken in. -/
theorem State.fillLine_reads (s : State) (a j : Nat) (hj : j < 64) (t : Tab Nat (Option (Byte × Bool))) :
    Tab.getN none (s.fillLine a t) (a + j) = some (s.readByte (a + j), false) :=
  getN_fill (fun j => (s.readByte (a + j), false)) a j _ List.nodup_range (List.mem_range.mpr hj) t

/-- A request's line returned to the task that waits for it. -/
theorem fetchReadReturn_kept (s : State) (d : Fin 4) (p : Fin 34) (e : FetchEntry) (i : Fin 384) (r : Reservation)
    (he : (s.coreAt d p).entries[i.val]? = some e) (hdis : e.discard = false) (hlen : e.len = 64)
    (hbad : s.anyBad e.addr 64 = false) (hresv : (s.coreAt d p).resv = [r]) (hr : r.task = e.task) :
    ∃ t, exec (.fetchReadReturn d p i []) s = .next t ∧ t = { s with cores := t.cores, mons := t.mons } ∧
      (t.coreAt d p).entries = (s.coreAt d p).entries.eraseIdx i ∧ ∃ r', (t.coreAt d p).resv = [r'] ∧
        ∀ j < 64, Tab.getN none r'.have_ (e.addr + j) = some (s.readByte (e.addr + j), false) := by
  have heq := s.fetchReturn_kept d p i e he hdis hlen
  rw [s.stageLine_kept d p e hdis hbad, State.coreAt_setCoreAt_self, hresv, List.map_cons, List.map_nil, if_pos hr] at heq
  generalize hc : ({ s.coreAt d p with resv := [{ r with have_ := s.fillLine e.addr r.have_ }] } : CoreSt) = c at heq
  obtain ⟨m, hm⟩ := State.offerLatency_rest ((s.setCoreAt d p c).setCoreAt d p { c with entries := c.entries.eraseIdx i }) d p e
  have hread : ((s.fetchReturn d p i []).coreAt d p) = { c with entries := c.entries.eraseIdx i } := by
    rw [heq, hm]
    exact State.coreAt_setCoreAt_self ..
  have hfill : ∀ j < 64, Tab.getN none (s.fillLine e.addr r.have_) (e.addr + j) = some (s.readByte (e.addr + j), false) :=
    fun j hj => s.fillLine_reads e.addr j hj r.have_
  refine ⟨s.fetchReturn d p i [], ?_, ?_, ?_, { r with have_ := s.fillLine e.addr r.have_ }, ?_, ?_⟩
  · have hregs : (s.fetchReturn d p i []).regs = s.regs := by
      rw [heq, hm]
      rfl
    have hengines : (s.fetchReturn d p i []).engines = s.engines := by
      rw [heq, hm]
      rfl
    have helog : (s.fetchReturn d p i []).elog = s.elog := by
      rw [heq, hm]
      rfl
    rw [exec_fetchReadReturn, State.latchEdges_of_parts hregs hengines helog]
  · rw [heq, hm]
    rfl
  · rw [hread, ← hc]
  · rw [hread, ← hc]
  · simpa only using hfill

/-- A request's line returned to a task that is gone. -/
theorem fetchReadReturn_discarded (s : State) (d : Fin 4) (p : Fin 34) (e : FetchEntry) (i : Fin 384)
    (he : (s.coreAt d p).entries[i.val]? = some e) (hdis : e.discard = true) (hlen : e.len = 64)
    (hbad : s.anyBad e.addr 64 = false) :
    ∃ t, exec (.fetchReadReturn d p i []) s = .next t ∧
      (t.coreAt d p).entries = (s.coreAt d p).entries.eraseIdx i ∧
      t.getF FE_RD_DISCARD_COUNT (d.val * 34 + p) 0 =
        min (s.getF FE_RD_DISCARD_COUNT (d.val * 34 + p) 0 + 64) (2 ^ 64 - 1) := by
  obtain ⟨l, heq⟩ := s.fetchReturn_discarded d p i e he hdis hlen hbad
  generalize hc : ({ s.coreAt d p with entries := (s.coreAt d p).entries.eraseIdx i, resv := l } : CoreSt) = c at heq
  obtain ⟨m, hm⟩ := State.offerLatency_rest ((s.setCoreAt d p c).addF FE_RD_DISCARD_COUNT (d * 34 + p) 0 64) d p e
  have hread : ((s.fetchReturn d p i []).coreAt d p) = c := by
    rw [heq, hm]
    exact State.coreAt_setCoreAt_self ..
  refine ⟨_, exec_fetchReadReturn d p i s, ?_, ?_⟩
  · rw [State.coreAt_latchEdges, hread, ← hc]
  · rw [State.getF_latch _ _ _ _ _ (by decide)]
    have hcount : (s.fetchReturn d p i []).getF FE_RD_DISCARD_COUNT (d.val * 34 + p) 0 =
        ((s.setCoreAt d p c).addF FE_RD_DISCARD_COUNT (d.val * 34 + p) 0 64).getF FE_RD_DISCARD_COUNT (d.val * 34 + p) 0 := by
      rw [heq, hm, State.getF_update]
    exact hcount.trans ((s.setCoreAt d p c).countDiscard_reads _)

/-- The next request of a core's first queued task. -/
theorem fetchReadIssue_reads (s : State) (d : Fin 4) (p : Fin 34) (n : TaskId) (x : Task) (r : Reservation) (ls : List Nat)
    (hahead : (s.coreAt d p).runAhead = [n]) (hx : s.task? n = some x) (hresv : (s.coreAt d p).resv = [r])
    (hr : r.task = n) (htodo : r.todo ≠ []) (hmay : s.mayFetch n x = true)
    (hls : ls = requestLines (s.flag FE_CFG_MERGE_EN (d.val * 34 + p) 0) r.todo)
    (hroom : s.entriesUsed d p + (64 * ls.length + 255) / 256 ≤ 384) :
    ∃ t, exec (.fetchReadIssue d p) s = .next t ∧ t = { s with regs := t.regs, cores := t.cores } ∧
      t.getF FE_RD_REQ_COUNT (d.val * 34 + p) 0 = min (s.getF FE_RD_REQ_COUNT (d.val * 34 + p) 0 + 1) (2 ^ 64 - 1) ∧
      t.getF FE_RD_BYTES_COUNT (d.val * 34 + p) 0 =
        min (s.getF FE_RD_BYTES_COUNT (d.val * 34 + p) 0 + 64 * ls.length) (2 ^ 64 - 1) ∧
      (t.coreAt d p).resv = [{ r with todo := r.todo.drop ls.length }] ∧
      (t.coreAt d p).entries.map (fun e => (e.task, e.addr, e.len)) =
        (s.coreAt d p).entries.map (fun e => (e.task, e.addr, e.len)) ++ [(n, 64 * ls.headD 0, 64 * ls.length)] := by
  have heq := s.fetchIssue_of_next d p n x r ls hahead hx hresv hr htodo hmay hls hroom
  obtain ⟨hreq, hbytes⟩ := s.countRead_reads d p (64 * ls.length)
  refine ⟨_, exec_fetchReadIssue d p s, ?_⟩
  rw [heq]
  refine ⟨State.array_latch rfl, ?_⟩
  rw [State.getF_latch _ _ _ _ _ (by decide), State.getF_latch _ _ _ _ _ (by decide), State.coreAt_latchEdges,
    State.coreAt_setCoreAt_self]
  refine ⟨hreq, hbytes, rfl, ?_⟩
  rw [List.map_append]
  rfl

end Sys2Proof.Machine
end

section
/-! Vector programs and chains (R150 to R158): O33. -/

namespace Sys2Proof.Machine

theorem exec_vector (n : TaskId) (s : State) : exec (.vector n) s = .next (s.latchEdges (s.vector n)) := rfl

theorem exec_stageItem (n : TaskId) (j : Fin 8) (s : State) :
    exec (.stageItem n j) s = .next (s.latchEdges (s.stageItem n j [])) := rfl

theorem exec_fused (n : TaskId) (s : State) : exec (.fused n) s = .next (s.latchEdges (s.fused n)) := rfl

theorem exec_stageStallEnd (n : TaskId) (j : Fin 8) (full : Bool) (cy : Nat) (s : State) :
    exec (.stageStallEnd n j full cy) s = .next (s.latchEdges (s.stageStallEnd n j full cy)) := rfl

/-- The cores as in `s`, the supply of free values at `k` or later, and slot `n` still listing its task. -/
def RunsProgram (s : State) (k : Nat) (n : TaskId) (t : State) : Prop :=
  t.cores = s.cores ∧ k ≤ t.fresh ∧ AllAt t n fun _ => True

theorem State.fresh_storeAll (s : State) (a : Nat) (bs : List Byte) (e : Option Nat) :
    (s.storeAll a bs e).fresh = s.fresh := by
  obtain ⟨_, _, _, _, _, h⟩ := stored_storeAll s a bs e
  rw [h]

theorem State.fresh_ringPut (s : State) (r : ErrRec) : (s.ringPut r).fresh = s.fresh := by
  unfold State.ringPut
  extract_lets r1 e0 s1 prod s2 s3
  have h1 : s1.fresh = s.fresh := rfl
  have h2 : s2.fresh = s.fresh := (s1.fresh_storeAll _ _ _).trans h1
  clear_value s2
  have h3 : s3.fresh = s.fresh := h2
  clear_value s3
  split
  · exact h3
  · exact h3

theorem State.fresh_ringDeliver (s : State) (r : ErrRec) : (s.ringDeliver r).fresh = s.fresh := by
  have hput : ∀ t : State, (t.hubPut r).fresh = t.fresh := fun _ => rfl
  have hdrop : ∀ (t : State) v, (t.dropRec v).fresh = t.fresh := fun _ _ => rfl
  unfold State.ringDeliver
  repeat' split
  all_goals simp only [hput, hdrop, State.fresh_ringPut]

/-- A record draws its free values in turn. -/
theorem State.fresh_record_le (s : State) (a : RecArg) : s.fresh ≤ (s.record a).fresh := by
  have hstream : ∀ (t : State) r al, (t.streamDeliver r al).fresh = t.fresh := fun t r al => by
    unfold State.streamDeliver
    repeat' split
    all_goals rfl
  have hcount : ∀ t : State, t.countFailure.fresh = t.fresh := fun _ => rfl
  unfold State.record
  extract_lets c rail r e u v
  have hv : v.fresh = s.fresh + 1 := by
    unfold v
    split
    · exact hcount u
    · rfl
  rw [hstream, State.fresh_ringDeliver, hv]
  exact Nat.le_succ _

theorem stable_runsProgram (s : State) (k : Nat) (n : TaskId) : Stable (RunsProgram s k n) where
  putR _ _ _ _ h := h
  waiting _ _ _ h := h
  parts t u h hu := by
    obtain ⟨hcores, hfresh, hlisted⟩ := h
    exact ⟨hu.cores.trans hcores, hfresh.trans hu.fresh, hlisted.keeps (KeepsGraphs.other (.refl t) hu.regs hu.engines)⟩
  record t a h := by
    obtain ⟨hcores, hfresh, hlisted⟩ := h
    exact ⟨(State.record_cores ..).trans hcores, hfresh.trans (State.fresh_record_le ..),
      hlisted.keeps (KeepsGraphs.record (.refl t) a)⟩

namespace State

theorem runsProgram_addDigest (s : State) (k : Nat) (n m : TaskId) (o off : Nat) (bs : List Byte) (t : State)
    (h : RunsProgram s k n t) : RunsProgram s k n (t.addDigest m o off bs) := by
  unfold addDigest
  split
  · next y hy =>
    obtain ⟨hcores, hfresh, hlisted⟩ := h
    split
    · exact ⟨hcores, hfresh, hlisted.setTask m _ (t.idx_of_task? m y hy) fun _ => trivial⟩
    · exact ⟨hcores, hfresh, hlisted⟩
  · exact h

/-- A vector program writes where its operands say and counts; the cores stay, and its free values are used up. -/
theorem runsProgram_runVector (s : State) (d p : Nat) (n : TaskId) (x : Task) (addr : Nat → Word → Nat) (queued : Nat → Bool)
    (ord : Nat → Nat) (h : AllAt s n fun _ => True) : RunsProgram s (s.fresh + 1) n (s.runVector d p n x addr queued ord) := by
  have hP := stable_runsProgram s (s.fresh + 1) n
  unfold runVector
  extract_lets base prog ops runs counts u v
  have hu : RunsProgram s (s.fresh + 1) n u := ⟨rfl, le_rfl, h⟩
  have hv : RunsProgram s (s.fresh + 1) n v := Stable.foldl hu fun t r ht => by
    split
    · exact ht
    · exact Stable.ifEither (Stable.foldl ht fun _ _ ht => hP.write ht)
        (runsProgram_addDigest s _ n n _ _ _ _ (Stable.foldl ht fun _ _ ht => hP.write ht))
  exact Stable.foldl hv fun t r ht => by
    split
    · exact hP.enterCounts ht
    · exact ht

theorem coreAt_of_runsProgram {s t : State} {k : Nat} {n : TaskId} (h : RunsProgram s k n t) (d p : Nat) :
    t.coreAt d p = s.coreAt d p := by
  rw [State.coreAt, core, h.1, State.coreAt, core]

/-- A finished task of a slot that lists it shows its work done. -/
theorem finish_listed (s : State) (n : TaskId) (h : AllAt s n fun _ => True) : AllAt (s.finish n) n fun y => y.fin = true := by
  obtain ⟨y, hy, -⟩ := h.task?
  exact (s.finish_fin n y hy).mono fun z hz => by rw [hz]

theorem listed_of_running {s : State} {n : TaskId} {k : Kind} {x : Task} (h : s.running? n k = some x) :
    AllAt s n fun _ => True := by
  obtain ⟨hx, -⟩ := running?_some h
  exact ⟨exists_of_task? hx, fun _ _ _ => trivial⟩

theorem vector_of_running (s : State) (n : TaskId) (x : Task) (p : Nat) (hrun : s.running? n .vector = some x)
    (hcore : x.core = some p) :
    s.vector n = (s.runVector n.d p n x (fun _ w => voAddr w) (fun _ => false) id).finish n := by
  rw [vector, hrun]
  dsimp only
  rw [hcore]

theorem finish_cores (s : State) (n : TaskId) : (s.finish n).cores = s.cores := by
  rw [finish_rest]

theorem finish_fresh (s : State) (n : TaskId) : (s.finish n).fresh = s.fresh := by
  rw [finish_rest]

/-! ### The stages of a chain -/

/-- The chain on the core of a task. -/
theorem chainOf_some (s : State) (n : TaskId) (x : Task) (p : Nat) (y : Chain) (hcore : x.core = some p)
    (hchain : (s.coreAt n.d p).chain = some y) :
    (x.core.bind fun p => (s.coreAt n.d p).chain.map fun y => (p, y)) = some (p, y) := by
  rw [hcore, Option.bind_some, hchain, Option.map_some]

theorem stageItem_stalled (s : State) (n : TaskId) (x : Task) (p j : Nat) (y : Chain)
    (hrun : s.running? n .fused = some x) (hcore : x.core = some p) (hchain : (s.coreAt n.d p).chain = some y)
    (hmay : stageMay y (x.fuStages - 1) j = false) : s.stageItem n j [] = s := by
  unfold stageItem
  split
  · rfl
  · next x' hx' =>
    obtain rfl : x = x' := Option.some.inj (hrun.symm.trans hx')
    split
    · rfl
    · next p' y' hy' =>
      obtain ⟨rfl, rfl⟩ : p = p' ∧ y = y' := by
        simpa using (s.chainOf_some n x p y hcore hchain).symm.trans hy'
      rw [if_pos (.inr (by rw [hmay]; rfl))]

/-- A VECTOR stage that may take its next item runs its program and counts it. -/
theorem stageItem_vector (s : State) (n : TaskId) (x : Task) (p j : Nat) (y : Chain)
    (hrun : s.running? n .fused = some x) (hcore : x.core = some p) (hchain : (s.coreAt n.d p).chain = some y)
    (hy : y.task = n) (hmay : stageMay y (x.fuStages - 1) j = true) (hkind : (s.stageTask n.d x j).kind = .vector)
    (P : State → Prop) (h : ∀ i, P ((s.vectorStage p n x (s.stageTask n.d x j) j i).countItem p n j)) :
    P (s.stageItem n j []) := by
  generalize hm : s.stageTask n.d x j = m at hkind h
  unfold stageItem
  split
  · next hnone => rw [hrun] at hnone; cases hnone
  · next x' hx' =>
    obtain rfl : x = x' := Option.some.inj (hrun.symm.trans hx')
    split
    · next hnone => rw [s.chainOf_some n x p y hcore hchain] at hnone; cases hnone
    · next p' y' hy' =>
      obtain ⟨rfl, rfl⟩ : p = p' ∧ y = y' := by
        simpa using (s.chainOf_some n x p y hcore hchain).symm.trans hy'
      rw [if_neg (by simp [hy, hmay])]
      rw [hm]
      extract_lets +onlyGivenNames i m'
      have hkind : m'.kind = .vector := hkind
      split
      · next hk => rw [hkind] at hk; cases hk
      · next hk => rw [hkind] at hk; cases hk
      · exact h i
      · next hk => rw [hkind] at hk; cases hk
      · next hk => rw [hkind] at hk; cases hk
      · next hne _ _ => exact (hne hkind).elim

theorem stageItem_of_not_running (s : State) (n : TaskId) (j : Nat) (h : s.running? n .fused = none) :
    s.stageItem n j [] = s := by
  unfold stageItem
  rw [h]

theorem runsProgram_vectorStage (s : State) (p : Nat) (n : TaskId) (x m : Task) (j i : Nat) (h : AllAt s n fun _ => True) :
    RunsProgram s (s.fresh + 1) n (s.vectorStage p n x m j i) := s.runsProgram_runVector n.d p n m _ _ _ h

theorem countItem_of_chain (s : State) (p : Nat) (n : TaskId) (j : Nat) (y : Chain)
    (h : (s.coreAt n.d p).chain = some y) : s.countItem p n j =
      if (stageDone y j).stages.all fun z => decide (z.done = (stageDone y j).items) then
        (s.setCoreAt n.d p { s.coreAt n.d p with chain := some (stageDone y j) }).finish n
      else s.setCoreAt n.d p { s.coreAt n.d p with chain := some (stageDone y j) } := by
  rw [countItem]
  dsimp only
  rw [h]

theorem countItem_chain (s : State) (p : Nat) (n : TaskId) (j : Nat) (y : Chain) (h : (s.coreAt n.d p).chain = some y) :
    ((s.countItem p n j).coreAt n.d p).chain = some (stageDone y j) := by
  rw [s.countItem_of_chain p n j y h]
  split
  · rw [coreAt, core, finish_cores]
    exact congrArg CoreSt.chain (s.coreAt_setCoreAt_self n.d p _)
  · rw [coreAt_setCoreAt_self]

/-! ### A chain of one stage and one item -/

theorem running?_of_fin (s : State) (n : TaskId) (k : Kind) (h : AllAt s n fun y => y.fin = true) :
    s.running? n k = none := by
  obtain ⟨y, hy, hfin⟩ := h.task?
  rw [running?, hy]
  simp [hfin]

theorem handOver_cores (s : State) (d p : Nat) : ∃ c, s.handOver d p [] = { s with cores := c } := by
  unfold handOver
  extract_lets c
  split
  · exact ⟨_, rfl⟩
  · next h rest _ =>
    dsimp only
    split
    · exact ⟨_, rfl⟩
    · next b _ =>
      have helems : ∃ e, (if h.discard then s.setCoreAt d p { c with foot := rest } else
          handElems d p b h (s.setCoreAt d p { c with foot := rest }) (List.range b.n)) = { s with cores := e } := by
        split
        · exact ⟨_, rfl⟩
        · obtain ⟨⟨e, he⟩, -⟩ := accOnly_handElems d p b h (s.setCoreAt d p { c with foot := rest }) (List.range b.n)
          exact ⟨e, he⟩
      obtain ⟨e, he⟩ := helems
      unfold handElems at he
      simp only [List.filter_nil, List.foldl_nil]
      rw [he]
      exact ⟨_, rfl⟩

theorem keepsGraphs_handAll (k d p : Nat) : ∀ s : State, KeepsGraphs s (handAll k d p s) := by
  induction k with
  | zero => exact fun s => .refl s
  | succ k ih =>
    intro s
    rw [handAll]
    split
    · exact .refl s
    · obtain ⟨c, hc⟩ := s.handOver_cores d p
      rw [hc]
      exact ((KeepsGraphs.refl s).other rfl rfl).trans (ih _)

/-- A chain whose task has no work left does nothing more. -/
theorem chainRounds_done (r : Nat) (n : TaskId) (p k : Nat) : ∀ s : State, AllAt s n (fun y => y.fin = true) →
    AllAt (chainRounds r n p k s) n fun y => y.fin = true := by
  induction r with
  | zero => exact fun _ h => h
  | succ r ih =>
    intro s h
    have hstages : AllAt ((List.range k).foldl (fun s j => s.stageItem n j []) s) n fun y => y.fin = true :=
      List.foldlRecOn (motive := fun u => AllAt u n fun y => y.fin = true) _ _ h fun u hu j _ => by
        rw [u.stageItem_of_not_running n j (u.running?_of_fin n .fused hu)]
        exact hu
    rw [chainRounds]
    exact ih _ (hstages.keeps (keepsGraphs_handAll ..))

theorem countItem_last (s : State) (p : Nat) (n : TaskId) (y : Chain) (z : StageRt)
    (hchain : (s.coreAt n.d p).chain = some y) (hstages : y.stages = [z]) (hdone : z.done = 0) (hitems : y.items = 1)
    (h : AllAt s n fun _ => True) : AllAt (s.countItem p n 0) n fun y => y.fin = true := by
  rw [s.countItem_of_chain p n 0 y hchain, if_pos (by simp [stageDone, hstages, hdone, hitems])]
  exact finish_listed _ n (h.keeps ((KeepsGraphs.refl s).setCore _ _))

theorem fused_of_running (s : State) (n : TaskId) (x : Task) (p : Nat) (hrun : s.running? n .fused = some x)
    (hcore : x.core = some p) : s.fused n = chainRounds (x.fuItems + x.fuStages) n p x.fuStages s := by
  rw [fused, hrun]
  dsimp only
  rw [hcore]

/-- The state after the one item of a chain of one VECTOR stage. -/
theorem fused_of_one (s : State) (n : TaskId) (x : Task) (p : Nat) (y : Chain) (z : StageRt)
    (hrun : s.running? n .fused = some x) (hcore : x.core = some p) (hchain : (s.coreAt n.d p).chain = some y)
    (hy : y.task = n) (hstages : y.stages = [z]) (hdone : z.done = 0) (hitems : y.items = 1) (hdrain : y.draining = false)
    (hone : x.fuStages = 1) (hitem : x.fuItems = 1) (hkind : (s.stageTask n.d x 0).kind = .vector) :
    AllAt (s.fused n) n fun y => y.fin = true := by
  have hmay : stageMay y (x.fuStages - 1) 0 = true := by simp [stageMay, hstages, hdone, hitems, hdrain, hone]
  have hfirst : AllAt (s.stageItem n 0 []) n fun y => y.fin = true := by
    refine s.stageItem_vector n x p 0 y hrun hcore hchain hy hmay hkind (fun u => AllAt u n fun y => y.fin = true) fun i => ?_
    have hran := s.runsProgram_vectorStage p n x (s.stageTask n.d x 0) 0 i (listed_of_running hrun)
    have hchain' : ((s.vectorStage p n x (s.stageTask n.d x 0) 0 i).coreAt n.d p).chain = some y := by
      rw [coreAt_of_runsProgram hran, hchain]
    obtain ⟨-, -, hlisted⟩ := hran
    exact countItem_last _ p n y z hchain' hstages hdone hitems hlisted
  have hround : (List.range 1).foldl (fun s j => s.stageItem n j []) s = s.stageItem n 0 [] := by
    rw [List.range_one, List.foldl_cons, List.foldl_nil]
  rw [s.fused_of_running n x p hrun hcore, hitem, hone, chainRounds, hround]
  exact chainRounds_done 1 n p 1 _ (hfirst.keeps (keepsGraphs_handAll ..))

theorem stageItem_counted (s : State) (n : TaskId) (x : Task) (p j : Nat) (y : Chain)
    (hrun : s.running? n .fused = some x) (hcore : x.core = some p) (hchain : (s.coreAt n.d p).chain = some y)
    (hy : y.task = n) (hmay : stageMay y (x.fuStages - 1) j = true) (hkind : (s.stageTask n.d x j).kind = .vector) :
    ((s.stageItem n j []).coreAt n.d p).chain = some (stageDone y j) := by
  refine s.stageItem_vector n x p j y hrun hcore hchain hy hmay hkind
    (fun u => (u.coreAt n.d p).chain = some (stageDone y j)) fun i => ?_
  have hran := s.runsProgram_vectorStage p n x (s.stageTask n.d x j) j i (listed_of_running hrun)
  exact countItem_chain _ p n j y (by rw [coreAt_of_runsProgram hran, hchain])

/-! ### Stall runs (R158) -/

theorem offer_rest (s : State) (d src i : Nat) (v : Int) (t0 : Nat) :
    ∃ m, s.offer d src i v t0 = { s with mons := m } := ⟨_, rfl⟩

theorem stageStallEnd_of_chain (s : State) (n : TaskId) (x : Task) (p j cy : Nat) (full : Bool) (y : Chain) (z : StageRt)
    (hrun : s.running? n .fused = some x) (hcore : x.core = some p) (hchain : (s.coreAt n.d p).chain = some y)
    (hz : y.stages[j]? = some z) (hleft : z.done < y.items) : s.stageStallEnd n j full cy =
      (if full then s.addF FE_STG_FULL_COUNT (n.d * 34 + p) j cy else s.addF FE_STG_EMPTY_COUNT (n.d * 34 + p) j cy).offer
        n.d 0x03 ((s.logicalOf n.d p).getD 0 * 8 + j) cy s.time := by
  unfold stageStallEnd
  rw [hrun]
  dsimp only
  rw [s.chainOf_some n x p y hcore hchain]
  dsimp only
  rw [if_pos (by rw [hz]; simp [hleft])]
  cases full <;> rfl

end State

/-- Settles O33: a fetch engine's request and return are of its one reservation; a vector program leaves the cores, so the
chain of its stage is counted as it stood; and once the last item is through, the rounds that are left do nothing. -/
theorem fetchesVectorsAndChains : Obligations.FetchesVectorsAndChains := by
  refine ⟨fun s d p c k hc hk => ?_, fun s n x p => ?_⟩
  · subst hc hk
    exact ⟨fun n x r ls hahead hx hresv hr htodo hmay hls hroom =>
        fetchReadIssue_reads s d p n x r ls hahead hx hresv hr htodo hmay hls hroom,
      fun e i he => ⟨fun r hdis hlen hbad hresv hr => fetchReadReturn_kept s d p e i r he hdis hlen hbad hresv hr,
        fun hdis hlen hbad => fetchReadReturn_discarded s d p e i he hdis hlen hbad⟩⟩
  · refine ⟨fun hrun hcore => ?_, fun y hrun hcore hchain hy => ⟨fun j hmay => ?_, fun j hmay hkind => ?_,
      fun z hstages hdone hitems hdrain hone hitem hkind => ?_, fun j cy z hz hleft => ⟨?_, ?_⟩⟩⟩
    · obtain ⟨hcores, hfresh, hlisted⟩ :=
        s.runsProgram_runVector n.d p n x (fun _ w => voAddr w) (fun _ => false) id (State.listed_of_running hrun)
      refine ⟨_, exec_vector n s, ?_⟩
      rw [s.vector_of_running n x p hrun hcore]
      refine ⟨State.AllAt.any ((State.finish_listed _ n hlisted).latch s), ?_, ?_⟩
      · rw [State.latchEdges_cores, State.finish_cores, hcores]
      · rw [State.latchEdges_fresh, State.finish_fresh]
        exact hfresh
    · rw [exec_stageItem, s.stageItem_stalled n x p j y hrun hcore hchain hmay, latchEdges_self s]
    · refine ⟨_, exec_stageItem n j s, ?_⟩
      rw [State.coreAt_latchEdges]
      exact s.stageItem_counted n x p j y hrun hcore hchain hy hmay hkind
    · exact ⟨_, exec_fused n s, State.AllAt.any
        ((s.fused_of_one n x p y z hrun hcore hchain hy hstages hdone hitems hdrain hone hitem hkind).latch s)⟩
    · obtain ⟨m, hm⟩ := (s.addF FE_STG_FULL_COUNT (n.d * 34 + p) j cy).offer_rest n.d 0x03
        ((s.logicalOf n.d p).getD 0 * 8 + j) cy s.time
      refine ⟨m, ?_⟩
      rw [exec_stageStallEnd, s.stageStallEnd_of_chain n x p j cy true y z hrun hcore hchain hz hleft, if_pos rfl, hm]
      rfl
    · obtain ⟨m, hm⟩ := (s.addF FE_STG_EMPTY_COUNT (n.d * 34 + p) j cy).offer_rest n.d 0x03
        ((s.logicalOf n.d p).getD 0 * 8 + j) cy s.time
      refine ⟨m, ?_⟩
      rw [exec_stageStallEnd, s.stageStallEnd_of_chain n x p j cy false y z hrun hcore hchain hz hleft,
        if_neg Bool.false_ne_true, hm]
      rfl

end Sys2Proof.Machine
end

section
/-! Reads of stack memory through the write-combining buffer (R187), and what an ECC event counts (R180, R365). -/

namespace Sys2Proof.Machine

/-! ### Lines of the buffer -/

/-- Bytes put into a line from `off` on. -/
theorem State.getN_mergeBytes (l : WcbLine) (off : Nat) (data : List Byte) (ep : Option Nat) (k : Nat) :
    Tab.getN none (State.mergeBytes l off data ep []).bytes k =
      if off ≤ k ∧ k < off + data.length then some (data.getD (k - off) 0, ep) else Tab.getN none l.bytes k := by
  have hfold : ∀ n, Tab.getN none ((List.range n).foldl
      (fun t i => Tab.putN none t (off + i) (some (data.getD i 0, ep))) l.bytes) k =
        if off ≤ k ∧ k < off + n then some (data.getD (k - off) 0, ep) else Tab.getN none l.bytes k := by
    intro n
    induction n with
    | zero => rw [List.range_zero, List.foldl_nil, if_neg (by omega)]
    | succ n ih =>
      rw [List.range_succ, List.foldl_append, List.foldl_cons, List.foldl_nil, Tab.getN_putN, ih]
      by_cases hk : off + n = k
      · have hn : k - off = n := by omega
        rw [if_pos hk, if_pos (by omega), hn]
      · rw [if_neg hk]
        by_cases hin : off ≤ k ∧ k < off + n
        · rw [if_pos hin, if_pos (by omega)]
        · rw [if_neg hin, if_neg (by omega)]
  exact hfold data.length

namespace State

/-- The buffer of a stack after bytes within one line entered it, no line leaving. -/
def enteredBuffer (l : List WcbLine) (a : Nat) (data : List Byte) (ep : Option Nat) : List WcbLine :=
  if l.any fun x => x.line = a / 64 then l.map fun x => if x.line = a / 64 then mergeBytes x (a % 64) data ep [] else x
  else l ++ [mergeBytes { line := a / 64 } (a % 64) data ep []]

theorem wcbEnter_of_room (s : State) (ms a : Nat) (data : List Byte) (ep : Option Nat)
    (h : (s.stack ms).wcb.length < 256) : s.wcbEnter ms a data ep [] =
      s.setStack ms { s.stack ms with wcb := enteredBuffer (s.stack ms).wcb a data ep } := by
  unfold wcbEnter enteredBuffer
  dsimp only
  split
  · rfl
  · split
    · rw [if_neg (by omega)]
    · rfl

/-- The byte of a buffer at an address. -/
def bufferByte (l : List WcbLine) (a : Nat) : Option Byte :=
  ((l.find? fun x => x.line = a / 64).bind fun x => Tab.getN none x.bytes (a % 64)).map (·.1)

theorem wcbByte_eq (s : State) (ms a : Nat) : s.wcbByte ms a = bufferByte (s.stack ms).wcb a := by
  rw [wcbByte, wcbLine, bufferByte]
  cases (s.stack ms).wcb.find? fun x => x.line = a / 64 <;> rfl

theorem find?_merged (l : List WcbLine) (a b : Nat) (data : List Byte) (ep : Option Nat) :
    (l.map fun x => if x.line = a / 64 then mergeBytes x (a % 64) data ep [] else x).find? (fun x => x.line = b / 64) =
      (l.find? fun x => x.line = b / 64).map fun x =>
        if x.line = a / 64 then mergeBytes x (a % 64) data ep [] else x := by
  rw [List.find?_map]
  congr 2
  funext x
  by_cases hx : x.line = a / 64
  · simp only [Function.comp, hx, if_true]
    exact congrArg (fun n => decide (n = b / 64)) hx
  · simp only [Function.comp, hx, if_false]

/-- What a buffer holds of an address after bytes within one line were entered. -/
theorem bufferByte_entered (l : List WcbLine) (a b : Nat) (data : List Byte) (ep : Option Nat)
    (hline : a % 64 + data.length ≤ 64) : bufferByte (enteredBuffer l a data ep) b =
      if a ≤ b ∧ b < a + data.length then some (data.getD (b - a) 0) else bufferByte l b := by
  by_cases hb : b / 64 = a / 64
  · have hoff : (a % 64 ≤ b % 64 ∧ b % 64 < a % 64 + data.length) ↔ (a ≤ b ∧ b < a + data.length) := by omega
    have hidx : a ≤ b → b % 64 - a % 64 = b - a := by omega
    unfold enteredBuffer bufferByte
    by_cases hany : (l.any fun x => x.line = a / 64) = true
    · rw [if_pos hany, find?_merged, hb]
      obtain ⟨x, hx⟩ := Option.isSome_iff_exists.mp (by rw [List.find?_isSome]; simpa using hany :
        (l.find? fun x => x.line = a / 64).isSome)
      have hxline : x.line = a / 64 := by simpa using List.find?_some hx
      rw [hx, Option.map_some, Option.bind_some, if_pos hxline, getN_mergeBytes, Option.bind_some]
      by_cases hin : a ≤ b ∧ b < a + data.length
      · rw [if_pos (hoff.mpr hin), if_pos hin, hidx hin.1]
        rfl
      · rw [if_neg (fun h => hin (hoff.mp h)), if_neg hin]
    · have hnone : l.find? (fun x => x.line = a / 64) = none := by
        rw [List.find?_eq_none]
        simpa using hany
      rw [if_neg hany, hb, List.find?_append, hnone, Option.none_or,
        List.find?_cons_of_pos (by simp [mergeBytes]), Option.bind_some, getN_mergeBytes]
      by_cases hin : a ≤ b ∧ b < a + data.length
      · rw [if_pos (hoff.mpr hin), if_pos hin, hidx hin.1]
        rfl
      · rw [if_neg (fun h => hin (hoff.mp h)), if_neg hin]
        rfl
  · have hout : ¬ (a ≤ b ∧ b < a + data.length) := by omega
    rw [if_neg hout]
    unfold enteredBuffer bufferByte
    split
    · rw [find?_merged]
      cases hf : l.find? fun x => x.line = b / 64 with
      | none => rfl
      | some x =>
        have hx : x.line = b / 64 := by simpa using List.find?_some hf
        rw [Option.map_some, if_neg (by rw [hx]; exact hb)]
    · rw [List.find?_append, List.find?_cons_of_neg (by simpa [mergeBytes] using Ne.symm hb), List.find?_nil, Option.or_none]

/-! ### Reads after a buffer changed -/

/-- A stack with another buffer. -/
def withBuffer (s : State) (ms : Nat) (l : List WcbLine) : State := s.setStack ms { s.stack ms with wcb := l }

theorem locate_withBuffer (s : State) (ms : Nat) (l : List WcbLine) (e a : Nat) :
    (s.withBuffer ms l).locate e a = s.locate e a := by
  have hver : ∀ m p, (s.withBuffer ms l).pageVer m p = s.pageVer m p := fun m p => by
    rw [pageVer, withBuffer, stack_setStack]
    split
    · next h => rw [pageVer, h]
    · rfl
  rw [locate]
  simp only [hver]
  rfl

theorem wcbByte_withBuffer (s : State) (ms : Nat) (l : List WcbLine) (m a : Nat) :
    (s.withBuffer ms l).wcbByte m a = if ms = m then bufferByte l a else s.wcbByte m a := by
  rw [wcbByte_eq, wcbByte_eq, withBuffer, stack_setStack]
  split <;> rfl

theorem readByte_withBuffer (s : State) (ms : Nat) (l : List WcbLine) (a : Nat)
    (h : ∀ e, s.findRegion a = some e → (s.locate e a).stack = ms → bufferByte l a = bufferByte (s.stack ms).wcb a) :
    (s.withBuffer ms l).readByte a = s.readByte a := by
  have hstack : (s.withBuffer ms l).stackByte a = s.stackByte a := by
    have hfind : (s.withBuffer ms l).findRegion a = s.findRegion a := rfl
    rw [stackByte, hfind, stackByte]
    cases he : s.findRegion a with
    | none => rfl
    | some e =>
      dsimp only
      have hregion : (s.withBuffer ms l).region e = s.region e := rfl
      have hdram : ∀ p, (s.withBuffer ms l).dramByte p = s.dramByte p := fun _ => rfl
      have hpacked : (s.withBuffer ms l).packed = s.packed := rfl
      have hbyte : (s.withBuffer ms l).wcbByte (s.locate e a).stack a = s.wcbByte (s.locate e a).stack a := by
        rw [wcbByte_withBuffer]
        split
        · next hms => rw [wcbByte_eq, ← hms, h e he hms.symm]
        · rfl
      rw [hregion, locate_withBuffer, hdram, hpacked, hbyte]
  rw [readByte, hstack]
  rfl

/-- A byte of a plain region is the buffer's where the buffer holds it. -/
theorem readByte_of_buffer (s : State) (a e : Nat) (b : Byte) (hmapped : s.mapped a = true) (hstack : isStackAddr a = true)
    (he : s.findRegion a = some e) (hcomp : (s.region e).comp = 0) (hb : s.wcbByte (s.locate e a).stack a = some b) :
    s.readByte a = b := by
  rw [readByte, hmapped, if_neg (by simp), if_pos hstack, stackByte, he]
  dsimp only
  rw [hcomp, if_neg (by omega), if_neg (by omega), hb]

/-! ### ECC events -/

/-- The registers a trigger writes. -/
def triggerRegs : List RegName := [.HIC_TRIG_STATUS, .COL_SEAL_STATE, .HIC_ELOG_PROD, .HIC_ELOG_DROP, .HIC_MGMT_STATUS]

section
variable (k : RegKey) (hk : k.name ∉ triggerRegs)
include hk

theorem getR_setF_trigger (s : State) (f : Field) (i j v : Nat) (hf : f.reg ∈ triggerRegs) :
    (s.setF f i j v).getR k = s.getR k := by
  rw [getR_setF, if_neg (fun he : f.key i j = k => hk (he ▸ hf))]

theorem getR_record_trigger (s : State) (a : RecArg) : (s.record a).getR k = s.getR k :=
  getR_record_of_name s a k fun h => hk (List.mem_cons_of_mem _ (List.mem_cons_of_mem _ h))

theorem getR_showSeal (s : State) : s.showSeal.getR k = s.getR k := by
  have hseal := fun (t : State) (f : Field) v (hf : f.reg = .COL_SEAL_STATE) =>
    getR_setF_trigger k hk t f 0 0 v (by rw [hf]; decide)
  unfold showSeal
  split
  · rw [hseal _ _ _ rfl, hseal _ _ _ rfl, hseal _ _ _ rfl, hseal _ _ _ rfl]
  · rw [hseal _ _ _ rfl, hseal _ _ _ rfl]

theorem getR_setStep (s : State) (v : StepVerdict) : (s.setStep v).getR k = s.getR k := by
  unfold setStep
  split
  · rfl
  · exact getR_showSeal k hk _

theorem getR_fireTrigger (s : State) (f : Field) (details : List Nat) (hf : f.reg = .HIC_TRIG_STATUS) :
    (s.fireTrigger f details).getR k = s.getR k := by
  have htrig := fun (t : State) (f : Field) v (hf : f.reg = .HIC_TRIG_STATUS) =>
    getR_setF_trigger k hk t f 0 0 v (by rw [hf]; decide)
  have hcount : ∀ t : State, t.countTrigger.getR k = t.getR k := fun t => by
    rw [countTrigger, getR_ite, hubRecord, getR_record_trigger k hk, ite_self]
    rfl
  have hlatch : (s.latchTrigger f details).getR k = s.getR k := by
    rw [latchTrigger, hcount, hubRecord, getR_record_trigger k hk, htrig _ _ _ hf]
  rw [fireTrigger, ← hlatch]
  generalize s.latchTrigger f details = t
  unfold holdSteps
  split
  · rw [htrig _ _ _ rfl]
    exact List.foldlRecOn (motive := fun u : State => u.getR k = t.getR k) _ _ rfl fun u hu v _ =>
      (getR_setStep k hk u _).trans hu
  · split
    · exact getR_record_trigger k hk _ _
    · rfl

theorem getR_stackEccBurst (s : State) (ms : Nat) : (s.stackEccBurst ms).getR k = s.getR k := by
  rw [stackEccBurst, getR_ite, getR_fireTrigger k hk _ _ _ rfl, ite_self]
  rfl

end

theorem latchEcc_reads (s : State) (ms ch rowg gran : Nat) (u : Bool) :
    (s.latchEcc ms ch rowg gran u).flag CRU_ECC_LAST_VALID ms 0 = true ∧
    ∀ f : Field, f.reg = .CRU_ECC → (s.latchEcc ms ch rowg gran u).getF f ms 0 = s.getF f ms 0 := by
  unfold latchEcc
  split
  · next h => exact ⟨h, fun _ _ => rfl⟩
  · refine ⟨by simp (disch := decide) only [flag_setF_apart, flag_setF_one], fun f hf => ?_⟩
    have hapart : ∀ (t : State) (g : Field) v, g.reg = .CRU_ECC_LAST → (t.setF g ms 0 v).getF f ms 0 = t.getF f ms 0 :=
      fun t g v hg => getF_setF_apart _ _ _ _ _ _ _ _ (.inl (by rw [hf, hg]; decide))
    simp only [hapart _ CRU_ECC_LAST_VALID _ rfl, hapart _ CRU_ECC_LAST_UNCORR _ rfl, hapart _ CRU_ECC_LAST_CHANNEL _ rfl,
      hapart _ CRU_ECC_LAST_ROWG _ rfl, hapart _ CRU_ECC_LAST_GRAN _ rfl]

/-- An event counted and latched, before its record. -/
def countCorrected (s : State) (ms ch rowg gran : Nat) : State :=
  (s.addF CRU_ECC_CORR ms 0 1).latchEcc ms ch rowg gran false

/-- The first event of a channel in its window recorded. -/
def recordWindow (s : State) (ms ch rowg gran : Nat) : State :=
  let w := s.time / 1000000 + 1
  let st := s.stack ms
  if Tab.getN 0 st.corrWin ch = w then s
  else (s.setStack ms { st with corrWin := Tab.putN 0 st.corrWin ch w }).stackRecord 0x0601 sevInfo ms 0 ch [ch, rowg, gran]

theorem eccCorrected_eq (s : State) (ms ch rowg gran : Nat) : s.eccCorrected ms ch rowg gran =
    ((s.countCorrected ms ch rowg gran).recordWindow ms ch rowg gran).stackEccBurst ms := rfl

theorem getR_recordWindow (s : State) (ms ch rowg gran : Nat) (k : RegKey) (hk : k.name ∉ triggerRegs) :
    (s.recordWindow ms ch rowg gran).getR k = s.getR k := by
  unfold recordWindow
  dsimp only
  split
  · rfl
  · rw [stackRecord, getR_record_trigger k hk]
    rfl

/-- What a granule's correction shows: one more counted, a place latched. -/
theorem eccCorrected_reads (s : State) (ms ch rowg gran : Nat) :
    (s.eccCorrected ms ch rowg gran).getF CRU_ECC_CORR ms 0 = min (s.getF CRU_ECC_CORR ms 0 + 1) (2 ^ 32 - 1) ∧
    (s.eccCorrected ms ch rowg gran).flag CRU_ECC_LAST_VALID ms 0 = true := by
  have hkeep : ∀ f : Field, f.reg ∉ triggerRegs →
      (s.eccCorrected ms ch rowg gran).getF f ms 0 = (s.countCorrected ms ch rowg gran).getF f ms 0 := fun f hf => by
    rw [eccCorrected_eq, getF, getR_stackEccBurst _ hf, getR_recordWindow _ _ _ _ _ _ hf, getF]
  obtain ⟨hvalid, hcount⟩ := (s.addF CRU_ECC_CORR ms 0 1).latchEcc_reads ms ch rowg gran false
  constructor
  · rw [hkeep _ (by decide), countCorrected, hcount _ rfl]
    exact getF_addF_same s CRU_ECC_CORR ms 0 1 (by decide)
  · rw [flag, hkeep _ (by decide)]
    exact hvalid

/-- What an uncorrectable granule shows. -/
theorem eccUncorrectable_reads (s : State) (ms ch rowg gran : Nat) :
    (s.eccUncorrectable ms ch rowg gran).getF CRU_ECC_UNCORR ms 0 = min (s.getF CRU_ECC_UNCORR ms 0 + 1) 65535 := by
  obtain ⟨-, hcount⟩ := (s.addF CRU_ECC_UNCORR ms 0 1).latchEcc_reads ms ch rowg gran true
  rw [eccUncorrectable, stackRecord, getF, getR_record_trigger _ (show CRU_ECC_UNCORR.reg ∉ triggerRegs by decide)]
  exact (hcount _ rfl).trans (getF_addF_same s CRU_ECC_UNCORR ms 0 1 (by decide))

end State
end Sys2Proof.Machine
end

section
/-! Stack reads and writes, write-backs, FLUSH, scrub and refresh (R180, R181, R187, R188): O34. -/

namespace Sys2Proof.Machine

/-! ### The commands -/

theorem exec_stackRead (r : Requester) (a : Nat) (e0 e1 : Ecc) (s : State) :
    exec (.stackRead r a e0 e1) s = .next (s.latchEdges (s.stackRead r a e0 e1)) := rfl

theorem exec_stackWrite (w : WriteReq) (s : State) : exec (.stackWrite w) s = .next (s.latchEdges (s.stackWrite w)) := rfl

theorem exec_wcbLineWriteback (ms : Fin 12) (s : State) :
    exec (.wcbLineWriteback ms) s = .next (s.latchEdges (s.oldestBack ms)) := rfl

theorem exec_scrub (ms : Fin 12) (ch : Fin 32) (g : Fin 524288) (n : Fin 128) (e : Ecc) (s : State) :
    exec (.scrub ms ch g n e) s = .next (s.latchEdges (s.scrub ms ch g n e)) := rfl

theorem exec_refresh (ms : Fin 12) (ch : Fin 32) (b : Fin 64) (s : State) :
    exec (.refresh ms ch b) s = .next (s.latchEdges (s.refresh ms)) := rfl

theorem atReg_stackReg (s t : State) (r : Requester) (ms off : Nat) (hoff : off < 0x100000000) (h : s.inReset (6 + ms) = false) :
    s.atReg r (stackReg ms 0 off) t = t := by
  rw [stackReg, s.atReg_dieReg t r (6 + ms) _ (by omega), if_neg (by simp [h])]

theorem exec_flush (r : Requester) (ms : Fin 12) (s : State) (h : s.inReset (6 + ms) = false) :
    exec (.flush r ms) s = .next (s.latchEdges (s.flushStack ms)) :=
  congrArg (commit s) (atReg_stackReg s _ r ms 0x30 (by omega) h)

theorem exec_cruCntClr (r : Requester) (ms : Fin 12) (s : State) (h : s.inReset (6 + ms) = false) :
    exec (.cruCntClr r ms) s = .next (s.latchEdges (s.cruCntClr ms)) :=
  congrArg (commit s) (atReg_stackReg s _ r ms 0 (by omega) h)

namespace State

/-! ### A read -/

theorem stackRead_of_mapped (s : State) (r : Requester) (a e : Nat) (ha : a % 64 = 0) (he : s.findRegion a = some e)
    (hmapped : s.mapped a = true) (hreach : s.unreachable (s.locate e a).stack = false) :
    s.stackRead r a .clean .clean =
      { s with readBytes := s.readBytesAt a 64, readPoison := (List.range 64).map fun i => s.readBad (a + i) } := by
  have hline : a / 64 * 64 = a := by omega
  have hclean : ∀ i : Nat, decide ((if i < 32 then Ecc.clean else Ecc.clean) = .uncorrectable) = false := fun i => by simp
  unfold stackRead
  dsimp only
  rw [hline, he]
  dsimp only [eccRead]
  rw [if_neg (by simp [hreach, hmapped])]
  simp only [hclean, Bool.or_false]

theorem stackRead_of_unmapped (s : State) (r : Requester) (a : Nat) (ha : a % 64 = 0) (he : s.findRegion a = none) :
    s.stackRead r a .clean .clean = { s.accessRecord 0x0102 r a with
      readBytes := List.replicate 64 0, readPoison := List.replicate 64 false } := by
  have hline : a / 64 * 64 = a := by omega
  unfold stackRead
  dsimp only
  rw [hline, he]

/-! ### A write within one line -/

theorem linesOf_single (a : Nat) (data : List Byte) (hne : data ≠ []) (hline : a % 64 + data.length ≤ 64) :
    linesOf a data = [(a, data)] := by
  obtain ⟨n, hn⟩ : ∃ n, data.length = n + 1 := Nat.exists_eq_succ_of_ne_zero fun h => hne (List.length_eq_zero_iff.mp h)
  have hdrop : data.drop (64 - a % 64) = [] := List.drop_eq_nil_of_le (by omega)
  have htake : data.take (64 - a % 64) = data := List.take_of_length_le (by omega)
  rw [linesOf, hn, lineSplit, if_neg hne, hdrop, htake, lineSplit, if_pos rfl]

theorem stackWrite_plain (s : State) (w : WriteReq) (e : Nat) (hne : w.data ≠ [])
    (hline : w.addr % 64 + w.data.length ≤ 64) (hpoison : w.poison = []) (he : s.findRegion w.addr = some e)
    (hmapped : s.mapped w.addr = true) (hcomp : (s.region e).comp = 0) (hver : (s.region e).ver = false)
    (haddr : isStackAddr w.addr = true) (hreach : s.unreachable (s.locate e w.addr).stack = false)
    (hroom : (s.stack (s.locate e w.addr).stack).wcb.length < 256) :
    s.stackWrite w = s.withBuffer (s.locate e w.addr).stack
      (enteredBuffer (s.stack (s.locate e w.addr).stack).wcb w.addr w.data w.epoch) := by
  have hplace : (s.region e).place (w.addr - (s.region e).base) = s.locate e w.addr := by
    rw [locate, hver, if_neg Bool.false_ne_true]
  rw [stackWrite, linesOf_single _ _ hne hline, List.foldl_cons, List.foldl_nil]
  dsimp only
  rw [write, if_neg (by simp [hmapped]), if_neg (by simp [haddr]), he]
  dsimp only
  rw [hplace, if_neg (by simp [hreach]), hcomp, if_neg (by omega), if_neg (by omega), if_neg (by simp [hver]), hpoison]
  exact s.wcbEnter_of_room _ _ _ _ hroom

/-! ### Write-backs -/

theorem oldestBack_cons (s : State) (ms : Nat) (l : WcbLine) (rest : List WcbLine) (h : (s.stack ms).wcb = l :: rest) :
    s.oldestBack ms = s.writeBack ms l := by
  rw [oldestBack, h]

theorem oldestBack_nil (s : State) (ms : Nat) (h : (s.stack ms).wcb = []) : s.oldestBack ms = s := by
  rw [oldestBack, h]

theorem dram_clearGran (s : State) (line : Nat) (b : Tab Nat (Option (Byte × Option Nat))) (g : Nat) :
    (clearGran line b s g).dram = s.dram := by
  unfold clearGran
  split
  · split <;> rfl
  · rfl

theorem dram_markGran (s : State) (line g : Nat) : (markGran line s g).dram = s.dram := by
  unfold markGran
  split <;> rfl

/-- Poison marks leave the bytes of DRAM. -/
theorem dram_storeLine (s : State) (l : WcbLine) : (s.storeLine l).dram = (l.bytes.foldl (storeLineByte l.line) s).dram := by
  have hclear : ∀ (u : State) (gs : List Nat), (gs.foldl (clearGran l.line l.bytes) u).dram = u.dram := fun u gs =>
    List.foldlRecOn (motive := fun v : State => v.dram = u.dram) _ _ rfl fun v hv g _ => (v.dram_clearGran ..).trans hv
  have hmark : ∀ (u : State) (gs : List Nat), (gs.foldl (markGran l.line) u).dram = u.dram := fun u gs =>
    List.foldlRecOn (motive := fun v : State => v.dram = u.dram) _ _ rfl fun v hv g _ => (v.dram_markGran ..).trans hv
  rw [storeLine, hmark, hclear]

theorem writeBack_stores (s : State) (ms : Nat) (l : WcbLine) (o e : Nat) (b : Byte) (ep : Option Nat)
    (hl : l.bytes = [(o, some (b, ep))]) (he : s.findRegion (l.line * 64 + o) = some e) :
    (s.writeBack ms l).dramByte (s.locate e (l.line * 64 + o)) = b := by
  have hdram : (s.writeBack ms l).dram = (s.setDram (s.locate e (l.line * 64 + o)) b).dram := by
    have hback : (s.writeBack ms l).dram = (s.storeLine l).dram := rfl
    rw [hback, dram_storeLine, hl, List.foldl_cons, List.foldl_nil, storeLineByte, he]
  rw [dramByte, hdram]
  exact (Tab.getN_putN ..).trans (if_pos rfl)

/-! ### Scrub -/

theorem granBad_setGranBad (s : State) (p : Place) (b : Bool) : (s.setGranBad p b).granBad p = b :=
  (Tab.getN_putN ..).trans (if_pos rfl)

theorem scrub_off (s : State) (ms ch g n : Nat) (e : Ecc) (h : s.flag CRU_CTRL_SCRUB_EN ms 0 = false) :
    s.scrub ms ch g n e = s := if_neg (by simp [h])

theorem scrub_clean (s : State) (ms ch g n : Nat) : s.scrub ms ch g n .clean = s := by
  rw [scrub, eccRead, ite_self]

theorem scrub_corrected (s : State) (ms ch g n : Nat) (h : s.flag CRU_CTRL_SCRUB_EN ms 0 = true) :
    s.scrub ms ch g n .corrected = s.eccCorrected ms ch g (32 * n / 32) := if_pos h

theorem scrub_uncorrectable (s : State) (ms ch g n : Nat) (h : s.flag CRU_CTRL_SCRUB_EN ms 0 = true) :
    s.scrub ms ch g n .uncorrectable =
      (s.eccUncorrectable ms ch g (32 * n / 32)).setGranBad (granPlace ms ch g n) true := if_pos h

end State

/-- Settles O34: the buffer's byte is what every reader sees, a write-back takes its line out of the buffer, and FLUSH is
write-backs until none is left. -/
theorem stacksReadAndWrite : Obligations.StacksReadAndWrite := by
  intro s r ms
  refine ⟨fun a e ha he hmapped hreach => ?_, fun a ha he => ?_,
    fun w e hne hline hpoison he hbytes hcomp hver haddr hreach hroom hstack => ?_, fun l rest hbuf => ?_, fun hbuf => ?_,
    fun h => ⟨?_, ?_⟩, fun ch g n => ⟨?_, fun hoff e => ?_, fun hon => ⟨?_, ?_⟩⟩, fun ch b => ?_⟩
  · rw [exec_stackRead, s.stackRead_of_mapped r a e ha he hmapped hreach]
    exact congrArg _ (latchEdges_of_levels_kept (fun _ _ => rfl) rfl rfl)
  · rw [exec_stackRead, s.stackRead_of_unmapped r a ha he]
  · have hin : ∀ i < w.data.length, State.isStackAddr (w.addr + i) = true := fun i hi => by
      simp only [State.isStackAddr, decide_eq_true_eq] at haddr ⊢
      omega
    have hlen : 0 < w.data.length := List.length_pos_iff.mpr hne
    have hwrite := s.stackWrite_plain w e hne hline hpoison he (hbytes 0 hlen).2 hcomp hver (hin 0 hlen) hreach hroom
    generalize hms : (s.locate e w.addr).stack = m at hwrite hroom hreach hstack
    refine ⟨s.stackWrite w, ?_, ?_, fun i hi => ?_, fun a ha => ?_⟩
    · rw [exec_stackWrite, hwrite]
      exact congrArg _ (latchEdges_of_levels_kept (fun _ _ => rfl) rfl rfl)
    · rw [hwrite]
      rfl
    · obtain ⟨hfind, hmapped⟩ := hbytes i hi
      have hplace : (s.locate e (w.addr + i)).stack = m := by
        have h64 := hstack (w.addr % 64 + i) (by omega)
        rwa [show w.addr / 64 * 64 + (w.addr % 64 + i) = w.addr + i by omega] at h64
      rw [hwrite]
      refine State.readByte_of_buffer _ (w.addr + i) e _ hmapped (hin i hi) hfind hcomp ?_
      rw [State.locate_withBuffer, hplace, State.wcbByte_withBuffer, if_pos rfl, State.bufferByte_entered _ _ _ _ _ hline,
        if_pos (by omega), Nat.add_sub_cancel_left]
    · rw [hwrite]
      refine s.readByte_withBuffer m _ a fun e' he' _ => ?_
      rw [State.bufferByte_entered _ _ _ _ _ hline, if_neg (by omega)]
  · have hinto := IntoStacks.writeBack s ms l
    refine ⟨s.writeBack ms l, ?_, hinto.eq, ?_, fun o b ep e hl he => s.writeBack_stores ms l o e b ep hl he⟩
    · rw [exec_wcbLineWriteback, s.oldestBack_cons ms l rest hbuf, hinto.latch]
    · rw [State.stack_writeBack, if_pos rfl, hbuf]
  · rw [exec_wcbLineWriteback, s.oldestBack_nil ms hbuf, latchEdges_self s]
  · have hinto := IntoStacks.flushStack s ms
    refine ⟨s.flushStack ms, ?_, hinto.eq, s.wcb_flushStack ms, fun m hm => s.stack_flushStack_ne ms m hm⟩
    rw [exec_flush r ms s h, hinto.latch]
  · exact exec_cruCntClr r ms s h
  · rw [exec_scrub, s.scrub_clean, latchEdges_self s]
  · rw [exec_scrub, s.scrub_off _ _ _ _ _ hoff, latchEdges_self s]
  · obtain ⟨hcount, hvalid⟩ := s.eccCorrected_reads ms ch g (32 * n / 32)
    refine ⟨_, exec_scrub ms ch g n .corrected s, ?_⟩
    rw [s.scrub_corrected _ _ _ _ hon, State.getF_latch _ _ _ _ _ (by decide), State.flag_latch _ _ _ _ _ (by decide)]
    exact ⟨hcount, hvalid⟩
  · have hcount := s.eccUncorrectable_reads ms ch g (32 * n / 32)
    refine ⟨_, exec_scrub ms ch g n .uncorrectable s, ?_⟩
    rw [s.scrub_uncorrectable _ _ _ _ hon, State.getF_latch _ _ _ _ _ (by decide)]
    refine ⟨hcount, ?_⟩
    rw [State.granBad, State.latchEdges_granPoison]
    exact State.granBad_setGranBad ..
  · rw [exec_refresh]
    exact congrArg _ (latchEdges_of_levels_kept (fun _ _ => rfl) rfl rfl)

end Sys2Proof.Machine
end

section
/-! First-touch copies and frame waits (R205, R208), for O36. -/

namespace Sys2Proof.Machine

/-! ### Table entries moved to other keys -/

section
variable {α : Type} [DecidableEq α] (d : α) (move : Nat → Nat)

/-- A table with the entries of another entered at moved keys. -/
def Tab.entered (l t : Tab Nat α) : Tab Nat α := l.foldl (fun t e => Tab.putN d t (move e.1) e.2) t

theorem Tab.getN_entered_ne (l : Tab Nat α) (b : Nat) (h : ∀ e ∈ l, move e.1 ≠ b) (t : Tab Nat α) :
    Tab.getN d (Tab.entered d move l t) b = Tab.getN d t b :=
  List.foldlRecOn (motive := fun u => Tab.getN d u b = Tab.getN d t b) _ _ rfl fun u hu e he => by
    rw [Tab.getN_putN, if_neg (h e he), hu]

/-- A moved key reads what the entered table had at the key, where nothing stood there before. -/
theorem Tab.getN_entered (l : Tab Nat α) (a : Nat) (hl : Tab.wf natLt (fun _ => d) l = true)
    (hinj : ∀ e ∈ l, move e.1 = move a → e.1 = a) :
    ∀ t : Tab Nat α, Tab.getN d t (move a) = d → Tab.getN d (Tab.entered d move l t) (move a) = Tab.getN d l a := by
  induction l with
  | nil => exact fun _ ht => ht
  | cons e l ih =>
    intro t ht
    obtain ⟨_, hlt, hwf⟩ := (Tab.wf_cons ..).mp hl
    have hinjl := fun x hx => hinj x (List.mem_cons_of_mem _ hx)
    by_cases he : e.1 = a
    · have hne : ∀ x ∈ l, x.1 ≠ a := fun x hx hxa => by
        have := hlt x hx
        simp [natLt, he, hxa] at this
      calc Tab.getN d (Tab.entered d move l (Tab.putN d t (move e.1) e.2)) (move a)
          = Tab.getN d (Tab.putN d t (move e.1) e.2) (move a) :=
            Tab.getN_entered_ne d move l _ (fun x hx hm => hne x hx (hinjl x hx hm)) _
        _ = e.2 := by rw [he, Tab.getN_putN, if_pos rfl]
        _ = Tab.getN d (e :: l) a := (if_pos he).symm
    · calc Tab.getN d (Tab.entered d move l (Tab.putN d t (move e.1) e.2)) (move a)
          = Tab.getN d l a := ih hwf hinjl _ (by
            rw [Tab.getN_putN, if_neg (fun hm => he (hinj e List.mem_cons_self hm)), ht])
        _ = Tab.getN d (e :: l) a := (if_neg he).symm

end

/-! ### The commands -/

theorem exec_firstTouchCopyDone (ms : Fin 12) (corr bad : List Nat) (s : State) :
    exec (.firstTouchCopyDone ms corr bad) s = .next (s.latchEdges (s.firstTouchDone ms corr bad)) := rfl

theorem exec_pinsAbandoned (ms : Fin 12) (s : State) :
    exec (.pinsAbandoned ms) s = .next (s.latchEdges (s.pinsAbandoned ms)) := rfl

theorem exec_forcedCommit (ms : Fin 12) (s : State) :
    exec (.forcedCommit ms) s = .next (s.latchEdges (s.forcedCommit ms)) := rfl

theorem Stable.dropPins {P : State → Prop} (hP : Stable P) {s : State} {ms : Nat} (h : P s) : P (s.dropPins ms) := by
  unfold State.dropPins
  exact hP.versioning.pump (Stable.foldl h fun _ _ hu => hP.versioning.dropRetained (hP.versioning.setPageVer hu))

namespace State

/-! ### The bytes of a copied frame -/

/-- The number of a byte in a frame of 16 row-granules of a channel. -/
theorem addr_frame (ms ch f k o : Nat) :
    (⟨ms, ch, 16 * f + k, o⟩ : Place).addr = (ms * 32 + ch) * 2 ^ 31 + f * 65536 + k * 4096 + o := by
  simp only [Place.addr]
  omega

theorem inFrame_addr (ms ch f k o : Nat) (hch : ch < 32) (hf : f < 32768) (hk : k < 16) (ho : o < 4096) (g : Nat) :
    inFrame ms g (⟨ms, ch, 16 * f + k, o⟩ : Place).addr = decide (f = g) := by
  have hstack : (⟨ms, ch, 16 * f + k, o⟩ : Place).addr / 2 ^ 36 = ms := by
    rw [addr_frame]
    omega
  have hframe : (⟨ms, ch, 16 * f + k, o⟩ : Place).addr % 2 ^ 31 / 65536 = f := by
    rw [addr_frame]
    omega
  rw [inFrame, hstack, hframe, decide_eq_true rfl, Bool.true_and]

/-- A copied frame holds the bytes of the one it was copied from. -/
theorem dramByte_copyFrame (s : State) (ms f g ch k o : Nat) (hs : Memory.wf s.dram = true) (hf : f < 32768)
    (hg : g < 32768) (hch : ch < 32) (hk : k < 16) (ho : o < 4096) :
    (s.copyFrame ms f g).dramByte ⟨ms, ch, 16 * g + k, o⟩ = s.dramByte ⟨ms, ch, 16 * f + k, o⟩ := by
  have hfrom := inFrame_addr ms ch f k o hch hf hk ho f
  have hto := inFrame_addr ms ch g k o hch hg hk ho g
  have hmove : (⟨ms, ch, 16 * f + k, o⟩ : Place).addr - f * 65536 + g * 65536 =
      (⟨ms, ch, 16 * g + k, o⟩ : Place).addr := by
    rw [addr_frame, addr_frame]
    omega
  have hlow : ∀ a, inFrame ms f a = true → f * 65536 ≤ a := fun a ha => by
    have : a % 2 ^ 31 / 65536 = f := by
      simp only [inFrame, Bool.and_eq_true, decide_eq_true_eq] at ha
      exact ha.2
    omega
  have hentered := Tab.getN_entered memDefault (fun a => a - f * 65536 + g * 65536)
    (s.dram.filter fun e => inFrame ms f e.1) (⟨ms, ch, 16 * f + k, o⟩ : Place).addr
    (Tab.wf_filter _ _ _ _ hs)
    (fun e he hm => by
      have h1 := hlow _ (List.mem_filter.mp he).2
      have h2 := hlow _ (hfrom.trans (by simp))
      omega)
    (s.dram.filter fun e => !inFrame ms g e.1)
    ((Tab.get_filter_key _ _ (fun a => !inFrame ms g a) _).trans
      (if_neg (by rw [hmove, hto]; simp)))
  rw [hmove] at hentered
  exact hentered.trans ((Tab.get_filter_key _ _ (inFrame ms f) _).trans (if_pos (hfrom.trans (by simp))))

/-! ### The end of a copy -/

theorem flushPage_of_empty (s : State) (ms p : Nat) (h : (s.stack ms).wcb = []) : s.flushPage ms p = s := by
  unfold flushPage
  rw [h]
  rfl

/-- What showing a wait leaves alone: the memory, the copies and the version table. -/
theorem showWait_leaves (s : State) (ms : Nat) : (s.showWait ms).dram = s.dram ∧
    ((s.showWait ms).stack ms).copies = (s.stack ms).copies ∧ ((s.showWait ms).stack ms).ver = (s.stack ms).ver := by
  unfold showWait
  dsimp only
  split
  · split
    · exact ⟨rfl, rfl, rfl⟩
    · rw [stack_setF, stack_setStack, if_pos rfl]
      exact ⟨rfl, rfl, rfl⟩
  · split
    · rw [stack_setF, stack_ite, stack_addF, ite_self, stack_setStack, if_pos rfl]
      refine ⟨?_, rfl, rfl⟩
      split <;> rfl
    · exact ⟨rfl, rfl, rfl⟩

/-- With no write waiting, trying the waiting writes leaves the same alone. -/
theorem pump_leaves (s : State) (ms : Nat) (h : (s.stack ms).waiting = []) : (s.pump ms).dram = s.dram ∧
    ((s.pump ms).stack ms).copies = (s.stack ms).copies ∧ ((s.pump ms).stack ms).ver = (s.stack ms).ver := by
  have hpump : s.pump ms = (s.setStack ms { s.stack ms with waiting := [] }).showWait ms := by
    unfold pump
    dsimp only
    rw [h]
    rfl
  have hleaves := showWait_leaves (s.setStack ms { s.stack ms with waiting := [] }) ms
  rw [← hpump, stack_setStack, if_pos rfl] at hleaves
  exact hleaves

/-- The oldest copy ended: its page in the new frame, the old one retained. -/
def endCopy (s : State) (ms : Nat) (c : FtCopy) (rest : List FtCopy) : State :=
  let v := s.pageVer ms c.page
  ((s.copyFrame ms v.cur c.frame).setStack ms { s.stack ms with copies := rest }).setPageVer ms c.page
    { cur := c.frame, vep := max v.vep c.epoch, pin := none, retained := v.retained ++ [⟨v.cur, v.vep, v.pin⟩] }

theorem stack_endCopy (s : State) (ms : Nat) (c : FtCopy) (rest : List FtCopy) : (s.endCopy ms c rest).stack ms =
    { s.stack ms with
      copies := rest
      ver := Tab.putN none (s.stack ms).ver c.page (some {
        cur := c.frame, vep := max (s.pageVer ms c.page).vep c.epoch, pin := none,
        retained := (s.pageVer ms c.page).retained ++
          [⟨(s.pageVer ms c.page).cur, (s.pageVer ms c.page).vep, (s.pageVer ms c.page).pin⟩] }) } := by
  rw [endCopy, setPageVer]
  dsimp only
  rw [stack_setStack, if_pos rfl, stack_setStack, if_pos rfl]

theorem firstTouchDone_of_copy (s : State) (ms : Nat) (c : FtCopy) (rest : List FtCopy)
    (hc : (s.stack ms).copies = c :: rest) (hb : (s.stack ms).wcb = []) :
    s.firstTouchDone ms [] [] = (s.endCopy ms c rest).pump ms := by
  unfold firstTouchDone
  rw [hc]
  dsimp only [List.foldl]
  rw [s.flushPage_of_empty ms c.page hb]
  rfl

theorem firstTouchDone_of_none (s : State) (ms : Nat) (h : (s.stack ms).copies = []) : s.firstTouchDone ms [] [] = s := by
  unfold firstTouchDone
  rw [h]

theorem pageVer_of_ver (s : State) (ms p : Nat) (v : PageVer) (t : Tab Nat (Option PageVer))
    (h : (s.stack ms).ver = Tab.putN none t p (some v)) : s.pageVer ms p = v := by
  rw [pageVer, h, Tab.getN_putN, if_pos rfl, Option.getD_some]

/-! ### Frame waits -/

/-- A guarded field reads as before after what `Stable` covers, except for the mark of a waiting write. -/
theorem stable_getF (f : Field) (i j v : Nat) (hf : f.reg ∈ guarded)
    (hw : CRU_VER_STATUS_WAITING.reg ≠ f.reg ∨ f.hi < CRU_VER_STATUS_WAITING.lo ∨ CRU_VER_STATUS_WAITING.hi < f.lo) :
    Stable (fun t => t.getF f i j = v) where
  putR t k w hk h := (getF_putR_apart t k.name k.inst k.idx w f i j (fun he => hk (he ▸ hf))).trans h
  waiting t ms w h := (getF_setF_apart t f _ i j ms 0 w hw).trans h
  parts t u h hu := by rw [getF, getR, hu.regs, ← getR, ← getF, h]
  record t a h := by
    have hlog : ∀ n ∈ guarded, n ∉ [RegName.HIC_ELOG_PROD, .HIC_ELOG_DROP, .HIC_MGMT_STATUS] := by decide
    exact (getF_record_apart t a f i j (hlog _ hf)).trans h

theorem flag_pinsAbandoned (s : State) (ms : Nat) (hw : s.flag CRU_VER_STATUS_WAITING ms 0 = true)
    (hstage : (s.stack ms).waitStage = 0) : (s.pinsAbandoned ms).flag CRU_VER_STATUS_ABANDONED ms 0 = true := by
  have hP := stable_getF CRU_VER_STATUS_ABANDONED ms 0 1 (by decide) (by decide)
  have h : (s.pinsAbandoned ms).getF CRU_VER_STATUS_ABANDONED ms 0 = 1 := by
    rw [pinsAbandoned, if_pos (by rw [hw, hstage]; rfl)]
    refine hP.voidIngot (hP.dropPins (hP.record _ _ ?_))
    rw [getF_setF_same _ _ _ _ _ (by decide)]
    rfl
  rw [flag, h]
  rfl

theorem pinsAbandoned_of_no_wait (s : State) (ms : Nat) (hw : s.flag CRU_VER_STATUS_WAITING ms 0 = false) :
    s.pinsAbandoned ms = s := by
  rw [pinsAbandoned, if_neg (by simp [hw])]

theorem getF_forcedCommit (s : State) (ms p : Nat) (v : PageVer) (x : Retained)
    (hw : s.flag CRU_VER_STATUS_WAITING ms 0 = true) (hstage : (s.stack ms).waitStage = 1)
    (hver : (s.stack ms).ver = [(p, some v)]) (hx : v.retained = [x]) :
    (s.forcedCommit ms).getF CRU_VER_STATUS_FORCED ms 0 = 1 ∧
      (s.forcedCommit ms).getF CRU_VER_STATUS_FORCED_EPOCH ms 0 = (x.tag + 1) % 2 ^ 32 := by
  have hpages : s.verPages ms = [(p, v)] := by
    rw [verPages, hver]
    rfl
  have htags : ((s.verPages ms).flatMap fun x => x.2.retained.map (·.tag)) = [x.tag] := by
    rw [hpages, List.flatMap_singleton, hx]
    rfl
  have hkeep : ∀ (f : Field) (n : Nat), f.reg ∈ guarded →
      (CRU_VER_STATUS_WAITING.reg ≠ f.reg ∨ f.hi < CRU_VER_STATUS_WAITING.lo ∨ CRU_VER_STATUS_WAITING.hi < f.lo) →
      ((s.setF CRU_VER_STATUS_FORCED_EPOCH ms 0 (x.tag + 1)).setF CRU_VER_STATUS_FORCED ms 0 1).getF f ms 0 = n →
      (s.forcedCommit ms).getF f ms 0 = n := fun f n hf hwait hn => by
    have hP := stable_getF f ms 0 n hf hwait
    unfold forcedCommit
    extract_lets tags
    have ht : tags = [x.tag] := htags
    clear_value tags
    subst ht
    dsimp only
    rw [if_neg (by simp [hw, hstage])]
    exact hP.versioning.pump (Stable.foldl (P := fun t => t.getF f ms 0 = n) (hP.record _ _ hn) fun _ _ hu => hP.versioning.dropRetained hu)
  exact ⟨hkeep _ _ (by decide) (by decide) (getF_setF_same _ _ _ _ _ (by decide)),
    hkeep _ _ (by decide) (by decide) ((getF_setF_apart _ _ _ _ _ _ _ _ (by decide)).trans
      (getF_setF_same _ _ _ _ _ (by decide)))⟩

theorem forcedCommit_of_no_wait (s : State) (ms : Nat) (hw : s.flag CRU_VER_STATUS_WAITING ms 0 = false) :
    s.forcedCommit ms = s := by
  unfold forcedCommit
  dsimp only
  split
  · rfl
  · rw [if_pos (by simp [hw])]

end State
end Sys2Proof.Machine
end

section
/-! Reduce-on-write contexts (R193 to R195, R360), for O36. -/

namespace Sys2Proof.Machine

theorem exec_rowContextCreate (ms : Fin 12) (c : Fin 256) (x : RowSetup) (s : State) :
    exec (.rowContextCreate ms c x) s =
      .next (s.latchEdges (s.rowCreate ms c x { owner := some x.owner, origin := x.dst, inMem := true })) := rfl

theorem exec_rowChunkArrive (ms : Fin 12) (c : Fin 256) (q k : Nat) (leaf : Bool) (data : List Byte)
    (faults : List (Nat × BitVec 32)) (s : State) :
    exec (.rowChunkArrive ms c q k leaf data faults) s =
      .next (s.latchEdges (s.rowArriveFaulty ms c q k leaf data faults)) := rfl

namespace State

/-! ### Creation (R193) -/

/-- The registers of a new context. -/
def rowRegs (s : State) (ms c : Nat) (x : RowSetup) : State :=
  let s := (s.setF CRU_ROW_DST_DST ms c x.dst).setF CRU_ROW_DST_LEN_G ms c x.lenG
  let s := (s.setF CRU_ROW_PARK_PARK ms c x.park).setF CRU_ROW_PARK_PARK_SLOTS ms c x.parkSlots
  let s := s.putR ⟨.CRU_ROW_STATE, ms, c⟩ 0
  let s := (s.setF CRU_ROW_CFG_FMT ms c x.fmt).setF CRU_ROW_CFG_INIT ms c (if x.overwrite then 1 else 0)
  let s := (s.setF CRU_ROW_CFG_RND ms c (if x.stochastic then 1 else 0)).setF CRU_ROW_CFG_DIG ms c (if x.dig then 1 else 0)
  let s := (s.setF CRU_ROW_CFG_STAT ms c (if x.stat then 1 else 0)).setF CRU_ROW_CFG_SLOT ms c x.slot
  let s := (s.setF CRU_ROW_CFG_NCONTRIB ms c x.ncontrib).setF CRU_ROW_CFG_TENSOR ms c x.tensor
  s.setF CRU_ROW_CFG_VALID ms c 1

theorem rowCreate_of_allowed (s : State) (ms c : Nat) (x : RowSetup) (ctx : RowCtx) (ha : s.rowAllowed x.dst = true)
    (hv : s.flag CRU_ROW_CFG_VALID ms c = false) :
    s.rowCreate ms c x ctx = (s.rowRegs ms c x).setRow ms c ctx := by
  rw [rowCreate, if_neg (by simp [ha, hv])]
  rfl

/-- The registers of one context. -/
def IsRowReg (ms c : Nat) (k : RegKey) : Prop :=
  k.inst = ms ∧ k.idx = c ∧ k.name ∈ [.CRU_ROW_DST, .CRU_ROW_CFG, .CRU_ROW_PARK, .CRU_ROW_STATE]

theorem onlyRegs_rowRegs (s : State) (ms c : Nat) (x : RowSetup) : OnlyRegs (IsRowReg ms c) s (s.rowRegs ms c x) := by
  have hset : ∀ {t : State} (f : Field) (v : Nat), OnlyRegs (IsRowReg ms c) s t →
      f.reg ∈ [RegName.CRU_ROW_DST, .CRU_ROW_CFG, .CRU_ROW_PARK, .CRU_ROW_STATE] →
      OnlyRegs (IsRowReg ms c) s (t.setF f ms c v) := fun f v h hf =>
    h.setF _ _ _ _ ⟨rfl, rfl, hf⟩ (fun he => absurd (he ▸ hf) (by decide))
  have hbase := (((hset CRU_ROW_DST_DST x.dst (.refl _ s) (by decide)) |> (hset CRU_ROW_DST_LEN_G x.lenG · (by decide))) |>
    (hset CRU_ROW_PARK_PARK x.park · (by decide))) |> (hset CRU_ROW_PARK_PARK_SLOTS x.parkSlots · (by decide))
  have hstate := hbase.putR ⟨.CRU_ROW_STATE, ms, c⟩ 0 ⟨rfl, rfl, by simp⟩ RegName.noConfusion
  refine hset _ _ ?_ (by decide)
  refine hset _ _ (hset _ _ ?_ (by decide)) (by decide)
  refine hset _ _ (hset _ _ ?_ (by decide)) (by decide)
  refine hset _ _ (hset _ _ ?_ (by decide)) (by decide)
  exact hset _ _ (hset _ _ hstate (by decide)) (by decide)

theorem rowRegs_reads (s : State) (ms c : Nat) (x : RowSetup) :
    (s.rowRegs ms c x).flag CRU_ROW_CFG_VALID ms c = true ∧
    (s.rowRegs ms c x).getF CRU_ROW_DST_DST ms c = x.dst % 2 ^ 44 ∧
    (s.rowRegs ms c x).getF CRU_ROW_DST_LEN_G ms c = x.lenG % 2 ^ 20 ∧
    (s.rowRegs ms c x).getF CRU_ROW_CFG_NCONTRIB ms c = x.ncontrib % 4096 ∧
    (s.rowRegs ms c x).flag CRU_ROW_CFG_INIT ms c = x.overwrite ∧
    (s.rowRegs ms c x).getR ⟨.CRU_ROW_STATE, ms, c⟩ = 0 := by
  refine ⟨?_, ?_, ?_, ?_, ?_, ?_⟩ <;> unfold rowRegs
  · exact flag_setF_one _ _ _ _ (by decide)
  · simp (disch := decide) only [getF_setF_apart, getF_putR_apart, getF_setF_self]
    rfl
  · simp (disch := decide) only [getF_setF_apart, getF_putR_apart, getF_setF_self]
    rfl
  · simp (disch := decide) only [getF_setF_apart, getF_setF_self]
    rfl
  · simp (disch := decide) only [flag_setF_apart, flag_setF_ite]
    simp
  · simp (disch := decide) only [getR_setF_apart]
    simp

theorem rowOf_setRow (s : State) (ms c : Nat) (x : RowCtx) : (s.setRow ms c x).rowOf ms c = x := by
  rw [rowOf, setRow, stack_setStack, if_pos rfl, Tab.getN_putN, if_pos rfl]

theorem setRow_regs (s : State) (ms c : Nat) (x : RowCtx) : (s.setRow ms c x).regs = s.regs := rfl

theorem setRow_rest {s t : State} (h : t = { s with regs := t.regs }) (ms c : Nat) (x : RowCtx) :
    ∃ r k, t.setRow ms c x = { s with regs := r, stackTab := k } := by
  obtain ⟨r, rfl⟩ := rest_iff.mp h
  exact ⟨_, _, rfl⟩

/-! ### Storing bytes leaves the contexts -/

theorem rows_wcbEnter (s : State) (ms a : Nat) (data : List Byte) (e : Option Nat) (p : List Nat) (m : Nat) :
    ((s.wcbEnter ms a data e p).stack m).rows = (s.stack m).rows := by
  unfold wcbEnter
  dsimp only
  split
  · rw [stack_setStack]
    split
    · next h => rw [h]
    · rfl
  · have hback : ∀ l, ((s.writeBack ms l).stack m).rows = (s.stack m).rows := fun l => by
      rw [stack_writeBack]
      split
      · next h => rw [h]
      · rfl
    have hroom : ((match (s.stack ms).wcb with
        | l :: _ => if 256 ≤ (s.stack ms).wcb.length then s.writeBack ms l else s
        | [] => s : State).stack m).rows = (s.stack m).rows := by
      split
      · split
        · exact hback _
        · rfl
      · rfl
    rw [stack_setStack]
    split
    · next h =>
      subst h
      exact hroom
    · exact hroom

theorem stack_storeLocal (s : State) (a : Nat) (data : List Byte) (m : Nat) :
    (s.storeLocal a data).stack m = s.stack m := by
  have hbytes : ((List.range data.length).foldl (fun s i => s.setMem (a + i) (data.getD i 0)) s).stack m = s.stack m :=
    List.foldlRecOn (motive := fun u : State => u.stack m = s.stack m) _ _ rfl fun u hu _ _ => hu
  unfold storeLocal
  dsimp only
  split
  · exact hbytes
  · exact hbytes

theorem rows_storeAll (s : State) (a : Nat) (data : List Byte) (e : Option Nat) (m : Nat) :
    ((s.storeAll a data e).stack m).rows = (s.stack m).rows :=
  List.foldlRecOn (motive := fun u : State => (u.stack m).rows = (s.stack m).rows) _ _ rfl fun u hu l _ => by
    have hlocal : ((u.storeLocal l.1 l.2).stack m).rows = (u.stack m).rows := by
      rw [stack_storeLocal]
    refine Eq.trans ?_ hu
    unfold storeRaw
    split
    · rfl
    · split
      · split
        · split
          · rfl
          · exact rows_wcbEnter ..
        · rfl
      · exact hlocal

theorem rowOf_areaWord (s : State) (ms c off v : Nat) (m d : Nat) : (s.areaWord ms c off v).rowOf m d = s.rowOf m d := by
  rw [areaWord]
  split
  · rw [rowOf, rows_storeAll, rowOf]
  · rfl

theorem regs_areaWord (s : State) (ms c off v : Nat) : (s.areaWord ms c off v).regs = s.regs := by
  rw [areaWord]
  split
  · exact storeAll_regs ..
  · rfl

/-! ### A contribution applied (R194, R196) -/

theorem rowOf_rowComplete (s : State) (ms c : Nat) :
    ∃ loc sum, (s.rowComplete ms c).rowOf ms c = { s.rowOf ms c with loc := loc, sum := sum } := by
  unfold rowComplete
  extract_lets n x stat total s1 x1 s2 s3
  have hx : x1 = { x with loc := total x.leafSum, sum := total x.doneSum } := s.rowOf_setRow ms c _
  have h2 : s2.rowOf ms c = x1 := (rowOf_areaWord ..).trans (rowOf_areaWord ..)
  refine ⟨total x.leafSum, total x.doneSum, Eq.trans ?_ (h2.trans hx)⟩
  show s3.rowOf ms c = _
  show (if _ then _ else _ : State).rowOf ms c = _
  split
  · exact rowOf_areaWord ..
  · rfl

theorem getF_areaWord (s : State) (ms c off v : Nat) (f : Field) (i j : Nat) :
    (s.areaWord ms c off v).getF f i j = s.getF f i j := by
  rw [getF, getR, regs_areaWord, ← getR, ← getF]

theorem getF_rowComplete (s : State) (ms c : Nat) (f : Field) (hf : CRU_ROW_STATE_COMPLETE.reg ≠ f.reg ∨
    f.hi < CRU_ROW_STATE_COMPLETE.lo ∨ CRU_ROW_STATE_COMPLETE.hi < f.lo) :
    (s.rowComplete ms c).getF f ms c = s.getF f ms c := by
  unfold rowComplete
  dsimp only
  rw [getF_setF_apart _ _ _ _ _ _ _ _ hf, getF_ite, getF_areaWord, ite_self, getF_areaWord, getF_areaWord]
  rfl

/-- What applying a contribution leaves: its turn taken, what is parked as before, and the chunk counted with its last
contribution. -/
theorem rowApply_reads (s : State) (ms c q k : Nat) (leaf : Bool) (data : List Byte) (faults : List (Nat × F32)) :
    ((s.rowApply ms c q k leaf data faults).rowOf ms c).parked = (s.rowOf ms c).parked ∧
    Tab.getN 0 ((s.rowApply ms c q k leaf data faults).rowOf ms c).next q = k + 1 ∧
    (k + 1 = s.getF CRU_ROW_CFG_NCONTRIB ms c → (s.rowApply ms c q k leaf data faults).getF CRU_ROW_STATE_DONE ms c =
      min (s.getF CRU_ROW_STATE_DONE ms c + 1) (2 ^ 20 - 1)) := by
  unfold rowApply
  extract_lets code n x stat e a codes vs bytes s1 s2 last f leafSum doneSum dig s3 s4 s5 s6
  have hkeep : ∀ f : Field, f.reg ∈ guarded → (CRU_VER_STATUS_WAITING.reg ≠ f.reg ∨ f.hi < CRU_VER_STATUS_WAITING.lo ∨
      CRU_VER_STATUS_WAITING.hi < f.lo) → s2.getF f ms c = s.getF f ms c := fun f hf hw => by
    have hP := stable_getF f ms c (s.getF f ms c) hf hw
    exact hP.writePlain (hP.enterCounts rfl)
  have hwords : ∀ f : Field, s5.getF f ms c = s2.getF f ms c := fun f =>
    (getF_areaWord ..).trans ((getF_areaWord ..).trans (getF_areaWord ..))
  have hrow : s5.rowOf ms c = { x with
      next := Tab.putN 0 x.next q (k + 1), leafSum := leafSum, doneSum := doneSum, digest := dig } :=
    (rowOf_areaWord ..).trans ((rowOf_areaWord ..).trans ((rowOf_areaWord ..).trans (rowOf_setRow ..)))
  have hnext : Tab.getN 0 (s5.rowOf ms c).next q = k + 1 := by
    rw [hrow, Tab.getN_putN, if_pos rfl]
  have hparked : (s5.rowOf ms c).parked = x.parked := by rw [hrow]
  have hlast : last = decide (k + 1 = s.getF CRU_ROW_CFG_NCONTRIB ms c) := by
    rw [← hkeep CRU_ROW_CFG_NCONTRIB (by decide) (by decide)]
  have hdone : s6.getF CRU_ROW_STATE_DONE ms c = min (s.getF CRU_ROW_STATE_DONE ms c + 1) (2 ^ 20 - 1) := by
    refine (getF_addF_self _ _ _ _ _ (by decide)).trans ?_
    rw [hwords, hkeep CRU_ROW_STATE_DONE (by decide) (by decide)]
    rfl
  clear_value s5 last
  split
  · split
    · obtain ⟨_, _, h⟩ := s6.rowOf_rowComplete ms c
      rw [h, getF_rowComplete _ _ _ _ (by decide)]
      exact ⟨hparked, hnext, fun _ => hdone⟩
    · exact ⟨hparked, hnext, fun _ => hdone⟩
  · next h => exact ⟨hparked, hnext, fun hk => absurd (by rw [hlast, hk]; simp) h⟩

/-! ### A chunk that arrives (R195, R360) -/

theorem rowArriveFaulty_none (s : State) (ms c q k : Nat) (leaf : Bool) (data : List Byte) :
    s.rowArriveFaulty ms c q k leaf data [] = s.rowArrive ms c q k leaf data := by
  unfold rowArriveFaulty
  extract_lets x adds n a hit task
  have hhit : hit = [] := by
    show (if adds = true then (List.range (data.length / n)).filter fun i => (([] : List (Nat × F32)).lookup i).isSome
      else []) = []
    split
    · simp
    · rfl
  rw [hhit]
  rfl

/-- A chunk a context takes: the stack reachable, the context in use, the chunk and the contribution within it. -/
def RowTakes (s : State) (ms c q k : Nat) : Prop :=
  s.unreachable ms = false ∧ s.flag CRU_ROW_CFG_VALID ms c = true ∧ q < s.getF CRU_ROW_DST_LEN_G ms c ∧
    k < s.getF CRU_ROW_CFG_NCONTRIB ms c

theorem rowArriveFaulty_single (s : State) (ms c q k : Nat) (leaf : Bool) (data : List Byte) (i : Nat) (v : F32)
    (ht : s.RowTakes ms c q k) (hk : k = Tab.getN 0 (s.rowOf ms c).next q) (hadd : s.rowOverwrites ms c k = false)
    (htask : (s.rowOf ms c).owner.bind s.task? = none) (hi : i < data.length / rowWidth (s.getF CRU_ROW_CFG_FMT ms c)) :
    ∃ ch, s.rowArriveFaulty ms c q k leaf data [(i, v)] =
      (s.rowArrive ms c q k leaf data [(i, v)]).residueFail ms 1 ch [c] (s.rowEpoch (s.rowOf ms c)) none := by
  obtain ⟨hreach, hvalid, hq, hcount⟩ := ht
  unfold rowArriveFaulty
  extract_lets x adds n a hit task
  have hadds : adds = true := by
    show (!s.unreachable ms && s.flag CRU_ROW_CFG_VALID ms c && decide (q < s.getF CRU_ROW_DST_LEN_G ms c) &&
      decide (k < s.getF CRU_ROW_CFG_NCONTRIB ms c) && decide (k = Tab.getN 0 x.next q) && !s.rowOverwrites ms c k) = true
    rw [hreach, hvalid, decide_eq_true hq, decide_eq_true hcount, decide_eq_true hk, hadd]
    rfl
  have hhit : hit = [i] := by
    show (if adds = true then (List.range (data.length / n)).filter fun j => ([(i, v)].lookup j).isSome else []) = [i]
    rw [if_pos hadds]
    have hone : ((List.range (data.length / n)).filter fun j => ([(i, v)].lookup j).isSome) =
        (List.range (data.length / n)).filter (· == i) := List.filter_congr fun j _ => by
      rw [List.lookup]
      cases j == i <;> rfl
    rw [hone, List.filter_beq, List.count_eq_one_of_mem List.nodup_range (List.mem_range.mpr hi)]
    rfl
  have hnone : task = none := by
    rw [Option.bind_eq_none_iff] at htask ⊢
    exact fun t h => by rw [htask t h, Option.map_none]
  rw [hhit, hnone]
  exact ⟨_, rfl⟩

theorem rowArrive_of_unreachable (s : State) (ms c q k : Nat) (leaf : Bool) (data : List Byte)
    (h : s.unreachable ms = true) : s.rowArrive ms c q k leaf data = s := by
  rw [rowArrive, if_pos (by rw [h]; rfl)]

theorem rowArrive_of_past (s : State) (ms c q k : Nat) (leaf : Bool) (data : List Byte)
    (h : k < Tab.getN 0 (s.rowOf ms c).next q) : s.rowArrive ms c q k leaf data = s := by
  rw [rowArrive, if_pos (by rw [decide_eq_true h, Bool.or_true])]

theorem rowTakes_guard (s : State) (ms c q k : Nat) (ht : s.RowTakes ms c q k)
    (h : Tab.getN 0 (s.rowOf ms c).next q ≤ k) :
    ¬ (s.unreachable ms || !s.flag CRU_ROW_CFG_VALID ms c || decide (s.getF CRU_ROW_DST_LEN_G ms c ≤ q) ||
      decide (s.getF CRU_ROW_CFG_NCONTRIB ms c ≤ k) || decide (k < Tab.getN 0 (s.rowOf ms c).next q)) = true := by
  obtain ⟨hreach, hvalid, hq, hcount⟩ := ht
  simp [hreach, hvalid]
  omega

/-- With nothing parked, no parked contribution has its turn. -/
theorem rowDrain_of_none (n : Nat) (s : State) (ms c q : Nat) (h : (s.rowOf ms c).parked = []) :
    rowDrain n s ms c q = s := by
  cases n with
  | zero => rfl
  | succ n =>
    rw [rowDrain]
    simp only [h, List.find?_nil]

theorem rowArrive_of_turn (s : State) (ms c q k : Nat) (leaf : Bool) (data : List Byte) (ht : s.RowTakes ms c q k)
    (hk : k = Tab.getN 0 (s.rowOf ms c).next q) (hp : (s.rowOf ms c).parked = []) :
    s.rowArrive ms c q k leaf data = s.rowApply ms c q k leaf data := by
  rw [rowArrive, if_neg (s.rowTakes_guard ms c q k ht (by omega)), if_pos hk]
  exact rowDrain_of_none _ _ _ _ _ ((s.rowApply_reads ms c q k leaf data []).1.trans hp)

/-- A contribution ahead of its turn goes into the first park slot. -/
theorem rowArrive_of_ahead (s : State) (ms c q k : Nat) (leaf : Bool) (data : List Byte) (ht : s.RowTakes ms c q k)
    (hk : Tab.getN 0 (s.rowOf ms c).next q < k) (hp : (s.rowOf ms c).parked = [])
    (hslots : 0 < s.getF CRU_ROW_PARK_PARK_SLOTS ms c) :
    (s.rowArrive ms c q k leaf data).rowOf ms c = { s.rowOf ms c with parked := [⟨q, k, 0, data.length, leaf, data⟩] } ∧
    (s.rowArrive ms c q k leaf data).getF CRU_ROW_STATE_PARKED ms c = 1 := by
  have hfree : freePark (s.rowOf ms c) (s.getF CRU_ROW_PARK_PARK_SLOTS ms c) = some 0 := by
    rw [freePark, hp]
    obtain ⟨n, hn⟩ := Nat.exists_eq_succ_of_ne_zero (by omega : s.getF CRU_ROW_PARK_PARK_SLOTS ms c ≠ 0)
    rw [hn, List.range_succ_eq_map]
    rfl
  have hlater : k ≠ Tab.getN 0 (s.rowOf ms c).next q := by omega
  have hfound : ((s.rowOf ms c).parked.any fun y => y.q = q && y.k = k) = false := by
    rw [hp]
    rfl
  rw [rowArrive, if_neg (s.rowTakes_guard ms c q k ht (by omega)), if_neg hlater, hfound, if_neg Bool.false_ne_true, hfree]
  dsimp only
  rw [hp]
  split
  · rw [rowOf, rows_storeAll, getF, getR, storeAll_regs]
    exact ⟨rowOf_setRow .., getF_setF_same _ _ _ _ _ (by decide)⟩
  · exact ⟨rowOf_setRow .., getF_setF_same _ _ _ _ _ (by decide)⟩

end State

/-- The end of a command that changed registers and stacks changes nothing else. -/
theorem row_latch {s t : State} (h : ∃ r k, t = { s with regs := r, stackTab := k }) :
    s.latchEdges t = { s with regs := (s.latchEdges t).regs, stackTab := (s.latchEdges t).stackTab } := by
  obtain ⟨_, _, h⟩ := h
  rw [State.latchEdges_stackTab, State.latchEdges_eq, h]

theorem firstTouchCopy_ends (s : State) (ms : Fin 12) (c : FtCopy) (rest : List FtCopy) (v : PageVer)
    (hc : (s.stack ms).copies = c :: rest) (hw : (s.stack ms).waiting = []) (hb : (s.stack ms).wcb = [])
    (hv : v = s.pageVer ms c.page) (hs : s.canonical = true) :
    ∃ t, exec (.firstTouchCopyDone ms [] []) s = .next t ∧ (t.stack ms).copies = rest ∧
      t.pageVer ms c.page =
        { cur := c.frame, vep := max v.vep c.epoch, pin := none, retained := v.retained ++ [⟨v.cur, v.vep, v.pin⟩] } ∧
      (v.cur < 32768 → c.frame < 32768 → v.cur ≠ c.frame → ∀ ch < 32, ∀ k < 16, ∀ o < 4096,
        t.dramByte ⟨ms, ch, 16 * c.frame + k, o⟩ = s.dramByte ⟨ms, ch, 16 * v.cur + k, o⟩) := by
  have hdone := s.firstTouchDone_of_copy ms c rest hc hb
  have hstack := s.stack_endCopy ms c rest
  have hmem : Memory.wf s.dram = true := by
    simp only [State.canonical, Bool.and_eq_true] at hs
    tauto
  obtain ⟨hdram, hcopies, hversions⟩ := (s.endCopy ms c rest).pump_leaves ms (by rw [hstack]; exact hw)
  refine ⟨_, exec_firstTouchCopyDone ms [] [] s, ?_, ?_, fun hv hc hne ch hch k hk o ho => ?_⟩
  · rw [State.stack_latchEdges, hdone, hcopies, hstack]
  · refine State.pageVer_of_ver _ _ _ _ (s.stack ms).ver ?_
    rw [State.stack_latchEdges, hdone, hversions, hstack, hv]
  · rw [State.dramByte, State.latchEdges_dram, hdone, hdram]
    subst v
    exact s.dramByte_copyFrame ms _ _ ch k o hmem hv hc hch hk ho

theorem rowContext_created (s : State) (ms : Fin 12) (c : Fin 256) (x : RowSetup) (ha : s.rowAllowed x.dst = true)
    (hv : s.flag CRU_ROW_CFG_VALID ms c = false) :
    ∃ t, exec (.rowContextCreate ms c x) s = .next t ∧ t = { s with regs := t.regs, stackTab := t.stackTab } ∧
      Kept (State.IsRowReg ms c) s t ∧
      t.flag CRU_ROW_CFG_VALID ms c = true ∧ t.getF CRU_ROW_DST_DST ms c = x.dst % 2 ^ 44 ∧
      t.getF CRU_ROW_DST_LEN_G ms c = x.lenG % 2 ^ 20 ∧ t.getF CRU_ROW_CFG_NCONTRIB ms c = x.ncontrib % 4096 ∧
      t.flag CRU_ROW_CFG_INIT ms c = x.overwrite ∧ t.getR ⟨.CRU_ROW_STATE, ms, c⟩ = 0 ∧
      t.rowOf ms c = { owner := some x.owner, origin := x.dst, inMem := true } := by
  have hcreate := s.rowCreate_of_allowed ms c x { owner := some x.owner, origin := x.dst, inMem := true } ha hv
  obtain ⟨hrest, hkept⟩ := s.onlyRegs_rowRegs ms c x
  obtain ⟨hvalid, hdst, hlen, hcount, hinit, hstate⟩ := s.rowRegs_reads ms c x
  refine ⟨_, exec_rowContextCreate ms c x s, ?_⟩
  rw [hcreate]
  generalize s.rowRegs ms c x = u at *
  have hregs : (u.setRow ms c { owner := some x.owner, origin := x.dst, inMem := true }).regs = u.regs :=
    State.setRow_regs ..
  have hrow := u.rowOf_setRow ms c { owner := some x.owner, origin := x.dst, inMem := true }
  have hall := State.setRow_rest hrest ms c { owner := some x.owner, origin := x.dst, inMem := true }
  generalize u.setRow ms c { owner := some x.owner, origin := x.dst, inMem := true } = t at *
  have hget : ∀ k, t.getR k = u.getR k := fun k => by rw [State.getR, hregs, ← State.getR]
  have hgetF : ∀ f : Field, f.reg ≠ .HIC_PEND → (s.latchEdges t).getF f ms c = u.getF f ms c := fun f hf => by
    rw [State.getF_latch _ _ _ _ _ hf, State.getF, hget, ← State.getF]
  refine ⟨row_latch hall, (hkept.trans_regs hregs).latch s, ?_, ?_, ?_, ?_, ?_, ?_, ?_⟩
  · rw [State.flag, hgetF _ (by decide), ← State.flag, hvalid]
  · rw [hgetF _ (by decide), hdst]
  · rw [hgetF _ (by decide), hlen]
  · rw [hgetF _ (by decide), hcount]
  · rw [State.flag, hgetF _ (by decide), ← State.flag, hinit]
  · rw [State.getR_latch _ _ _ _ _ RegName.noConfusion, hget, hstate]
  · rw [State.rowOf, State.stack_latchEdges, ← State.rowOf, hrow]

theorem exec_rowChunkArrive_without_faults (s : State) (ms : Fin 12) (c : Fin 256) (q k : Nat) (leaf : Bool) (data : List Byte) :
    exec (.rowChunkArrive ms c q k leaf data) s = .next (s.latchEdges (s.rowArrive ms c q k leaf data)) := by
  rw [exec_rowChunkArrive, State.rowArriveFaulty_none]

theorem rowChunk_applied (s : State) (ms : Fin 12) (c : Fin 256) (q k : Nat) (leaf : Bool) (data : List Byte)
    (ht : s.RowTakes ms c q k) (hk : k = Tab.getN 0 (s.rowOf ms c).next q) (hp : (s.rowOf ms c).parked = []) :
    ∃ t, exec (.rowChunkArrive ms c q k leaf data) s = .next t ∧ Tab.getN 0 (t.rowOf ms c).next q = k + 1 ∧
      (k + 1 = s.getF CRU_ROW_CFG_NCONTRIB ms c → t.getF CRU_ROW_STATE_DONE ms c =
        min (s.getF CRU_ROW_STATE_DONE ms c + 1) (2 ^ 20 - 1)) := by
  obtain ⟨_, hnext, hdone⟩ := s.rowApply_reads ms c q k leaf data []
  rw [exec_rowChunkArrive_without_faults, s.rowArrive_of_turn ms c q k leaf data ht hk hp]
  generalize s.rowApply ms c q k leaf data = t at *
  refine ⟨_, rfl, ?_, fun hlast => ?_⟩
  · rw [State.rowOf, State.stack_latchEdges]
    exact hnext
  · rw [State.getF_latch _ _ _ _ _ (by decide), hdone hlast]

theorem rowChunk_parked (s : State) (ms : Fin 12) (c : Fin 256) (q k : Nat) (leaf : Bool) (data : List Byte)
    (ht : s.RowTakes ms c q k) (hk : Tab.getN 0 (s.rowOf ms c).next q < k) (hp : (s.rowOf ms c).parked = [])
    (hslots : 0 < s.getF CRU_ROW_PARK_PARK_SLOTS ms c) :
    ∃ t, exec (.rowChunkArrive ms c q k leaf data) s = .next t ∧
      (t.rowOf ms c).parked = [⟨q, k, 0, data.length, leaf, data⟩] ∧ t.getF CRU_ROW_STATE_PARKED ms c = 1 ∧
      Tab.getN 0 (t.rowOf ms c).next q = Tab.getN 0 (s.rowOf ms c).next q := by
  obtain ⟨hrow, hparked⟩ := s.rowArrive_of_ahead ms c q k leaf data ht hk hp hslots
  rw [exec_rowChunkArrive_without_faults]
  generalize s.rowArrive ms c q k leaf data = t at *
  have hlatched : (s.latchEdges t).rowOf ms c = t.rowOf ms c := by rw [State.rowOf, State.stack_latchEdges, ← State.rowOf]
  refine ⟨_, rfl, ?_, ?_, ?_⟩
  · rw [hlatched, hrow]
  · rw [State.getF_latch _ _ _ _ _ (by decide), hparked]
  · rw [hlatched, hrow]

/-- Settles O36: a first-touch copy ends with the page in its new frame, holding the bytes of the old one; a wait abandons
the pins and then forces the oldest tag; contexts are created empty and take a contribution in its turn or park it. -/
theorem versionsAndContexts : Obligations.VersionsAndContexts := by
  intro s ms
  refine ⟨firstTouchCopy_ends s ms, fun hc => ?_, fun hw hstage => ?_, fun hw => ?_, fun p v x hw hstage hver hx => ?_,
    rowContext_created s ms, fun c q k leaf data x hx hreach hvalid hq hk => ?_, fun c q k leaf data hreach => ?_⟩
  · rw [exec_firstTouchCopyDone, s.firstTouchDone_of_none ms hc, latchEdges_self]
  · refine ⟨_, exec_pinsAbandoned ms s, ?_⟩
    rw [State.flag_latch _ _ _ _ _ (by decide)]
    exact s.flag_pinsAbandoned ms hw hstage
  · rw [exec_pinsAbandoned, exec_forcedCommit, s.pinsAbandoned_of_no_wait ms hw, s.forcedCommit_of_no_wait ms hw,
      latchEdges_self]
    exact ⟨rfl, rfl⟩
  · obtain ⟨hforced, hepoch⟩ := s.getF_forcedCommit ms p v x hw hstage hver hx
    refine ⟨_, exec_forcedCommit ms s, ?_, ?_⟩
    · rw [State.flag_latch _ _ _ _ _ (by decide), State.flag, hforced]
      rfl
    · rw [State.getF_latch _ _ _ _ _ (by decide), hepoch]
  · subst hx
    have ht : s.RowTakes ms c q k := ⟨hreach, hvalid, hq, hk⟩
    refine ⟨fun hturn hadd htask i v hi => ?_, rowChunk_applied s ms c q k leaf data ht,
      rowChunk_parked s ms c q k leaf data ht, fun hpast => ?_⟩
    · obtain ⟨ch, h⟩ := s.rowArriveFaulty_single ms c q k leaf data i v ht hturn hadd htask hi
      exact ⟨ch, by rw [exec_rowChunkArrive, h]⟩
    · rw [exec_rowChunkArrive_without_faults, s.rowArrive_of_past ms c q k leaf data hpast, latchEdges_self]
  · rw [exec_rowChunkArrive_without_faults, s.rowArrive_of_unreachable ms c q k leaf data hreach, latchEdges_self]

end Sys2Proof.Machine
end

section
/-! Collectives open their streams (R291, R296, R302 to R305): O39. -/

namespace Sys2Proof.Machine
namespace State

/-- The streams of a begun collective, and whether its digests are taken from the store. -/
def streamsOf (s : State) (x : Task) (g : Geo) (d : Nat) : ChanSt :=
  let ch := s.chan d x.coChan
  { ch with
    begun := true
    tx := if x.coOp = 5 then s.allToAllTx x g d else if x.coOp = 6 then s.permuteTx x g d else s.ringTx x g d
    rx := if x.coOp = 5 then ch.rx else if x.coOp = 6 then s.permuteRx x g d else s.ringRx x g d
    totals := if x.coDigSrc && !x.coReduces then Tab.putN none ch.totals g.self (some (s.storedTotal x)) else ch.totals }

/-- This member's own part of a PERMUTE copied. -/
def copyPermuted (s : State) (x : Task) (t : TaskId) (g : Geo) (d : Nat) : State :=
  let f := (s.extentsAt x x.coAux g.count).getD g.self (0, 0)
  let e := g.ext.getD g.self (0, 0)
  let o := overlapOf e f
  s.copyOwn x t d (x.coSrc + (o.1 - e.1)) (x.coDst + (o.1 - f.1)) o.2

/-- The count frames of an ALL_TO_ALL sent. -/
def sendCounts (s : State) (x : Task) (g : Geo) (d : Nat) : State :=
  ((List.range g.count).filter fun j => decide (j ≠ g.self) && decide (s.allToAllDie x j = d)).foldl
    (fun s j => s.sendCount x d j) s

/-- The count frames that came early taken. -/
def takeEarly (s : State) (x : Task) (t : TaskId) (g : Geo) (d : Nat) (early : List Frame) : State :=
  let s := s.setChan d x.coChan { s.chan d x.coChan with early := [] }
  let s := if g.count = 1 ∧ d = foldDie x then
      let b := s.outBase x 0
      s.copyOwn x t (s.addrDie x.coDst) b x.coDst (s.outCount x 0)
    else s
  early.foldl (fun s f => if (s.chan d x.coChan).task = some t then s.takeCount x t d f else s) s

/-- The work carried on while the channel is still the task's. -/
def carryOn (s : State) (x : Task) (t : TaskId) (d : Nat) : State :=
  if (s.chan d x.coChan).task = some t then s.advance x else s

/-- A collective that may begin. -/
structure MayBegin (s : State) (n : TaskId) (x : Task) (op : Nat → Bool) : Prop where
  task : s.task? n = some x
  kind : x.kind = .collective
  op : op x.coOp = true
  started : x.started = true
  status : x.status = .dispatched
  fin : x.fin = false
  chan : (s.chan n.d x.coChan).task = some n
  begun : (s.chan n.d x.coChan).begun = false

theorem collBegin_of_code {s : State} {n : TaskId} {x : Task} {op : Nat → Bool} (h : s.MayBegin n x op) (k : Nat)
    (hk : s.collCheck x (s.geoOf x) = some k) : s.collBegin n op = s.failTask n k := by
  obtain ⟨htask, hkind, hop, hstarted, hstatus, hfin, hchan, hbegun⟩ := h
  unfold collBegin
  rw [htask]
  dsimp only
  rw [if_neg (by simp [hkind, hop, hstarted, hstatus, hfin, hchan, hbegun]), hk]

theorem placeOwn_of_other (s : State) (x : Task) (n : TaskId) (g : Geo) (d : Nat) (h3 : x.coOp ≠ 3) (h4 : x.coOp ≠ 4) :
    s.placeOwn x n g d = s := by
  rw [placeOwn, if_pos (by simp [h3, h4])]

section
variable {s : State} {n : TaskId} {x : Task} {op : Nat → Bool} (h : s.MayBegin n x op) (hk : s.collCheck x (s.geoOf x) = none)
  (v : State) (hv : v = s.takeCarrier n x)
include h hk hv

/-- A collective that passes its checks, whatever its operation. -/
theorem collBegin_of_ok (w : State)
    (hw : w = (v.setChan n.d x.coChan (v.streamsOf x (s.geoOf x) n.d)).placeOwn x n (s.geoOf x) n.d) :
    s.collBegin n op =
      (let u := if x.coOp = 6 then w.copyPermuted x n (s.geoOf x) n.d else w
       let u := if x.coOp = 5 then u.sendCounts x (s.geoOf x) n.d else u
       if x.coOp = 5 then u.takeEarly x n (s.geoOf x) n.d (v.chan n.d x.coChan).early else u).carryOn x n n.d := by
  obtain ⟨htask, hkind, hop, hstarted, hstatus, hfin, hchan, hbegun⟩ := h
  subst hw hv
  unfold collBegin
  rw [htask]
  dsimp only
  rw [if_neg (by simp [hkind, hop, hstarted, hstatus, hfin, hchan, hbegun]), hk]
  rfl

theorem collBegin_ring (h5 : x.coOp ≠ 5) (h6 : x.coOp ≠ 6) : s.collBegin n op =
    ((v.setChan n.d x.coChan (v.streamsOf x (s.geoOf x) n.d)).placeOwn x n (s.geoOf x) n.d).carryOn x n n.d := by
  rw [collBegin_of_ok h hk v hv _ rfl, if_neg h6, if_neg h5, if_neg h5]

theorem collBegin_allToAll (h5 : x.coOp = 5) : s.collBegin n op =
    (((v.setChan n.d x.coChan (v.streamsOf x (s.geoOf x) n.d)).sendCounts x (s.geoOf x) n.d).takeEarly x n (s.geoOf x) n.d
      (v.chan n.d x.coChan).early).carryOn x n n.d := by
  have h6 : x.coOp ≠ 6 := by omega
  rw [collBegin_of_ok h hk v hv _ rfl, placeOwn_of_other _ _ _ _ _ (by omega) (by omega), if_neg h6, if_pos h5, if_pos h5]

theorem collBegin_permute (h6 : x.coOp = 6) : s.collBegin n op =
    ((v.setChan n.d x.coChan (v.streamsOf x (s.geoOf x) n.d)).copyPermuted x n (s.geoOf x) n.d).carryOn x n n.d := by
  have h5 : x.coOp ≠ 5 := by omega
  rw [collBegin_of_ok h hk v hv _ rfl, placeOwn_of_other _ _ _ _ _ (by omega) (by omega), if_pos h6, if_neg h5, if_neg h5]

end

/-! ### The streams by operation -/

theorem streamsOf_ring (s : State) (x : Task) (g : Geo) (d : Nat) (h5 : x.coOp ≠ 5) (h6 : x.coOp ≠ 6)
    (hdig : (x.coDigSrc && !x.coReduces) = false) :
    s.streamsOf x g d = { s.chan d x.coChan with begun := true, tx := s.ringTx x g d, rx := s.ringRx x g d } := by
  rw [streamsOf, if_neg h5, if_neg h5, if_neg h6, if_neg h6, hdig, if_neg Bool.false_ne_true]

theorem streamsOf_allToAll (s : State) (x : Task) (g : Geo) (d : Nat) (h5 : x.coOp = 5) (hdig : x.coDigSrc = false) :
    s.streamsOf x g d = { s.chan d x.coChan with begun := true, tx := s.allToAllTx x g d } := by
  rw [streamsOf, if_pos h5, if_pos h5, hdig, Bool.false_and, if_neg Bool.false_ne_true]

theorem streamsOf_permute (s : State) (x : Task) (g : Geo) (d : Nat) (h6 : x.coOp = 6) (hdig : x.coDigSrc = false) :
    s.streamsOf x g d = { s.chan d x.coChan with begun := true, tx := s.permuteTx x g d, rx := s.permuteRx x g d } := by
  have h5 : x.coOp ≠ 5 := by omega
  rw [streamsOf, if_neg h5, if_neg h5, if_pos h6, if_pos h6, hdig, Bool.false_and,
    if_neg Bool.false_ne_true]

/-! ### The opened channel -/

/-- `w` is `v` but for one channel, which is `y`. -/
structure Opened (v : State) (d c : Nat) (y : ChanSt) (w : State) : Prop where
  rest : ∃ r, w = { v with chans := r }
  chan : w.chan d c = y
  others : ∀ d' c', 16 * d' + c' ≠ 16 * d + c → w.chan d' c' = v.chan d' c'

namespace Opened

variable {v w : State} {d c : Nat} {y : ChanSt}

theorem eq (h : Opened v d c y w) : w = { v with chans := w.chans } := by
  obtain ⟨⟨_, rfl⟩, _, _⟩ := h
  rfl

theorem refl (v : State) (d c : Nat) : Opened v d c (v.chan d c) v := ⟨⟨_, rfl⟩, rfl, fun _ _ _ => rfl⟩

theorem setChan (h : Opened v d c y w) (z : ChanSt) : Opened v d c z (w.setChan d c z) := by
  obtain ⟨⟨_, rfl⟩, _, hothers⟩ := h
  exact ⟨⟨_, rfl⟩, chan_setChan_same .., fun d' c' hne => by
    rw [chan_setChan, if_neg (Ne.symm hne)]
    exact hothers d' c' hne⟩

theorem markDones (phase : Nat) (l : List Nat) : ∀ {w : State} {y : ChanSt}, Opened v d c y w →
    Opened v d c { y with done := y.done ++ l.map fun o => (phase, o) }
      (l.foldl (fun s o => s.markDone d c phase o) w) := by
  induction l with
  | nil => exact fun h => by simpa using h
  | cons o l ih =>
    intro w y h
    have hone : Opened v d c { y with done := y.done ++ [(phase, o)] } (w.markDone d c phase o) := by
      rw [markDone, h.chan]
      exact h.setChan _
    have hall := ih hone
    rw [List.append_assoc] at hall
    exact hall

end Opened

/-- The own shard of a gather in place is marked as being there. -/
theorem opened_placeOwn {v w : State} {y : ChanSt} (x : Task) (n : TaskId) (g : Geo) (d : Nat)
    (hop : x.coOp = 3 ∨ x.coOp = 4) (hplace : x.coSrc = x.coDst) (h : Opened v d x.coChan y w) :
    Opened v d x.coChan { y with
      done := y.done ++ if x.coOp = 3 ∨ g.self = x.coRoot then
        ((cutAll (g.ext.getD g.self (0, 0)).1 (g.ext.getD g.self (0, 0)).2).filter fun p =>
          decide (v.addrDie (x.coDst + p.1) = d)).map fun p => (4, p.1) else [] } (w.placeOwn x n g d) := by
  have hdie : w.addrDie = v.addrDie := by
    obtain ⟨⟨_, rfl⟩, _, _⟩ := h
    rfl
  unfold placeOwn
  extract_lets mine e
  have hmine : mine = decide (x.coOp = 3 ∨ g.self = x.coRoot) := by
    show (decide (x.coOp = 3) || (decide (x.coOp = 4) && decide (g.self = x.coRoot))) = _
    rcases hop with h | h <;> simp [h]
  by_cases hm : x.coOp = 3 ∨ g.self = x.coRoot
  case neg =>
    rw [if_neg hm, if_pos (by simp [hmine, hm]), List.append_nil]
    exact h
  case pos =>
    rw [if_pos hm, if_neg (by simp [hmine, hm]), hdie]
    simp only [hplace, if_true]
    have hmarks := h.markDones 4 (((cutAll e.1 e.2).filter fun p => decide (v.addrDie (x.coDst + p.1) = d)).map (·.1))
    rw [List.foldl_map, List.map_map] at hmarks
    exact hmarks

/-- A task that keeps its channel is carried on. -/
theorem carryOn_of_task {s : State} {x : Task} {n : TaskId} {d : Nat} (h : (s.chan d x.coChan).task = some n) :
    s.carryOn x n d = s.advance x := if_pos h

theorem chans_takeCarrier (s : State) (n : TaskId) (x : Task) : (s.takeCarrier n x).chans = s.chans := by
  have hstep : ∀ v, (s.setStep v).chans = s.chans := fun v => by
    rw [setStep]
    split
    · rfl
    · unfold showSeal
      split <;> rfl
  unfold takeCarrier
  dsimp only
  split
  · exact hstep _
  · rfl

theorem chans_sendCounts (s : State) (x : Task) (g : Geo) (d : Nat) : (s.sendCounts x g d).chans = s.chans := by
  have hP : Stable fun t => t.chans = s.chans := 
    { putR := fun _ _ _ _ h => h, waiting := fun _ _ _ h => h, parts := fun _ _ h hu => hu.chans.trans h,
      record := fun _ _ h => (record_chans ..).trans h }
  exact Stable.foldl (P := fun t => t.chans = s.chans) rfl fun _ _ hu => hP.send hu

theorem takeEarly_none (s : State) (x : Task) (n : TaskId) (g : Geo) (d : Nat) (h : ¬ (g.count = 1 ∧ d = foldDie x)) :
    s.takeEarly x n g d [] = s.setChan d x.coChan { s.chan d x.coChan with early := [] } := by
  rw [takeEarly, if_neg h]
  rfl

/-- Emptying what is empty leaves every channel. -/
theorem chan_setChan_self (s : State) (d c : Nat) (y : ChanSt) (h : y = s.chan d c) (d' c' : Nat) :
    (s.setChan d c y).chan d' c' = s.chan d' c' := by
  rw [chan_setChan]
  split
  · next he => rw [h, chan, chan, he]
  · rfl

end State

/-! ### The commands -/

theorem exec_of_collective (s : State) (n : TaskId) (op : Nat) (i : Instr)
    (h : (op, i) ∈ [(1, Instr.allReduce n), (2, .reduceScatter n), (3, .allGather n), (4, .broadcast n),
      (5, .allToAll n), (6, .permute n)]) :
    exec i s = .next (s.latchEdges (s.collBegin n fun o => decide (o = op))) := by
  fin_cases h <;> rfl

open State in
/-- Settles O39: a collective whose checks find a code fails with it; else its streams are opened on its channel, an own
shard or part being there already, and the work is carried on from there. -/
theorem collectivesOpenTheirStreams : Obligations.CollectivesOpenTheirStreams := by
  intro s n x g i c v ch opened htask hkind hstarted hstatus hfin hc hchan hbegun hg hi hv hch hopened
  subst hc
  have hexec := exec_of_collective s n _ i hi
  have hmay : s.MayBegin n x fun o => decide (o = x.coOp) :=
    ⟨htask, hkind, decide_eq_true rfl, hstarted, hstatus, hfin, hchan, hbegun⟩
  have hopen : ∀ {y w}, v.Opened n.d x.coChan y w → opened y w := fun h => (hopened _ _).mpr ⟨h.eq, h.chan, h.others⟩
  have hvchan : v.chan n.d x.coChan = s.chan n.d x.coChan := by rw [hv, State.chan, chans_takeCarrier, ← State.chan]
  have hmine : ch.task = some n := by rw [hch, hvchan]; exact hchan
  subst hg
  refine ⟨fun k hk => by rw [hexec, collBegin_of_code hmay k hk], fun hok => ⟨fun hop => ?_, fun hop hdig hplace => ?_,
    fun hop hmore hearly hdig => ?_, fun hop hdig f e o hf he ho => ?_⟩⟩
  · have hreduces : x.coReduces = true := by
      have hpos : x.coOp ≠ 0 := fun h0 => by simp [h0] at hi
      obtain h | h : x.coOp = 1 ∨ x.coOp = 2 := by omega
      all_goals simp [Task.coReduces, h]
    have hstreams := v.streamsOf_ring x (s.geoOf x) n.d (by omega) (by omega) (by simp [hreduces])
    have hbegin := collBegin_ring hmay hok v hv (by omega) (by omega)
    rw [placeOwn_of_other _ _ _ _ _ (by omega) (by omega), hstreams] at hbegin
    rw [hexec, hbegin, carryOn_of_task (by rw [chan_setChan_same, ← hmine, hch])]
    subst hch
    exact ⟨_, hopen ((Opened.refl v n.d x.coChan).setChan _), rfl⟩
  · have hstreams := v.streamsOf_ring x (s.geoOf x) n.d (by omega) (by omega) (by simp [hdig])
    have hplaced := opened_placeOwn x n (s.geoOf x) n.d hop hplace ((Opened.refl v n.d x.coChan).setChan
      (v.streamsOf x (s.geoOf x) n.d))
    rw [hexec, collBegin_ring hmay hok v hv (by omega) (by omega), carryOn_of_task (by
      rw [hplaced.chan, hstreams, ← hmine, hch])]
    rw [hstreams] at hplaced ⊢
    subst hch
    exact ⟨_, hopen hplaced, rfl⟩
  · have hstreams := v.streamsOf_allToAll x (s.geoOf x) n.d hop hdig
    have hnofold : ¬ ((s.geoOf x).count = 1 ∧ n.d = foldDie x) := fun h => hmore.elim (· h.1) (· h.2)
    have hopenw := (Opened.refl v n.d x.coChan).setChan { ch with tx := v.allToAllTx x (s.geoOf x) n.d }
    have hbegin := collBegin_allToAll hmay hok v hv hop
    have hcearly : (v.chan n.d x.coChan).early = [] := by rw [hch] at hearly; exact hearly
    have hw : { ch with tx := v.allToAllTx x (s.geoOf x) n.d } = v.streamsOf x (s.geoOf x) n.d := by rw [hstreams, hch]
    rw [hcearly, takeEarly_none _ _ _ _ _ hnofold, ← hw] at hbegin
    generalize hww : v.setChan n.d x.coChan { ch with tx := v.allToAllTx x (s.geoOf x) n.d } = w at *
    have hsent : ∀ d' c', (w.sendCounts x (s.geoOf x) n.d).chan d' c' = w.chan d' c' := fun d' c' => by
      rw [State.chan, chans_sendCounts, ← State.chan]
    have hself := (w.sendCounts x (s.geoOf x) n.d).chan_setChan_self n.d x.coChan
      { (w.sendCounts x (s.geoOf x) n.d).chan n.d x.coChan with early := [] } (by
        rw [hsent, hopenw.chan]
        simp only [hearly])
    refine ⟨w, _, hopen hopenw, fun d' c' => (hself d' c').trans (hsent d' c'), rfl, ?_⟩
    rw [hexec, hbegin, carryOn_of_task (by rw [hself, hsent, hopenw.chan]; exact hmine)]
  · have hstreams := v.streamsOf_permute x (s.geoOf x) n.d hop hdig
    refine ⟨v.setChan n.d x.coChan { ch with
        tx := v.permuteTx x (s.geoOf x) n.d, rx := v.permuteRx x (s.geoOf x) n.d },
      hopen ((Opened.refl v n.d x.coChan).setChan _), fun u hu htask => ?_⟩
    rw [hexec, collBegin_permute hmay hok v hv hop, hstreams]
    subst hch hf he ho hu
    exact congrArg _ (congrArg _ (carryOn_of_task htask))

end Sys2Proof.Machine
end

section
/-! Bytes of a pool (R14), for the result record of a collective. -/

namespace Sys2Proof.Machine
namespace State

theorem getN_setMems (a : Nat) (data : List Byte) (b : Nat) : ∀ (n : Nat) (s : State),
    Tab.getN memDefault ((List.range n).foldl (fun s i => s.setMem (a + i) (data.getD i 0)) s).mem b =
      if a ≤ b ∧ b < a + n then data.getD (b - a) 0 else Tab.getN memDefault s.mem b := by
  intro n
  induction n with
  | zero => exact fun s => (if_neg (by omega)).symm
  | succ n ih =>
    intro s
    rw [List.range_succ, List.foldl_append, List.foldl_cons, List.foldl_nil, setMem, Tab.getN_putN, ih]
    by_cases hb : a + n = b
    · rw [if_pos hb, if_pos (by omega), ← hb, Nat.add_sub_cancel_left]
    · rw [if_neg hb]
      exact if_congr (by omega) rfl rfl

/-- What a pool or scratchpad store leaves in memory. -/
theorem getN_storeLocal (s : State) (a : Nat) (data : List Byte) (b : Nat) :
    Tab.getN memDefault (s.storeLocal a data).mem b =
      if a ≤ b ∧ b < a + data.length then data.getD (b - a) 0 else Tab.getN memDefault s.mem b := by
  have h := getN_setMems a data b data.length s
  unfold storeLocal
  dsimp only
  split
  · exact h
  · exact h

theorem rest_storeLocal (s : State) (a : Nat) (data : List Byte) :
    ∃ m l, s.storeLocal a data = { s with mem := m, linePoison := l } := by
  have h : ∃ m, (List.range data.length).foldl (fun s i => s.setMem (a + i) (data.getD i 0)) s = { s with mem := m } :=
    List.foldlRecOn (motive := fun u : State => ∃ m, u = { s with mem := m }) _ _ ⟨_, rfl⟩ fun u hu i _ => by
      obtain ⟨m, rfl⟩ := hu
      exact ⟨_, rfl⟩
  obtain ⟨m, h⟩ := h
  unfold storeLocal
  rw [h]
  split
  · exact ⟨_, _, rfl⟩
  · exact ⟨_, _, rfl⟩

/-- A pool byte is memory's, unless its die is in reset. -/
theorem readByte_of_pool (s : State) (a : Nat) (h : isPoolAddr a = true) : s.readByte a =
    if s.inReset ((a - 0x10000000000) / 0x8000000) then 0 else Tab.getN memDefault s.mem a := by
  have hmapped : s.mapped a = !s.inReset ((a - 0x10000000000) / 0x8000000) := by rw [mapped, if_pos h]
  have hstack : isStackAddr a = false := by
    simp only [isPoolAddr, isStackAddr, decide_eq_true_eq, decide_eq_false_iff_not] at h ⊢
    omega
  rw [readByte, hmapped, Bool.not_not, hstack, if_neg Bool.false_ne_true]

/-- Bytes within one line written to a pool. -/
theorem writePlain_of_pool (s : State) (a : Nat) (data : List Byte) (e : Option Nat) (n : Nat) (o : Option TaskId)
    (h : isPoolAddr a = true) (hmapped : s.mapped a = true) (hline : a % 64 + data.length ≤ 64) (hne : data ≠ []) :
    s.writePlain a data e n o = s.storeLocal a data := by
  have hstack : isStackAddr a = false := by
    simp only [isPoolAddr, isStackAddr, decide_eq_true_eq, decide_eq_false_iff_not] at h ⊢
    omega
  rw [writePlain, linesOf_single a data hne hline, List.foldl_cons, List.foldl_nil,
    write, if_neg (by simp [hmapped]), if_pos (by simp [hstack])]
  rfl

end State

/-! ### The commands -/

theorem exec_collectiveComplete (n : TaskId) (s : State) :
    exec (.collectiveComplete n) s = .next (s.latchEdges (s.collComplete n)) := rfl

theorem exec_stall (n : TaskId) (s : State) : exec (.stall n) s = .next (s.latchEdges (s.stall n)) := rfl

theorem exec_sendStream (n : TaskId) (s : State) : exec (.sendStream n) s = .next (s.latchEdges (s.sendStream n)) := rfl

theorem exec_sendRemote (n : TaskId) (s : State) : exec (.sendRemote n) s = .next (s.latchEdges (s.sendRemote n)) := rfl

theorem exec_recvStream (n : TaskId) (s : State) : exec (.recvStream n) s = .next (s.latchEdges (s.recvStream n)) := rfl

theorem exec_recvRemote (n : TaskId) (s : State) : exec (.recvRemote n) s = .next (s.latchEdges (s.recvRemote n)) := rfl

theorem exec_colCntClr (r : Requester) (d : Fin 4) (s : State) (h : s.inReset d = false) :
    exec (.colCntClr r d) s = .next (s.latchEdges (s.colCntClr d)) :=
  congrArg (commit s) (by rw [s.atReg_dieReg _ r d _ (by omega), if_neg (by simp [h])])

namespace State

/-! ### The end of a collective (R308) -/

theorem length_toLe (n v : Nat) : (toLe n v).length = n := by
  induction n generalizing v with
  | zero => rfl
  | succ n ih => rw [toLe, List.length_cons, ih]

theorem length_resultBytes (s : State) (x : Task) : (s.resultBytes x).length = 64 := by
  unfold resultBytes
  simp only [List.length_append, length_toLe]

/-- With no total known, nothing is compared. -/
theorem checkTotals_of_none (s : State) (x : Task) (h : ∀ k, s.totalOf x k = none) : s.checkTotals x = s :=
  List.foldlRecOn (motive := fun u : State => u = s) _ _ rfl fun u hu k _ => by
    subst hu
    dsimp only
    rw [h k]

theorem totalOf_of_chans {s t : State} (h : t.chans = s.chans) (x : Task) (k : Nat) : t.totalOf x k = s.totalOf x k := by
  have hchan : ∀ d c, t.chan d c = s.chan d c := fun d c => by rw [chan, h, ← chan]
  simp only [totalOf, hchan]

/-- The result record written, where one is asked for. -/
def writeResult (s : State) (x : Task) : State :=
  if x.coResult = 0 then s else s.writePlain x.coResult (s.resultBytes x) (some x.epoch) x.tensor none

/-- A collective of one die with nothing to hand on: its record, and its task done. -/
theorem collComplete_of_single (s : State) (n : TaskId) (x : Task) (hx : s.task? n = some x) (hkind : x.kind = .collective)
    (hstatus : x.status = .dispatched) (hfin : x.fin = false) (hchan : (s.chan n.d x.coChan).task = some n)
    (hdone : s.collDone x = true) (hgroup : s.groupOf x = [(n.d, n, x)]) (hseal : x.coSeal = false) :
    s.collComplete n = ((s.writeResult x).setTask n { x with fin := true }).checkTotals x := by
  have hcarries : ∀ t : State, t.carries? x = false := fun t => by rw [carries?, hseal]; rfl
  unfold collComplete
  rw [hx]
  dsimp only
  rw [if_neg (by simp [hkind, hstatus, hfin, hchan, hdone]), hgroup]
  simp only [List.foldl_cons, List.foldl_nil]
  rw [if_neg (by rw [hcarries]; exact Bool.false_ne_true)]
  rfl

/-- A result record in a pool is one line stored there. -/
theorem writeResult_of_pool (s : State) (x : Task) (hne : x.coResult ≠ 0) (hpool : isPoolAddr x.coResult = true)
    (hmapped : s.mapped x.coResult = true) (ha : x.coResult % 64 = 0) :
    s.writeResult x = s.storeLocal x.coResult (s.resultBytes x) := by
  have hlen := s.length_resultBytes x
  rw [writeResult, if_neg hne, s.writePlain_of_pool _ _ _ _ _ hpool hmapped (by omega) fun h => by simp [h] at hlen]

/-- A result record changes memory alone. -/
theorem writeResult_rest (s : State) (x : Task) (h : x.coResult = 0 ∨ (isPoolAddr x.coResult = true ∧
    s.mapped x.coResult = true ∧ x.coResult % 64 = 0)) :
    ∃ m l, s.writeResult x = { s with mem := m, linePoison := l } := by
  by_cases hne : x.coResult = 0
  · exact ⟨_, _, by rw [writeResult, if_pos hne]⟩
  · obtain ⟨hpool, hmapped, ha⟩ := h.resolve_left hne
    rw [s.writeResult_of_pool x hne hpool hmapped ha]
    exact s.rest_storeLocal ..

end State
end Sys2Proof.Machine
end

section
/-! Collectives, SENDs, RECVs and remote transfers begin and end (R308 to R311): O40. -/

namespace Sys2Proof.Machine

/-- Pool bytes of two states with the same memory and the same dies in reset. -/
theorem State.readByte_of_mem {s t : State} (hreset : ∀ d, t.inReset d = s.inReset d) (a : Nat) (h : isPoolAddr a = true)
    (hmem : Tab.getN State.memDefault t.mem a = Tab.getN State.memDefault s.mem a) : t.readByte a = s.readByte a := by
  rw [t.readByte_of_pool a h, s.readByte_of_pool a h, hreset, hmem]

theorem State.inReset_latch_of_regs {s t : State} (h : t.regs = s.regs) (d : Nat) :
    (s.latchEdges t).inReset d = s.inReset d := by
  rw [inReset, getF_latch _ _ _ _ _ (by decide), getF, getR, h]
  rfl

theorem collective_ends (s : State) (n : TaskId) (x : Task) (hx : s.task? n = some x) (hkind : x.kind = .collective)
    (hstatus : x.status = .dispatched) (hfin : x.fin = false) (hchan : (s.chan n.d x.coChan).task = some n)
    (hdone : s.collDone x = true) (hgroup : s.groupOf x = [(n.d, n, x)]) (hseal : x.coSeal = false)
    (htotal : ∀ k, s.totalOf x k = none) (hresult : x.coResult = 0 ∨ (State.isPoolAddr x.coResult = true ∧
      s.mapped x.coResult = true ∧ x.coResult % 64 = 0)) :
    ∃ t, exec (.collectiveComplete n) s = .next t ∧ (t.task? n).any (fun y => y.fin) = true ∧ t.cores = s.cores ∧
      t.chans = s.chans ∧ (x.coResult = 0 → t.mem = s.mem) ∧
      (x.coResult ≠ 0 → t.readBytesAt x.coResult 64 = s.resultBytes x ∧
        ∀ a, (a < x.coResult ∨ x.coResult + 64 ≤ a) → State.isPoolAddr a = true → t.readByte a = s.readByte a) := by
  obtain ⟨m, l, hwrite⟩ := s.writeResult_rest x hresult
  have hend := s.collComplete_of_single n x hx hkind hstatus hfin hchan hdone hgroup hseal
  have htask : (s.writeResult x).task? n = some x := by rw [hwrite]; exact hx
  have hregs : ((s.writeResult x).setTask n { x with fin := true }).regs = s.regs := by rw [hwrite]; rfl
  have hcores : ((s.writeResult x).setTask n { x with fin := true }).cores = s.cores := by rw [hwrite]; rfl
  have hchans : ((s.writeResult x).setTask n { x with fin := true }).chans = s.chans := by rw [hwrite]; rfl
  have hmem : ((s.writeResult x).setTask n { x with fin := true }).mem = (s.writeResult x).mem := rfl
  have hfinished := (s.writeResult x).task?_setTask n x { x with fin := true } htask (s.idx_of_task? n x hx)
  rw [State.checkTotals_of_none _ _ fun k => (State.totalOf_of_chans hchans x k).trans (htotal k)] at hend
  generalize (s.writeResult x).setTask n { x with fin := true } = u at *
  refine ⟨_, exec_collectiveComplete n s, ?_⟩
  rw [hend]
  refine ⟨?_, ?_, ?_, fun h0 => ?_, fun hne => ?_⟩
  · rw [State.task?_latchEdges, hfinished]
    rfl
  · rw [State.latchEdges_cores, hcores]
  · rw [State.latchEdges_chans, hchans]
  · rw [State.latchEdges_mem, hmem, State.writeResult, if_pos h0]
  · obtain ⟨hpool, hmapped, ha⟩ := hresult.resolve_left hne
    have hstored := s.writeResult_of_pool x hne hpool hmapped ha
    have hget : ∀ b, Tab.getN State.memDefault (s.latchEdges u).mem b = 
        if x.coResult ≤ b ∧ b < x.coResult + 64 then (s.resultBytes x).getD (b - x.coResult) 0
        else Tab.getN State.memDefault s.mem b := fun b => by
      rw [State.latchEdges_mem, hmem, hstored, State.getN_storeLocal, s.length_resultBytes]
    have hreset := State.inReset_latch_of_regs hregs
    have hup : s.inReset ((x.coResult - 0x10000000000) / 0x8000000) = false := by
      simpa [State.mapped, hpool] using hmapped
    have hrange : 0x10000000000 ≤ x.coResult ∧ x.coResult < 0x10020000000 := by
      simpa [State.isPoolAddr] using hpool
    refine ⟨?_, fun b hb hbpool => ?_⟩
    · refine List.ext_getElem (by simp [State.readBytesAt, s.length_resultBytes]) fun i hi _ => ?_
      have hi64 : i < 64 := by simpa [State.readBytesAt] using hi
      have hdie : (x.coResult + i - 0x10000000000) / 0x8000000 = (x.coResult - 0x10000000000) / 0x8000000 := by omega
      have hbyte : State.isPoolAddr (x.coResult + i) = true := by
        simp only [State.isPoolAddr, decide_eq_true_eq]
        omega
      simp only [State.readBytesAt, List.getElem_map, List.getElem_range]
      rw [State.readByte_of_pool _ _ hbyte, hreset, hdie, hup,
        if_neg Bool.false_ne_true, hget, if_pos (by omega), Nat.add_sub_cancel_left, List.getD_eq_getElem _ _ (by
          rw [s.length_resultBytes]
          exact hi64)]
    · exact State.readByte_of_mem hreset b hbpool (by rw [hget, if_neg (by omega)])

namespace State

/-! ### Transfers begin (R309, R310) -/

theorem srReady_of_task (s : State) (n : TaskId) (x : Task) (mode : Nat) (hx : s.task? n = some x) (hmode : x.srMode = mode)
    (hstarted : x.started = true) (hstatus : x.status = .dispatched) (hfin : x.fin = false)
    (hchan : (s.chan n.d x.srChan).task = some n) (hbegun : (s.chan n.d x.srChan).begun = false) :
    s.srReady n x.kind mode = some x := by
  rw [srReady, hx]
  dsimp only
  rw [if_pos ⟨rfl, hmode, hstarted, hstatus, by simp [hfin], hchan, by simp [hbegun]⟩]

/-- A begun STREAM SEND: its stream open, its wait for credit shown and timed. -/
theorem beginSend_of_idle (s : State) (n : TaskId) (x : Task) (h : (s.chan n.d x.srChan).since = none) :
    s.beginSend n x = ((s.setChan n.d x.srChan { s.chan n.d x.srChan with
        begun := true, tx := [{ stage := 0, dst := srPeer x, dstDie := x.srDie, chunks := streamOf x }] }).setF
          COL_STATUS_WAITING n.d 0 (s.getF COL_STATUS_WAITING n.d 0 ||| 2 ^ x.srChan)).setChan n.d x.srChan
      { s.chan n.d x.srChan with
        begun := true, since := some s.time
        tx := [{ stage := 0, dst := srPeer x, dstDie := x.srDie, chunks := streamOf x }] } := by
  unfold beginSend showWaiting
  dsimp only
  rw [chan_setChan_same]
  dsimp only
  rw [h]
  rfl

theorem beginSend_reads (s : State) (n : TaskId) (x : Task) (h : (s.chan n.d x.srChan).since = none) :
    (∃ r k, s.beginSend n x = { s with regs := r, chans := k }) ∧
    (s.beginSend n x).regs =
      (s.setF COL_STATUS_WAITING n.d 0 (s.getF COL_STATUS_WAITING n.d 0 ||| 2 ^ x.srChan)).regs ∧
    (s.beginSend n x).chan n.d x.srChan = { s.chan n.d x.srChan with
      begun := true, since := some s.time
      tx := [{ stage := 0, dst := srPeer x, dstDie := x.srDie, chunks := streamOf x }] } ∧
    ∀ d c, 16 * d + c ≠ 16 * n.d + x.srChan → (s.beginSend n x).chan d c = s.chan d c := by
  rw [s.beginSend_of_idle n x h]
  refine ⟨⟨_, _, rfl⟩, rfl, chan_setChan_same .., fun d c hne => ?_⟩
  rw [chan_setChan, if_neg (Ne.symm hne), chan_setF, chan_setChan, if_neg (Ne.symm hne)]

/-- A transfer of up to 4 KiB is one piece. -/
theorem piecesOf_single (x : Task) (h0 : 0 < x.srLength) (h1 : x.srLength ≤ 4096) :
    piecesOf x = [(x.srRemote, x.srLength)] := by
  have hcut : cutAll 0 x.srLength = [(0, x.srLength)] := by
    rw [cutAll, cutRange, if_neg (by omega), Nat.zero_mod, Nat.sub_zero, Nat.min_eq_left h1]
    dsimp only
    rw [Nat.sub_self, cutRange, if_pos rfl]
  rw [piecesOf, hcut]
  rfl

theorem beginRemoteSend_of_single (s : State) (n : TaskId) (x : Task) (h0 : 0 < x.srLength) (h1 : x.srLength ≤ 4096)
    (w : State) (hw : w = s.setChan n.d x.srChan { s.chan n.d x.srChan with
      begun := true, todo := [(x.srRemote, x.srLength)] }) :
    s.beginRemoteSend n x = w.send (w.frameTo (srPeer x) x.srDie 1 n.d x.epoch 0x21 0
      (BitVec.ofNat 64 (x.srChan * 2 ^ 44 + x.srRemote)) (w.readBytesAt x.srLocal x.srLength)) := by
  rw [beginRemoteSend, piecesOf_single x h0 h1, ← hw]
  simp only [List.foldl_cons, List.foldl_nil, Nat.sub_self, Nat.add_zero]

theorem beginRemoteRecv_of_piece (s : State) (n : TaskId) (x : Task) (p : Nat × Nat) (hp : piecesOf x = [p]) (w : State)
    (hw : w = s.setChan n.d x.srChan { s.chan n.d x.srChan with begun := true, todo := [p] }) :
    s.beginRemoteRecv n x = w.send (w.frameTo (srPeer x) x.srDie 1 n.d x.epoch 0x22 0
      (BitVec.ofNat 64 (p.2 * 2 ^ 48 + x.srChan * 2 ^ 44 + p.1)) []) := by
  rw [beginRemoteRecv, hp, ← hw]
  simp only [List.foldl_cons, List.foldl_nil]

theorem beginRemoteRecv_of_single (s : State) (n : TaskId) (x : Task) (h0 : 0 < x.srLength) (h1 : x.srLength ≤ 4096)
    (w : State) (hw : w = s.setChan n.d x.srChan { s.chan n.d x.srChan with
      begun := true, todo := [(x.srRemote, x.srLength)] }) :
    s.beginRemoteRecv n x = w.send (w.frameTo (srPeer x) x.srDie 1 n.d x.epoch 0x22 0
      (BitVec.ofNat 64 (x.srLength * 2 ^ 48 + x.srChan * 2 ^ 44 + x.srRemote)) []) := by
  obtain ⟨p, hp, hfst, hsnd⟩ : ∃ p, (x.srRemote, x.srLength) = p ∧ p.1 = x.srRemote ∧ p.2 = x.srLength := ⟨_, rfl, rfl, rfl⟩
  rw [hp] at hw
  rw [s.beginRemoteRecv_of_piece n x p (hp ▸ piecesOf_single x h0 h1) w hw, hfst, hsnd]

/-! ### Stalls and counters (R311, R324) -/

theorem stall_of_channel (s : State) (n : TaskId) (x : Task) (c : Nat) (hx : s.task? n = some x)
    (hc : x.channel = some c) (hstatus : x.status = .dispatched) (hfin : x.fin = false)
    (hchan : (s.chan n.d c).task = some n) :
    s.stall n = if (s.chan n.d c).progress then s.failTask n 7 else s := by
  rw [stall, hx]
  dsimp only
  rw [hc]
  simp [hstatus, hfin, hchan]

/-- The registers of the collective engine's counters. -/
def CountReg (d : Nat) (k : RegKey) : Prop := k.inst = d ∧ k.name ∈ [.AS_CHECKS, .AS_MISMATCH, .COL_CHAN]

theorem onlyRegs_colCntClr (s : State) (d : Nat) : OnlyRegs (CountReg d) s (s.colCntClr d) := by
  have hset : ∀ (t : State) (f : Field) (j : Nat), f.reg ∈ [RegName.AS_CHECKS, .AS_MISMATCH, .COL_CHAN] →
      OnlyRegs (CountReg d) s t → OnlyRegs (CountReg d) s (t.setF f d j 0) := fun t f j hf h =>
    h.setF _ _ _ _ ⟨rfl, hf⟩ fun he => absurd (he ▸ hf) (by decide)
  exact OnlyRegs.foldl _ _ (fun _ _ h => hset _ _ _ (by decide) h)
    (hset _ _ _ (by decide) (hset _ _ _ (by decide) (.refl _ s)))

/-- A field that one step of a loop writes. -/
theorem getF_foldl_of_step {f : Field} {i j w k : Nat} {g : State → Nat → State}
    (hg : ∀ u c, (g u c).getF f i j = if c = k then w else u.getF f i j) (l : List Nat) : ∀ s : State,
    (l.foldl g s).getF f i j = if k ∈ l then w else s.getF f i j := by
  induction l with
  | nil => exact fun s => rfl
  | cons c l ih =>
    intro s
    rw [List.foldl_cons, ih, hg]
    by_cases hk : k ∈ l
    · rw [if_pos hk, if_pos (List.mem_cons_of_mem _ hk)]
    · by_cases hc : c = k
      · rw [if_neg hk, if_pos hc, if_pos (by simp [hc])]
      · rw [if_neg hk, if_neg hc, if_neg (by simp [Ne.symm hc, hk])]

theorem getF_setF_idx (s : State) (f : Field) (hf : f.ok = true) (i j j' v : Nat) :
    (s.setF f i j' v).getF f i j = if j' = j then v % 2 ^ f.width else s.getF f i j := by
  by_cases h : j' = j
  · rw [if_pos h, h, getF_setF_same _ _ _ _ _ hf]
  · rw [if_neg h, getF_setF_of_key _ _ _ _ _ _ _ _ (fun he => h (congrArg RegKey.idx he))]

/-- A field of the registers of a list, each written to its value. -/
theorem getF_foldl_setF (f : Field) (hf : f.ok = true) (d j : Nat) (v : Nat → Nat) (l : List Nat) (s : State) :
    (l.foldl (fun s c => s.setF f d c (v c)) s).getF f d j = if j ∈ l then v j % 2 ^ f.width else s.getF f d j :=
  getF_foldl_of_step (fun u c => by
    rw [getF_setF_idx _ _ hf]
    by_cases h : c = j
    · rw [if_pos h, if_pos h, h]
    · rw [if_neg h, if_neg h]) l s

theorem getF_foldl_clear (f : Field) (hf : f.ok = true) (d j : Nat) (l : List Nat) (s : State) :
    (l.foldl (fun s c => s.setF f d c 0) s).getF f d j = if j ∈ l then 0 else s.getF f d j := by
  rw [getF_foldl_setF f hf d j (fun _ => 0) l s, Nat.zero_mod]

theorem colCntClr_reads (s : State) (d : Nat) : (s.colCntClr d).getF AS_CHECKS_COUNT d 0 = 0 ∧
    (s.colCntClr d).getF AS_MISMATCH_COUNT d 0 = 0 ∧ ∀ j < 16, (s.colCntClr d).getF COL_CHAN_DISCARDED d j = 0 := by
  have hchan : ∀ (f : Field) (t : State), COL_CHAN_DISCARDED.reg ≠ f.reg → t.getF f d 0 = 0 →
      ((List.range 16).foldl (fun s c => s.setF COL_CHAN_DISCARDED d c 0) t).getF f d 0 = 0 := fun f t hf ht =>
    List.foldlRecOn (motive := fun u : State => u.getF f d 0 = 0) _ _ ht fun u hu c _ =>
      (getF_setF_apart _ _ _ _ _ _ _ _ (.inl hf)).trans hu
  unfold colCntClr
  dsimp only
  refine ⟨hchan AS_CHECKS_COUNT _ (by decide) ?_, hchan AS_MISMATCH_COUNT _ (by decide) ?_, fun j hj => ?_⟩
  · rw [getF_setF_apart _ _ _ _ _ _ _ _ (by decide), getF_setF_same _ _ _ _ _ (by decide), Nat.zero_mod]
  · rw [getF_setF_same _ _ _ _ _ (by decide), Nat.zero_mod]
  · rw [getF_foldl_clear _ (by decide), if_pos (List.mem_range.mpr hj)]

end State

theorem channel_of_kind {x : Task} {c : Nat} (h : x.channel = some c) :
    (x.kind = .collective → x.coChan = c) ∧ (x.kind = .send ∨ x.kind = .recv → x.srChan = c) := by
  unfold Task.channel at h
  refine ⟨fun hk => ?_, fun hk => ?_⟩
  · rw [hk] at h
    exact Option.some.inj h
  · rcases hk with hk | hk <;> rw [hk] at h <;> exact Option.some.inj h

theorem chans_rest {s u : State} (h : ∃ r k, u = { s with regs := r, chans := k }) :
    s.latchEdges u = { s with regs := (s.latchEdges u).regs, chans := (s.latchEdges u).chans } := by
  obtain ⟨_, _, h⟩ := h
  rw [State.latchEdges_chans, State.latchEdges_eq, h]

/-- Settles O40: a collective of one die with nothing outstanding completes with its record written; transfers begin with
their first credit or request, and a stalled channel fails its task. -/
theorem transfersBeginAndEnd : Obligations.TransfersBeginAndEnd := by
  intro s n x c ch hx hc hch hmine hstarted hstatus hfin
  obtain ⟨hcoll, htransfer⟩ := channel_of_kind hc
  subst hch
  refine ⟨fun hkind hdone hgroup hseal htotal hresult => ?_, fun hp => ?_, fun hp => ?_, fun hbegun p hpeer =>
    ⟨fun hkind hmode hsince => ?_, fun hkind hmode => ?_, fun hmode h0 h1 w hw => ⟨fun hkind => ?_, fun hkind => ?_⟩⟩,
    fun r d hd => ?_⟩
  · exact collective_ends s n x hx hkind hstatus hfin (by rw [hcoll hkind]; exact hmine) hdone hgroup hseal htotal hresult
  · rw [exec_stall, s.stall_of_channel n x c hx hc hstatus hfin hmine, hp, if_pos rfl]
  · rw [exec_stall, s.stall_of_channel n x c hx hc hstatus hfin hmine, hp, if_neg Bool.false_ne_true, latchEdges_self]
  · obtain rfl := htransfer (.inl hkind)
    have hready := s.srReady_of_task n x 0 hx hmode hstarted hstatus hfin hmine hbegun
    have hsend : s.sendStream n = s.beginSend n x := by
      rw [State.sendStream, ← hkind, hready]
    obtain ⟨hrest, hregs, hown, hothers⟩ := s.beginSend_reads n x hsince
    rw [exec_sendStream, hsend]
    subst hpeer
    generalize s.beginSend n x = u at *
    have hkept : Kept (· = ⟨.COL_STATUS, n.d, 0⟩) s u :=
      ((Kept.refl (· = ⟨.COL_STATUS, n.d, 0⟩) s).setF COL_STATUS_WAITING n.d 0 _ rfl (by decide)).trans_regs hregs
    refine ⟨_, rfl, chans_rest hrest, hkept.latch s, ?_, ?_, fun d' c' hne => ?_⟩
    · rw [State.getF_latch _ _ _ _ _ (by decide), State.getF, State.getR, hregs]
      exact State.getF_setF_same _ _ _ _ _ (by decide)
    · rw [State.chan_latchEdges, hown]
    · rw [State.chan_latchEdges, hothers d' c' hne]
  · obtain rfl := htransfer (.inr hkind)
    have hready := s.srReady_of_task n x 0 hx hmode hstarted hstatus hfin hmine hbegun
    rw [exec_recvStream, State.recvStream, ← hkind, hready]
    subst hpeer
    rfl
  · obtain rfl := htransfer (.inl hkind)
    have hready := s.srReady_of_task n x 1 hx hmode hstarted hstatus hfin hmine hbegun
    rw [exec_sendRemote, State.sendRemote, ← hkind, hready]
    subst hpeer
    exact congrArg _ (congrArg _ (s.beginRemoteSend_of_single n x h0 h1 w hw))
  · obtain rfl := htransfer (.inr hkind)
    have hready := s.srReady_of_task n x 1 hx hmode hstarted hstatus hfin hmine hbegun
    rw [exec_recvRemote, State.recvRemote, ← hkind, hready]
    subst hpeer
    exact congrArg _ (congrArg _ (s.beginRemoteRecv_of_single n x h0 h1 w hw))
  · obtain ⟨hchecks, hmismatch, hdiscarded⟩ := s.colCntClr_reads d
    refine ⟨_, exec_colCntClr r d s hd, (s.onlyRegs_colCntClr d).latch s, ?_, ?_, fun j hj => ?_⟩
    · rw [State.getF_latch _ _ _ _ _ (by decide), hchecks]
    · rw [State.getF_latch _ _ _ _ _ (by decide), hmismatch]
    · rw [State.getF_latch _ _ _ _ _ (by decide), hdiscarded j hj]

end Sys2Proof.Machine
end

section
/-! What each delivered frame does (R122, R303, R306 to R313): O42. -/

namespace Sys2Proof.Machine
namespace State

/-- A frame of its kind that is delivered acts. -/
theorem frameIn_of_hop {s u : State} {p : Nat} {f : Frame} (h : s.hop p f = (u, some f)) (kind : Bool) (hk : kind = true)
    (act : State → Frame → State) : s.frameIn p f kind act = act u f := by
  rw [frameIn, hk, h]
  rfl

/-! ### Frames without a task (R303, R311) -/

theorem takeColl_of_idle (u : State) (d : Nat) (f : Frame) (h : u.chanTask d (f.flags / 16) = none) :
    u.takeColl d f = if f.flags / 4 % 4 = 0 then
      u.setChan d (f.flags / 16) { u.chan d (f.flags / 16) with early := (u.chan d (f.flags / 16)).early ++ [f] }
    else u.addF COL_CHAN_DISCARDED d (f.flags / 16) 1 := by
  rw [takeColl, h]
  rfl

theorem takeCredit_of_idle (u : State) (d : Nat) (f : Frame) (h : u.chanTask d (f.flags / 16) = none) :
    u.takeCredit d f = u.addF COL_CHAN_DISCARDED d (f.flags / 16) 1 := by
  rw [takeCredit, h]
  rfl

theorem takeSendData_of_idle (u : State) (d : Nat) (f : Frame) (h : u.chanTask d (f.flags / 16) = none) :
    u.takeSendData d f = u.addF COL_CHAN_DISCARDED d (f.flags / 16) 1 := by
  rw [takeSendData, h]
  rfl

/-! ### A chunk with a right digest (R306, R313) -/

theorem checkChunk_of_digest (s : State) (d c e : Nat) (f : Frame) (stage i dig : Nat) (h : dig = f.w3.bits 60 0) :
    s.checkChunk d c e f stage i false dig = (s.addF AS_CHECKS_COUNT d 0 1, true, false) := by
  rw [checkChunk, if_pos h]
  rfl

theorem takeChunk_of_digest (u : State) (x : Task) (n : TaskId) (d i : Nat) (y : RxStream) (f : Frame) (k : Chunk)
    (hk : y.chunks[y.next]? = some k) (hbad : y.bad = false) (hlen : k.len ≠ 0)
    (hdig : u.chunkDigest x k.off f.payload = f.w3.bits 60 0) (hmine : (u.chan d x.coChan).task = some n) :
    u.takeChunk x n d i y f = ((u.addF AS_CHECKS_COUNT d 0 1).setRxStream d x.coChan i { y with
      next := y.next + 1, bad := false, ended := decide (y.next + 1 = y.chunks.length) }).enterChunk x n
        (u.geoOf x) d k f := by
  have hcheck := u.checkChunk_of_digest d x.coChan x.epoch f y.stage y.next _ hdig
  unfold takeChunk
  dsimp only
  rw [hk]
  dsimp only
  rw [hbad, if_neg (by simp), if_neg hlen, hcheck]
  dsimp only
  rw [if_neg (by rw [chan_addF, hmine]; exact fun h => h rfl), if_pos rfl]

theorem takeColl_of_chunk (u : State) (x : Task) (n : TaskId) (d : Nat) (y : RxStream) (f : Frame)
    (ht : u.chanTask d (f.flags / 16) = some (n, x)) (hkind : x.kind = .collective) (hcarry : u.carries? x = false)
    (hstage : f.flags / 4 % 4 = y.stage) (h0 : y.stage ≠ 0) (hsrc : y.src = f.src) (hdie : y.srcDie = f.srcDie)
    (hrx : (u.chan d (f.flags / 16)).rx = [y]) (w : State) (hw : w = u.takeChunk x n d 0 y f)
    (hmine : (w.chan d (f.flags / 16)).task = some n) :
    u.takeColl d f = w.advance x := by
  have hfind : [y].findIdx? (fun z => decide (z.stage = f.flags / 4 % 4 ∧ z.src = f.src ∧ z.srcDie = f.srcDie)) =
      some 0 := by
    rw [List.findIdx?_cons, decide_eq_true ⟨hstage.symm, hsrc, hdie⟩]
    rfl
  subst hw
  unfold takeColl
  dsimp only
  rw [ht]
  dsimp only
  have hrow : ¬ f.flags / 4 % 4 = 0 := by omega
  rw [if_neg (fun h => hrow h.1), if_neg (by simp [hkind]), hcarry, if_neg Bool.false_ne_true, if_neg hrow, hrx, hfind]
  exact if_pos hmine

/-! ### Credit (R307) -/

theorem takeCredit_of_stream (u : State) (x : Task) (n : TaskId) (d : Nat) (y : TxStream) (f : Frame)
    (ht : u.chanTask d (f.flags / 16) = some (n, x)) (htx : (u.chan d (f.flags / 16)).tx = [y])
    (hstage : y.stage = f.flags / 4 % 4) (hdst : y.dst = f.src) (hdie : y.dstDie = f.srcDie) (hbit : f.w3.bit 63 = false)
    (hcount : f.w3.bits 42 27 ≠ 0) (w : State) (hw : w = u.setChan d (f.flags / 16) { u.chan d (f.flags / 16) with
      tx := [{ y with grant := y.grant + f.w3.bits 42 27 }], progress := true }) :
    u.takeCredit d f = if x.kind = .send then w.pumpSendTask n x else w.advance x := by
  have hfind : [y].findIdx? (fun z => decide (z.stage = f.flags / 4 % 4 ∧ z.dst = f.src ∧ z.dstDie = f.srcDie)) =
      some 0 := by
    rw [List.findIdx?_cons, decide_eq_true ⟨hstage, hdst, hdie⟩]
    rfl
  subst hw
  unfold takeCredit
  dsimp only
  rw [ht]
  dsimp only
  rw [htx, hfind]
  dsimp only
  rw [if_neg (fun h => hcount h.2.2), hbit]
  rfl

/-! ### SENDDATA (R309) -/

theorem takeSendData_of_source (u : State) (x : Task) (n : TaskId) (d : Nat) (y : RxStream) (f : Frame)
    (ht : u.chanTask d (f.flags / 16) = some (n, x)) (hkind : x.kind = .recv)
    (hrx : (u.chan d (f.flags / 16)).rx = [y]) (hsrc : y.src ≠ f.src) :
    u.takeSendData d f = u.addF COL_CHAN_DISCARDED d (f.flags / 16) 1 := by
  unfold takeSendData
  dsimp only
  rw [ht]
  dsimp only
  rw [hrx, decide_eq_true hkind]
  dsimp only
  rw [if_pos (.inl hsrc)]
  rfl

theorem takeSendData_of_length (u : State) (x : Task) (n : TaskId) (d : Nat) (y : RxStream) (f : Frame)
    (ht : u.chanTask d (f.flags / 16) = some (n, x)) (hkind : x.kind = .recv)
    (hrx : (u.chan d (f.flags / 16)).rx = [y]) (hsrc : y.src = f.src) (hdie : y.srcDie = f.srcDie)
    (hnone : (u.chan d (f.flags / 16)).length = none) (hlen : f.w3.bits 39 0 = x.srLength) :
    u.takeSendData d f = u.setChan d (f.flags / 16) { u.chan d (f.flags / 16) with
      length := some x.srLength, progress := true } := by
  unfold takeSendData
  dsimp only
  rw [ht]
  dsimp only
  split
  · next z hz _ =>
    obtain rfl : z = y := by simpa [hrx] using hz.symm
    rw [if_neg (by simp [hsrc, hdie]), if_pos (by rw [hnone]; rfl), if_pos hlen, hlen]
  · next hother => exact absurd (decide_eq_true hkind) (hother y hrx)

/-! ### Remote requests (R310) -/

theorem takeRwrite_of_pool (u : State) (d : Nat) (f : Frame) (hpool : isPoolAddr (f.w3.bits 43 0) = true)
    (hmapped : u.mapped (f.w3.bits 43 0) = true) (hline : f.w3.bits 43 0 % 64 + f.payload.length ≤ 64)
    (hne : f.payload ≠ []) : u.takeRwrite d f = (u.storeLocal (f.w3.bits 43 0) f.payload).send
      ((u.storeLocal (f.w3.bits 43 0) f.payload).frameTo f.src f.srcDie 1 d f.epoch 0x23 0 f.w3 []) := by
  rw [takeRwrite, u.writePlain_of_pool _ _ _ _ _ hpool hmapped hline hne]
  rfl

theorem takeRresp_of_idle (u : State) (d : Nat) (f : Frame) (h : u.chanTask d (f.w3.bits 47 44) = none) :
    u.takeRresp d f = u.addF COL_CHAN_DISCARDED d (f.w3.bits 47 44) 1 := by
  rw [takeRresp, h]
  rfl

/-- The answer to the last piece of a remote SEND ends it. -/
theorem takeRresp_of_last (u : State) (x z : Task) (n : TaskId) (d l : Nat) (f : Frame)
    (ht : u.chanTask d (f.w3.bits 47 44) = some (n, x)) (hkind : x.kind = .send) (hd : n.d = d)
    (htodo : (u.chan d (f.w3.bits 47 44)).todo = [(f.w3.bits 43 0, l)]) (hbody : (u.chan d (f.w3.bits 47 44)).body = none)
    (hz : u.task? n = some z) (hstatus : z.status = .dispatched) :
    u.takeRresp d f = (u.setChan d (f.w3.bits 47 44) { u.chan d (f.w3.bits 47 44) with
      todo := [], progress := true }).setTask n { z with fin := true } := by
  have hfind : [(f.w3.bits 43 0, l)].find? (fun p => decide (p.1 = f.w3.bits 43 0)) = some (f.w3.bits 43 0, l) :=
    List.find?_cons_of_pos (decide_eq_true rfl)
  have herase : [(f.w3.bits 43 0, l)].erase (f.w3.bits 43 0, l) = [] := List.erase_cons_head ..
  subst hd
  unfold takeRresp
  dsimp only
  generalize f.w3.bits 43 0 = a at *
  generalize f.w3.bits 47 44 = b at *
  have hdone : ∀ v : State, v = u.setChan n.d b { u.chan n.d b with todo := [], progress := true } →
      v.chanDone n b = v.setTask n { z with fin := true } := fun v hv => by
    have hchan : v.chan n.d b = { u.chan n.d b with todo := [], progress := true } := by rw [hv, chan_setChan_same]
    have hvz : v.task? n = some z := by rw [hv]; exact hz
    rw [chanDone, hchan, if_neg (by simp [hbody]), hvz]
    exact if_pos hstatus
  rw [ht]
  dsimp only
  rw [htodo, hfind]
  dsimp only
  rw [herase, if_neg (show ¬ x.kind = .recv by simp [hkind]), chan_setChan_same, if_pos rfl, hdone _ rfl]

end State

/-! ### The commands -/

section
variable {s u : State} {p : Fin 6} {f : Frame} (h : s.hop p f = (u, some f))
include h

theorem exec_signalFrame_of_hop (hk : f.kind = 0x20) :
    exec (.signalFrame p f) s = .next (s.latchEdges (u.takeSignal f)) :=
  congrArg (commit s) (State.frameIn_of_hop h _ (decide_eq_true hk) _)

theorem exec_coll_of_hop (hk : f.kind = 0x10) :
    exec (.coll p f) s = .next (s.latchEdges (u.takeColl f.dstDie f)) :=
  congrArg (commit s) (State.frameIn_of_hop h _ (decide_eq_true hk) _)

theorem exec_collCredit_of_hop (hk : f.kind = 0x11) :
    exec (.collCredit p f) s = .next (s.latchEdges (u.takeCredit f.dstDie f)) :=
  congrArg (commit s) (State.frameIn_of_hop h _ (decide_eq_true hk) _)

theorem exec_senddata_of_hop (hk : f.kind = 0x12) :
    exec (.senddata p f) s = .next (s.latchEdges (u.takeSendData f.dstDie f)) :=
  congrArg (commit s) (State.frameIn_of_hop h _ (decide_eq_true hk) _)

theorem exec_rwrite_of_hop (hk : f.kind = 0x21) :
    exec (.rwrite p f) s = .next (s.latchEdges (u.takeRwrite f.dstDie f)) :=
  congrArg (commit s) (State.frameIn_of_hop h _ (decide_eq_true hk) _)

theorem exec_rread_of_hop (hk : f.kind = 0x22) :
    exec (.rread p f) s = .next (s.latchEdges (u.takeRread f.dstDie f)) :=
  congrArg (commit s) (State.frameIn_of_hop h _ (decide_eq_true hk) _)

theorem exec_rresp_of_hop (hk : f.kind = 0x23) :
    exec (.rresp p f) s = .next (s.latchEdges (u.takeRresp f.dstDie f)) :=
  congrArg (commit s) (State.frameIn_of_hop h _ (decide_eq_true hk) _)

/-- The last answer of a remote SEND leaves its channel with nothing outstanding and its task done. -/
theorem rresp_ends (hk : f.kind = 0x23) (x : Task) (n : TaskId) (l : Nat)
    (ht : u.chanTask f.dstDie (f.w3.bits 47 44) = some (n, x)) (hkind : x.kind = .send) (hd : n.d = f.dstDie)
    (htodo : (u.chan f.dstDie (f.w3.bits 47 44)).todo = [(f.w3.bits 43 0, l)])
    (hbody : (u.chan f.dstDie (f.w3.bits 47 44)).body = none) (hx : u.task? n = some x)
    (hstatus : x.status = .dispatched) :
    ∃ t, exec (.rresp p f) s = .next t ∧ (t.chan f.dstDie (f.w3.bits 47 44)).todo = [] ∧
      (t.task? n).any (fun y => y.fin) = true ∧ t.mem = u.mem ∧ t.cores = u.cores ∧ t.ports = u.ports := by
  have hend := u.takeRresp_of_last x x n f.dstDie l f ht hkind hd htodo hbody hx hstatus
  refine ⟨_, exec_rresp_of_hop h hk, ?_⟩
  rw [hend]
  have hfinished := (u.setChan f.dstDie (f.w3.bits 47 44) { u.chan f.dstDie (f.w3.bits 47 44) with
    todo := [], progress := true }).task?_setTask n x { x with fin := true } hx (u.idx_of_task? n x hx)
  refine ⟨?_, ?_, ?_, ?_, ?_⟩
  · rw [State.chan_latchEdges]
    exact congrArg ChanSt.todo (State.chan_setChan_same ..)
  · rw [State.task?_latchEdges, hfinished]
    rfl
  · rw [State.latchEdges_mem]
    rfl
  · rw [State.latchEdges_cores]
    rfl
  · rw [State.latchEdges_ports]
    rfl

end

/-- Settles O42: what each frame of the collective engine, the transfers and the tokens does once a port delivers it. -/
theorem deliveredFramesAct : Obligations.DeliveredFramesAct := by
  intro s u p f d c h hd hc
  subst hd hc
  refine ⟨exec_signalFrame_of_hop h, fun hidle => ⟨fun hk hstage => ?_, fun i hi => ?_⟩, fun n x ht =>
    ⟨fun y k w hk hkind hcarry hchan hstage h0 hsrc hdie hrx hmine hchunk hbad hlen hdig hw hown => ?_,
      fun y hk htx hstage hdst hdie hbit hcount w hw => ?_,
      fun y hk hkind hrx => ⟨fun hsrc => ?_, fun hsrc hdie hnone hlen => ?_⟩⟩,
    fun a ha => ⟨fun hk hpool hmapped hline hne => ?_, fun hk => ?_, fun b hk hb => ⟨fun hidle => ?_,
      fun n x l ht hkind hd htodo hbody hx hstatus => ?_⟩⟩⟩
  · rw [exec_coll_of_hop h hk, u.takeColl_of_idle _ f hidle, if_pos hstage]
  · rcases hi with hi | ⟨rfl, hk, hstage⟩
    · simp only [List.mem_cons, Prod.mk.injEq, List.not_mem_nil, or_false] at hi
      rcases hi with ⟨rfl, hk⟩ | ⟨rfl, hk⟩
      · rw [exec_collCredit_of_hop h hk, u.takeCredit_of_idle _ f hidle]
      · rw [exec_senddata_of_hop h hk, u.takeSendData_of_idle _ f hidle]
    · rw [exec_coll_of_hop h hk, u.takeColl_of_idle _ f hidle, if_neg hstage]
  · have htake := u.takeChunk_of_digest x n f.dstDie 0 y f k hchunk hbad hlen hdig (by rw [hchan]; exact hmine)
    rw [hchan, ← hw] at htake
    rw [exec_coll_of_hop h hk, u.takeColl_of_chunk x n _ y f ht hkind hcarry hstage h0 hsrc hdie hrx w htake.symm hown]
  · rw [exec_collCredit_of_hop h hk, u.takeCredit_of_stream x n _ y f ht htx hstage hdst hdie hbit hcount w hw]
  · rw [exec_senddata_of_hop h hk, u.takeSendData_of_source x n _ y f ht hkind hrx hsrc]
  · rw [exec_senddata_of_hop h hk, u.takeSendData_of_length x n _ y f ht hkind hrx hsrc hdie hnone hlen]
  · subst ha
    rw [exec_rwrite_of_hop h hk, u.takeRwrite_of_pool _ f hpool hmapped hline hne]
  · subst ha
    exact exec_rread_of_hop h hk
  · subst hb
    rw [exec_rresp_of_hop h hk, u.takeRresp_of_idle _ f hidle]
  · subst ha hb
    exact rresp_ends h hk x n l ht hkind hd htodo hbody hx hstatus

end Sys2Proof.Machine
end

section
/-! Steps sealed and committed (R318 to R321, R325, R358, R362), for O43. -/

namespace Sys2Proof.Machine

/-! ### What a COMMIT leaves alone (R206, R339, R343) -/

namespace Stable

variable {P : State → Prop} (hP : Stable P) {s : State}
include hP

theorem freeCommitted {ms c : Nat} (h : P s) : P (s.freeCommitted ms c) := by
  unfold State.freeCommitted
  exact hP.versioning.pump (Stable.foldl h fun _ _ hu => hP.versioning.dropRetained hu)

theorem setIngot {i : IngotSt} (h : P s) : P (s.setIngot i) := hP.parts _ _ h {}

theorem draw (h : P s) : P s.draw.2 := hP.parts _ _ h { fresh := Nat.le_succ _ }

theorem timeStep (h : P s) : P s.timeStep := by
  unfold State.timeStep
  dsimp only
  split
  · exact hP.setIngot h
  · exact hP.setIngot h

theorem logRecord {e : Nat} (h : P s) : P (s.logRecord e).2 := hP.draw (hP.draw h)

theorem logStep {e : Nat} (h : P s) : P (s.logStep e) := by
  have hkept : P (if s.tier2Stopped then (s.logRecord e).2 else (s.logRecord e).2.setIngot
      { (s.logRecord e).2.ingot with ownLog := (s.logRecord e).2.ingot.ownLog ++ [(s.logRecord e).1] }) :=
    ifEither (hP.logRecord h) (hP.setIngot (hP.logRecord h))
  exact ifEither (hP.send hkept) hkept

theorem rxState {k : Nat} (h : P s) : P (s.rxState k) :=
  ifEither h (ifEither (hP.setF (hP.setIngot h)) (hP.setF h))

theorem writeAdvice (h : P s) : P s.writeAdvice := by
  unfold State.writeAdvice
  extract_lets i b c lag i1 up fails prior mMod mS cm l k lost k1 s1 s2
  exact hP.setF (hP.setF (hP.setF (hP.setF (hP.setIngot h))))

theorem lookIngot (h : P s) : P s.lookIngot :=
  ifEither h (ifEither (hP.setF h) (hP.pulse (hP.setIngot (hP.writeAdvice (hP.setF (hP.setF h))))))

theorem lookLost {e : Nat} (h : P s) : P (s.lookLost e) :=
  ifEither (hP.record _ _ (hP.setF (hP.setIngot h))) h

theorem ingotCommit {e : Nat} (h : P s) : P (s.ingotCommit e) :=
  hP.lookLost (hP.lookIngot (hP.rxState (hP.rxState (hP.logStep (hP.timeStep h)))))

end Stable

namespace State

/-! ### Verdict frames (R319, R321) -/

theorem takeSeal_of_sealed (u : State) (f : Frame) (h : u.isSealed f.epoch = true) : u.takeSeal f = u := by
  rw [takeSeal, if_pos h]

/-- A frame of the round at hand, by whether the round runs. -/
theorem takeSeal_of_round (u : State) (f : Frame) (hseal : u.isSealed f.epoch = false)
    (hround : frameRound f = (u.stepOf f.epoch).round) :
    u.takeSeal f =
      if (u.stepOf f.epoch).axis.isSome then
        if (u.stepOf f.epoch).axis.any (fun a => decide (frameAxis f < a)) then u
        else runRound 4 u { u.stepOf f.epoch with early := (u.stepOf f.epoch).early ++ [f] } (u.axesLeft (u.stepOf f.epoch))
      else if (u.stepOf f.epoch).jobWide.isSome then u
      else u.setStep { u.stepOf f.epoch with early := (u.stepOf f.epoch).early ++ [f] } := by
  have hahead : (frameRound f + 16 - (u.stepOf f.epoch).round) % 16 = 0 := by omega
  rw [takeSeal, if_neg (by simp [hseal])]
  exact if_pos hahead

/-! ### Sealing (R318, R320, R325) -/

theorem getF_setSealTokens (s : State) (t v d : Nat) (hd : d < 4) :
    (s.setSealTokens t v).getF GE_TOKEN_COUNT d t = v % 2 ^ 32 := by
  have hone : ∀ (u : State) (e : Nat), (u.setF GE_TOKEN_COUNT e t v).getF GE_TOKEN_COUNT d t =
      if e = d then v % 2 ^ 32 else u.getF GE_TOKEN_COUNT d t := fun u e => by
    split
    · next h =>
      subst h
      exact getF_setF_same _ _ _ _ _ (by decide)
    · next h => rw [getF, getR_setF, if_neg (fun he => h (congrArg RegKey.inst he)), ← getF]
  simp only [setSealTokens, List.foldl_cons, List.foldl_nil, hone]
  grind

/-- The registers that sealing a step writes. -/
def SealReg (k : RegKey) : Prop := k = ⟨.COL_SEAL_STATE, 0, 0⟩ ∨ (k.name = .GE_TOKEN ∧ k.inst < 4 ∧ k.idx = 4032)

theorem onlyRegs_showSeal {W : RegKey → Prop} {s t : State} (hW : W ⟨.COL_SEAL_STATE, 0, 0⟩) (h : OnlyRegs W s t) :
    OnlyRegs W s t.showSeal := by
  have hset : ∀ {t : State} (f : Field) (v : Nat), f.reg = .COL_SEAL_STATE → OnlyRegs W s t →
      OnlyRegs W s (t.setF f 0 0 v) := fun f v hf h =>
    h.setF _ _ _ _ (by rw [Field.key, hf]; exact hW) (by rw [hf]; decide)
  unfold showSeal
  split
  · exact hset _ _ rfl (hset _ _ rfl (hset _ _ rfl (hset _ _ rfl h)))
  · exact hset _ _ rfl (hset _ _ rfl h)

theorem onlyRegs_setSealTokens (s : State) (v : Nat) : OnlyRegs SealReg s (s.setSealTokens 4032 v) := by
  have hset : ∀ {t : State} (d : Nat), d < 4 → OnlyRegs SealReg s t →
      OnlyRegs SealReg s (t.setF GE_TOKEN_COUNT d 4032 v) := fun d hd h =>
    h.setF _ _ _ _ (.inr ⟨rfl, hd, rfl⟩) (by decide)
  exact hset 3 (by decide) (hset 2 (by decide) (hset 1 (by decide) (hset 0 (by decide) (.refl _ s))))

/-- The lowest step taken off the list. -/
def dropStep (s : State) (rest : List StepVerdict) : State := { s with sealer := { s.sealer with steps := rest } }

theorem sealVerdict_of_good (s : State) (v : StepVerdict) (rest : List StepVerdict) (hs : s.sealer.steps = v :: rest)
    (hjob : v.jobWide = some 0) (hown : v.own = 0) :
    s.sealVerdict = (((s.dropStep rest).setSealTokens 4032 (v.epoch + 1)).pulse 4 1).showSeal := by
  rw [sealVerdict, hs]
  exact if_pos ⟨hjob, hown⟩

theorem sealVerdict_of_open (s : State) (v : StepVerdict) (rest : List StepVerdict) (hs : s.sealer.steps = v :: rest)
    (h : v.jobWide ≠ some 0 ∨ v.own ≠ 0) : s.sealVerdict = s := by
  rw [sealVerdict, hs]
  exact if_neg fun hgood => h.elim (· hgood.1) (· hgood.2)

theorem sealVerdict_of_none (s : State) (h : s.sealer.steps = []) : s.sealVerdict = s := by
  rw [sealVerdict, h]

theorem sealVerdict_reads (s : State) (v : StepVerdict) (rest : List StepVerdict) (hs : s.sealer.steps = v :: rest)
    (hjob : v.jobWide = some 0) (hown : v.own = 0) :
    OnlyRegs SealReg (s.dropStep rest) s.sealVerdict ∧
    (∀ d < 4, s.sealVerdict.getF GE_TOKEN_COUNT d 4032 = (v.epoch + 1) % 2 ^ 32) ∧
    (s.sealVerdict.getR ⟨.HIC_PEND, 0, 4⟩).getLsbD 1 = true := by
  rw [s.sealVerdict_of_good v rest hs hjob hown]
  have htokens := (s.dropStep rest).onlyRegs_setSealTokens (v.epoch + 1)
  have hget := (s.dropStep rest).getF_setSealTokens 4032 (v.epoch + 1)
  generalize (s.dropStep rest).setSealTokens 4032 (v.epoch + 1) = t at *
  refine ⟨onlyRegs_showSeal (.inl rfl) (htokens.pulse 4 1), fun d hd => ?_, ?_⟩
  · rw [getF, getR_showSeal _ (show RegName.GE_TOKEN ∉ triggerRegs by decide), getR_pulse _ _ _ _ (show RegName.GE_TOKEN ≠ .HIC_PEND by decide),
      ← getF, hget d hd]
  · rw [getR_showSeal _ (show RegName.HIC_PEND ∉ triggerRegs by decide), pulse, pend, getR_putR, if_pos rfl,
      BitVec.getLsbD_or]
    simp

/-! ### COMMIT (R206, R320) -/

theorem getF_commitStep (s : State) (h : s.getF GE_TOKEN_COUNT 0 4033 < s.getF GE_TOKEN_COUNT 0 4032) (d : Nat)
    (hd : d < 4) : s.commitStep.getF GE_TOKEN_COUNT d 4033 = s.getF GE_TOKEN_COUNT 0 4032 := by
  have hP := stable_getF GE_TOKEN_COUNT d 4033 (s.getF GE_TOKEN_COUNT 0 4032) (by decide) (by decide)
  have hget : (s.setSealTokens 4033 (s.getF GE_TOKEN_COUNT 0 4032)).getF GE_TOKEN_COUNT d 4033 =
      s.getF GE_TOKEN_COUNT 0 4032 := by
    rw [getF_setSealTokens _ _ _ _ hd]
    exact Nat.mod_eq_of_lt (Field.get_lt ..)
  rw [commitStep]
  dsimp only
  rw [if_pos h]
  exact hP.ingotCommit (Stable.foldl (P := fun t => t.getF GE_TOKEN_COUNT d 4033 = s.getF GE_TOKEN_COUNT 0 4032) hget
    fun _ _ hu => hP.freeCommitted hu)

theorem commitStep_of_committed (s : State) (h : s.getF GE_TOKEN_COUNT 0 4032 ≤ s.getF GE_TOKEN_COUNT 0 4033) :
    s.commitStep = s := by
  rw [commitStep]
  exact if_neg (by omega)

/-! ### The Forge's checks (R318, R321, R358, R362) -/

theorem holdResolved_of_unsent (s : State) (v : StepVerdict) (h : v.sentHold = false) : s.holdResolved v = s.setStep v := by
  rw [holdResolved, if_neg (fun hs => by simp [h] at hs)]

theorem checkWord_good (e : Nat) : checkWord e 0 0 = BitVec.ofNat 64 (e * 2 ^ 32) := by
  simp only [checkWord, Nat.zero_mul, Nat.add_zero]

theorem checkGood_of_open (s : State) (e : Nat) (h : s.twinsOpen e = true) :
    s.checkGood e = s.refuseWrite (hubReg 3 0x10) (BitVec.ofNat 64 (e * 2 ^ 32)) := by
  rw [checkGood, if_pos h, checkWord_good]

theorem checkGood_of_closed (s : State) (e : Nat) (h : s.twinsOpen e = false) (hseal : s.isSealed e = false)
    (hsent : (s.stepOf e).sentHold = false) :
    s.checkGood e = s.setStep { s.stepOf e with forgeHold := false, trigHold := false } := by
  rw [checkGood, if_neg (by simp [h]), if_neg (by simp [hseal])]
  exact holdResolved_of_unsent _ _ hsent

theorem beginRound_of_alone (s : State) (v : StepVerdict) (round : Nat) (h : s.roundAxes round = []) :
    s.beginRound v round = s.setStep { v with
      round := round % 16, combined := 0, axis := none, got := [], ends := [],
      early := v.early.filter fun f => frameRound f = round % 16, jobWide := some v.own } := by
  rw [beginRound, if_pos h]
  rfl

theorem sealRoundStart_of_free (s : State) (e : Nat) (h : s.twinsOpen e = false) (hseal : s.isSealed e = false)
    (hfree : (s.stepOf e).carrier = none) :
    s.sealRoundStart e = s.beginRound { s.stepOf e with forgeHold := false, trigHold := false, carrierDone := true }
      ((s.stepOf e).round + 1) := by
  rw [sealRoundStart, if_neg (by simp [h]), if_neg (by simp [hseal])]
  exact if_pos (by rw [hfree]; rfl)

theorem checkHold_of_open (s : State) (e : Nat) (h : s.isSealed e = false) :
    s.checkHold e 0 = s.setStep { s.stepOf e with forgeHold := true } := by
  unfold checkHold
  rw [if_neg (by simp [h])]
  rfl

theorem flag_latchTrigger (s : State) (f : Field) (details : List Nat) (e : Nat) (hf : f.reg = .HIC_TRIG_STATUS)
    (hok : f.ok = true) : (s.latchTrigger f details e).flag f 0 0 = true := by
  have hlog : f.reg ∉ [RegName.HIC_ELOG_PROD, .HIC_ELOG_DROP, .HIC_MGMT_STATUS] := by rw [hf]; decide
  have hcount : ∀ t : State, t.countTrigger.flag f 0 0 = t.flag f 0 0 := fun t => by
    rw [countTrigger, flag_ite, hubRecord, flag_record_apart _ _ _ _ _ hlog, ite_self]
    rfl
  rw [latchTrigger, hcount, hubRecord, flag_record_apart _ _ _ _ _ hlog, flag_setF_one _ _ _ _ hok]

theorem dualHoldRelease_of_clear (s : State) (e : Nat) (hhold : (s.stepOf e).dualHold = true)
    (hsent : (s.stepOf e).sentHold = false) (hboundary : s.ingot.boundary.any (fun b => decide (e ≤ b)) = true)
    (hclear : ∀ d < 4, (∀ y ∈ (s.engine d).unmatched, y.1 ≠ e) ∧ (∀ y ∈ s.tasksOf d, y.2.epoch ≠ e)) :
    s.dualHoldRelease e = s.setStep { s.stepOf e with dualHold := false } := by
  have hall : ([0, 1, 2, 3].all fun d => !((s.engine d).unmatched.any fun r => r.1 = e) &&
      !((s.tasksOf d).any fun t => !s.twinSlot d t.1.g && s.taskLive t && decide (t.2.epoch = e))) = true := by
    refine List.all_eq_true.mpr fun d hd => ?_
    obtain ⟨hunmatched, htasks⟩ := hclear d (by simp at hd; omega)
    simp only [Bool.and_eq_true, Bool.not_eq_true', List.any_eq_false, decide_eq_true_eq]
    exact ⟨hunmatched, fun y hy h => htasks y hy h.2⟩
  rw [dualHoldRelease]
  dsimp only
  rw [hall, hhold, hboundary]
  exact holdResolved_of_unsent _ _ hsent

theorem dualHoldRelease_of_none (s : State) (e : Nat) (h : (s.stepOf e).dualHold = false) : s.dualHoldRelease e = s := by
  rw [dualHoldRelease, h]
  rfl

end State

/-! ### The commands -/

theorem exec_seal_of_hop {s u : State} {p : Fin 6} {f : Frame} (h : s.hop p f = (u, some f)) (hk : f.kind = 0x24)
    (hcode : f.w3.bits 63 62 = 0) : exec (.seal p f) s = .next (s.latchEdges (u.takeSeal f)) :=
  congrArg (commit s) (State.frameIn_of_hop h _ (by simp [hk, hcode]) _)

theorem exec_sealVerdict (s : State) : exec .sealVerdict s = .next (s.latchEdges s.sealVerdict) := rfl

theorem exec_commit (s : State) : exec .commit s = .next (s.latchEdges s.commitStep) := rfl

theorem exec_sealTimeout (e : BitVec 32) (s : State) :
    exec (.sealTimeout e) s = .next (s.latchEdges (s.sealTimeout e.toNat)) := rfl

theorem exec_checkGood (r : Requester) (e : BitVec 32) (s : State) :
    exec (.checkGood r e) s = .next (s.latchEdges (s.checkGood e.toNat)) := rfl

theorem exec_checkHold (r : Requester) (e : BitVec 32) (why : Fin 3) (s : State) :
    exec (.checkHold r e why) s = .next (s.latchEdges (s.checkHold e.toNat why.val)) := rfl

theorem exec_sealRoundStart (r : Requester) (e : BitVec 32) (s : State) :
    exec (.sealRoundStart r e) s = .next (s.latchEdges (s.sealRoundStart e.toNat)) := rfl

theorem exec_dualHoldRelease (e : BitVec 32) (s : State) :
    exec (.dualHoldRelease e) s = .next (s.latchEdges (s.dualHoldRelease e.toNat)) := rfl

/-- The lowest unsealed step sealed: off the list, its tokens passed, with the sealing pulse. -/
theorem sealVerdict_seals (s : State) (v : StepVerdict) (rest : List StepVerdict) (hs : s.sealer.steps = v :: rest)
    (hjob : v.jobWide = some 0) (hown : v.own = 0) :
    ∃ t, exec .sealVerdict s = .next t ∧
      t = { s with regs := t.regs, sealer := { s.sealer with steps := rest } } ∧
      Kept State.SealReg s t ∧
      (∀ d < 4, t.getF GE_TOKEN_COUNT d 4032 = (v.epoch + 1) % 2 ^ 32) ∧
      (t.getR ⟨.HIC_PEND, 0, 4⟩).getLsbD 1 = true := by
  obtain ⟨⟨hrest, hkept⟩, htokens, hpend⟩ := s.sealVerdict_reads v rest hs hjob hown
  refine ⟨_, exec_sealVerdict s, ?_, ?_, fun d hd => ?_, ?_⟩
  · rw [State.latchEdges_eq, hrest]
    rfl
  · exact ⟨(hkept.latch s).1, (hkept.latch s).2⟩
  · rw [State.getF_latch _ _ _ _ _ (by decide), htokens d hd]
  · have hmore := congrArg (BitVec.getLsbD · 1)
      (((Kept.refl State.SealReg s.sealVerdict).latch s).2 ⟨.HIC_PEND, 0, 4⟩ rfl)
    simp only [BitVec.getLsbD_and, hpend, Bool.and_true] at hmore
    exact hmore

/-- Settles O43: verdict frames by their round, the lowest unsealed step sealed once its verdicts are GOOD, COMMIT, and the
Forge's checks. -/
theorem stepsAreSealedAndCommitted : Obligations.StepsAreSealedAndCommitted := by
  intro s
  refine ⟨fun p f u v h hk hcode hv => ⟨fun hseal => ?_, fun hseal hround haxis hjob => ?_, fun a hseal hround haxis ha => ?_⟩,
    fun v rest hs => ⟨fun hjob hown => ?_, fun hopen => ?_⟩, fun hs => ?_, fun h => ?_, fun h => ?_,
    fun e r v hv => ⟨fun hdone hseal => ?_, fun hdone => ?_, fun hopen => ?_, fun hopen hseal => ⟨fun hsent => ?_,
      fun hfree halone w hw => ?_⟩, fun hseal => ?_, ?_, ?_, fun hhold hsent hboundary hclear => ?_, fun hhold => ?_⟩⟩
  · rw [exec_seal_of_hop h hk hcode, u.takeSeal_of_sealed f hseal]
  · subst hv
    rw [exec_seal_of_hop h hk hcode, u.takeSeal_of_round f hseal hround, if_neg (by simp [haxis]),
      if_neg (by simp [hjob])]
  · subst hv
    rw [exec_seal_of_hop h hk hcode, u.takeSeal_of_round f hseal hround, if_pos (by simp [haxis]),
      if_neg (by simpa [haxis] using ha)]
  · exact sealVerdict_seals s v rest hs hjob hown
  · rw [exec_sealVerdict, s.sealVerdict_of_open v rest hs hopen, latchEdges_self]
  · rw [exec_sealVerdict, s.sealVerdict_of_none hs, latchEdges_self]
  · refine ⟨_, exec_commit s, fun d hd => ?_⟩
    rw [State.getF_latch _ _ _ _ _ (by decide), s.getF_commitStep h d hd]
  · rw [exec_commit, s.commitStep_of_committed h, latchEdges_self]
  all_goals subst hv
  · rw [exec_sealTimeout, State.sealTimeout, if_pos (by simp [hdone, hseal])]
  · rw [exec_sealTimeout, State.sealTimeout, if_neg (by simp [hdone]), latchEdges_self]
  · rw [exec_checkGood, s.checkGood_of_open _ hopen]
  · rw [exec_checkGood, s.checkGood_of_closed _ hopen hseal hsent]
  · rw [exec_sealRoundStart, s.sealRoundStart_of_free _ hopen hseal hfree, s.beginRound_of_alone _ _ halone]
    subst hw
    rfl
  · rw [exec_checkHold]
    exact congrArg _ (congrArg _ (s.checkHold_of_open _ hseal))
  · refine ⟨_, exec_checkHold r e 1 s, ?_⟩
    rw [State.flag_latch _ _ _ _ _ (by decide)]
    exact State.flag_latchTrigger _ _ _ _ rfl (by decide)
  · refine ⟨_, exec_checkHold r e 2 s, ?_⟩
    rw [State.flag_latch _ _ _ _ _ (by decide)]
    exact State.flag_latchTrigger _ _ _ _ rfl (by decide)
  · rw [exec_dualHoldRelease, s.dualHoldRelease_of_clear _ hhold hsent hboundary hclear]
  · rw [exec_dualHoldRelease, s.dualHoldRelease_of_none _ hhold, latchEdges_self]

end Sys2Proof.Machine
end

section
/-! Retracts and twins (R131, R322, R323, R355): O44. -/

namespace Sys2Proof.Machine

/-! ### The commands -/

theorem exec_retract_of_hop {s u : State} {p : Fin 6} {f : Frame} (h : s.hop p f = (u, some f)) (hk : f.kind = 0x24)
    (hcode : f.w3.bits 63 62 = 1) : exec (.retract p f) s =
      .next (s.latchEdges (u.retractStep f.epoch (f.w3.bits 53 50) (f.w3.bits 26 24) (f.w3.bits 23 0))) :=
  congrArg (commit s) (State.frameIn_of_hop h _ (by simp [hk, hcode]) _)

theorem exec_checkFail (r : Requester) (e : BitVec 32) (c : BitVec 3) (m : BitVec 24) (s : State) :
    exec (.checkFail r e c m) s = .next (s.latchEdges (s.failStep e.toNat 2 (some (c.toNat, m.toNat)))) := rfl

theorem exec_retractDone (s : State) : exec .retractDone s = .next (s.latchEdges s.retractDone) := rfl

theorem exec_primaryAnnounce (d : Fin 4) (g : Fin 16) (b : BitVec 16) (e : BitVec 32) (s : State) :
    exec (.primaryAnnounce d g b e) s = .next (s.latchEdges (s.primaryAnnounce d g b.toNat e.toNat)) := rfl

/-! ### A retract is latched (R322) -/

theorem cancellable_sealer (x : SealSt) : Cancellable fun s => s.sealer = x where
  putR _ _ _ _ h := h
  waiting _ _ _ h := h
  context _ _ _ _ h := h
  parts _ _ h hu := hu.sealer.trans h
  record _ _ h := (State.record_sealer ..).trans h
  engine _ _ _ _ h := h
  core _ _ _ h := h
  chan _ _ _ _ h := h
  remaining _ _ _ _ h := h
  ended _ _ _ _ _ h := h
  setTask _ _ _ _ _ _ _ _ h := h

theorem Word.bits_lt (w : Word) (hi lo : Nat) : w.bits hi lo < 2 ^ (hi + 1 - lo) := Nat.mod_lt _ (Nat.two_pow_pos _)

namespace State

/-- A retract as its latches show it. -/
structure Retracting (t : State) (e reason die xyz : Nat) : Prop where
  retracting : t.sealer.retracting = some e
  last : t.sealer.lastRetract = some e
  steps : ∀ v ∈ t.sealer.steps, v.epoch < e
  valid : t.flag COL_RETRACT_VALID 0 0 = true
  epoch : t.getF COL_RETRACT_EPOCH 0 0 = e
  reason : t.getF COL_RETRACT_REASON 0 0 = reason
  die : t.getF COL_RETRACT_SUSPECT_DIE 0 0 = die
  suspect : t.getF COL_RETRACT_SUSPECT 0 0 = xyz
  begun : t.flag COL_SEAL_STATE_RETRACTING 0 0 = true
  notDone : t.flag COL_SEAL_STATE_RETRACT_DONE 0 0 = false

theorem Retracting.of_regs {s t : State} {e reason die xyz : Nat} (h : s.Retracting e reason die xyz)
    (hsealer : t.sealer = s.sealer) (hretract : t.getR ⟨.COL_RETRACT, 0, 0⟩ = s.getR ⟨.COL_RETRACT, 0, 0⟩)
    (hbegun : t.flag COL_SEAL_STATE_RETRACTING 0 0 = s.flag COL_SEAL_STATE_RETRACTING 0 0)
    (hdone : t.flag COL_SEAL_STATE_RETRACT_DONE 0 0 = s.flag COL_SEAL_STATE_RETRACT_DONE 0 0) :
    t.Retracting e reason die xyz := by
  have hget : ∀ f : Field, f.reg = .COL_RETRACT → t.getF f 0 0 = s.getF f 0 0 := fun f hf => by
    rw [getF, Field.key, hf, hretract, getF, Field.key, hf]
  obtain ⟨h1, h2, h3, h4, h5, h6, h7, h8, h9, h10⟩ := h
  exact ⟨hsealer ▸ h1, hsealer ▸ h2, hsealer ▸ h3, by rw [flag, hget _ rfl]; exact h4, (hget _ rfl).trans h5,
    (hget _ rfl).trans h6, (hget _ rfl).trans h7, (hget _ rfl).trans h8, hbegun.trans h9, hdone.trans h10⟩

/-- What a retract leaves once it is latched: tasks cancelled, stacks, engines and the ingot engine taken back. -/
def carryRetract (s : State) (e : Nat) : State := (((s.cancelEpoch e).stacksRetract e).enginesRetract e).ingotRetract e

theorem carryRetract_keeps {P : State → Prop} (hP : Cancellable P) {s : State} (e : Nat) (h : P s) : P (s.carryRetract e) :=
  hP.ingotRetract (hP.enginesRetract (hP.stacksRetract (hP.cancelEpoch h)))

theorem sealer_showSeal (s : State) : s.showSeal.sealer = s.sealer := by
  unfold showSeal
  split <;> rfl

theorem flag_showSeal (s : State) (f : Field) (hf : ∀ g ∈ [COL_SEAL_STATE_EPOCH, COL_SEAL_STATE_OWN, COL_SEAL_STATE_COMBINED,
    COL_SEAL_STATE_ROUND], g.reg ≠ f.reg ∨ f.hi < g.lo ∨ g.hi < f.lo) : s.showSeal.flag f 0 0 = s.flag f 0 0 := by
  have hset : ∀ (t : State) (g : Field) v, g ∈ [COL_SEAL_STATE_EPOCH, COL_SEAL_STATE_OWN, COL_SEAL_STATE_COMBINED,
      COL_SEAL_STATE_ROUND] → (t.setF g 0 0 v).flag f 0 0 = t.flag f 0 0 := fun t g v hg =>
    flag_setF_apart _ _ _ _ _ _ _ _ (hf g hg)
  unfold showSeal
  split
  · rw [hset _ _ _ (by simp), hset _ _ _ (by simp), hset _ _ _ (by simp), hset _ _ _ (by simp)]
  · rw [hset _ _ _ (by simp), hset _ _ _ (by simp)]

theorem latchRetract_reads (s : State) (e reason die xyz : Nat) :
    (s.latchRetract e reason die xyz).flag COL_RETRACT_VALID 0 0 = true ∧
    (s.latchRetract e reason die xyz).getF COL_RETRACT_EPOCH 0 0 = e % 2 ^ COL_RETRACT_EPOCH.width ∧
    (s.latchRetract e reason die xyz).getF COL_RETRACT_REASON 0 0 = reason % 2 ^ COL_RETRACT_REASON.width ∧
    (s.latchRetract e reason die xyz).getF COL_RETRACT_SUSPECT_DIE 0 0 = die % 2 ^ COL_RETRACT_SUSPECT_DIE.width ∧
    (s.latchRetract e reason die xyz).getF COL_RETRACT_SUSPECT 0 0 = xyz % 2 ^ COL_RETRACT_SUSPECT.width ∧
    (s.latchRetract e reason die xyz).flag COL_SEAL_STATE_RETRACTING 0 0 = true ∧
    (s.latchRetract e reason die xyz).flag COL_SEAL_STATE_RETRACT_DONE 0 0 = false := by
  unfold latchRetract
  simp (disch := decide) only [getF_setF_apart, getF_setF_self, flag_setF_apart, flag_setF_one, flag_setF_zero, and_self]

theorem getF_dropSteps (s : State) (e : Nat) (f : Field) (i j : Nat) : (s.dropSteps e).getF f i j = s.getF f i j := rfl

theorem flag_dropSteps (s : State) (e : Nat) (f : Field) (i j : Nat) : (s.dropSteps e).flag f i j = s.flag f i j := rfl

theorem retracting_dropSteps (s : State) (e reason die xyz : Nat) (he : e < 2 ^ 32) (hr : reason < 2 ^ 4) (hd : die < 2 ^ 3)
    (hx : xyz < 2 ^ 24) : ((s.latchRetract e reason die xyz).dropSteps e).Retracting e reason die xyz := by
  obtain ⟨hvalid, hepoch, hreason, hdie, hsuspect, hbegun, hdone⟩ := s.latchRetract_reads e reason die xyz
  have hsteps : ∀ v ∈ ((s.latchRetract e reason die xyz).dropSteps e).sealer.steps, v.epoch < e := fun v hv =>
    of_decide_eq_true (List.mem_filter.mp hv).2
  refine ⟨rfl, rfl, hsteps, ?_, ?_, ?_, ?_, ?_, ?_, ?_⟩
  · rw [flag_dropSteps, hvalid]
  · rw [getF_dropSteps, hepoch, show COL_RETRACT_EPOCH.width = 32 by decide, Nat.mod_eq_of_lt he]
  · rw [getF_dropSteps, hreason, show COL_RETRACT_REASON.width = 4 by decide, Nat.mod_eq_of_lt hr]
  · rw [getF_dropSteps, hdie, show COL_RETRACT_SUSPECT_DIE.width = 3 by decide, Nat.mod_eq_of_lt hd]
  · rw [getF_dropSteps, hsuspect, show COL_RETRACT_SUSPECT.width = 24 by decide, Nat.mod_eq_of_lt hx]
  · rw [flag_dropSteps, hbegun]
  · rw [flag_dropSteps, hdone]

theorem retracting_retractStep (s : State) (e reason die xyz : Nat) (h : s.retractNew e = true) (he : e < 2 ^ 32)
    (hr : reason < 2 ^ 4) (hd : die < 2 ^ 3) (hx : xyz < 2 ^ 24) :
    (s.retractStep e reason die xyz).Retracting e reason die xyz := by
  have hlatched := (s.tellRetract e reason die xyz).retracting_dropSteps e reason die xyz he hr hd hx
  have heq : s.retractStep e reason die xyz =
      ((((s.tellRetract e reason die xyz).latchRetract e reason die xyz).dropSteps e).carryRetract e).showSeal :=
    s.retractStep_of_new e reason die xyz h
  rw [heq]
  generalize ((s.tellRetract e reason die xyz).latchRetract e reason die xyz).dropSteps e = u at *
  have hsealer : (u.carryRetract e).sealer = u.sealer := carryRetract_keeps (cancellable_sealer u.sealer) e rfl
  have hretract : (u.carryRetract e).getR ⟨.COL_RETRACT, 0, 0⟩ = u.getR ⟨.COL_RETRACT, 0, 0⟩ :=
    carryRetract_keeps (cancellable_guarded ⟨.COL_RETRACT, 0, 0⟩ (u.getR ⟨.COL_RETRACT, 0, 0⟩) (by simp [cancelKeeps])) e rfl
  have hseal : (u.carryRetract e).getR ⟨.COL_SEAL_STATE, 0, 0⟩ = u.getR ⟨.COL_SEAL_STATE, 0, 0⟩ :=
    carryRetract_keeps (cancellable_guarded ⟨.COL_SEAL_STATE, 0, 0⟩ (u.getR ⟨.COL_SEAL_STATE, 0, 0⟩) (by simp [cancelKeeps])) e rfl
  have hshown : ∀ f : Field, f.reg = .COL_SEAL_STATE → (u.carryRetract e).flag f 0 0 = u.flag f 0 0 := fun f hf => by
    rw [flag, getF, Field.key, hf, hseal, flag, getF, Field.key, hf]
  refine hlatched.of_regs ((sealer_showSeal _).trans hsealer) ?_ ?_ ?_
  · rw [getR_showSeal _ (show RegName.COL_RETRACT ∉ triggerRegs by decide), hretract]
  · rw [flag_showSeal _ _ (by decide), hshown _ rfl]
  · rw [flag_showSeal _ _ (by decide), hshown _ rfl]

theorem Retracting.latch {s t : State} {e reason die xyz : Nat} (h : t.Retracting e reason die xyz) :
    (s.latchEdges t).Retracting e reason die xyz :=
  h.of_regs (latchEdges_sealer ..) (getR_latch _ _ _ _ _ (by decide)) (flag_latch _ _ _ _ _ (by decide))
    (flag_latch _ _ _ _ _ (by decide))

/-! ### A FAIL (R318, R323) -/

theorem failStep_of_open (s : State) (e reason die xyz : Nat) (hseal : s.isSealed e = false)
    (hsent : (s.stepOf e).sentGood = false) : s.failStep e reason (some (die, xyz)) =
      (s.setStep { s.stepOf e with failed := true }).retractStep e reason die xyz := by
  rw [failStep, if_neg (by simp [hseal, hsent])]

theorem failStep_of_sent (s : State) (e reason : Nat) (x : Option (Nat × Nat))
    (h : s.isSealed e = true ∨ (s.stepOf e).sentGood = true) : s.failStep e reason x =
      s.record { event := 0x0A05, sev := sevSuspect, unit := unitOf 4 3, epoch := e,
                 syn := Config.syndrome 0x0A05 [e, reason] } := by
  rw [failStep]
  exact if_pos (by simpa using h)

/-! ### The end of a retract (R322) -/

/-- The stacks no longer hold back writes of retracted steps. -/
def freeStacks (s : State) : State :=
  (List.range 12).foldl (fun s ms => s.setStack ms { s.stack ms with retract := none }) s

theorem freeStacks_rest (s : State) : ∃ k, s.freeStacks = { s with stackTab := k } :=
  List.foldlRecOn (motive := fun u : State => ∃ k, u = { s with stackTab := k }) _ _ ⟨_, rfl⟩ fun u hu ms _ => by
    obtain ⟨k, rfl⟩ := hu
    exact ⟨_, rfl⟩

theorem stack_foldl_free (l : List Nat) (m : Nat) (hm : m ∈ l) (hl : l.Nodup) : ∀ s : State,
    (l.foldl (fun s ms => s.setStack ms { s.stack ms with retract := none }) s).stack m =
      { s.stack m with retract := none } := by
  induction l with
  | nil => exact absurd hm List.not_mem_nil
  | cons a l ih =>
    intro s
    rw [List.nodup_cons] at hl
    obtain ⟨ha, hl⟩ := hl
    by_cases hml : m ∈ l
    · rw [List.foldl_cons, ih hml hl, stack_setStack, if_neg (fun h : a = m => ha (h ▸ hml))]
    · obtain rfl := (List.mem_cons.mp hm).resolve_right hml
      rw [List.foldl_cons]
      refine List.foldlRecOn (motive := fun u : State => u.stack m = { s.stack m with retract := none }) _ _ ?_
        fun u hu k hk => ?_
      · rw [stack_setStack, if_pos rfl]
      · rw [stack_setStack, if_neg (fun h : k = m => hml (h ▸ hk)), hu]

/-- A retract with no task left of its steps. -/
def endRetract (s : State) : State :=
  ((freeStacks { s with sealer := { s.sealer with retracting := none } }).setF COL_SEAL_STATE_RETRACTING 0 0 0).setF
    COL_SEAL_STATE_RETRACT_DONE 0 0 1

theorem stack_endRetract (s : State) (ms : Nat) (h : ms < 12) :
    s.endRetract.stack ms = { s.stack ms with retract := none } := by
  rw [endRetract, stack_setF, stack_setF, freeStacks]
  exact stack_foldl_free _ ms (List.mem_range.mpr h) List.nodup_range _

theorem retractDone_of_live (s : State) (e : Nat) (hs : s.sealer.retracting = some e)
    (h : ∃ d < 4, s.liveTasks d (fun x => decide (e ≤ x.epoch)) ≠ []) : s.retractDone = s := by
  obtain ⟨d, hd, hlive⟩ := h
  rw [retractDone, hs]
  dsimp only
  rw [if_pos]
  exact List.any_eq_true.mpr ⟨d, by simp; omega, by simpa using hlive⟩

theorem retractDone_of_ended (s : State) (e : Nat) (hs : s.sealer.retracting = some e)
    (h : ∀ d < 4, s.liveTasks d (fun x => decide (e ≤ x.epoch)) = []) : s.retractDone = s.endRetract := by
  rw [retractDone, hs]
  dsimp only
  rw [if_neg]
  · rfl
  · simp only [Bool.not_eq_true, List.any_eq_false]
    intro d hd
    rw [h d (by simp at hd; omega)]
    simp

/-! ### Twins (R355) -/

/-- The entry of a twin taken out of the pending ones. -/
def takeTwins (s : State) (k : Nat) : State := s.setEngine k { s.engine k with twins := [] }

theorem primaryAnnounce_of_entry (s : State) (d g b e k : Nat) (y : TwinEntry) (hdies : s.twinDies d = [k])
    (htwins : (s.engine k).twins = [y]) (hg : y.g = g) (hb : y.idx = b) (he : y.epoch = e) :
    s.primaryAnnounce d g b e = (s.takeTwins k).compareTwin k y := by
  have hhit : decide (y.g = g ∧ y.idx = b ∧ y.epoch = e) = true := decide_eq_true ⟨hg, hb, he⟩
  have htake : (s.engine k).twins.filter (fun z => decide (z.g = g ∧ z.idx = b ∧ z.epoch = e)) = [y] := by
    rw [htwins, List.filter_cons, hhit]
    rfl
  have hleave : (s.engine k).twins.filter (fun z => !decide (z.g = g ∧ z.idx = b ∧ z.epoch = e)) = [] := by
    rw [htwins, List.filter_cons, hhit]
    rfl
  rw [primaryAnnounce, hdies, List.foldl_cons, List.foldl_nil]
  dsimp only
  rw [htake, hleave]
  rfl

theorem primaryAnnounce_of_none (s : State) (d g b e : Nat) (h : s.twinDies d = []) : s.primaryAnnounce d g b e = s := by
  rw [primaryAnnounce, h]
  rfl

theorem primaryRecord_takeTwins (s : State) (k : Nat) (y : TwinEntry) :
    (s.takeTwins k).primaryRecord k y = s.primaryRecord k y := rfl

/-- A twin entry that agrees with its primary record: counted, and neither is pending. -/
def matchTwin (s : State) (k : Nat) (y : TwinEntry) : State :=
  let t := (s.takeTwins k).addF AS_DUAL_CNT_CHECKS k 0 1
  t.setEngine (t.primaryOf k) { t.engine (t.primaryOf k) with
    unmatched := (t.engine (t.primaryOf k)).unmatched.filter fun r => r ≠ (y.epoch, y.g, y.idx) }

theorem compareTwin_of_match (s : State) (k core : Nat) (y : TwinEntry) (h : s.primaryRecord k y = some (y.digest, core)) :
    (s.takeTwins k).compareTwin k y = s.matchTwin k y := by
  rw [compareTwin, primaryRecord_takeTwins, h]
  exact if_pos rfl

/-- A twin entry put back among the pending ones. -/
def returnTwin (s : State) (k : Nat) (y : TwinEntry) : State :=
  (s.takeTwins k).setEngine k { (s.takeTwins k).engine k with twins := ((s.takeTwins k).engine k).twins ++ [y] }

/-- A twin entry with no record yet: pending again. -/
theorem compareTwin_of_none (s : State) (k : Nat) (y : TwinEntry) (h : s.primaryRecord k y = none) :
    (s.takeTwins k).compareTwin k y = s.returnTwin k y := by
  rw [compareTwin, primaryRecord_takeTwins, h]
  rfl

theorem engine_takeTwins (s : State) (k j : Nat) :
    (s.takeTwins k).engine j = if k = j then { s.engine k with twins := [] } else s.engine j := engine_setEngine ..

theorem engine_returnTwin (s : State) (k : Nat) (y : TwinEntry) (h : (s.engine k).twins = [y]) (j : Nat) :
    (s.returnTwin k y).engine j = s.engine j := by
  rw [returnTwin, engine_setEngine, engine_takeTwins, engine_takeTwins, if_pos rfl]
  split
  · next hj =>
    rw [← hj, List.nil_append, ← h]
  · rfl

theorem returnTwin_rest (s : State) (k : Nat) (y : TwinEntry) : ∃ e, s.returnTwin k y = { s with engines := e } := ⟨_, rfl⟩

theorem primaryOf_of_twinDies {s : State} {d k : Nat} (h : s.twinDies d = [k]) : s.primaryOf k = d := by
  have hk : k ∈ s.twinDies d := by simp [h]
  simp only [twinDies, List.mem_filter, Bool.and_eq_true, decide_eq_true_eq] at hk
  exact hk.2.2

theorem matchTwin_reads (s : State) (d k : Nat) (y : TwinEntry) (h : s.primaryOf k = d) :
    (∃ r e, s.matchTwin k y = { s with regs := r, engines := e }) ∧
    (s.matchTwin k y).regs = (s.addF AS_DUAL_CNT_CHECKS k 0 1).regs ∧
    ((s.matchTwin k y).engine k).twins = [] ∧
    (y.epoch, y.g, y.idx) ∉ ((s.matchTwin k y).engine d).unmatched := by
  have hp : ((s.takeTwins k).addF AS_DUAL_CNT_CHECKS k 0 1).primaryOf k = d :=
    (getF_setF_apart _ _ _ _ _ _ _ _ (by decide)).trans h
  have heq : s.matchTwin k y = ((s.takeTwins k).addF AS_DUAL_CNT_CHECKS k 0 1).setEngine d { (s.takeTwins k).engine d with
      unmatched := ((s.takeTwins k).engine d).unmatched.filter fun r => r ≠ (y.epoch, y.g, y.idx) } := by
    unfold matchTwin
    dsimp only
    rw [hp]
    rfl
  refine ⟨by rw [heq]; exact ⟨_, _, rfl⟩, by rw [heq]; rfl, ?_, ?_⟩
  · rw [heq, engine_setEngine]
    split
    · next hd => rw [engine_takeTwins, if_pos hd.symm]
    · exact congrArg Engine.twins ((s.engine_takeTwins k k).trans (if_pos rfl))
  · rw [heq, engine_setEngine, if_pos rfl]
    simp

end State

/-- Levels read the engines one by one. -/
theorem level_congr_engine {s t : State} (h : t.regs = s.regs) (he : ∀ d, t.engine d = s.engine d) (hl : t.elog = s.elog)
    (g i : Nat) : t.level g i = s.level g i := by
  have hget : ∀ k, t.getR k = s.getR k := fun k => by rw [State.getR, h, State.getR]
  have hgetF : ∀ f i j, t.getF f i j = s.getF f i j := fun f i j => by rw [State.getF, hget, State.getF]
  have hflag : ∀ f i j, t.flag f i j = s.flag f i j := fun f i j => by rw [State.flag, hgetF, State.flag]
  unfold State.level State.monReady State.slotState State.ringSize State.alertAsserted State.ringUsed
  simp only [hflag, hgetF, he, hl, hget]

theorem latch_of_engines {s u : State} (h : ∃ e, u = { s with engines := e }) (he : ∀ d, u.engine d = s.engine d) :
    s.latchEdges u = u := by
  obtain ⟨_, rfl⟩ := h
  exact latch_none (level_congr_engine rfl he rfl)

/-- An announced record that agrees with the one pending entry of its twin. -/
theorem primaryAnnounce_matches (s : State) (d : Fin 4) (g : Fin 16) (b : BitVec 16) (e : BitVec 32) (y : TwinEntry)
    (k core : Nat) (hdies : s.twinDies d = [k]) (htwins : (s.engine k).twins = [y]) (hg : y.g = g.val)
    (hb : y.idx = b.toNat) (he : y.epoch = e.toNat) (hrec : s.primaryRecord k y = some (y.digest, core)) :
    ∃ t, exec (.primaryAnnounce d g b e) s = .next t ∧ t = { s with regs := t.regs, engines := t.engines } ∧
      Kept (· = ⟨.AS_DUAL_CNT, k, 0⟩) s t ∧ (t.engine k).twins = [] ∧
      t.getF AS_DUAL_CNT_CHECKS k 0 = min (s.getF AS_DUAL_CNT_CHECKS k 0 + 1) (2 ^ 32 - 1) ∧
      (e.toNat, g.val, b.toNat) ∉ (t.engine d).unmatched := by
  have hentry := s.primaryAnnounce_of_entry d g b.toNat e.toNat k y hdies htwins hg hb he
  obtain ⟨⟨r, en, hrest⟩, hregs, hempty, hgone⟩ := s.matchTwin_reads d k y (State.primaryOf_of_twinDies hdies)
  rw [hg, hb, he] at hgone
  rw [s.compareTwin_of_match k core y hrec] at hentry
  rw [exec_primaryAnnounce, hentry]
  generalize s.matchTwin k y = u at *
  have hkept : Kept (· = ⟨.AS_DUAL_CNT, k, 0⟩) s u :=
    ((Kept.refl (· = ⟨.AS_DUAL_CNT, k, 0⟩) s).setF AS_DUAL_CNT_CHECKS k 0 _ rfl (by decide)).trans_regs hregs
  refine ⟨_, rfl, State.rest_latch (by rw [hrest]), hkept.latch s, ?_, ?_, ?_⟩
  · rw [State.engine_latchEdges, hempty]
  · rw [State.getF_latch _ _ _ _ _ (by decide), State.getF, State.getR, hregs]
    exact State.getF_addF_self _ _ _ _ _ (by decide)
  · rw [State.engine_latchEdges]
    exact hgone

/-- An announced record that is not there leaves the entry pending. -/
theorem primaryAnnounce_misses (s : State) (d : Fin 4) (g : Fin 16) (b : BitVec 16) (e : BitVec 32) (y : TwinEntry)
    (k : Nat) (hdies : s.twinDies d = [k]) (htwins : (s.engine k).twins = [y]) (hg : y.g = g.val)
    (hb : y.idx = b.toNat) (he : y.epoch = e.toNat) (hrec : s.primaryRecord k y = none) :
    ∃ t, exec (.primaryAnnounce d g b e) s = .next t ∧ t = { s with engines := t.engines } ∧
      ∀ j, t.engine j = s.engine j := by
  have hentry := s.primaryAnnounce_of_entry d g b.toNat e.toNat k y hdies htwins hg hb he
  have hengine := s.engine_returnTwin k y htwins
  obtain ⟨en, hrest⟩ := s.returnTwin_rest k y
  rw [exec_primaryAnnounce, hentry, s.compareTwin_of_none k y hrec]
  generalize s.returnTwin k y = u at *
  rw [latch_of_engines ⟨en, hrest⟩ hengine]
  exact ⟨_, rfl, by rw [hrest], hengine⟩

/-- A retract that ends: no stack holds back, and the seal agent shows it done. -/
theorem retractDone_ends (s : State) (e : Nat) (hs : s.sealer.retracting = some e)
    (h : ∀ d < 4, s.liveTasks d (fun x => decide (e ≤ x.epoch)) = []) :
    ∃ t, exec .retractDone s = .next t ∧
      t = { s with regs := t.regs, stackTab := t.stackTab, sealer := { s.sealer with retracting := none } } ∧
      Kept (· = ⟨.COL_SEAL_STATE, 0, 0⟩) s t ∧ (∀ ms < 12, t.stack ms = { s.stack ms with retract := none }) ∧
      t.flag COL_SEAL_STATE_RETRACTING 0 0 = false ∧ t.flag COL_SEAL_STATE_RETRACT_DONE 0 0 = true := by
  obtain ⟨k, hfree⟩ := State.freeStacks_rest { s with sealer := { s.sealer with retracting := none } }
  refine ⟨_, exec_retractDone s, ?_⟩
  rw [s.retractDone_of_ended e hs h]
  have hstack := s.stack_endRetract
  have hrest : ∃ r k, s.endRetract = { s with regs := r, stackTab := k, sealer := { s.sealer with retracting := none } } := by
    rw [State.endRetract, hfree]
    exact ⟨_, _, rfl⟩
  have hregs : s.endRetract.regs =
      ((s.setF COL_SEAL_STATE_RETRACTING 0 0 0).setF COL_SEAL_STATE_RETRACT_DONE 0 0 1).regs := by
    rw [State.endRetract, hfree]
    rfl
  have hkept : Kept (· = ⟨.COL_SEAL_STATE, 0, 0⟩) s s.endRetract :=
    (((Kept.refl (· = ⟨.COL_SEAL_STATE, 0, 0⟩) s).setF COL_SEAL_STATE_RETRACTING 0 0 _ rfl (by decide)).setF
      COL_SEAL_STATE_RETRACT_DONE 0 0 _ rfl (by decide)).trans_regs hregs
  have hbegun : s.endRetract.flag COL_SEAL_STATE_RETRACTING 0 0 = false := by
    rw [State.endRetract, State.flag_setF_apart _ _ _ _ _ _ _ _ (by decide), State.flag_setF_zero _ _ _ _ (by decide)]
  have hdone : s.endRetract.flag COL_SEAL_STATE_RETRACT_DONE 0 0 = true := State.flag_setF_one _ _ _ _ (by decide)
  generalize s.endRetract = u at *
  refine ⟨?_, hkept.latch s, fun ms hms => ?_, ?_, ?_⟩
  · obtain ⟨_, _, rfl⟩ := hrest
    rw [State.latchEdges_stackTab, State.latchEdges_eq]
  · rw [State.stack_latchEdges, hstack ms hms]
  · rw [State.flag_latch _ _ _ _ _ (by decide), hbegun]
  · rw [State.flag_latch _ _ _ _ _ (by decide), hdone]

/-- Both ways a retract begins run the retract on the state they leave. -/
theorem exec_retract_or_fail (s u : State) (i : Instr) (e reason die xyz : Nat)
    (h : (∃ p f, i = .retract p f ∧ s.hop p f = (u, some f) ∧ f.kind = 0x24 ∧ f.w3.bits 63 62 = 1 ∧ e = f.epoch ∧
        reason = f.w3.bits 53 50 ∧ die = f.w3.bits 26 24 ∧ xyz = f.w3.bits 23 0) ∨
      (∃ (r : Requester) (b : BitVec 32) (c : BitVec 3) (m : BitVec 24), i = .checkFail r b c m ∧ e = b.toNat ∧
        u = s.setStep { s.stepOf e with failed := true } ∧ reason = 2 ∧ die = c.toNat ∧ xyz = m.toNat ∧
        s.isSealed e = false ∧ (s.stepOf e).sentGood = false)) :
    exec i s = .next (s.latchEdges (u.retractStep e reason die xyz)) ∧
      e < 2 ^ 32 ∧ reason < 2 ^ 4 ∧ die < 2 ^ 3 ∧ xyz < 2 ^ 24 := by
  rcases h with ⟨p, f, rfl, hhop, hk, hcode, rfl, rfl, rfl, rfl⟩ | ⟨r, b, c, m, rfl, rfl, rfl, rfl, rfl, rfl, hseal, hsent⟩
  · exact ⟨exec_retract_of_hop hhop hk hcode, Word.bits_lt f.w1 63 32, Word.bits_lt f.w3 53 50, Word.bits_lt f.w3 26 24, Word.bits_lt f.w3 23 0⟩
  · rw [exec_checkFail, s.failStep_of_open _ 2 _ _ hseal hsent]
    exact ⟨rfl, b.isLt, by decide, c.isLt, m.isLt⟩

/-- Settles O44: a retract is latched and carried out until no task of its steps lives, a FAIL after GOOD is recorded, and
twins are compared with announced records. -/
theorem retractsAndTwins : Obligations.RetractsAndTwins := by
  refine ⟨fun s => ⟨fun i u e reason die xyz h => ?_, fun r e c m h => ?_, fun hs => ?_, fun e hs =>
    ⟨fun hlive => ?_, retractDone_ends s e hs⟩⟩, fun s d g b e y k => ⟨fun hnone => ?_, fun hdies htwins hg hb he =>
      ⟨fun core => primaryAnnounce_matches s d g b e y k core hdies htwins hg hb he,
        primaryAnnounce_misses s d g b e y k hdies htwins hg hb he⟩⟩⟩
  · obtain ⟨hexec, he, hr, hd, hx⟩ := exec_retract_or_fail s u i e reason die xyz h
    refine ⟨fun hcovered => ?_, fun hnew => ?_⟩
    · rw [hexec, u.retractStep_of_covered _ _ _ _ hcovered]
    · obtain ⟨h1, h2, h3, h4, h5, h6, h7, h8, h9, h10⟩ :=
        (u.retracting_retractStep e reason die xyz hnew he hr hd hx).latch (s := s)
      exact ⟨_, hexec, h1, h2, h3, h4, h5, h6, h7, h8, h9, h10⟩
  · refine ⟨_, _, exec_checkFail r e c m s, rfl, ?_, ?_⟩
    · rw [s.failStep_of_sent _ _ _ h]
      exact logged_record ..
    · rw [s.failStep_of_sent _ _ _ h, State.seq_record]
  · rw [exec_retractDone, State.retractDone, hs]
    exact congrArg _ (latchEdges_self s)
  · rw [exec_retractDone, s.retractDone_of_live e hs hlive, latchEdges_self]
  · rw [exec_primaryAnnounce, s.primaryAnnounce_of_none _ _ _ _ hnone, latchEdges_self]

end Sys2Proof.Machine
end

section
/-! What sending to neighbours leaves alone (R268, R277, R332): the rules by which hallmarks, gossip and discovery keep a
property of the state. -/

namespace Sys2Proof.Machine

namespace Sending

variable {P : State → Prop} (hP : Sending P) {s : State}
include hP

theorem sendNeighbour {p kind : Nat} {tag : Word} {payload : List Byte} (h : P s) :
    P (s.sendNeighbour p kind tag payload) := hP.enqueue h

theorem sendHallmark {p : Nat} (h : P s) : P (s.sendHallmark p) := hP.sendNeighbour (hP.port _ _ _ rfl h)

theorem tellHallmarks (h : P s) : P s.tellHallmarks :=
  Stable.foldl h fun _ _ hu => Stable.ifEither (hP.sendHallmark hu) hu

theorem sendGossip {ports : List Nat} {l : List (Nat × Gossip)} (h : P s) : P (s.sendGossip ports l) :=
  Stable.foldl h fun _ _ hu => Stable.foldl hu fun _ _ hv => hP.sendNeighbour hv

end Sending

/-! ### Discovery (R278 to R283) -/

/-- A property that discovery keeps: it looks at neither what discovery knows nor the registers that show it. -/
structure Discovering (P : State → Prop) : Prop extends Sending P where
  disc : ∀ (s : State) (d : DiscSt), P s → P { s with disc := d }
  shown : ∀ (s : State) (f : Field) (v : Nat), f ∈ [PORT_MOD_DISC_PHASE, PORT_MOD_DISC_GEN, PORT_MOD_COORD_VALID,
    PORT_MOD_COORD_FAULT] → P s → P (s.setF f 0 0 v)

namespace Discovering

variable {P : State → Prop} (hP : Discovering P) {s : State}
include hP

theorem setPhase {n : Nat} (h : P s) : P (s.setPhase n) := hP.shown _ _ _ (by simp) (hP.shown _ _ _ (by simp) h)

theorem gatherFault (h : P s) : P s.gatherFault := hP.shown _ _ _ (by simp) (hP.disc _ _ h)

theorem lookDisc (h : P s) : P s.lookDisc := by
  unfold State.lookDisc
  extract_lets phase s1 c d b at_ d2 e
  have h1 : P s1 := hP.gatherFault h
  have hrestart : ∀ (d : DiscSt) n, P (({ s1 with disc := d }).setPhase n).tellHallmarks := fun d n =>
    hP.tellHallmarks (hP.setPhase (hP.disc _ _ h1))
  refine Stable.ifEither (hP.tellHallmarks h) (Stable.ifEither (hrestart _ _) (Stable.ifEither (hP.tellHallmarks h1)
    (Stable.ifEither (hrestart _ _) (Stable.ifEither (hP.tellHallmarks h1) (Stable.ifEither (hrestart _ _)
      (hP.tellHallmarks h1))))))

theorem beginGeneration {g : Nat} (h : P s) : P (s.beginGeneration g) :=
  hP.lookDisc (hP.setPhase (hP.disc _ _ (hP.shown _ _ _ (by simp) (hP.shown _ _ _ (by simp) h))))

theorem newGeneration (h : P s) : P s.newGeneration := Stable.ifEither (hP.beginGeneration h) h

theorem takeGeneration {g : Nat} (h : P s) : P (s.takeGeneration g) :=
  Stable.ifEither (hP.beginGeneration h) (hP.lookDisc h)

end Discovering

/-! ### Gossip (R332, R334) -/

namespace State

theorem ringPut_ingot (s : State) (r : ErrRec) : (s.ringPut r).ingot = s.ingot := by
  unfold ringPut
  extract_lets r1 e0 s1 prod s2 s3
  have h3 : s3.ingot = s.ingot := (wrapF_ingot ..).trans ((storeAll_ingot ..).trans rfl)
  clear_value s3
  split
  · exact h3
  · exact h3

theorem ringDeliver_ingot (s : State) (r : ErrRec) : (s.ringDeliver r).ingot = s.ingot := by
  unfold ringDeliver
  split
  · split
    · rfl
    · split
      · rfl
      · split <;> rfl
  · split
    · exact s.ringPut_ingot r
    · split
      · rfl
      · split <;> rfl

theorem streamDeliver_ingot (s : State) (r : ErrRec) (alert : Bool) : (s.streamDeliver r alert).ingot = s.ingot := by
  unfold streamDeliver
  split
  · rfl
  · split <;> rfl

/-- A record counts no more in the ingot engine than a failure of its hour. -/
theorem record_ingot (s : State) (a : RecArg) : ∃ h, (s.record a).ingot = { s.ingot with failHours := h } := by
  unfold record
  extract_lets t rail r e s1 s2
  rw [streamDeliver_ingot, ringDeliver_ingot]
  by_cases hsev : a.sev = sevFailed
  · have hs : s2 = s1.countFailure := if_pos hsev
    exact ⟨s2.ingot.failHours, by rw [hs]; rfl⟩
  · have hs : s2 = s1 := if_neg hsev
    exact ⟨s2.ingot.failHours, by rw [hs]⟩

theorem gossip_record (s : State) (a : RecArg) : (s.record a).ingot.gossip = s.ingot.gossip := by
  obtain ⟨h, hi⟩ := s.record_ingot a
  rw [hi]

end State

/-- A property that gossip keeps: it looks at no more of the own record than that it is one. -/
structure Gossiping (P : State → Prop) : Prop extends Sending P where
  flooded : ∀ (s : State) (g : Gossip), P s →
    P (s.setIngot { s.ingot with seq := g.seq, gossip := Tab.putN none s.ingot.gossip s.identity (some g) })
  fed : ∀ (s : State) (f : Field) (v : Nat), f.reg ∈ [.ING_PARTNER, .ING_STATUS] → P s → P (s.setF f 0 0 v)
  record : ∀ (s : State) (a : RecArg), P s → P (s.record a)

namespace Gossiping

variable {P : State → Prop} (hP : Gossiping P) {s : State}
include hP

theorem floodOwn (h : P s) : P s.floodOwn := hP.sendGossip (hP.flooded _ _ h)

theorem freshenOwn (h : P s) : P s.freshenOwn := by
  unfold State.freshenOwn
  split
  · exact Stable.ifEither h (hP.floodOwn h)
  · exact h

theorem lookFed {b : Bool} (h : P s) : P (s.lookFed b) := by
  unfold State.lookFed
  extract_lets g s1 was is
  have h1 : P s1 := hP.fed _ _ _ (by decide) (hP.fed _ _ _ (by decide) h)
  exact Stable.ifEither (hP.floodOwn (hP.record _ _ (hP.fed _ _ _ (by decide) (hP.fed _ _ _ (by decide) h1))))
    (Stable.ifEither (hP.floodOwn (hP.fed _ _ _ (by decide) (hP.fed _ _ _ (by decide) h1))) (hP.freshenOwn h1))

end Gossiping

/-! ### The records of other modules -/

section
variable {κ α : Type} [DecidableEq κ]

theorem Tab.filter_erase (t : Tab κ α) (k : κ) : (Tab.erase t k).filter (fun e => decide (e.1 ≠ k)) =
    t.filter fun e => decide (e.1 ≠ k) := by
  induction t with
  | nil => rfl
  | cons e t ih =>
    rw [Tab.erase]
    split
    · next h => rw [ih, List.filter_cons_of_neg (by simp [h])]
    · next h => rw [List.filter_cons_of_pos (by simp [h]), ih, List.filter_cons_of_pos (by simp [h])]

theorem Tab.filter_insert (lt : κ → κ → Bool) (t : Tab κ α) (k : κ) (v : α) :
    (Tab.insert lt t k v).filter (fun e => decide (e.1 ≠ k)) = t.filter fun e => decide (e.1 ≠ k) := by
  induction t with
  | nil => simp [Tab.insert]
  | cons e t ih =>
    rw [Tab.insert]
    split
    · rw [List.filter_cons_of_neg (by simp)]
    · rw [List.filter_cons, ih, List.filter_cons]

/-- A write at a key leaves the list of the other entries. -/
theorem Tab.filter_put [DecidableEq α] (lt : κ → κ → Bool) (d : κ → α) (t : Tab κ α) (k : κ) (v : α) :
    (Tab.put lt d t k v).filter (fun e => decide (e.1 ≠ k)) = t.filter fun e => decide (e.1 ≠ k) := by
  rw [Tab.put]
  split
  · exact Tab.filter_erase t k
  · rw [Tab.filter_insert, Tab.filter_erase]

end

namespace State

/-- The records held of other modules than `own`. -/
def otherGossip (s : State) (own : Nat) : Tab Nat (Option Gossip) := s.ingot.gossip.filter fun e => decide (e.1 ≠ own)

theorem gossipGet_other {s t : State} {own : Nat} (h : t.otherGossip own = s.otherGossip own) (i : Nat) (hi : i ≠ own) :
    t.gossipGet i = s.gossipGet i := by
  have hfilter : ∀ u : State, Tab.getN none (u.otherGossip own) i = u.gossipGet i := fun u =>
    (Tab.get_filter_key _ _ (fun k => decide (k ≠ own)) _).trans (if_pos (decide_eq_true hi))
  rw [← hfilter, h, hfilter]

/-- The own identity and the records of the others stay as gossip goes out. -/
theorem gossiping_other (own : Nat) (l : Tab Nat (Option Gossip)) :
    Gossiping fun t => t.identity = own ∧ t.otherGossip own = l where
  unack t p v h := ⟨(getF_setF_apart _ _ _ _ _ _ _ _ (by decide)).trans h.1, h.2⟩
  bytes t p i n h := ⟨(getF_setF_apart _ _ _ _ _ _ _ _ (by decide)).trans h.1, h.2⟩
  port _ _ _ _ h := h
  flooded t g h := by
    obtain ⟨rfl, h⟩ := h
    refine ⟨rfl, Eq.trans ?_ h⟩
    show (Tab.putN none t.ingot.gossip t.identity (some g)).filter (fun e => decide (e.1 ≠ t.identity)) = _
    rw [Tab.putN, Tab.filter_put]
    rfl
  fed t f v hf h := ⟨(getF_setF_apart _ _ _ _ _ _ _ _ (.inl fun he => by rw [he] at hf; revert hf; decide)).trans h.1, h.2⟩
  record t a h := ⟨(getF_record_apart _ _ _ _ _ (by decide)).trans h.1, by rw [otherGossip, gossip_record]; exact h.2⟩

end State
end Sys2Proof.Machine
end

section
/-! Hallmarks, certificate chains and gossip (R277, R278, R288, R332, R334, R342, R439): O46. -/

namespace Sys2Proof.Machine

/-! ### The commands -/

theorem exec_hallmark_of_hop {s u : State} {p : Fin 6} {f : Frame} (h : s.hop p f = (u, some f)) (hk : f.kind = 2)
    (ok : Bool) : exec (.hallmark p f ok) s = .next (s.latchEdges (u.takeHallmark p f ok)) :=
  congrArg (commit s) (State.frameIn_of_hop h _ (decide_eq_true hk) _)

theorem exec_cert_of_hop {s u : State} {p : Fin 6} {f : Frame} (h : s.hop p f = (u, some f)) (hk : f.kind = 3)
    (o : Option (BitVec 64)) : exec (.cert p f o) s = .next (s.latchEdges (u.takeCert p f o)) :=
  congrArg (commit s) (State.frameIn_of_hop h _ (decide_eq_true hk) _)

theorem exec_gossip_of_hop {s u : State} {p : Fin 6} {f : Frame} (h : s.hop p f = (u, some f)) (hk : f.kind = 4) :
    exec (.gossip p f) s = .next (s.latchEdges (u.takeGossip p f.payload)) :=
  congrArg (commit s) (State.frameIn_of_hop h _ (decide_eq_true hk) _)

theorem exec_badsigRetry (p : Fin 6) (s : State) :
    exec (.badsigRetry p) s = .next (s.latchEdges (s.badsigRetry p)) := rfl

theorem exec_gossipHour (s : State) : exec .gossipHour s = .next (s.latchEdges s.gossipHour) := rfl

theorem exec_gossipExpiry (s : State) : exec .gossipExpiry s = .next (s.latchEdges s.gossipExpiry) := rfl

namespace State

/-! ### Hallmarks (R277, R278) -/

theorem takeHallmark_of_unknown (u : State) (p : Nat) (f : Frame) (ok : Bool)
    (h : u.knows (Hallmark.ofBytes f.payload).identity = false) : u.takeHallmark p f ok = u.sendChain p := by
  rw [takeHallmark, if_pos (by simp [h])]

theorem takeHallmark_of_bad (u : State) (p : Nat) (f : Frame)
    (h : u.knows (Hallmark.ofBytes f.payload).identity = true) : u.takeHallmark p f false = u.badSignature p := by
  rw [takeHallmark, if_neg (by simp [h])]
  rfl

/-- A port held down for a signature, its neighbour never verified. -/
theorem badSignature_reads (u : State) (p : Nat) (h : u.verified p = false) :
    (u.badSignature p).flag PORT_IL_STATUS_BADSIG p 0 = true ∧ (u.badSignature p).linkState p = 0 ∧
    ((u.badSignature p).port p).badSig = true ∧ ((u.badSignature p).port p).replay = [] ∧
    (u.badSignature p).elog.seq = (u.elog.seq + 1) % 2 ^ 32 := by
  have hseq := u.seq_record { event := 0x0903, sev := sevDegraded, unit := portUnit p, sub := p, epoch := 0,
                              syn := Config.syndrome 0x0903 [p] }
  unfold badSignature
  dsimp only
  rw [h, if_neg Bool.false_ne_true, portRecord]
  generalize u.record { event := 0x0903, sev := sevDegraded, unit := portUnit p, sub := p, epoch := 0,
                        syn := Config.syndrome 0x0903 [p] } = t at *
  refine ⟨?_, ?_, ?_, ?_, hseq⟩
  · show ((t.setF PORT_IL_STATUS_BADSIG p 0 1).setF PORT_IL_STATUS_STATE p 0 0).flag PORT_IL_STATUS_BADSIG p 0 = true
    rw [flag_setF_apart _ _ _ _ _ _ _ _ (by decide), flag_setF_one _ _ _ _ (by decide)]
  · exact (getF_setF_same _ PORT_IL_STATUS_STATE p 0 0 (by decide)).trans (Nat.zero_mod _)
  · rw [port_setPort, if_pos rfl]
  · rw [port_setPort, if_pos rfl]

/-- What a neighbour just verified shows: its link up, its identity, port and feed, and its hallmark kept. -/
structure Neighbour (t : State) (p : Nat) (h : Hallmark) : Prop where
  state : t.linkState p = 3
  id : t.getF PORT_IL_NEIGH_ID p 0 = h.identity % 2 ^ PORT_IL_NEIGH_ID.width
  nport : t.getF PORT_IL_STATUS_NPORT p 0 = h.port % 2 ^ PORT_IL_STATUS_NPORT.width
  feed : t.getF PORT_IL_NEIGH_INFO_FEED p 0 = h.feed % 2 ^ PORT_IL_NEIGH_INFO_FEED.width
  peer : (t.port p).peer = some h

theorem Neighbour.setF {t : State} {p : Nat} {h : Hallmark} (ht : t.Neighbour p h) (f : Field) (i j v : Nat)
    (hf : ∀ g ∈ [PORT_IL_STATUS_STATE, PORT_IL_NEIGH_ID, PORT_IL_STATUS_NPORT, PORT_IL_NEIGH_INFO_FEED],
      f.reg ≠ g.reg ∨ g.hi < f.lo ∨ f.hi < g.lo) : (t.setF f i j v).Neighbour p h := by
  have hget : ∀ g ∈ [PORT_IL_STATUS_STATE, PORT_IL_NEIGH_ID, PORT_IL_STATUS_NPORT, PORT_IL_NEIGH_INFO_FEED],
      (t.setF f i j v).getF g p 0 = t.getF g p 0 := fun g hg => getF_setF_apart _ _ _ _ _ _ _ _ (hf g hg)
  exact ⟨(hget _ (by simp)).trans ht.state, (hget _ (by simp)).trans ht.id, (hget _ (by simp)).trans ht.nport,
    (hget _ (by simp)).trans ht.feed, ht.peer⟩

theorem discovering_neighbour (p : Nat) (h : Hallmark) : Discovering fun t => t.Neighbour p h where
  unack t q v ht := ht.setF _ _ _ _ (by decide)
  bytes t q i n ht := ht.setF _ _ _ _ (by decide)
  port t q x hx ht := ⟨ht.state, ht.id, ht.nport, ht.feed, by
    rw [port_setPort]
    split
    · next hq => rw [hx, hq, ht.peer]
    · exact ht.peer⟩
  disc t d ht := ⟨ht.state, ht.id, ht.nport, ht.feed, ht.peer⟩
  shown t f v hf ht := ht.setF _ _ _ _ (by revert f; decide)

/-- The port of a neighbour just verified. -/
def verifyPort (s : State) (p : Nat) (h : Hallmark) : State :=
  ((((s.setPort p { s.port p with peer := some h }).neighbourUp p h).setF PORT_IL_NEIGH_INFO_FEED p 0 h.feed).setF
    PORT_IL_NEIGH_INFO_GEN p 0 h.gen)

theorem takeContent_of_new (s : State) (p : Nat) (h : Hallmark) (hl : s.linkState p = 2) :
    s.takeContent p h = ((s.verifyPort p h).newGeneration).takeGeneration h.gen := by
  have hnew : decide (s.linkState p = 2) = true := decide_eq_true hl
  unfold takeContent
  dsimp only
  rw [hnew]
  cases (s.port p).peer with
  | none => rfl
  | some y =>
    dsimp only
    rw [Bool.not_true, Bool.and_false, if_neg Bool.false_ne_true]
    rfl

theorem neighbour_verifyPort (s : State) (p : Nat) (h : Hallmark) : (s.verifyPort p h).Neighbour p h := by
  unfold verifyPort neighbourUp linkPulse
  constructor
  · simp (disch := decide) only [linkState, getF_setF_apart, getF_pulse, getF_setF_self]
    decide
  · simp (disch := decide) only [getF_setF_apart, getF_pulse, getF_setF_self]
  · simp (disch := decide) only [getF_setF_apart, getF_pulse, getF_setF_self]
  · simp (disch := decide) only [getF_setF_apart, getF_setF_self]
  · rw [port_setF, port_setF, port_pulse, port_setF, port_setF, port_setF, port_setPort, if_pos rfl]

theorem takeHallmark_of_new (u : State) (p : Nat) (f : Frame) (h : Hallmark) (hf : h = Hallmark.ofBytes f.payload)
    (hk : u.knows h.identity = true) (hl : u.linkState p = 2) :
    u.takeHallmark p f true = u.takeContent p h := by
  subst hf
  rw [takeHallmark, if_neg (by simp [hk]), if_neg (by simp), if_neg (by simp [verified, hl])]

/-! ### Certificate chains (R439) -/

/-- The pieces of a chain with the one that came. -/
def certPieces (s : State) (p : Nat) (f : Frame) : List (List Byte) :=
  (if f.w3.bits 15 0 = 0 then [] else (s.port p).certs) ++ [f.payload]

theorem takeCert_of_more (u : State) (p : Nat) (f : Frame) (o : Option (BitVec 64))
    (h : (u.certPieces p f).length < f.w3.bits 31 16) :
    u.takeCert p f o = u.setPort p { u.port p with certs := u.certPieces p f } := if_pos h

theorem takeCert_of_whole (u : State) (p : Nat) (f : Frame) (h : f.w3.bits 31 16 ≤ (u.certPieces p f).length) :
    (∀ id : BitVec 64, u.takeCert p f (some id) =
      u.setPort p { u.port p with known := (u.port p).known ++ [id.toNat], certs := [] }) ∧
    u.takeCert p f none = u.badSignature p :=
  ⟨fun _ => if_neg (Nat.not_lt.mpr h), if_neg (Nat.not_lt.mpr h)⟩

/-! ### Gossip (R332, R334, R342) -/

/-- One record of a frame stored, and forwarded where it was newer. -/
def storeOne (s : State) (p : Nat) (x : Nat × Gossip) : State :=
  let y := s.storeGossip x
  if y.2 then y.1.sendGossip (y.1.gossipPorts.filter (· ≠ p)) [x] else y.1

theorem takeGossip_of_single (u : State) (p : Nat) (payload : List Byte) (h : payload.length = 32) :
    u.takeGossip p payload = (u.storeOne p (gossipOf payload u.hourNow)).lookFed false := by
  have hne : payload.isEmpty = false := by
    cases payload with
    | nil => simp at h
    | cons _ _ => rfl
  have hgroups : (groupsOf 32 129 payload).filter (fun g => decide (g.length = 32)) = [payload] := by
    rw [groupsOf, hne, if_neg Bool.false_ne_true, List.take_of_length_le (by omega), List.drop_eq_nil_of_le (by omega),
      groupsOf, if_pos List.isEmpty_nil, List.filter_cons_of_pos (by simp [h]), List.filter_nil]
  unfold takeGossip storeOne
  dsimp only
  rw [hgroups, List.foldl_cons, List.foldl_nil]
  dsimp only
  cases u.storeGossip (gossipOf payload u.hourNow) with
  | mk t stored => cases stored <;> rfl

/-- A record that is newer, of another module. -/
def Newer (s : State) (x : Nat × Gossip) : Prop :=
  (∃ g, s.gossipGet x.1 = some g ∧ g.seq < x.2.seq) ∨ (s.gossipGet x.1 = none ∧ s.ingot.gossip.length < 16384)

theorem storeGossip_of_newer (s : State) (x : Nat × Gossip) (hown : x.1 ≠ s.identity) (h : s.Newer x) :
    s.storeGossip x = (s.setIngot { s.ingot with gossip := Tab.putN none s.ingot.gossip x.1 (some x.2) }, true) := by
  have hid : decide (x.1 ≠ s.getF PORT_MOD_ID_ID 0 0) = true := decide_eq_true hown
  unfold storeGossip
  rcases h with ⟨g, hg, hseq⟩ | ⟨hnone, hroom⟩
  · rw [hg, hid]
    dsimp only
    rw [decide_eq_true hseq]
    rfl
  · rw [hnone, hid]
    dsimp only
    rw [decide_eq_true hroom]
    rfl

theorem storeGossip_of_held (s : State) (x : Nat × Gossip) (g : Gossip) (hg : s.gossipGet x.1 = some g)
    (h : x.2.seq ≤ g.seq) : s.storeGossip x = (s, false) := by
  unfold storeGossip
  rw [hg]
  dsimp only
  rw [decide_eq_false (by omega)]
  rfl

theorem takeGossip_stores (u : State) (p : Nat) (payload : List Byte) (hlen : payload.length = 32) (x : Nat × Gossip)
    (hx : x = gossipOf payload u.hourNow) (hown : x.1 ≠ u.identity) (h : u.Newer x) :
    (u.takeGossip p payload).gossipGet x.1 = some x.2 ∧
    ∀ i, i ≠ x.1 → i ≠ u.identity → (u.takeGossip p payload).gossipGet i = u.gossipGet i := by
  rw [u.takeGossip_of_single p payload hlen, ← hx, storeOne, u.storeGossip_of_newer x hown h]
  have hput : ∀ i, (u.setIngot { u.ingot with gossip := Tab.putN none u.ingot.gossip x.1 (some x.2) }).gossipGet i =
      if x.1 = i then some x.2 else u.gossipGet i := fun i => by
    rw [gossipGet, setIngot]
    exact Tab.getN_putN none u.ingot.gossip x.1 i (some x.2)
  have hid : (u.setIngot { u.ingot with gossip := Tab.putN none u.ingot.gossip x.1 (some x.2) }).identity = u.identity := rfl
  generalize u.setIngot { u.ingot with gossip := Tab.putN none u.ingot.gossip x.1 (some x.2) } = t at *
  have hP := gossiping_other u.identity (t.otherGossip u.identity)
  obtain ⟨_, hother⟩ := hP.lookFed (b := false) (hP.sendGossip (ports := t.gossipPorts.filter (· ≠ p)) (l := [x])
    ⟨hid, rfl⟩)
  refine ⟨?_, fun i hi hiown => ?_⟩
  · exact (gossipGet_other hother x.1 hown).trans ((hput x.1).trans (if_pos rfl))
  · exact (gossipGet_other hother i hiown).trans ((hput i).trans (if_neg (Ne.symm hi)))

theorem takeGossip_of_held (u : State) (p : Nat) (payload : List Byte) (hlen : payload.length = 32) (x : Nat × Gossip)
    (hx : x = gossipOf payload u.hourNow) (hown : x.1 ≠ u.identity) (g : Gossip) (hg : u.gossipGet x.1 = some g)
    (h : x.2.seq ≤ g.seq) : (u.takeGossip p payload).gossipGet x.1 = some g := by
  rw [u.takeGossip_of_single p payload hlen, ← hx, storeOne, u.storeGossip_of_held x g hg h]
  have hP := gossiping_other u.identity (u.otherGossip u.identity)
  obtain ⟨_, hother⟩ := hP.lookFed (s := u) (b := false) ⟨rfl, rfl⟩
  exact (gossipGet_other hother x.1 hown).trans hg

theorem sending_ingot (i : IngotSt) : Sending fun t => t.ingot = i where
  unack _ _ _ h := h
  bytes _ _ _ _ h := h
  port _ _ _ _ h := h

/-- The own record of an hour. -/
def ownGossip (s : State) : Gossip :=
  { coord := s.here, feed := s.getF PWR_PINS_FEED_ID 0 0, seq := (s.ingot.seq + 1) % 2 ^ 32,
    up := s.lastWeek s.ingot.upHours, fails := s.lastWeek s.ingot.failHours, coFed := s.flag ING_PARTNER_CO_FED 0 0,
    hour := s.hourNow }

theorem ingot_floodOwn (s : State) : s.floodOwn.ingot =
    { s.ingot with seq := s.ownGossip.seq, gossip := Tab.putN none s.ingot.gossip s.identity (some s.ownGossip) } :=
  (sending_ingot _).sendGossip rfl

/-- The seconds up of the hour that ends, kept. -/
def closeHour (s : State) : State :=
  s.setIngot { s.ingot with
    upHours := Tab.putN 0 s.ingot.upHours (s.hourNow - 1) (min 3600 (Tab.getN 0 s.ingot.upHours (s.hourNow - 1) +
      min 3600 ((s.time - s.ingot.upMark) / 1000000000)))
    upMark := s.time }

theorem gossipHour_eq (s : State) : s.gossipHour = s.closeHour.floodOwn := rfl

/-- The records of an hour's end: the own one and those refreshed within three hours. -/
def keepsGossip (s : State) (e : Nat × Option Gossip) : Bool :=
  decide (e.1 = s.identity) || e.2.any fun g => decide (s.hourNow < g.hour + 3)

theorem gossipExpiry_eq (s : State) : s.gossipExpiry =
    (s.setIngot { s.ingot with gossip := s.ingot.gossip.filter s.keepsGossip }).lookFed false := rfl

theorem keepsGossip_other (s : State) (e : Nat × Option Gossip) (he : e.1 ≠ s.identity) :
    s.keepsGossip e = true ↔ ∃ g, e.2 = some g ∧ s.hourNow < g.hour + 3 := by
  rw [keepsGossip, decide_eq_false he, Bool.false_or, Option.any_eq_true]
  exact ⟨fun ⟨g, hg, hh⟩ => ⟨g, hg, of_decide_eq_true hh⟩, fun ⟨g, hg, hh⟩ => ⟨g, hg, decide_eq_true hh⟩⟩

/-- What an expiry leaves of the other modules' records. -/
theorem mem_gossipExpiry (s : State) (e : Nat × Option Gossip) (he : e.1 ≠ s.identity) :
    e ∈ s.gossipExpiry.ingot.gossip ↔ e ∈ s.ingot.gossip ∧ ∃ g, e.2 = some g ∧ s.hourNow < g.hour + 3 := by
  have hP := gossiping_other s.identity
    ((s.setIngot { s.ingot with gossip := s.ingot.gossip.filter s.keepsGossip }).otherGossip s.identity)
  obtain ⟨_, hother⟩ := hP.lookFed (s := s.setIngot { s.ingot with gossip := s.ingot.gossip.filter s.keepsGossip })
    (b := false) ⟨rfl, rfl⟩
  rw [← gossipExpiry_eq] at hother
  have hmem : ∀ t : State, e ∈ t.otherGossip s.identity ↔ e ∈ t.ingot.gossip := fun t => by
    rw [otherGossip, List.mem_filter]
    exact and_iff_left (decide_eq_true he)
  rw [← hmem, hother, hmem, ← s.keepsGossip_other e he]
  exact List.mem_filter

end State

/-- A frame with one newer record of another module. -/
theorem gossip_stored {s u : State} {p : Fin 6} {f : Frame} (h : s.hop p f = (u, some f)) (hk : f.kind = 4)
    (hlen : f.payload.length = 32) (x : Nat × Gossip) (hx : x = gossipOf f.payload u.hourNow) (hown : x.1 ≠ u.identity)
    (hnew : u.Newer x) : ∃ t, exec (.gossip p f) s = .next t ∧ t.gossipGet x.1 = some x.2 ∧
      ∀ i, i ≠ x.1 → i ≠ u.identity → t.gossipGet i = u.gossipGet i := by
  obtain ⟨hget, hother⟩ := u.takeGossip_stores p f.payload hlen x hx hown hnew
  refine ⟨_, exec_gossip_of_hop h hk, ?_, fun i hi hiown => ?_⟩
  · rw [State.gossipGet, State.latchEdges_ingot]
    exact hget
  · rw [State.gossipGet, State.latchEdges_ingot]
    exact hother i hi hiown

theorem gossipHour_floods (s : State) : ∃ t g, exec .gossipHour s = .next t ∧ t.gossipGet s.identity = some g ∧
    g.seq = (s.ingot.seq + 1) % 2 ^ 32 ∧ g.coord = s.here ∧ t.ingot.seq = g.seq ∧ t.ingot.upMark = s.time ∧
    ∀ i, i ≠ s.identity → t.gossipGet i = s.gossipGet i := by
  have hingot := s.closeHour.ingot_floodOwn
  rw [← s.gossipHour_eq] at hingot
  have hget : ∀ i, (s.latchEdges s.gossipHour).gossipGet i =
      if s.identity = i then some s.closeHour.ownGossip else s.gossipGet i := fun i => by
    rw [State.gossipGet, State.latchEdges_ingot, hingot]
    exact Tab.getN_putN none s.ingot.gossip s.identity i (some s.closeHour.ownGossip)
  refine ⟨_, s.closeHour.ownGossip, exec_gossipHour s, (hget _).trans (if_pos rfl), rfl, rfl, ?_, ?_,
    fun i hi => (hget i).trans (if_neg (Ne.symm hi))⟩
  · rw [State.latchEdges_ingot, hingot]
  · rw [State.latchEdges_ingot, hingot]
    rfl

theorem hallmark_refused {s u : State} {p : Fin 6} {f : Frame} (h : s.hop p f = (u, some f)) (hk : f.kind = 2)
    (hknown : u.knows (Hallmark.ofBytes f.payload).identity = true) (hver : u.verified p = false) :
    ∃ t, exec (.hallmark p f false) s = .next t ∧ t.flag PORT_IL_STATUS_BADSIG p 0 = true ∧ t.linkState p = 0 ∧
      (t.port p).badSig = true ∧ (t.port p).replay = [] ∧ t.elog.seq = (u.elog.seq + 1) % 2 ^ 32 := by
  obtain ⟨hflag, hstate, hbad, hreplay, hseq⟩ := u.badSignature_reads p hver
  rw [exec_hallmark_of_hop h hk, u.takeHallmark_of_bad p f hknown]
  generalize u.badSignature p = t at *
  refine ⟨_, rfl, ?_, ?_, ?_, ?_, ?_⟩
  · rw [State.flag_latch _ _ _ _ _ (by decide), hflag]
  · rw [State.linkState, State.getF_latch _ _ _ _ _ (by decide)]
    exact hstate
  · rw [State.port_latchEdges, hbad]
  · rw [State.port_latchEdges, hreplay]
  · rw [State.latchEdges_elog, hseq]

theorem hallmark_verified {s u : State} {p : Fin 6} {f : Frame} (h : s.hop p f = (u, some f)) (hk : f.kind = 2)
    (m : Hallmark) (hm : m = Hallmark.ofBytes f.payload) (hknown : u.knows m.identity = true) (hl : u.linkState p = 2) :
    ∃ t, exec (.hallmark p f true) s = .next t ∧ t.linkState p = 3 ∧ t.getF PORT_IL_NEIGH_ID p 0 = m.identity % 2 ^ 64 ∧
      t.getF PORT_IL_STATUS_NPORT p 0 = m.port % 8 ∧ t.getF PORT_IL_NEIGH_INFO_FEED p 0 = m.feed % 256 ∧
      (t.port p).peer = some m := by
  have hP := State.discovering_neighbour p m
  have hup : (u.takeHallmark p f true).Neighbour p m := by
    rw [u.takeHallmark_of_new p f m hm hknown hl, u.takeContent_of_new p m hl]
    exact hP.takeGeneration (hP.newGeneration (u.neighbour_verifyPort p m))
  rw [exec_hallmark_of_hop h hk]
  generalize u.takeHallmark p f true = t at *
  obtain ⟨hstate, hid, hport, hfeed, hpeer⟩ := hup
  refine ⟨_, rfl, ?_, ?_, ?_, ?_, ?_⟩
  · rw [State.linkState, State.getF_latch _ _ _ _ _ (by decide)]
    exact hstate
  · rw [State.getF_latch _ _ _ _ _ (by decide), hid]
    rfl
  · rw [State.getF_latch _ _ _ _ _ (by decide), hport]
    rfl
  · rw [State.getF_latch _ _ _ _ _ (by decide), hfeed]
    rfl
  · rw [State.port_latchEdges, hpeer]

/-- Settles O46: hallmarks and chains verify a neighbour or hold its link down; gossip keeps the newer records, floods the
own one each hour and lets records go that were not refreshed. -/
theorem neighboursAreVerifiedAndGossip : Obligations.NeighboursAreVerifiedAndGossip := by
  refine ⟨fun s u p f x h hx => ⟨fun m hk hm => ⟨fun hunknown ok => ?_, fun hknown hver => ?_, fun hknown hl => ?_⟩,
    fun hk l hl => ⟨fun hmore o => ?_, fun hwhole => ⟨fun id => ?_, ?_⟩⟩, fun hbad => ?_, fun hgood => ?_⟩,
    fun s => ⟨fun u p f x h hk hlen hx hown => ⟨fun g hg hseq => ?_, fun hnone hroom => ?_, fun g hg hseq => ?_⟩,
      gossipHour_floods s, _, exec_gossipExpiry s, fun e he hown => ?_, fun e he hown hfresh => ?_⟩⟩
  · subst hm
    rw [exec_hallmark_of_hop h hk, u.takeHallmark_of_unknown p f ok hunknown]
  · subst hm
    exact hallmark_refused h hk hknown hver
  · exact hallmark_verified h hk m hm hknown hl
  · subst hx hl
    exact (exec_cert_of_hop h hk o).trans (congrArg _ (congrArg _ (u.takeCert_of_more p f o hmore)))
  · subst hx hl
    exact (exec_cert_of_hop h hk _).trans (congrArg _ (congrArg _ ((u.takeCert_of_whole p f hwhole).1 id)))
  · subst hx hl
    exact (exec_cert_of_hop h hk _).trans (congrArg _ (congrArg _ (u.takeCert_of_whole p f hwhole).2))
  · rw [exec_badsigRetry, State.badsigRetry, if_pos hbad]
  · rw [exec_badsigRetry, State.badsigRetry, if_neg (by simp [hgood]), latchEdges_self]
  · exact gossip_stored h hk hlen x hx hown (.inl ⟨g, hg, hseq⟩)
  · obtain ⟨t, hexec, hget, _⟩ := gossip_stored h hk hlen x hx hown (.inr ⟨hnone, hroom⟩)
    exact ⟨t, hexec, hget⟩
  · refine ⟨_, exec_gossip_of_hop h hk, ?_⟩
    rw [State.gossipGet, State.latchEdges_ingot]
    exact u.takeGossip_of_held p f.payload hlen x hx hown g hg hseq
  · rw [State.latchEdges_ingot] at he
    exact ((s.mem_gossipExpiry e hown).mp he).2
  · rw [State.latchEdges_ingot]
    exact (s.mem_gossipExpiry e hown).mpr ⟨he, hfresh⟩

end Sys2Proof.Machine
end

section
/-! Discovery's phases (R278 to R283). -/

namespace Sys2Proof.Machine.State

/-! ### A generation begins (R278) -/

theorem exec_discoveryStart (r : Requester) (s : State) : exec (.discoveryStart r) s =
    .next (s.latchEdges (s.regWrite r (hubReg 2 0x20) (s.getR ⟨.PORT_MOD_CFG, 0, 0⟩ ||| 1#64))) := rfl

/-- PORT_MOD_CFG with DISC_EN written 1. -/
def enableDisc (s : State) (r : Requester) : State :=
  s.fieldsWrite r ⟨.PORT_MOD_CFG, 0, 0⟩ (s.getR ⟨.PORT_MOD_CFG, 0, 0⟩ ||| 1#64)

theorem regWrite_modCfg (s : State) (r : Requester) (v : Word) (hr : s.mayAccess r = true) (h4 : s.inReset 4 = false) :
    s.regWrite r (hubReg 2 0x20) v =
      (s.fieldsWrite r ⟨.PORT_MOD_CFG, 0, 0⟩ v).discCfg (s.flag PORT_MOD_CFG_DISC_EN 0 0) := by
  have haddr : regAt (hubReg 2 0x20) = some ⟨.PORT_MOD_CFG, 0, 0⟩ := by decide
  rw [regWrite, hr, if_neg (by simp), if_neg (by decide), if_neg (by decide), haddr, hubReg,
    atReg_dieReg _ _ _ _ _ (by decide), h4, if_neg (by simp)]
  rfl

theorem getF_enableDisc (s : State) (r : Requester) (f : Field) (i j : Nat) (h : f.reg ≠ .PORT_MOD_CFG) :
    (s.enableDisc r).getF f i j = s.getF f i j := getF_putR_apart _ _ _ _ _ _ _ _ h.symm

theorem flag_enableDisc (s : State) (r : Requester) : (s.enableDisc r).flag PORT_MOD_CFG_DISC_EN 0 0 = true := by
  have hone : PORT_MOD_CFG_DISC_EN.get (s.getR ⟨.PORT_MOD_CFG, 0, 0⟩ ||| 1#64) = 1 := by
    show ((s.getR ⟨.PORT_MOD_CFG, 0, 0⟩ ||| 1#64).toNat >>> 0) % 2 ^ 1 = 1
    rw [BitVec.toNat_or]
    simp [Nat.or_mod_two_eq_one]
  rw [flag, getF]
  show (PORT_MOD_CFG_DISC_EN.get ((s.putR _ _).getR ⟨.PORT_MOD_CFG, 0, 0⟩) != 0) = true
  rw [getR_putR, if_pos rfl]
  show (PORT_MOD_CFG_DISC_EN.get (PORT_MOD_CFG_DISC_EN.set _ (PORT_MOD_CFG_DISC_EN.get _)) != 0) = true
  rw [Field.get_set _ _ _ (by decide), hone]
  rfl

/-- A generation that has just begun. -/
structure Begun (t : State) (g : Nat) : Prop where
  on : t.flag PORT_MOD_CFG_DISC_EN 0 0 = true
  gen : t.getF PORT_MOD_DISC_GEN 0 0 = g
  phase : t.getF PORT_MOD_DISC_PHASE 0 0 = 2
  placed : t.placed = false

theorem Begun.setF {t : State} {g : Nat} (ht : t.Begun g) (f : Field) (i j v : Nat)
    (hf : ∀ x ∈ [PORT_MOD_CFG_DISC_EN, PORT_MOD_DISC_GEN, PORT_MOD_DISC_PHASE, PORT_MOD_COORD_VALID],
      f.reg ≠ x.reg ∨ x.hi < f.lo ∨ f.hi < x.lo) : (t.setF f i j v).Begun g :=
  ⟨(flag_setF_apart _ _ _ _ _ _ _ _ (hf _ (by simp))).trans ht.on,
    (getF_setF_apart _ _ _ _ _ _ _ _ (hf _ (by simp))).trans ht.gen,
    (getF_setF_apart _ _ _ _ _ _ _ _ (hf _ (by simp))).trans ht.phase,
    (flag_setF_apart _ _ _ _ _ _ _ _ (hf _ (by simp))).trans ht.placed⟩

theorem begun_setPhase (t : State) (g : Nat) (hon : t.flag PORT_MOD_CFG_DISC_EN 0 0 = true)
    (hgen : t.getF PORT_MOD_DISC_GEN 0 0 = g) : (t.setPhase 2).Begun g where
  on := by simpa (disch := decide) only [setPhase, flag_setF_apart] using hon
  gen := by simpa (disch := decide) only [setPhase, getF_setF_apart] using hgen
  phase := by
    rw [setPhase, getF_setF_apart _ _ _ _ _ _ _ _ (by decide), getF_setF_self _ _ _ _ _ (by decide)]
    decide
  placed := by
    rw [placed, setPhase, if_neg (by decide)]
    exact flag_setF_zero _ _ _ _ (by decide)

theorem sending_begun (g : Nat) : Sending fun t => t.Begun g where
  unack _ _ _ ht := ht.setF _ _ _ _ (by decide)
  bytes _ _ _ _ ht := ht.setF _ _ _ _ (by decide)
  port _ _ _ _ ht := ⟨ht.on, ht.gen, ht.phase, ht.placed⟩

/-- Discovery looked at in phase 2 stays there. -/
theorem begun_lookDisc {t : State} {g : Nat} (ht : t.Begun g) : t.lookDisc.Begun g := by
  have hdisc : ∀ {u : State} (d : DiscSt), u.Begun g → ({ u with disc := d } : State).Begun g := fun d hu =>
    ⟨hu.on, hu.gen, hu.phase, hu.placed⟩
  have hfault : t.gatherFault.Begun g := (hdisc _ ht).setF _ _ _ _ (by decide)
  unfold lookDisc
  rw [ht.phase, if_neg (by decide)]
  extract_lets s1 c d
  rw [if_pos (show 2 < 3 by decide)]
  have hagain : (({ s1 with disc := d } : State).setPhase 2).Begun g := begun_setPhase _ _ hfault.on hfault.gen
  exact Stable.ifEither (P := fun t => t.Begun g) ((sending_begun g).tellHallmarks hagain) ((sending_begun g).tellHallmarks hfault)

theorem begun_beginGeneration (s : State) (g : Nat) (hg : g < 2 ^ 32)
    (hon : s.flag PORT_MOD_CFG_DISC_EN 0 0 = true) : (s.beginGeneration g).Begun g := by
  refine begun_lookDisc (begun_setPhase _ _ ?_ ?_)
  · show ((s.setF PORT_MOD_DISC_GEN 0 0 g).setF PORT_MOD_COORD_FAULT 0 0 0).flag PORT_MOD_CFG_DISC_EN 0 0 = true
    simpa (disch := decide) only [flag_setF_apart] using hon
  · show ((s.setF PORT_MOD_DISC_GEN 0 0 g).setF PORT_MOD_COORD_FAULT 0 0 0).getF PORT_MOD_DISC_GEN 0 0 = g
    rw [getF_setF_apart _ _ _ _ _ _ _ _ (by decide), getF_setF_self _ _ _ _ _ (by decide)]
    exact Nat.mod_eq_of_lt hg

/-- DISC_EN written 1 begins the next generation. -/
theorem begun_discoveryStart (s : State) (r : Requester) (hr : s.mayAccess r = true) (h4 : s.inReset 4 = false)
    (hoff : s.flag PORT_MOD_CFG_DISC_EN 0 0 = false) :
    (s.regWrite r (hubReg 2 0x20) (s.getR ⟨.PORT_MOD_CFG, 0, 0⟩ ||| 1#64)).Begun
      ((s.getF PORT_MOD_DISC_GEN 0 0 + 1) % 2 ^ 32) := by
  have hon := s.flag_enableDisc r
  have hstart : s.regWrite r (hubReg 2 0x20) (s.getR ⟨.PORT_MOD_CFG, 0, 0⟩ ||| 1#64) =
      (s.enableDisc r).beginGeneration ((s.getF PORT_MOD_DISC_GEN 0 0 + 1) % 2 ^ 32) := by
    rw [s.regWrite_modCfg r _ hr h4, hoff, ← s.getF_enableDisc r PORT_MOD_DISC_GEN 0 0 (by decide)]
    show (s.enableDisc r).discCfg false = _
    rw [discCfg, hon, if_pos (by decide), newGeneration, hon, if_pos rfl]
  rw [hstart]
  exact begun_beginGeneration _ _ (Nat.mod_lt _ (by decide)) hon

/-! ### The phases (R283) -/

theorem exec_discoverySettle (s : State) : exec .discoverySettle s = .next (s.latchEdges s.discoverySettle) := rfl

theorem exec_discoverySettle_of_eq {s t : State} (h : s.discoverySettle = t) :
    exec .discoverySettle s = .next (s.latchEdges t) := by rw [exec_discoverySettle, h]

theorem exec_discoverySettle_idle {s : State} (h : s.discoverySettle = s) : exec .discoverySettle s = .next s := by
  rw [exec_discoverySettle, h, latchEdges_self]

theorem discoverySettle_two {s : State} (h : s.getF PORT_MOD_DISC_PHASE 0 0 = 2) :
    s.discoverySettle = (s.setPhase 3).lookDisc := by
  simp only [discoverySettle, h]

theorem discoverySettle_three {s : State} (h : s.getF PORT_MOD_DISC_PHASE 0 0 = 3) :
    s.discoverySettle = if s.disc.claim.isSome then (s.setPhase 4).lookDisc else s := by
  simp only [discoverySettle, h]

theorem discoverySettle_four {s : State} (h : s.getF PORT_MOD_DISC_PHASE 0 0 = 4) :
    s.discoverySettle = if s.extentsSettled then ((s.setPhase 5).checkLinks).lookDisc else s := by
  simp only [discoverySettle, h]

theorem discoverySettle_five {s : State} (h : s.getF PORT_MOD_DISC_PHASE 0 0 = 5) :
    s.discoverySettle = s.publishCoords := by
  simp only [discoverySettle, h]

theorem discoverySettle_other (s : State) (h : s.getF PORT_MOD_DISC_PHASE 0 0 < 2 ∨ 5 < s.getF PORT_MOD_DISC_PHASE 0 0) :
    s.discoverySettle = s := by
  unfold discoverySettle
  split
  case h_5 => rfl
  all_goals omega

/-! ### Publication (R281, R283, R288) -/

/-- The registers that show what is published, and its pulse. -/
def publishedRegs : List RegName := [.PORT_MOD_COORD, .PORT_MOD_DISC, .PORT_MOD_ORIGIN, .HIC_PEND]

/-- `t` shows the publication that `u` shows. -/
def PublishedAs (u t : State) : Prop := ∀ k, k.name ∈ publishedRegs → t.getR k = u.getR k

theorem PublishedAs.setF {u t : State} (h : u.PublishedAs t) (f : Field) (i j v : Nat) (hf : f.reg ∉ publishedRegs) :
    u.PublishedAs (t.setF f i j v) := fun k hk =>
  (getR_setF_of_reg _ _ _ _ _ _ fun he => hf (he ▸ hk)).trans (h k hk)

theorem PublishedAs.record {u t : State} (h : u.PublishedAs t) (a : RecArg) : u.PublishedAs (t.record a) := fun k hk =>
  (getR_record_of_name _ _ _ (by generalize k.name = n at hk; revert n; decide)).trans (h k hk)

theorem sending_publishedAs (u : State) : Sending u.PublishedAs where
  unack _ _ _ h := h.setF _ _ _ _ (by decide)
  bytes _ _ _ _ h := h.setF _ _ _ _ (by decide)
  port _ _ _ _ h := h

theorem PublishedAs.refuseFrame {u t : State} (h : u.PublishedAs t) (p : Nat) (l : List Nat) :
    u.PublishedAs (t.refuseFrame p l) :=
  have hdrop : u.PublishedAs (t.dropFrame p) := h.setF _ _ _ _ (by decide)
  Stable.ifEither hdrop (PublishedAs.record (u := u) (t := (t.dropFrame p).setPort p _) hdrop _)

theorem PublishedAs.dropLanes {u t : State} (h : u.PublishedAs t) (p : Nat) : u.PublishedAs (t.dropLanes p) := by
  unfold State.dropLanes
  extract_lets x gone s1
  refine Stable.ifEither h (Stable.foldl (P := fun t => u.PublishedAs t) (show u.PublishedAs s1 from h) fun w i hw => ?_)
  dsimp only
  split
  · exact (sending_publishedAs u).owe (hw.refuseFrame _ _)
  · exact hw.refuseFrame _ _

theorem PublishedAs.send {u t : State} (h : u.PublishedAs t) (f : Frame) : u.PublishedAs (t.send f) := by
  unfold State.send
  refine Stable.ifEither h ?_
  split
  · exact h
  · exact Stable.ifEither (h.refuseFrame _ _) ((sending_publishedAs u).enqueue h)

theorem PublishedAs.freshenOwn {u t : State} (h : u.PublishedAs t) : u.PublishedAs t.freshenOwn := by
  unfold State.freshenOwn
  split
  · exact Stable.ifEither h ((sending_publishedAs u).sendGossip h)
  · exact h

/-- The registers as published, before the neighbours' coordinates are shown. -/
def coordsShown (s : State) : State :=
  let c := fun a => s.finalAt a (s.disc.at_.getD a 0)
  let b := fun a => if s.disc.closed.getD a false then 1 else 0
  (((((((((s.setF PORT_MOD_COORD_X 0 0 (c 0)).setF PORT_MOD_COORD_Y 0 0 (c 1)).setF PORT_MOD_COORD_Z 0 0 (c 2)).setF
    PORT_MOD_COORD_LX_M1 0 0 (s.finalLen 0 - 1)).setF PORT_MOD_COORD_LY_M1 0 0 (s.finalLen 1 - 1)).setF
    PORT_MOD_COORD_LZ_M1 0 0 (s.finalLen 2 - 1)).setF PORT_MOD_COORD_CLOSED_X 0 0 (b 0)).setF PORT_MOD_COORD_CLOSED_Y
    0 0 (b 1)).setF PORT_MOD_COORD_CLOSED_Z 0 0 (b 2)).setF PORT_MOD_ORIGIN_ID 0 0 s.disc.candidate

/-- Phase 6 and its pulse. -/
def placing (s : State) : State := (s.coordsShown.showNeighbours.setPhase 6).pulse 4 0

theorem publishedAs_publishCoords (s : State) : s.placing.PublishedAs s.publishCoords := by
  have hS := sending_publishedAs s.placing
  have h0 : s.placing.PublishedAs s.placing := fun _ _ => rfl
  have hdrops : ∀ t, s.placing.PublishedAs t → s.placing.PublishedAs ((List.range 6).foldl State.dropLanes t) :=
    fun t ht => Stable.foldl (P := fun t => s.placing.PublishedAs t) ht fun _ _ hw => hw.dropLanes _
  have hsends : ∀ t, s.placing.PublishedAs t →
      s.placing.PublishedAs ((List.range 6).foldl pumpPort (t.disc.waiting.foldl State.send
        { t with disc := { t.disc with waiting := [] } })) := fun t ht =>
    Stable.foldl (P := fun t => s.placing.PublishedAs t)
      (Stable.foldl (P := fun t => s.placing.PublishedAs t) ht fun _ _ hw => hw.send _) fun _ _ hw => hS.pumpPort hw
  exact (hS.tellHallmarks (hsends _ (hdrops _ (Stable.ifEither (PublishedAs.record (t := s.placing) h0 _) h0)))).freshenOwn

theorem getF_showNeighbours (s : State) (f : Field) (i j : Nat) (hf : f.reg ≠ .PORT_IL_NEIGH_INFO) :
    s.showNeighbours.getF f i j = s.getF f i j :=
  Stable.foldl (P := fun t => t.getF f i j = s.getF f i j) rfl fun t x ht => by
    rw [getF_setF_apart _ _ _ _ _ _ _ _ (.inl (Ne.symm hf)), getF_setF_apart _ _ _ _ _ _ _ _ (.inl (Ne.symm hf)),
      getF_setF_apart _ _ _ _ _ _ _ _ (.inl (Ne.symm hf)), ht]

theorem getF_placing (s : State) (f : Field) (i j : Nat) (hf : f.reg ≠ .PORT_IL_NEIGH_INFO) (hp : f.reg ≠ .HIC_PEND)
    (hphase : f.reg ≠ .PORT_MOD_DISC) (hvalid : f.reg ≠ .PORT_MOD_COORD ∨ f.hi < 63) :
    s.placing.getF f i j = s.coordsShown.getF f i j := by
  rw [placing, getF_pulse _ _ _ _ _ _ hp, setPhase, getF_setF_apart _ _ _ _ _ _ _ _ ?_,
    getF_setF_apart _ _ _ _ _ _ _ _ (.inl hphase.symm), getF_showNeighbours _ _ _ _ hf]
  exact hvalid.imp Ne.symm .inl

/-- Publication ends phase 5 (R283). -/
theorem publishes (s : State) : ∃ t, s.latchEdges s.publishCoords = t ∧ t.placed = true ∧
    t.getF PORT_MOD_DISC_PHASE 0 0 = 6 ∧
    t.getF PORT_MOD_COORD_X 0 0 = s.finalAt 0 (s.disc.at_.getD 0 0) % 256 ∧
    t.getF PORT_MOD_COORD_Y 0 0 = s.finalAt 1 (s.disc.at_.getD 1 0) % 256 ∧
    t.getF PORT_MOD_COORD_Z 0 0 = s.finalAt 2 (s.disc.at_.getD 2 0) % 256 ∧
    t.getF PORT_MOD_COORD_LX_M1 0 0 = (s.finalLen 0 - 1) % 256 ∧
    t.flag PORT_MOD_COORD_CLOSED_X 0 0 = s.disc.closed.getD 0 false ∧
    t.getF PORT_MOD_ORIGIN_ID 0 0 = s.disc.candidate % 2 ^ 64 ∧ (t.getR ⟨.HIC_PEND, 0, 4⟩).getLsbD 0 = true := by
  have hsame := s.publishedAs_publishCoords
  have hpub : ∀ f : Field, f.reg ∈ [.PORT_MOD_COORD, .PORT_MOD_DISC, .PORT_MOD_ORIGIN] →
      (s.latchEdges s.publishCoords).getF f 0 0 = s.placing.getF f 0 0 := fun f hf => by
    rw [getF_latch _ _ _ _ _ (by generalize f.reg = n at hf; revert n; decide), getF,
      hsame _ (show f.reg ∈ publishedRegs by generalize f.reg = n at hf; revert n; decide), getF]
  have hshown : ∀ f : Field, f.reg ∈ [.PORT_MOD_COORD, .PORT_MOD_ORIGIN] → f.reg ≠ .PORT_MOD_COORD ∨ f.hi < 63 →
      (s.latchEdges s.publishCoords).getF f 0 0 = s.coordsShown.getF f 0 0 := fun f hf hhi =>
    (hpub f (by generalize f.reg = n at hf; revert n; decide)).trans (s.getF_placing f 0 0
      (by generalize f.reg = n at hf; revert n; decide) (by generalize f.reg = n at hf; revert n; decide)
      (by generalize f.reg = n at hf; revert n; decide) hhi)
  refine ⟨_, rfl, ?_, ?_, ?_, ?_, ?_, ?_, ?_, ?_, ?_⟩
  · rw [placed, flag, hpub _ (by decide), placing, getF_pulse _ _ _ _ _ _ (by decide), setPhase, if_pos rfl,
      getF_setF_self _ _ _ _ _ (by decide)]
    rfl
  · rw [hpub _ (by decide), placing, getF_pulse _ _ _ _ _ _ (by decide), setPhase,
      getF_setF_apart _ _ _ _ _ _ _ _ (by decide), getF_setF_self _ _ _ _ _ (by decide)]
    decide
  · rw [hshown _ (by decide) (by decide)]
    unfold coordsShown
    simp (disch := decide) only [getF_setF_apart, getF_setF_self]
    rfl
  · rw [hshown _ (by decide) (by decide)]
    unfold coordsShown
    simp (disch := decide) only [getF_setF_apart, getF_setF_self]
    rfl
  · rw [hshown _ (by decide) (by decide)]
    unfold coordsShown
    simp (disch := decide) only [getF_setF_apart, getF_setF_self]
    rfl
  · rw [hshown _ (by decide) (by decide)]
    unfold coordsShown
    simp (disch := decide) only [getF_setF_apart, getF_setF_self]
    rfl
  · rw [flag, hshown _ (by decide) (by decide)]
    unfold coordsShown
    simp (disch := decide) only [getF_setF_apart, getF_setF_self]
    cases s.disc.closed.getD 0 false <;> rfl
  · rw [hshown _ (by decide) (by decide)]
    unfold coordsShown
    rw [getF_setF_self _ _ _ _ _ (by decide)]
    rfl
  · have hpend : (s.publishCoords.getR ⟨.HIC_PEND, 0, 4⟩).getLsbD 0 = true := by
      rw [hsame _ (show RegName.HIC_PEND ∈ publishedRegs by decide), placing, pulse, pend, getR_putR, if_pos rfl,
        BitVec.getLsbD_or]
      simp
    have hmore := congrArg (BitVec.getLsbD · 0)
      (((Kept.refl (fun _ => False) s.publishCoords).latch s).2 ⟨.HIC_PEND, 0, 4⟩ rfl)
    simp only [BitVec.getLsbD_and, hpend, Bool.and_true] at hmore
    exact hmore

end Sys2Proof.Machine.State

namespace Sys2Proof.Machine

/-- Settles O47: a generation begins at phase 2, the phases end in order, and phase 5 ends in publication. -/
theorem discoveryPublishesCoordinates : Obligations.DiscoveryPublishesCoordinates := by
  intro s r
  refine ⟨fun hr h4 hoff => ?_, ?_⟩
  · have hbegun := State.begun_discoveryStart s r hr h4 hoff
    refine ⟨_, State.exec_discoveryStart r s, ?_, ?_, ?_, ?_⟩
    · rw [State.flag_latch _ _ _ _ _ (by decide), hbegun.on]
    · rw [State.getF_latch _ _ _ _ _ (by decide), hbegun.gen]
    · rw [State.getF_latch _ _ _ _ _ (by decide), hbegun.phase]
    · exact (State.flag_latch _ _ _ _ _ (by decide)).trans hbegun.placed
  · intro n hn
    refine ⟨?_, ?_, ?_, ?_, ?_, ?_, fun h => ?_⟩
    · rintro rfl
      exact State.exec_discoverySettle_of_eq (State.discoverySettle_two hn.symm)
    · rintro rfl hclaim
      exact State.exec_discoverySettle_of_eq ((State.discoverySettle_three hn.symm).trans (if_pos hclaim))
    · rintro rfl hclaim
      exact State.exec_discoverySettle_idle ((State.discoverySettle_three hn.symm).trans (if_neg (by simp [hclaim])))
    · rintro rfl hsettled
      exact State.exec_discoverySettle_of_eq ((State.discoverySettle_four hn.symm).trans (if_pos hsettled))
    · rintro rfl hsettled
      exact State.exec_discoverySettle_idle ((State.discoverySettle_four hn.symm).trans (if_neg (by simp [hsettled])))
    · rintro rfl
      obtain ⟨t, ht, hshows⟩ := s.publishes
      exact ⟨t, (State.exec_discoverySettle_of_eq (State.discoverySettle_five hn.symm)).trans (congrArg _ ht), hshows⟩
    · subst hn
      exact State.exec_discoverySettle_idle (s.discoverySettle_other h)

end Sys2Proof.Machine
end

section
/-! The partner's answers to the pages of an ingot (R338, R339, R341). -/

namespace Sys2Proof.Machine.State

/-! ### The frames -/

section
variable {s u : State} {p : Fin 6} {f : Frame} (h : s.hop p f = (u, some f)) (hk : f.kind = 0x31)
include h hk

theorem exec_pageOk_of_hop (hb : f.w3.bits 63 61 = 0) : exec (.pageOk p f) s = .next (s.latchEdges (u.takePageOk f)) :=
  congrArg (commit s) (frameIn_of_hop h _ (by rw [isType, hk, hb]; rfl) _)

theorem exec_pageBad_of_hop (hb : f.w3.bits 63 61 = 1) : exec (.pageBad p f) s = .next (s.latchEdges (u.takePageBad f)) :=
  congrArg (commit s) (frameIn_of_hop h _ (by rw [isType, hk, hb]; rfl) _)

theorem exec_complete_of_hop (hb : f.w3.bits 63 61 = 2) :
    exec (.complete p f) s = .next (s.latchEdges (u.takeComplete f)) :=
  congrArg (commit s) (frameIn_of_hop h _ (by rw [isType, hk, hb]; rfl) _)

theorem exec_refused_of_hop (hb : f.w3.bits 63 61 = 3) :
    exec (.refused p f) s = .next (s.latchEdges (u.takeRefused f)) :=
  congrArg (commit s) (frameIn_of_hop h _ (by rw [isType, hk, hb]; rfl) _)

end

/-! ### Answers that are not for the ingot in progress -/

theorem takePageOk_foreign (u : State) (f : Frame) (h : u.ackOurs f = false) : u.takePageOk f = u := by
  unfold takePageOk
  dsimp only
  split
  · rw [h]
    rfl
  · rfl

theorem takePageBad_foreign (u : State) (f : Frame) (h : u.ackOurs f = false) : u.takePageBad f = u := by
  unfold takePageBad
  dsimp only
  split
  · rw [h]
    rfl
  · rfl

theorem takeComplete_foreign (u : State) (f : Frame) (h : u.ackOurs f = false) : u.takeComplete f = u := by
  rw [takeComplete, h]
  rfl

theorem takeRefused_of_sending (u : State) (f : Frame) (h : u.getF ING_STATUS_STATE 0 0 ≠ 3) :
    u.takeRefused f = if u.ackOurs f then u.voidIngot 3 else u := by
  rw [takeRefused, if_neg (by simp [h])]

theorem active_of_ackOurs {u : State} {f : Frame} (h : u.ackOurs f = true) : u.ingot.active = true := by
  simp only [ackOurs, Bool.and_eq_true] at h
  exact h.1.1.1

/-! ### A page acknowledged -/

/-- The pages of the ingot in progress as listed, its tier-1 copy not complete, and the pages done as counted. -/
structure CountsPages (t : State) (pages : List IngPage) (n : Nat) : Prop where
  pages : t.ingot.pages = pages
  open_ : t.ingot.complete1 = false
  done : t.getF ING_PROGRESS_T1_DONE 0 0 = n

theorem CountsPages.setF {t : State} {l : List IngPage} {n : Nat} (h : t.CountsPages l n) (f : Field) (i j v : Nat)
    (hf : f.reg ≠ .ING_PROGRESS) : (t.setF f i j v).CountsPages l n :=
  ⟨h.pages, h.open_, (getF_setF_apart _ _ _ _ _ _ _ _ (.inl hf)).trans h.done⟩

theorem versioning_countsPages (l : List IngPage) (n : Nat) : Versioning fun t => t.CountsPages l n where
  setStack h := ⟨h.pages, h.open_, h.done⟩
  setDram h := ⟨h.pages, h.open_, h.done⟩
  setGranBad h := ⟨h.pages, h.open_, h.done⟩
  record t a h := by
    obtain ⟨x, hx⟩ := t.record_ingot a
    exact ⟨by rw [hx]; exact h.pages, by rw [hx]; exact h.open_, (getF_record_apart _ _ _ _ _ (by decide)).trans h.done⟩
  waiting _ _ _ h := h.setF _ _ _ _ (by decide)
  waitUs h := h.setF _ _ _ _ (by decide)

theorem CountsPages.settlePage {t : State} {l : List IngPage} {n : Nat} (h : t.CountsPages l n) (x : IngPage) :
    (t.settlePage x).CountsPages l n :=
  Stable.ifEither (P := fun t => t.CountsPages l n)
    (Stable.foldl (P := fun t => t.CountsPages l n) ((versioning_countsPages l n).unpin h) fun _ _ hu =>
      hu.setF _ _ _ _ (by decide)) h

theorem maybeManifest_of_open (t : State) (h : ∃ z ∈ t.ingot.pages, z.ok1 = false) : t.maybeManifest = t := by
  obtain ⟨z, hz, hopen⟩ := h
  have hall : (t.ingot.pages.all fun x => x.ok1 && x.read) = false :=
    List.all_eq_false.2 ⟨z, hz, by simp [hopen]⟩
  rw [maybeManifest, hall, Bool.and_false]
  rfl

theorem lookIngot_of_waiting (t : State) (h : t.copied = false) : t.lookIngot = t := by
  rw [lookIngot, h, if_pos (by simp)]

theorem lookIngot_of_open (t : State) (h : t.ingot.complete1 = false) : t.lookIngot = t :=
  t.lookIngot_of_waiting (by rw [copied, h]; rfl)

/-- Copied before its step's COMMIT, the ingot awaits that (R339). -/
theorem lookIngot_of_copied (t : State) (ha : t.ingot.active = true) (h : t.copied = true)
    (he : t.getF GE_TOKEN_COUNT 0 4033 ≤ t.ingot.epoch) : t.lookIngot = t.setF ING_STATUS_STATE 0 0 2 := by
  rw [lookIngot, h, ha, if_neg (by simp), if_pos (Nat.lt_succ_of_le he)]

/-- PAGE_OK of a page read and not yet acknowledged. -/
def pageAcked (u : State) (k : Nat) (y : IngPage) : State :=
  let w := u.setIngot { u.ingot with pages := u.ingot.pages.set k y }
  w.setF ING_PROGRESS_T1_DONE 0 0 (w.getF ING_PROGRESS_T1_DONE 0 0 + 1)

theorem takePageOk_of_sent (u : State) (f : Frame) (x : IngPage) (hx : u.ingot.pages[f.w3.bits 50 32]? = some x)
    (hours : u.ackOurs f = true) (hread : x.read = true) (hok : x.ok1 = false) :
    u.takePageOk f = (((u.pageAcked (f.w3.bits 50 32) { x with ok1 := true }).settlePage
      { x with ok1 := true }).maybeManifest).lookIngot := by
  unfold takePageOk
  dsimp only
  rw [hx]
  dsimp only
  rw [hours, hread, hok, if_pos (by rfl)]
  rfl

theorem countsPages_takePageOk (u : State) (f : Frame) (x : IngPage) (hx : u.ingot.pages[f.w3.bits 50 32]? = some x)
    (hours : u.ackOurs f = true) (hread : x.read = true) (hok : x.ok1 = false) (hopen : u.ingot.complete1 = false)
    (hleft : ∃ z ∈ u.ingot.pages.set (f.w3.bits 50 32) { x with ok1 := true }, z.ok1 = false) :
    (u.takePageOk f).CountsPages (u.ingot.pages.set (f.w3.bits 50 32) { x with ok1 := true })
      ((u.getF ING_PROGRESS_T1_DONE 0 0 + 1) % 2 ^ 19) := by
  have hacked : (u.pageAcked (f.w3.bits 50 32) { x with ok1 := true }).CountsPages
      (u.ingot.pages.set (f.w3.bits 50 32) { x with ok1 := true }) ((u.getF ING_PROGRESS_T1_DONE 0 0 + 1) % 2 ^ 19) :=
    ⟨rfl, hopen, getF_setF_self _ _ _ _ _ (by decide)⟩
  have hsettled := hacked.settlePage { x with ok1 := true }
  rw [u.takePageOk_of_sent f x hx hours hread hok, maybeManifest_of_open _ (hsettled.pages ▸ hleft),
    lookIngot_of_open _ hsettled.open_]
  exact hsettled

/-! ### A page sent again, an ingot voided -/

theorem takePageBad_of_sent (u : State) (f : Frame) (x : IngPage) (hx : u.ingot.pages[f.w3.bits 50 32]? = some x)
    (hours : u.ackOurs f = true) (hread : x.read = true) (hok : x.ok1 = false) :
    u.takePageBad f =
      let w := u.setIngot { u.ingot with pages := u.ingot.pages.set (f.w3.bits 50 32) { x with bad := x.bad + 1 } }
      if 3 ≤ x.bad + 1 then
        (w.hubRecord 0x0B03 sevSuspect 4 x.stack [w.here, x.stack, x.page] false w.ingot.epoch).voidIngot 4
      else w.sendPage (w.getF ING_PARTNER_OUT 0 0) w.ingot.epoch w.ingot.slot (f.w3.bits 50 32) w.ingot.serial
        (x.stack / 3) x.digest fun c => w.frameChunk x.stack x.frame c := by
  unfold takePageBad
  dsimp only
  rw [hx]
  dsimp only
  rw [hours, hread, hok, if_pos (by rfl)]

/-- The ingot void for a cause (R341). -/
structure Voided (t : State) (cause : Nat) : Prop where
  active : t.ingot.active = false
  pages : t.ingot.pages = []
  void : t.flag ING_STATUS_VOID 0 0 = true
  cause : t.getF ING_STATUS_VOID_CAUSE 0 0 = cause
  state : t.getF ING_STATUS_STATE 0 0 = 0

theorem Voided.setF {t : State} {c : Nat} (h : t.Voided c) (f : Field) (i j v : Nat) (hf : f.reg ≠ .ING_STATUS) :
    (t.setF f i j v).Voided c :=
  ⟨h.active, h.pages, (flag_setF_apart _ _ _ _ _ _ _ _ (.inl hf)).trans h.void,
    (getF_setF_apart _ _ _ _ _ _ _ _ (.inl hf)).trans h.cause, (getF_setF_apart _ _ _ _ _ _ _ _ (.inl hf)).trans h.state⟩

theorem Voided.record {t : State} {c : Nat} (h : t.Voided c) (a : RecArg) : (t.record a).Voided c := by
  obtain ⟨x, hx⟩ := t.record_ingot a
  exact ⟨by rw [hx]; exact h.active, by rw [hx]; exact h.pages, (flag_record_apart _ _ _ _ _ (by decide)).trans h.void,
    (getF_record_apart _ _ _ _ _ (by decide)).trans h.cause, (getF_record_apart _ _ _ _ _ (by decide)).trans h.state⟩

theorem Voided.latch {t : State} {c : Nat} (h : t.Voided c) (s : State) : (s.latchEdges t).Voided c :=
  ⟨by rw [latchEdges_ingot, h.active], by rw [latchEdges_ingot, h.pages],
    (flag_latch _ _ _ _ _ (by decide)).trans h.void, (getF_latch _ _ _ _ _ (by decide)).trans h.cause,
    (getF_latch _ _ _ _ _ (by decide)).trans h.state⟩

theorem voided_voidIngot (u : State) (c : Nat) (hc : c < 8) (h : u.ingot.active = true) : (u.voidIngot c).Voided c := by
  unfold voidIngot
  rw [if_neg (by simp [h])]
  extract_lets s1 i s3 s4
  have hmarked : s4.Voided c := by
    refine ⟨rfl, rfl, ?_, ?_, ?_⟩
    · rw [flag_setF_apart _ _ _ _ _ _ _ _ (by decide), flag_setF_apart _ _ _ _ _ _ _ _ (by decide)]
      exact flag_setF_one _ _ _ _ (by decide)
    · rw [getF_setF_apart _ _ _ _ _ _ _ _ (by decide), getF_setF_self _ _ _ _ _ (by decide)]
      exact Nat.mod_eq_of_lt hc
    · rw [getF_setF_self _ _ _ _ _ (by decide)]
      rfl
  exact Stable.foldl (P := fun t => t.Voided c) (Stable.ifEither (P := fun t => t.Voided c) (hmarked.record _) hmarked)
    fun _ _ hu => hu.setF _ _ _ _ (by decide)

end Sys2Proof.Machine.State

namespace Sys2Proof.Machine

/-- Settles O49: what each answer of the partner does to the ingot in progress, and that any other answer does nothing. -/
theorem partnersAnswerPages : Obligations.PartnersAnswerPages := by
  intro s u p f voided h hk hstate hvoided
  have hvoid : ∀ (t : State) c, t.Voided c → voided c (s.latchEdges t) := fun t c ht =>
    have hl := ht.latch s
    (hvoided c _).2 ⟨hl.active, hl.pages, hl.void, hl.cause, hl.state⟩
  refine ⟨fun i hi hours => ?_, fun hours => ⟨?_, ?_, ?_⟩⟩
  · simp only [List.mem_cons, Prod.mk.injEq, List.not_mem_nil, or_false] at hi
    obtain ⟨rfl, hb⟩ | ⟨rfl, hb⟩ | ⟨rfl, hb⟩ | ⟨rfl, hb⟩ := hi
    · rw [State.exec_pageOk_of_hop h hk hb, u.takePageOk_foreign f hours]
    · rw [State.exec_pageBad_of_hop h hk hb, u.takePageBad_foreign f hours]
    · rw [State.exec_complete_of_hop h hk hb, u.takeComplete_foreign f hours]
    · rw [State.exec_refused_of_hop h hk hb, u.takeRefused_of_sending f hstate, hours]
      rfl
  · rintro k x rfl hx hread hok hopen
    refine ⟨fun hb hleft => ?_, fun hb => ⟨fun hbad w hw => ?_, fun hbad => ?_⟩⟩
    · have hdone := u.countsPages_takePageOk f x hx hours hread hok hopen hleft
      refine ⟨_, State.exec_pageOk_of_hop h hk hb, ?_, ?_⟩
      · rw [State.latchEdges_ingot, hdone.pages]
      · rw [State.getF_latch _ _ _ _ _ (by decide), hdone.done]
    · rw [State.exec_pageBad_of_hop h hk hb, u.takePageBad_of_sent f x hx hours hread hok]
      dsimp only
      rw [if_neg (by omega), hw]
      rfl
    · refine ⟨_, State.exec_pageBad_of_hop h hk hb, ?_⟩
      rw [u.takePageBad_of_sent f x hx hours hread hok]
      dsimp only
      rw [if_pos (by omega)]
      refine hvoid _ _ (State.voided_voidIngot _ _ (by decide) ?_)
      obtain ⟨y, hy⟩ := State.record_ingot _ _
      exact (congrArg IngotSt.active hy).trans (State.active_of_ackOurs hours)
  · intro hb hsent w hw
    have htake : u.takeComplete f = w.lookIngot := by
      rw [State.takeComplete, hours, hsent, hw]
      rfl
    rw [State.exec_complete_of_hop h hk hb, htake]
    refine ⟨fun hcopied he => ?_, fun hcopied => ?_⟩
    · rw [w.lookIngot_of_copied (by rw [hw]; exact State.active_of_ackOurs hours) hcopied (by rw [hw]; exact he)]
    · rw [w.lookIngot_of_waiting hcopied]
  · intro hb
    refine ⟨_, State.exec_refused_of_hop h hk hb, ?_⟩
    rw [u.takeRefused_of_sending f hstate, if_pos hours]
    exact hvoid _ _ (u.voided_voidIngot 3 (by decide) (State.active_of_ackOurs hours))

end Sys2Proof.Machine
end

section
/-! What the loss of a link leaves of a port's lanes (R267). -/

namespace Sys2Proof.Machine

theorem Cancellable.cancelTask {P : State → Prop} (hP : Cancellable P) {s : State} {n : TaskId} (h : P s) :
    P (s.cancelTask n) := hP.checkHalted (hP.endGraphs (hP.cancelFrom _ _ _ h))

/-! ### PORT_STATUS through a failed task (R296, R322) -/

section
variable {s : State} {k : RegKey} {v : Word} (hk : k.name = .PORT_STATUS)
include hk

theorem cancellable_portStatus : Cancellable fun t => t.getR k = v := cancellable_guarded k v (by simp [hk, cancelKeeps])

theorem showSeal_portStatus (h : s.getR k = v) : s.showSeal.getR k = v :=
  (State.getR_showSeal k (by rw [hk]; decide) s).trans h

theorem setStep_portStatus {x : StepVerdict} (h : s.getR k = v) : (s.setStep x).getR k = v :=
  Stable.ifEither (P := fun t => t.getR k = v) h (showSeal_portStatus hk h)

theorem latchRetract_portStatus {e reason die xyz : Nat} (h : s.getR k = v) :
    (s.latchRetract e reason die xyz).getR k = v := by
  unfold State.latchRetract
  simp only [State.getR_setF_of_reg _ _ _ _ _ _ (show k.name ≠ COL_RETRACT_EPOCH.reg by rw [hk]; decide),
    State.getR_setF_of_reg _ _ _ _ _ _ (show k.name ≠ COL_RETRACT_REASON.reg by rw [hk]; decide),
    State.getR_setF_of_reg _ _ _ _ _ _ (show k.name ≠ COL_RETRACT_SUSPECT_DIE.reg by rw [hk]; decide),
    State.getR_setF_of_reg _ _ _ _ _ _ (show k.name ≠ COL_RETRACT_SUSPECT.reg by rw [hk]; decide),
    State.getR_setF_of_reg _ _ _ _ _ _ (show k.name ≠ COL_RETRACT_VALID.reg by rw [hk]; decide),
    State.getR_setF_of_reg _ _ _ _ _ _ (show k.name ≠ COL_SEAL_STATE_RETRACTING.reg by rw [hk]; decide),
    State.getR_setF_of_reg _ _ _ _ _ _ (show k.name ≠ COL_SEAL_STATE_RETRACT_DONE.reg by rw [hk]; decide), h]

omit hk in
theorem dropSteps_getR {e : Nat} (h : s.getR k = v) : (s.dropSteps e).getR k = v := h

theorem retractStep_portStatus {e reason die xyz : Nat} (h : s.getR k = v) :
    (s.retractStep e reason die xyz).getR k = v := by
  have hP := cancellable_portStatus (v := v) hk
  cases hnew : s.retractNew e with
  | false => rwa [s.retractStep_of_covered _ _ _ _ hnew]
  | true =>
    rw [s.retractStep_of_new _ _ _ _ hnew]
    have htold : (s.tellRetract e reason die xyz).getR k = v := hP.tellRetract h
    have hdropped := dropSteps_getR (e := e)
      (latchRetract_portStatus hk (e := e) (reason := reason) (die := die) (xyz := xyz) htold)
    have hcarried : (State.carryRetract _ e).getR k = v := State.carryRetract_keeps hP e hdropped
    exact showSeal_portStatus hk hcarried

theorem failStep_portStatus {e reason : Nat} (h : s.getR k = v) : (s.failStep e reason none).getR k = v :=
  Stable.ifEither (P := fun t => t.getR k = v) ((cancellable_portStatus hk).record _ _ h)
    (retractStep_portStatus hk (s := (s.setStep _).draw.2) (setStep_portStatus hk h))

theorem failTask_portStatus {n : TaskId} {code : Nat} (h : s.getR k = v) : (s.failTask n code).getR k = v := by
  have hP := cancellable_portStatus (v := v) hk
  unfold State.failTask
  split
  · exact h
  · next x _ =>
    have hshown : (if s.flag COL_FAIL_VALID n.d 0 then s else
        ((((s.setF COL_FAIL_VALID n.d 0 1).setF COL_FAIL_CODE n.d 0 code).setF COL_FAIL_CHAN n.d 0
          (x.channel.getD 0)).setF COL_FAIL_G n.d 0 n.g).setF COL_FAIL_TASK n.d 0 n.idx).getR k = v :=
      Stable.ifEither (P := fun t => t.getR k = v) h (hP.setF (hP.setF (hP.setF (hP.setF (hP.setF h)))))
    exact failStep_portStatus hk (hP.cancelTask (hP.record _ _ hshown))

/-! ### The link (R267) -/

theorem discovering_portStatus : Discovering fun t => t.getR k = v where
  unack t p n h := (State.getR_setF_of_reg _ _ _ _ _ _ (by rw [hk]; decide)).trans h
  bytes t p i n h := (State.getR_setF_of_reg _ _ _ _ _ _ (by rw [hk]; decide)).trans h
  port _ _ _ _ h := h
  disc _ _ h := h
  shown t f n hf h := (State.getR_setF_of_reg _ _ _ _ _ _ (by rw [hk]; revert f; decide)).trans h

theorem downLink_portStatus {p : Nat} (h : s.getR k = v) : (s.downLink p).1.getR k = v := by
  have hP := (cancellable_portStatus (v := v) hk).toStable
  unfold State.downLink
  extract_lets x frames s1 s2 s3 s4 s5 s6 s7
  have h1 : s1.getR k = v := Stable.foldl (P := fun t => t.getR k = v) h fun u t hu => by
    split
    · exact hP.sending.owe hu
    · exact hu
  clear_value s1
  have h2 : s2.getR k = v := hP.addF (hP.addF h1)
  have h3 : s3.getR k = v := hP.record _ _ h2
  clear_value s3
  have h5 : s5.getR k = v := hP.setF (hP.setPort h3)
  have h6 : s6.getR k = v := hP.setF (hP.setF h5)
  exact hP.pulse (hP.putR _ _ _ (by simp [guarded]) (hP.putR _ _ _ (by simp [guarded]) h6))

end

/-- The loss of a link leaves PORT_STATUS. -/
theorem State.getR_linkLost (s : State) (p : Nat) (k : RegKey) (hk : k.name = .PORT_STATUS) :
    (s.linkLost p).getR k = s.getR k := by
  unfold State.linkLost
  refine Stable.ifEither (P := fun t => t.getR k = s.getR k) ?_ rfl
  extract_lets r s1
  have h1 : s1.getR k = s.getR k :=
    Stable.foldl (P := fun t => t.getR k = s.getR k) (downLink_portStatus hk rfl) fun u d hu => by
      split
      · exact failTask_portStatus hk hu
      · exact hu
  clear_value s1
  exact (discovering_portStatus hk).newGeneration (s := s1.resendPages) h1

end Sys2Proof.Machine
end

section
/-! Lanes calibrate in rotation on the spare (R246 to R249, R258), for O53. -/

namespace Sys2Proof.Machine

/-- A property that ending a calibration keeps: it looks at no calibration and at none of what shows one. -/
structure Rotating (P : State → Prop) : Prop where
  cal : ∀ (s : State) (f : Nat) (c : CalSt), P s → P (s.setCal f c)
  shown : ∀ (s : State) (f : Field) (i j v : Nat), f ∈ [LL_STATUS_DR_SPARE_BUSY, PORT_LANE_STATE, PORT_STATUS_SPARE_USE,
    PORT_STATUS_SPARE_FOR] → P s → P (s.setF f i j v)

theorem Rotating.abortCal {P : State → Prop} (hP : Rotating P) {s : State} {f : Nat} (h : P s) : P (s.abortCal f) := by
  unfold State.abortCal
  extract_lets c s1 s2
  have h1 : P s1 := hP.cal _ _ _ h
  have h2 : P s2 := Stable.ifEither (hP.shown _ _ _ _ _ (by simp) h1) h1
  exact Stable.ifEither h (Stable.ifEither (hP.shown _ _ _ _ _ (by simp) h1)
    (Stable.ifEither (hP.shown _ _ _ _ _ (by simp) (hP.shown _ _ _ _ _ (by simp) h2)) h2))

namespace State

/-! ### Lanes and calibrations -/

theorem cal_setCal (s : State) (f g : Nat) (c : CalSt) : (s.setCal f c).cal g = if f = g then c else s.cal g := by
  rw [cal, setCal, setLight]
  dsimp only
  rw [Tab.getN_putN]
  rfl

theorem cal_of_light {s t : State} (h : t.light = s.light) (f : Nat) : t.cal f = s.cal f := by rw [cal, h, cal]

theorem cal_latch (s t : State) (f : Nat) : (s.latchEdges t).cal f = t.cal f := cal_of_light (latchEdges_light s t) f

theorem testBit_setLaneBit (s : State) (f : Field) (i b : Nat) (hf : f.ok = true) (hb : b < f.width) :
    ((s.setLaneBit f i b true).getF f i 0).testBit b = true := by
  rw [setLaneBit, getF_setF_self _ _ _ _ _ hf, if_pos rfl, Nat.testBit_mod_two_pow, Nat.testBit_or, Nat.testBit_two_pow_self]
  simp [hb]

/-! ### The slots -/

theorem exec_calibrationSlot (f : Fin 7) (s : State) :
    exec (.calibrationSlot f) s = .next (s.latchEdges (s.calibrationSlot f)) := rfl

theorem exec_announceTimeout (f : Fin 7) (s : State) :
    exec (.announceTimeout f) s = .next (s.latchEdges (s.announceTimeout f)) := rfl

theorem exec_calibrationPhaseEnd (f : Fin 7) (ok : Bool) (x : LaneSet) (m : BitVec 16) (s : State) :
    exec (.calibrationPhaseEnd f ok x m) s = .next (s.latchEdges (s.calibrationPhaseEnd f ok x m)) := rfl

theorem exec_sparePreempt (f : Fin 7) (l : Fin 16) (perm : Bool) (s : State) :
    exec (.sparePreempt f l perm) s = .next (s.latchEdges (s.sparePreempt f l perm)) := rfl

theorem exec_darkLaneRetry (p : Fin 6) (l : Fin 17) (lit : Bool) (x : LaneSet) (m : BitVec 16) (s : State) :
    exec (.darkLaneCalibrationRetry p l lit x m) s = .next (s.latchEdges (s.darkLaneRetry p l lit x m)) := rfl

theorem calibrationSlot_idle (s : State) (f : Nat) (h : s.rotates f = false) : s.calibrationSlot f = s := by
  rw [calibrationSlot, h]
  rfl

theorem calibrationSlot_skips (s : State) (f : Nat) (h : s.rotates f = true)
    (hm : s.mayCalibrate f (s.cal f).next = false) :
    s.calibrationSlot f = s.setCal f { s.cal f with next := ((s.cal f).next + 1) % calLanes f } := by
  rw [calibrationSlot, h]
  dsimp only
  rw [hm]
  rfl

theorem calibrationSlot_announces (s : State) (f : Nat) (h : s.rotates f = true)
    (hm : s.mayCalibrate f (s.cal f).next = true) :
    s.calibrationSlot f = s.setCal f { s.cal f with
      next := ((s.cal f).next + 1) % calLanes f, lane := (s.cal f).next, second := false
      phase := if (s.cal f).next + 1 = calLanes f then 3 else 1 } := by
  rw [calibrationSlot, h]
  dsimp only
  rw [hm]
  rfl

/-! ### The phases of a calibration (R246) -/

theorem phaseEnd_one {s : State} {f : Nat} (hf : f ≠ 6) (h : (s.cal f).phase = 1) (ok : Bool) (x : LaneSet)
    (m : BitVec 16) : s.calibrationPhaseEnd f ok x m = ((s.setCal f { s.cal f with phase := 2 }).setF
      PORT_STATUS_SPARE_USE f 0 1).setF PORT_STATUS_SPARE_FOR f 0 (s.cal f).lane := by
  simp only [calibrationPhaseEnd, h, if_neg hf]

theorem phaseEnd_two {s : State} {f : Nat} (hf : f ≠ 6) (h : (s.cal f).phase = 2) (ok : Bool) (x : LaneSet)
    (m : BitVec 16) : s.calibrationPhaseEnd f ok x m =
      (s.setCal f { s.cal f with phase := 3 }).setF PORT_LANE_STATE f (s.cal f).lane 3 := by
  simp only [calibrationPhaseEnd, h, if_neg hf]

theorem phaseEnd_three {s : State} {f : Nat} (h : (s.cal f).phase = 3) (ok : Bool) (x : LaneSet)
    (m : BitVec 16) : s.calibrationPhaseEnd f ok x m = s.calResult f ok x m := by
  simp only [calibrationPhaseEnd, h]

theorem phaseEnd_four {s : State} {f : Nat} (hf : f ≠ 6) (h : (s.cal f).phase = 4) (ok : Bool) (x : LaneSet)
    (m : BitVec 16) : s.calibrationPhaseEnd f ok x m =
      (s.setCal f { s.cal f with phase := 0, second := false }).releaseSpare f := by
  simp only [calibrationPhaseEnd, h, if_neg hf]

theorem phaseEnd_other {s : State} {f : Nat} (h : (s.cal f).phase = 0 ∨ 4 < (s.cal f).phase) (ok : Bool) (x : LaneSet)
    (m : BitVec 16) : s.calibrationPhaseEnd f ok x m = s := by
  unfold calibrationPhaseEnd
  dsimp only
  split
  case h_5 => rfl
  all_goals omega

/-- A data lane that passes at its first check. -/
theorem calResult_passed (s : State) (f : Nat) (x : LaneSet) (m : BitVec 16) (hf : f < 6) (h2 : (s.cal f).second = false)
    (hl : (s.cal f).lane < 16) (hm : 200 ≤ m.toInt) : s.calResult f true x m =
      (s.setCal f { s.cal f with
        settings := Tab.putN {} (s.cal f).settings (s.cal f).lane x
        passedAt := Tab.putN none (s.cal f).passedAt (s.cal f).lane (some s.time), phase := 4 }).setF
        PORT_LANE_MARGIN f (s.cal f).lane m.toNat := by
  have hlanes : calLanes f = 17 := if_neg (by omega)
  unfold calResult
  dsimp only
  rw [hlanes, h2, if_pos (by simp [hm]), if_neg (show ¬ f = 6 by omega), decide_eq_false (by omega)]
  rfl

/-- A first check that fails is made again. -/
theorem calResult_failed (s : State) (f : Nat) (ok : Bool) (x : LaneSet) (m : BitVec 16) (hf : f < 6)
    (h2 : (s.cal f).second = false) (h : ok = false ∨ m.toInt < 200) : s.calResult f ok x m =
      (s.addF PORT_LANE_CAL_FAILS f (s.cal f).lane 1).setCal f { s.cal f with second := true } := by
  have hno : (ok && decide (200 ≤ m.toInt)) = false := by
    obtain rfl | h := h
    · rfl
    · rw [decide_eq_false (by omega), Bool.and_false]
  unfold calResult
  dsimp only
  rw [hno, h2, if_neg (by simp), if_neg (show ¬ f = 6 by omega)]
  rfl

/-- The spare released reads idle, its lane on its own line. -/
theorem releaseSpare_reads (s : State) (p : Nat) : (s.releaseSpare p).light = s.light ∧
    (s.releaseSpare p).getF PORT_STATUS_SPARE_USE p 0 = 0 ∧ (s.getF PORT_STATUS_SPARE_FOR p 0 < 16 →
      (s.releaseSpare p).getF PORT_LANE_STATE p (s.getF PORT_STATUS_SPARE_FOR p 0) = 1) := by
  have huse : ((s.setF PORT_STATUS_SPARE_USE p 0 0).setF PORT_STATUS_SPARE_FOR p 0 0x1F).getF PORT_STATUS_SPARE_USE p 0 = 0 := by
    rw [getF_setF_apart _ _ _ _ _ _ _ _ (by decide), getF_setF_self _ _ _ _ _ (by decide)]
    rfl
  unfold releaseSpare
  extract_lets l s1
  by_cases hl : l < 16
  · rw [if_pos hl]
    refine ⟨rfl, ?_, fun _ => ?_⟩
    · rw [setLaneBit, getF_setF_apart _ _ _ _ _ _ _ _ (by decide), getF_setF_apart _ _ _ _ _ _ _ _ (by decide)]
      exact huse
    · rw [setLaneBit, getF_setF_apart _ _ _ _ _ _ _ _ (by decide)]
      exact getF_setF_self _ _ _ _ _ (by decide)
  · rw [if_neg hl]
    exact ⟨rfl, huse, fun h => absurd h hl⟩

/-! ### The spare taken (R248) -/

/-- A job of higher rank holds the spare for its lane. -/
structure SpareTaken (t : State) (p l use : Nat) : Prop where
  use : t.getF PORT_STATUS_SPARE_USE p 0 = use
  lane : t.getF PORT_STATUS_SPARE_FOR p 0 = l
  state : t.getF PORT_LANE_STATE p l = 2

theorem SpareTaken.latch {t : State} {p l use : Nat} (h : t.SpareTaken p l use) (s : State) :
    (s.latchEdges t).SpareTaken p l use :=
  ⟨(getF_latch _ _ _ _ _ (by decide)).trans h.use, (getF_latch _ _ _ _ _ (by decide)).trans h.lane,
    (getF_latch _ _ _ _ _ (by decide)).trans h.state⟩

/-- What is taken from the job that held the spare. -/
def sparePreempted (s : State) (p l : Nat) : State :=
  let cur := s.getF PORT_STATUS_SPARE_USE p 0
  let was := s.getF PORT_STATUS_SPARE_FOR p 0
  let s := if cur = 1 then s.abortCal p else s
  if cur = 2 ∧ was ≠ l then s.laneDown p was else s

theorem takeSpare_of_lower (s : State) (p l use : Nat) (hup : s.spareUp p = true)
    (hu : s.getF PORT_STATUS_SPARE_USE p 0 < use) (hl : l < 16) : s.takeSpare p l use =
      ((((s.sparePreempted p l).setF PORT_STATUS_SPARE_USE p 0 use).setF PORT_STATUS_SPARE_FOR p 0 l).setF
        PORT_LANE_STATE p l 2).setLaneBit PORT_STATUS_ACTIVE p l true := by
  rw [takeSpare, if_pos ⟨hup, hu, hl⟩]
  rfl

theorem spareTaken_takeSpare (s : State) (p l use : Nat) (hup : s.spareUp p = true)
    (hu : s.getF PORT_STATUS_SPARE_USE p 0 < use) (hl : l < 16) (h8 : use < 8) : (s.takeSpare p l use).SpareTaken p l use := by
  rw [s.takeSpare_of_lower p l use hup hu hl, setLaneBit]
  generalize s.sparePreempted p l = t
  constructor
  · rw [getF_setF_apart _ _ _ _ _ _ _ _ (by decide), getF_setF_apart _ _ _ _ _ _ _ _ (by decide),
      getF_setF_apart _ _ _ _ _ _ _ _ (by decide), getF_setF_self _ _ _ _ _ (by decide)]
    exact Nat.mod_eq_of_lt h8
  · rw [getF_setF_apart _ _ _ _ _ _ _ _ (by decide), getF_setF_apart _ _ _ _ _ _ _ _ (by decide),
      getF_setF_self _ _ _ _ _ (by decide)]
    exact Nat.mod_eq_of_lt (Nat.lt_of_lt_of_le hl (by decide))
  · rw [getF_setF_apart _ _ _ _ _ _ _ _ (by decide), getF_setF_self _ _ _ _ _ (by decide)]
    rfl

theorem getF_linkLost (s : State) (p : Nat) (f : Field) (i j : Nat) (hf : f.reg = .PORT_STATUS) :
    (s.linkLost p).getF f i j = s.getF f i j := by
  rw [getF, s.getR_linkLost p _ hf, getF]

/-- A lane that goes down fails none. -/
theorem failed_laneDown (s : State) (p l : Nat) :
    (s.laneDown p l).getF PORT_STATUS_FAILED p 0 = s.getF PORT_STATUS_FAILED p 0 := by
  have hdown : ((s.setF PORT_LANE_STATE p l 0).setLaneBit PORT_STATUS_ACTIVE p l false).getF PORT_STATUS_FAILED p 0 =
      s.getF PORT_STATUS_FAILED p 0 := by
    rw [setLaneBit, getF_setF_apart _ _ _ _ _ _ _ _ (by decide), getF_setF_apart _ _ _ _ _ _ _ _ (by decide)]
  unfold laneDown
  extract_lets s1
  refine Stable.ifEither (P := fun t => t.getF PORT_STATUS_FAILED p 0 = s.getF PORT_STATUS_FAILED p 0) ?_ hdown
  rw [getF_linkLost _ _ _ _ _ rfl]
  exact (getF_record_apart _ _ _ _ _ (by decide)).trans hdown

theorem failed_abortCal (s : State) (p : Nat) :
    (s.abortCal p).getF PORT_STATUS_FAILED p 0 = s.getF PORT_STATUS_FAILED p 0 :=
  Rotating.abortCal (P := fun t => t.getF PORT_STATUS_FAILED p 0 = s.getF PORT_STATUS_FAILED p 0)
    { cal := fun _ _ _ h => h
      shown := fun _ f _ _ _ hf h => (getF_setF_apart _ _ _ _ _ _ _ _ (by revert f; decide)).trans h } rfl

theorem failed_sparePreempted (s : State) (p l : Nat) :
    (s.sparePreempted p l).getF PORT_STATUS_FAILED p 0 = s.getF PORT_STATUS_FAILED p 0 := by
  unfold sparePreempted
  extract_lets cur was s1
  have h1 : s1.getF PORT_STATUS_FAILED p 0 = s.getF PORT_STATUS_FAILED p 0 :=
    Stable.ifEither (P := fun t => t.getF PORT_STATUS_FAILED p 0 = s.getF PORT_STATUS_FAILED p 0) (s.failed_abortCal p) rfl
  exact Stable.ifEither (P := fun t => t.getF PORT_STATUS_FAILED p 0 = s.getF PORT_STATUS_FAILED p 0)
    ((failed_laneDown _ _ _).trans h1) h1

/-- A lane that fails is marked, and the spare carries it for good. -/
theorem failLane_takes (s : State) (p l : Nat) (hup : s.spareUp p = true) (hu : s.getF PORT_STATUS_SPARE_USE p 0 < 3)
    (hl : l < 16) : (s.failLane p l).SpareTaken p l 3 ∧ ((s.failLane p l).getF PORT_STATUS_FAILED p 0).testBit l = true := by
  have hup' : (s.setLaneBit PORT_STATUS_FAILED p l true).spareUp p = true := by
    rw [spareUp, setLaneBit, getF_setF_apart _ _ _ _ _ _ _ _ (by decide)]
    exact hup
  have hu' : (s.setLaneBit PORT_STATUS_FAILED p l true).getF PORT_STATUS_SPARE_USE p 0 < 3 := by
    rw [setLaneBit, getF_setF_apart _ _ _ _ _ _ _ _ (by decide)]
    exact hu
  have htaken := spareTaken_takeSpare _ p l 3 hup' hu' hl (by decide)
  rw [failLane, if_pos hl]
  refine ⟨⟨?_, ?_, ?_⟩, ?_⟩
  · rw [getF_pulse _ _ _ _ _ _ (by decide), htaken.use]
  · rw [getF_pulse _ _ _ _ _ _ (by decide), htaken.lane]
  · rw [getF_pulse _ _ _ _ _ _ (by decide), htaken.state]
  · have hmarked := s.testBit_setLaneBit PORT_STATUS_FAILED p l (by decide) hl
    generalize s.setLaneBit PORT_STATUS_FAILED p l true = w at *
    rw [getF_pulse _ _ _ _ _ _ (by decide), takeSpare_of_lower _ p l 3 hup' hu' hl, setLaneBit, getF_setF_apart _ _ _ _ _ _ _ _ (by decide), getF_setF_apart _ _ _ _ _ _ _ _ (by decide),
      getF_setF_apart _ _ _ _ _ _ _ _ (by decide), getF_setF_apart _ _ _ _ _ _ _ _ (by decide), failed_sparePreempted,
      hmarked]

/-! ### A dark lane (R258) -/

theorem getF_bringLane_margin (s : State) (p l : Nat) (x : LaneSet) (m : BitVec 16) :
    (s.bringLane p l x m).getF PORT_LANE_MARGIN p l = m.toNat := by
  have hset : (s.setF PORT_LANE_MARGIN p l m.toNat).getF PORT_LANE_MARGIN p l = m.toNat :=
    (getF_setF_self _ _ _ _ _ (by decide)).trans (Nat.mod_eq_of_lt m.isLt)
  unfold bringLane
  extract_lets c s1 s2 s3
  have h3 : s3.getF PORT_LANE_MARGIN p l = m.toNat := (getF_setF_apart _ _ _ _ _ _ _ _ (by decide)).trans hset
  refine Stable.ifEither (P := fun t => t.getF PORT_LANE_MARGIN p l = m.toNat)
    (Stable.ifEither (P := fun t => t.getF PORT_LANE_MARGIN p l = m.toNat) ?_ h3)
    ((getF_record_apart _ _ _ _ _ (by decide)).trans hset)
  exact (getF_setF_apart _ _ _ _ _ _ _ _ (by decide)).trans h3

/-- A lane that shows 3.5 dB comes up. -/
theorem bringLane_up (s : State) (p l : Nat) (x : LaneSet) (m : BitVec 16) (hm : 350 ≤ m.toInt) :
    (s.bringLane p l x m).getF PORT_LANE_STATE p l = 1 ∧
    Tab.getN {} ((s.bringLane p l x m).cal p).settings l = x ∧
    (l < 16 → ((s.bringLane p l x m).getF PORT_STATUS_ACTIVE p 0).testBit l = true) := by
  unfold bringLane
  extract_lets c s1 s2 s3
  rw [if_pos hm]
  have hstate : s3.getF PORT_LANE_STATE p l = 1 := getF_setF_self _ _ _ _ _ (by decide)
  have hcal : Tab.getN {} (s3.cal p).settings l = x := by
    rw [cal_of_light (setF_light ..), cal_setCal, if_pos rfl]
    exact (Tab.getN_putN ..).trans (if_pos rfl)
  by_cases hl : l < 16
  · rw [if_pos hl]
    refine ⟨?_, ?_, fun _ => testBit_setLaneBit _ _ _ _ (by decide) hl⟩
    · rw [setLaneBit, getF_setF_apart _ _ _ _ _ _ _ _ (by decide), hstate]
    · rw [setLaneBit, cal_of_light (setF_light ..), hcal]
  · rw [if_neg hl]
    exact ⟨hstate, hcal, fun h => absurd h hl⟩

/-- A lane that does not is held down, and recorded. -/
theorem bringLane_dark (s : State) (p l : Nat) (x : LaneSet) (m : BitVec 16) (hm : m.toInt < 350) :
    (s.bringLane p l x m).getF PORT_LANE_STATE p l = s.getF PORT_LANE_STATE p l ∧ (s.bringLane p l x m).cal p = s.cal p ∧
    (s.bringLane p l x m).elog.seq = (s.elog.seq + 1) % 2 ^ 32 := by
  unfold bringLane
  extract_lets c s1 s2 s3
  rw [if_neg (by omega)]
  refine ⟨?_, ?_, ?_⟩
  · rw [portRecord, getF_record_apart _ _ _ _ _ (by decide)]
    exact getF_setF_apart _ _ _ _ _ _ _ _ (by decide)
  · exact cal_of_light (record_light _ _) p
  · exact seq_record _ _

/-- The cases of a preemption on a fibre of a port. -/
theorem sparePreempt_port (s : State) (f l : Nat) (perm : Bool) (hf : f ≠ 6) : s.sparePreempt f l perm =
    if s.getF PORT_STATUS_SPARE_USE f 0 = 0 ∨ (if perm then 3 else 2) ≤ s.getF PORT_STATUS_SPARE_USE f 0 then s
    else if perm then s.failLane f l else s.takeSpare f l 2 := by
  rw [sparePreempt, if_neg hf]

theorem darkLaneRetry_eq (s : State) (p l : Nat) (lit : Bool) (x : LaneSet) (m : BitVec 16) :
    s.darkLaneRetry p l lit x m = if (s.flag LL_STATUS_READY 0 0 && decide (s.getF PORT_LANE_STATE p l = 0) &&
      !(s.getF PORT_STATUS_FAILED p 0).testBit l && lit) = true then s.bringLane p l x m else s := rfl

end State

/-- A calibration's phases on a fibre of a port, at their ends. -/
theorem calibration_advances (s : State) (f : Fin 7) (hf : f.val < 6) (x : LaneSet) (m : BitVec 16) :
    ((s.cal f).phase = 3 → (s.cal f).second = false → (s.cal f).lane < 16 → 200 ≤ m.toInt →
      ∃ t, exec (.calibrationPhaseEnd f true x m) s = .next t ∧ (t.cal f).phase = 4 ∧
        Tab.getN {} (t.cal f).settings (s.cal f).lane = x ∧ Tab.getN none (t.cal f).passedAt (s.cal f).lane = some s.time ∧
        t.getF PORT_LANE_MARGIN f (s.cal f).lane = m.toNat) ∧
    (∀ ok, (s.cal f).phase = 4 → ∃ t, exec (.calibrationPhaseEnd f ok x m) s = .next t ∧ (t.cal f).phase = 0 ∧
      t.getF PORT_STATUS_SPARE_USE f 0 = 0 ∧
      (s.getF PORT_STATUS_SPARE_FOR f 0 < 16 → t.getF PORT_LANE_STATE f (s.getF PORT_STATUS_SPARE_FOR f 0) = 1)) := by
  have h6 : f.val ≠ 6 := by omega
  refine ⟨fun h3 h2 hl hm => ⟨_, State.exec_calibrationPhaseEnd f true x m s, ?_⟩, fun ok h4 =>
    ⟨_, State.exec_calibrationPhaseEnd f ok x m s, ?_⟩⟩
  · rw [State.phaseEnd_three h3, s.calResult_passed f x m hf h2 hl hm, State.cal_latch,
      State.cal_of_light (State.setF_light ..), State.cal_setCal, if_pos rfl, State.getF_latch _ _ _ _ _ (by decide)]
    dsimp only
    rw [Tab.getN_putN, Tab.getN_putN, if_pos rfl, if_pos rfl]
    refine ⟨rfl, rfl, rfl, ?_⟩
    exact (State.getF_setF_self _ _ _ _ _ (by decide)).trans (Nat.mod_eq_of_lt m.isLt)
  · obtain ⟨hlight, huse, hstate⟩ := (s.setCal f { s.cal f with phase := 0, second := false }).releaseSpare_reads f
    rw [State.phaseEnd_four h6 h4, State.cal_latch, State.cal_of_light hlight, State.cal_setCal, if_pos rfl,
      State.getF_latch _ _ _ _ _ (by decide), State.getF_latch _ _ _ _ _ (by decide)]
    exact ⟨rfl, huse, hstate⟩

/-- A job of higher rank takes the spare of a port. -/
theorem spare_preempted (s : State) (f : Fin 7) (l : Fin 16) (perm : Bool) (hf : f.val < 6)
    (h0 : 0 < s.getF PORT_STATUS_SPARE_USE f 0) (hu : s.getF PORT_STATUS_SPARE_USE f 0 < if perm then 3 else 2)
    (hup : s.spareUp f = true) : ∃ t, exec (.sparePreempt f l perm) s = .next t ∧
      t.SpareTaken f l (if perm then 3 else 2) ∧
      (perm = true → (t.getF PORT_STATUS_FAILED f 0).testBit l = true) := by
  refine ⟨_, State.exec_sparePreempt f l perm s, ?_⟩
  rw [s.sparePreempt_port f l perm (by omega), if_neg (by omega)]
  cases perm with
  | true =>
    obtain ⟨htaken, hfailed⟩ := s.failLane_takes f l hup hu l.isLt
    refine ⟨htaken.latch s, fun _ => ?_⟩
    rw [State.getF_latch _ _ _ _ _ (by decide)]
    exact hfailed
  | false => exact ⟨(s.spareTaken_takeSpare f l 2 hup hu l.isLt (by decide)).latch s, fun h => absurd h (by decide)⟩

/-- Settles O53: the slots and phases of a calibration, the spare's jobs, and the lanes that were dark. -/
theorem lanesCalibrateInRotation : Obligations.LanesCalibrateInRotation := by
  intro s
  refine ⟨?_, ?_⟩
  · rintro f c x m rfl
    refine ⟨fun h => ?_, fun h => ⟨fun hm => ?_, fun hm => ?_⟩, fun h => ?_, fun h => ?_, fun ok h => ?_,
      fun ok hf h => ?_, fun ok hf h => ?_, fun hf h3 h2 hl => ⟨fun hm => ?_, fun ok hm => ?_⟩, fun ok hf h => ?_, ?_⟩
    · rw [State.exec_calibrationSlot, s.calibrationSlot_idle f h, latchEdges_self]
    · rw [State.exec_calibrationSlot, s.calibrationSlot_skips f h hm]
    · rw [State.exec_calibrationSlot, s.calibrationSlot_announces f h hm]
    · rw [State.exec_announceTimeout, State.announceTimeout, if_pos h]
    · rw [State.exec_announceTimeout, State.announceTimeout, if_neg h, latchEdges_self]
    · rw [State.exec_calibrationPhaseEnd, State.phaseEnd_other h, latchEdges_self]
    · rw [State.exec_calibrationPhaseEnd, State.phaseEnd_one (by omega) h]
    · rw [State.exec_calibrationPhaseEnd, State.phaseEnd_two (by omega) h]
    · exact (calibration_advances s f hf x m).1 h3 h2 hl hm
    · rw [State.exec_calibrationPhaseEnd, State.phaseEnd_three h3, s.calResult_failed f ok x m hf h2 hm]
    · exact (calibration_advances s f hf x m).2 ok h
    · rintro l perm use cur hf rfl rfl
      refine ⟨fun h => ?_, fun h0 hu hup => ?_⟩
      · rw [State.exec_sparePreempt, s.sparePreempt_port f l perm (by omega), if_pos h, latchEdges_self]
      · obtain ⟨t, ht, htaken, hfailed⟩ := spare_preempted s f l perm hf h0 hu hup
        exact ⟨t, ht, htaken.use, htaken.lane, htaken.state, hfailed⟩
  · rintro p l lit x m b hb
    refine ⟨fun h => ?_, fun h => ?_⟩
    · rw [State.exec_darkLaneRetry, s.darkLaneRetry_eq, ← hb, if_neg (by simp [h]), latchEdges_self]
    · have hdark : s.getF PORT_LANE_STATE p l = 0 := by
        rw [h] at hb
        simp only [Eq.comm (a := true), Bool.and_eq_true, decide_eq_true_eq] at hb
        exact hb.1.1.2
      refine ⟨_, State.exec_darkLaneRetry p l lit x m s, ?_⟩
      rw [s.darkLaneRetry_eq, ← hb, if_pos h]
      refine ⟨?_, fun hm => ?_, fun hm => ?_⟩
      · rw [State.getF_latch _ _ _ _ _ (by decide), State.getF_bringLane_margin]
      · obtain ⟨hstate, hset, hactive⟩ := s.bringLane_up p l x m hm
        rw [State.getF_latch _ _ _ _ _ (by decide), State.cal_latch, State.getF_latch _ _ _ _ _ (by decide)]
        exact ⟨hstate, hset, hactive⟩
      · obtain ⟨hstate, hcal, hseq⟩ := s.bringLane_dark p l x m hm
        rw [State.getF_latch _ _ _ _ _ (by decide), State.cal_latch, State.latchEdges_elog]
        exact ⟨hstate.trans hdark, hcal, hseq⟩

end Sys2Proof.Machine
end

section
/-! Cartridges warm up, are commissioned and take their place (R251, R257). -/

namespace Sys2Proof.Machine

/-! ### What a switchover begun leaves alone (R249, R254) -/

/-- A property that beginning or asking for a switchover keeps. -/
structure Switching (P : State → Prop) : Prop extends Rotating P, Sending P where
  switch : ∀ (s : State) (g : Nat) (x : SwitchSt), P s → P (s.setSwitch g x)
  pending : ∀ (s : State) (v : Nat), P s → P (s.setF LC_ROUTE_PENDING 0 0 v)
  hold : ∀ (s : State) (p v : Nat), P s → P (s.setF PORT_STATUS_HOLD p 0 v)

namespace Switching

variable {P : State → Prop} (hP : Switching P) {s : State}
include hP

theorem startSwitch {g dst : Nat} (h : P s) : P (s.startSwitch g dst) := by
  unfold State.startSwitch
  extract_lets s1 s2 s3
  have h1 : P s1 := Stable.foldl h fun _ _ hu => hP.abortCal hu
  have h2 : P s2 := Stable.ifEither (hP.abortCal h1) h1
  exact Stable.ifEither h (Stable.foldl (hP.pending _ _ (hP.switch _ _ _ h2)) fun _ _ hu =>
    hP.pumpPort (hP.hold _ _ _ hu))

theorem askSwitch {g dst : Nat} {b : Bool} (h : P s) : P (s.askSwitch g dst b) :=
  Stable.ifEither (hP.pending _ _ (hP.switch _ _ _ h)) (hP.startSwitch h)

end Switching

namespace State

theorem exec_cartridgeInsert (i : Fin 3) (serial : BitVec 32) (s : State) :
    exec (.cartridgeInsert i serial) s = .next (s.latchEdges (s.cartridgeInsert i serial)) := rfl

theorem exec_gridLock (i : Fin 3) (l : List (BitVec 16)) (s : State) :
    exec (.gridLock i l) s = .next (s.latchEdges (s.gridLock i l)) := rfl

theorem exec_gridLockTimeout (i : Fin 3) (s : State) :
    exec (.gridLockTimeout i) s = .next (s.latchEdges (s.gridLockTimeout i)) := rfl

theorem exec_cartridgeCommissioning (i : Fin 3) (l o : List (BitVec 16)) (s : State) :
    exec (.cartridgeCommissioning i l o) s = .next (s.latchEdges (s.cartridgeCommissioning i l o)) := rfl

/-! ### The state of a cartridge -/

theorem cart_setCart (s : State) (i : Nat) (c : CartSt) : (s.setCart i c).cart i = c := by
  rw [cart, setCart, setLight]
  dsimp only
  rw [Tab.getN_putN, if_pos rfl]

theorem cart_of_light {s t : State} (h : t.light = s.light) (i : Nat) : t.cart i = s.cart i := by rw [cart, h, cart]

theorem cart_cartState (s : State) (i v j : Nat) : (s.cartState i v).cart j = s.cart j := by
  unfold cartState
  split <;> rfl

theorem getF_cartState (s : State) (i v : Nat) (hv : v < 4) : (s.cartState i v).getF LC_STATUS_STATE 0 i = v := by
  unfold cartState
  split
  · next h => exact h
  · rw [getF_pulse _ _ _ _ _ _ (by decide), getF_setF_self _ _ _ _ _ (by decide)]
    exact Nat.mod_eq_of_lt hv

theorem getF_cartState_apart (s : State) (i v : Nat) (f : Field) (i' j : Nat)
    (h : LC_STATUS_STATE.reg ≠ f.reg ∨ f.hi < LC_STATUS_STATE.lo ∨ LC_STATUS_STATE.hi < f.lo) (hp : f.reg ≠ .HIC_PEND) :
    (s.cartState i v).getF f i' j = s.getF f i' j := by
  unfold cartState
  split
  · rfl
  · rw [getF_pulse _ _ _ _ _ _ hp, getF_setF_apart _ _ _ _ _ _ _ _ h]

/-! ### A cartridge inserted -/

theorem cart_cartridgeInsert (s : State) (i : Nat) (serial : BitVec 32) : (s.cartridgeInsert i serial).cart i =
    { base := if s.getF LC_STATUS_SERIAL 0 i = serial.toNat then (s.cart i).base else none
      offsets := if s.getF LC_STATUS_SERIAL 0 i = serial.toNat then (s.cart i).offsets else []
      field := s.getF LL_STATUS_START_PHASE 0 0 ≠ 0 } := by
  unfold cartridgeInsert
  extract_lets c same s1 s2
  rw [cart_cartState, cart_setCart]
  have hphase : s1.getF LL_STATUS_START_PHASE 0 0 = s.getF LL_STATUS_START_PHASE 0 0 := by
    unfold s1
    simp (disch := decide) only [getF_setF_apart]
  rw [hphase]
  simp only [same, decide_eq_true_eq, c]

theorem cartridgeInsert_shows (s : State) (i : Nat) (serial : BitVec 32) :
    (s.cartridgeInsert i serial).flag LC_STATUS_PRESENT 0 i = true ∧
    (s.cartridgeInsert i serial).flag LC_STATUS_LATCH 0 i = true ∧
    (s.cartridgeInsert i serial).getF LC_STATUS_SERIAL 0 i = serial.toNat ∧
    (s.cartridgeInsert i serial).getF LC_STATUS_STATE 0 i = 1 := by
  have hcart : ∀ (u : State) (c : CartSt) (f : Field), (u.setCart i c).getF f 0 i = u.getF f 0 i := fun _ _ _ => rfl
  unfold cartridgeInsert
  extract_lets c same s1 s2
  refine ⟨?_, ?_, ?_, getF_cartState _ _ _ (by decide)⟩
  · rw [flag, getF_cartState_apart _ _ _ _ _ _ (by decide) (by decide), hcart]
    simp (disch := decide) only [s1, getF_setF_apart, getF_setF_self]
    decide
  · rw [flag, getF_cartState_apart _ _ _ _ _ _ (by decide) (by decide), hcart]
    simp (disch := decide) only [s1, getF_setF_apart, getF_setF_self]
    decide
  · rw [getF_cartState_apart _ _ _ _ _ _ (by decide) (by decide), hcart, getF_setF_self _ _ _ _ _ (by decide)]
    exact Nat.mod_eq_of_lt serial.isLt

/-! ### A cartridge in its place, or not used -/

/-- A commissioned cartridge, with its state by whether it serves a group. -/
structure Placed (t : State) (i : Nat) (serves : Bool) (c : CartSt) : Prop where
  cart : t.cart i = c
  state : t.getF LC_STATUS_STATE 0 i = if serves then 3 else 2

theorem switching_placed (i : Nat) (b : Bool) (c : CartSt) : Switching fun t => t.Placed i b c where
  cal _ _ _ h := ⟨h.cart, h.state⟩
  shown _ f _ _ _ hf h := ⟨h.cart, (getF_setF_apart _ _ _ _ _ _ _ _ (by revert f; decide)).trans h.state⟩
  unack _ _ _ h := ⟨h.cart, (getF_setF_apart _ _ _ _ _ _ _ _ (by decide)).trans h.state⟩
  bytes _ _ _ _ h := ⟨h.cart, (getF_setF_apart _ _ _ _ _ _ _ _ (by decide)).trans h.state⟩
  port _ _ _ _ h := ⟨h.cart, h.state⟩
  switch _ _ _ h := ⟨h.cart, h.state⟩
  pending _ _ h := ⟨h.cart, (getF_setF_apart _ _ _ _ _ _ _ _ (by decide)).trans h.state⟩
  hold _ _ _ h := ⟨h.cart, (getF_setF_apart _ _ _ _ _ _ _ _ (by decide)).trans h.state⟩

theorem lcServes_of_regs {s t : State} (h : t.regs = s.regs) (i : Nat) : t.lcServes i = s.lcServes i := by
  have hget : ∀ f, t.getF f 0 0 = s.getF f 0 0 := fun f => by rw [getF, getR, h, ← getR, ← getF]
  have hgroup : t.groupSource = s.groupSource := funext fun g => by simp only [groupSource, hget]
  rw [lcServes, lcServes, hgroup]

theorem placed_placeCart (s : State) (i : Nat) : (s.placeCart i).Placed i (s.lcServes i).isSome
    { s.cart i with locked := true, commissioned := true } := by
  have hserves := lcServes_of_regs (s := s) (t := s.setCart i { s.cart i with locked := true, commissioned := true }) rfl i
  have hstate : ∀ b : Bool, ((s.setCart i { s.cart i with locked := true, commissioned := true }).cartState i
      (if b then 3 else 2)).Placed i b { s.cart i with locked := true, commissioned := true } := fun b =>
    ⟨(cart_cartState _ _ _ _).trans (cart_setCart _ _ _), getF_cartState _ _ _ (by cases b <;> decide)⟩
  have hP := switching_placed i false { s.cart i with locked := true, commissioned := true }
  unfold placeCart
  extract_lets c s1 s2
  have hs1 : s1.lcServes i = s.lcServes i := hserves
  rw [hs1]
  cases hserved : (s.lcServes i).isSome with
  | true => exact hstate true
  | false =>
    have h2 : s2.Placed i false { s.cart i with locked := true, commissioned := true } := hstate false
    rw [if_neg (by simp)]
    split
    · split
      · exact hP.startSwitch h2
      · exact Stable.ifEither (P := fun t => t.Placed i false _) (hP.askSwitch h2) h2
      · exact h2
    · exact h2

theorem Placed.latch {t : State} {i : Nat} {b : Bool} {c : CartSt} (h : t.Placed i b c) (s : State) :
    (s.latchEdges t).Placed i b c :=
  ⟨(cart_of_light (latchEdges_light s t) i).trans h.cart, (getF_latch _ _ _ _ _ (by decide)).trans h.state⟩

theorem rejectCart_reads (s : State) (i : Nat) : ((s.rejectCart i).cart i).rejected = true ∧
    (s.rejectCart i).getF LC_STATUS_STATE 0 i = 0 ∧ (s.rejectCart i).elog.seq = (s.elog.seq + 1) % 2 ^ 32 := by
  have hseq : ((s.setCart i { s.cart i with rejected := true }).cartState i 0).elog = s.elog := by
    unfold cartState
    split <;> rfl
  refine ⟨?_, ?_, ?_⟩
  · rw [rejectCart, lightRecord, cart_of_light (record_light _ _), cart_cartState, cart_setCart]
  · rw [rejectCart, lightRecord, getF_record_apart _ _ _ _ _ (by decide), getF_cartState _ _ _ (by decide)]
  · rw [rejectCart, lightRecord, seq_record, hseq]

/-! ### Grid lock and commissioning (R257) -/

/-- The grid lock noted. -/
def gridLocked (s : State) (i : Nat) : State := s.setCart i { s.cart i with locked := true }

theorem cartBase_gridLocked (s : State) (i : Nat) : (s.gridLocked i).cartBase i = s.cartBase i := by
  have hcart : (s.gridLocked i).cart i = { s.cart i with locked := true } := cart_setCart _ _ _
  unfold cartBase
  rw [hcart]
  rfl

theorem gridLock_of_warm (s : State) (i : Nat) (l : List (BitVec 16)) (h1 : s.getF LC_STATUS_STATE 0 i = 1)
    (hl : (s.cart i).locked = false) : s.gridLock i l = match s.cartBase i with
      | none => s.gridLocked i
      | some b => if withinDb b l then ((s.gridLocked i).setCart i { (s.gridLocked i).cart i with base := some b }).placeCart i
        else (s.gridLocked i).rejectCart i := by
  rw [gridLock, if_neg (by simp [h1, hl]), ← cartBase_gridLocked]
  rfl

theorem gridLock_other (s : State) (i : Nat) (l : List (BitVec 16))
    (h : s.getF LC_STATUS_STATE 0 i ≠ 1 ∨ (s.cart i).locked = true) : s.gridLock i l = s := by
  rw [gridLock, if_pos h]

theorem gridLockTimeout_of_warm (s : State) (i : Nat) (h1 : s.getF LC_STATUS_STATE 0 i = 1)
    (hl : (s.cart i).locked = false) : s.gridLockTimeout i = s.rejectCart i := by
  rw [gridLockTimeout, if_pos (by simp [h1, hl])]

theorem gridLockTimeout_other (s : State) (i : Nat)
    (h : s.getF LC_STATUS_STATE 0 i ≠ 1 ∨ (s.cart i).locked = true) : s.gridLockTimeout i = s := by
  rw [gridLockTimeout, if_neg (by rintro ⟨h1, hl⟩; obtain h | h := h; exacts [h h1, by simp [h] at hl])]

theorem commissioning_of_locked (s : State) (i : Nat) (l o : List (BitVec 16)) (hl : (s.cart i).locked = true)
    (hc : (s.cart i).commissioned = false) (hr : (s.cart i).rejected = false) : s.cartridgeCommissioning i l o =
      if withinDb (List.replicate 17 1300#16) l then (s.setCart i { s.cart i with base := some l, offsets := o }).placeCart i
      else s.rejectCart i := by
  rw [cartridgeCommissioning, if_neg (by simp [hl, hc, hr])]

theorem commissioning_other (s : State) (i : Nat) (l o : List (BitVec 16)) (h : (s.cart i).locked = false ∨
    (s.cart i).commissioned = true ∨ (s.cart i).rejected = true) : s.cartridgeCommissioning i l o = s := by
  rw [cartridgeCommissioning, if_pos (by simpa using h)]

end State

/-- The place of a cartridge, and one not used, as O54 tells them of the state before. -/
def IsPlaced (s : State) (i : Nat) (t : State) : Prop :=
  (t.cart i).locked = true ∧ (t.cart i).commissioned = true ∧
    t.getF LC_STATUS_STATE 0 i = if (s.lcServes i).isSome then 3 else 2

def IsRejected (s : State) (i : Nat) (t : State) : Prop :=
  (t.cart i).rejected = true ∧ t.getF LC_STATUS_STATE 0 i = 0 ∧ t.elog.seq = (s.elog.seq + 1) % 2 ^ 32

/-- A cartridge with its baseline and offsets set takes its place. -/
theorem placed_of_setCart (s u : State) (i : Nat) (c : CartSt) (hu : u.regs = s.regs) :
    IsPlaced s i (s.latchEdges ((u.setCart i c).placeCart i)) ∧
    ((s.latchEdges ((u.setCart i c).placeCart i)).cart i).base = c.base ∧
    ((s.latchEdges ((u.setCart i c).placeCart i)).cart i).offsets = c.offsets := by
  have h := ((u.setCart i c).placed_placeCart i).latch s
  rw [State.lcServes_of_regs (s := s) (t := u.setCart i c) hu, State.cart_setCart] at h
  exact ⟨⟨by rw [h.cart], by rw [h.cart], h.state⟩, by rw [h.cart], by rw [h.cart]⟩

theorem rejected_of_elog (s u : State) (i : Nat) (hu : u.elog = s.elog) :
    IsRejected s i (s.latchEdges (u.rejectCart i)) := by
  obtain ⟨hcart, hstate, hseq⟩ := u.rejectCart_reads i
  refine ⟨?_, ?_, ?_⟩
  · rw [State.cart_of_light (State.latchEdges_light s _), hcart]
  · rw [State.getF_latch _ _ _ _ _ (by decide), hstate]
  · rw [State.latchEdges_elog, hseq, hu]

/-- A warm cartridge at its grid lock. -/
theorem gridLock_commissions (s : State) (i : Fin 3) (l : List (BitVec 16)) (h1 : s.getF LC_STATUS_STATE 0 i = 1)
    (hl : (s.cart i).locked = false) :
    (s.cartBase i = none → exec (.gridLock i l) s = .next (s.latchEdges (s.setCart i { s.cart i with locked := true }))) ∧
    (∀ b, s.cartBase i = some b → State.withinDb b l = true →
      ∃ t, exec (.gridLock i l) s = .next t ∧ IsPlaced s i t ∧ (t.cart i).base = some b) ∧
    (∀ b, s.cartBase i = some b → State.withinDb b l = false → ∃ t, exec (.gridLock i l) s = .next t ∧ IsRejected s i t) := by
  have hstep := s.gridLock_of_warm i l h1 hl
  refine ⟨fun hb => ?_, fun b hb hw => ⟨_, State.exec_gridLock i l s, ?_⟩, fun b hb hw => ⟨_, State.exec_gridLock i l s, ?_⟩⟩
  · simp only [hb] at hstep
    rw [State.exec_gridLock, hstep]
    rfl
  · simp only [hb, hw, if_true] at hstep
    rw [hstep]
    obtain ⟨hplaced, hbase, -⟩ := placed_of_setCart s (s.gridLocked i) i { (s.gridLocked i).cart i with base := some b } rfl
    exact ⟨hplaced, hbase⟩
  · simp only [hb, hw, Bool.false_eq_true, if_false] at hstep
    rw [hstep]
    exact rejected_of_elog s (s.gridLocked i) i rfl

/-- A locked cartridge at its reading. -/
theorem commissioning_ends (s : State) (i : Fin 3) (l o : List (BitVec 16)) (hl : (s.cart i).locked = true)
    (hc : (s.cart i).commissioned = false) (hr : (s.cart i).rejected = false) :
    (State.withinDb (List.replicate 17 1300#16) l = true → ∃ t, exec (.cartridgeCommissioning i l o) s = .next t ∧
      IsPlaced s i t ∧ (t.cart i).base = some l ∧ (t.cart i).offsets = o) ∧
    (State.withinDb (List.replicate 17 1300#16) l = false → ∃ t, exec (.cartridgeCommissioning i l o) s = .next t ∧
      IsRejected s i t) := by
  have hstep := s.commissioning_of_locked i l o hl hc hr
  refine ⟨fun hw => ⟨_, State.exec_cartridgeCommissioning i l o s, ?_⟩,
    fun hw => ⟨_, State.exec_cartridgeCommissioning i l o s, ?_⟩⟩
  · rw [hstep, if_pos hw]
    exact placed_of_setCart s s i { s.cart i with base := some l, offsets := o } rfl
  · rw [hstep, if_neg (by rw [hw]; exact Bool.false_ne_true)]
    exact rejected_of_elog s s i rfl

end Sys2Proof.Machine
end

section
/-! The start-up of the light layer and its counters (R258, R259). -/

namespace Sys2Proof.Machine.State

theorem exec_llStartPhaseEnd (ok : Bool) (fits : List (BitVec 64)) (lanes : List LanePass) (s : State) :
    exec (.llStartPhaseEnd ok fits lanes) s = .next (s.latchEdges (s.llStartPhaseEnd ok fits lanes)) := rfl

theorem exec_llCntClr (r : Requester) (s : State) :
    exec (.llCntClr r) s = .next (s.latchEdges (s.atReg r (lightReg 0 0) s.llCntClr)) := rfl

/-! ### The phases of the start-up -/

theorem llStartPhaseEnd_idle (s : State) (ok : Bool) (fits : List (BitVec 64)) (lanes : List LanePass)
    (h : s.getF LL_STATUS_START_PHASE 0 0 = 0 ∨ 5 < s.getF LL_STATUS_START_PHASE 0 0 ∨
      s.flag LL_STATUS_STOPPED 0 0 = true) : s.llStartPhaseEnd ok fits lanes = s := by
  unfold llStartPhaseEnd
  exact if_pos h

/-- A phase that fails stops the start-up. -/
theorem llStartPhaseEnd_fails (s : State) (fits : List (BitVec 64)) (lanes : List LanePass)
    (h : ¬(s.getF LL_STATUS_START_PHASE 0 0 = 0 ∨ 5 < s.getF LL_STATUS_START_PHASE 0 0 ∨
      s.flag LL_STATUS_STOPPED 0 0 = true)) : s.llStartPhaseEnd false fits lanes =
      (s.setF LL_STATUS_STOPPED 0 0 1).lightRecord 0x080C sevFailed 0 (s.getF LL_STATUS_START_PHASE 0 0)
        [s.getF LL_STATUS_START_PHASE 0 0] := by
  unfold llStartPhaseEnd
  exact (if_neg h).trans (if_pos rfl)

/-- The next phase shown. -/
def phaseUp (s : State) : State := s.setF LL_STATUS_START_PHASE 0 0 (s.getF LL_STATUS_START_PHASE 0 0 + 1)

/-- The cartridges in their bays commissioned at their baselines, in phase 1. -/
def placeCarts (s : State) : State :=
  [0, 1, 2].foldl (fun s i =>
    if s.flag LC_STATUS_PRESENT 0 i && !(s.cart i).rejected then
      (s.setCart i { s.cart i with base := s.cartBase i }).placeCart i
    else s) s

/-- All rings in one state. -/
def setRings (s : State) (v : Nat) : State :=
  ((List.range 294).foldl (fun s n => s.setF LL_RING_STATE 0 n v) s).showUnlocked

/-- The fits of phase 4 loaded. -/
def loadFits (s : State) (fits : List (BitVec 64)) (l : List Nat) : State :=
  l.foldl (fun s d => (s.putR ⟨.LL_FF, 0, d⟩ (fits.getD d 0)).setF LL_FF_VALID 0 d 1) s

/-- The lanes that passed in phase 5 brought up. -/
def bringLanes (s : State) (lanes : List LanePass) : State :=
  lanes.foldl (fun s x => s.bringLane x.port.val x.lane.val x.settings x.margin) s

section
variable (s : State) (fits : List (BitVec 64)) (lanes : List LanePass) (hstop : s.flag LL_STATUS_STOPPED 0 0 = false)
include hstop

theorem llStartPhaseEnd_one (h : s.getF LL_STATUS_START_PHASE 0 0 = 1) :
    s.llStartPhaseEnd true fits lanes = s.phaseUp.placeCarts.setRings 1 := by
  simp only [llStartPhaseEnd, h, hstop, phaseUp, placeCarts, setRings]
  rfl

theorem llStartPhaseEnd_two (h : s.getF LL_STATUS_START_PHASE 0 0 = 2) :
    s.llStartPhaseEnd true fits lanes = s.phaseUp := by
  simp only [llStartPhaseEnd, h, hstop, phaseUp]
  rfl

theorem llStartPhaseEnd_three (h : s.getF LL_STATUS_START_PHASE 0 0 = 3) :
    s.llStartPhaseEnd true fits lanes = (s.phaseUp.setRings 2).setF LL_STATUS_DR_ACTIVE 0 0 0xFF := by
  simp only [llStartPhaseEnd, h, hstop, phaseUp, setRings]
  rfl

theorem llStartPhaseEnd_four (h : s.getF LL_STATUS_START_PHASE 0 0 = 4) :
    s.llStartPhaseEnd true fits lanes = (s.phaseUp.loadFits fits (List.range 4)).setF LL_STATUS_FF_VALID 0 0 1 := by
  simp only [llStartPhaseEnd, h, hstop, phaseUp, loadFits]
  rfl

theorem llStartPhaseEnd_five (h : s.getF LL_STATUS_START_PHASE 0 0 = 5) :
    s.llStartPhaseEnd true fits lanes = (s.phaseUp.bringLanes lanes).setF LL_STATUS_READY 0 0 1 := by
  simp only [llStartPhaseEnd, h, hstop, phaseUp, bringLanes]
  rfl

end

/-! ### The phase shown -/

theorem phase_phaseUp (s : State) (h : s.getF LL_STATUS_START_PHASE 0 0 ≤ 5) :
    s.phaseUp.getF LL_STATUS_START_PHASE 0 0 = s.getF LL_STATUS_START_PHASE 0 0 + 1 := by
  rw [phaseUp, getF_setF_self _ _ _ _ _ (by decide)]
  exact Nat.mod_eq_of_lt (Nat.lt_of_le_of_lt (Nat.succ_le_succ h) (by decide))

theorem switching_phase (n : Nat) : Switching fun t => t.getF LL_STATUS_START_PHASE 0 0 = n where
  cal _ _ _ h := h
  shown _ f _ _ _ hf h := (getF_setF_apart _ _ _ _ _ _ _ _ (by revert f; decide)).trans h
  unack _ _ _ h := (getF_setF_apart _ _ _ _ _ _ _ _ (by decide)).trans h
  bytes _ _ _ _ h := (getF_setF_apart _ _ _ _ _ _ _ _ (by decide)).trans h
  port _ _ _ _ h := h
  switch _ _ _ h := h
  pending _ _ h := (getF_setF_apart _ _ _ _ _ _ _ _ (by decide)).trans h
  hold _ _ _ h := (getF_setF_apart _ _ _ _ _ _ _ _ (by decide)).trans h

theorem phase_placeCart {s : State} {n : Nat} (i : Nat) (h : s.getF LL_STATUS_START_PHASE 0 0 = n) :
    (s.placeCart i).getF LL_STATUS_START_PHASE 0 0 = n := by
  have hcart : ∀ v, ((s.setCart i { s.cart i with locked := true, commissioned := true }).cartState i v).getF
      LL_STATUS_START_PHASE 0 0 = n := fun v => (getF_cartState_apart _ _ _ _ _ _ (by decide) (by decide)).trans h
  unfold placeCart
  extract_lets c s1 s2
  refine Stable.ifEither (P := fun t => t.getF LL_STATUS_START_PHASE 0 0 = n) (hcart 3) ?_
  split
  · split
    · exact (switching_phase n).startSwitch (hcart 2)
    · exact Stable.ifEither (P := fun t => t.getF LL_STATUS_START_PHASE 0 0 = n) ((switching_phase n).askSwitch (hcart 2)) (hcart 2)
    · exact hcart 2
  · exact hcart 2

theorem phase_placeCarts (s : State) :
    s.placeCarts.getF LL_STATUS_START_PHASE 0 0 = s.getF LL_STATUS_START_PHASE 0 0 :=
  Stable.foldl (P := fun t => t.getF LL_STATUS_START_PHASE 0 0 = s.getF LL_STATUS_START_PHASE 0 0) rfl fun u i hu =>
    Stable.ifEither (P := fun t => t.getF LL_STATUS_START_PHASE 0 0 = s.getF LL_STATUS_START_PHASE 0 0)
      (phase_placeCart (s := u.setCart i { u.cart i with base := u.cartBase i }) i hu) hu

theorem phase_setRings (s : State) (v : Nat) :
    (s.setRings v).getF LL_STATUS_START_PHASE 0 0 = s.getF LL_STATUS_START_PHASE 0 0 := by
  rw [setRings, showUnlocked, getF_setF_apart _ _ _ _ _ _ _ _ (by decide)]
  exact Stable.foldl (P := fun t => t.getF LL_STATUS_START_PHASE 0 0 = s.getF LL_STATUS_START_PHASE 0 0) rfl fun u i hu =>
    (getF_setF_apart _ _ _ _ _ _ _ _ (by decide)).trans hu

theorem ring_setRings (s : State) (v k : Nat) (hv : v < 4) (hk : k < 294) : (s.setRings v).getF LL_RING_STATE 0 k = v := by
  rw [setRings, showUnlocked, getF_setF_apart _ _ _ _ _ _ _ _ (by decide),
    getF_foldl_setF LL_RING_STATE (by decide) 0 k (fun _ => v), if_pos (List.mem_range.2 hk)]
  exact Nat.mod_eq_of_lt hv

theorem phase_bringLane (s : State) (p l : Nat) (x : LaneSet) (m : BitVec 16) :
    (s.bringLane p l x m).getF LL_STATUS_START_PHASE 0 0 = s.getF LL_STATUS_START_PHASE 0 0 := by
  unfold bringLane
  extract_lets c s1 s2 s3
  have h1 : s1.getF LL_STATUS_START_PHASE 0 0 = s.getF LL_STATUS_START_PHASE 0 0 := getF_setF_apart _ _ _ _ _ _ _ _ (by decide)
  have h3 : s3.getF LL_STATUS_START_PHASE 0 0 = s.getF LL_STATUS_START_PHASE 0 0 :=
    (getF_setF_apart _ _ _ _ _ _ _ _ (by decide)).trans h1
  refine Stable.ifEither (P := fun t => t.getF LL_STATUS_START_PHASE 0 0 = s.getF LL_STATUS_START_PHASE 0 0)
    (Stable.ifEither (P := fun t => t.getF LL_STATUS_START_PHASE 0 0 = s.getF LL_STATUS_START_PHASE 0 0) ?_ h3)
    ((getF_record_apart _ _ _ _ _ (by decide)).trans h1)
  exact (getF_setF_apart _ _ _ _ _ _ _ _ (by decide)).trans h3

theorem phase_bringLanes (s : State) (lanes : List LanePass) :
    (s.bringLanes lanes).getF LL_STATUS_START_PHASE 0 0 = s.getF LL_STATUS_START_PHASE 0 0 :=
  Stable.foldl (P := fun t => t.getF LL_STATUS_START_PHASE 0 0 = s.getF LL_STATUS_START_PHASE 0 0) rfl fun _ _ hu =>
    (phase_bringLane _ _ _ _ _).trans hu

theorem phase_loadFits (s : State) (fits : List (BitVec 64)) (l : List Nat) :
    (s.loadFits fits l).getF LL_STATUS_START_PHASE 0 0 = s.getF LL_STATUS_START_PHASE 0 0 :=
  Stable.foldl (P := fun t => t.getF LL_STATUS_START_PHASE 0 0 = s.getF LL_STATUS_START_PHASE 0 0) rfl fun _ _ hu =>
    (getF_setF_apart _ _ _ _ _ _ _ _ (by decide)).trans ((getF_putR_apart _ _ _ _ _ _ _ _ (by decide)).trans hu)

/-- A die's register of the fits, once loaded. -/
theorem getR_loadFits (fits : List (BitVec 64)) (d : Nat) (l : List Nat) : ∀ s : State,
    (s.loadFits fits l).getR ⟨.LL_FF, 0, d⟩ = if d ∈ l then LL_FF_VALID.set (fits.getD d 0) 1 else s.getR ⟨.LL_FF, 0, d⟩ := by
  induction l with
  | nil => exact fun s => rfl
  | cons c l ih =>
    intro s
    have hc : ((s.putR ⟨.LL_FF, 0, c⟩ (fits.getD c 0)).setF LL_FF_VALID 0 c 1).getR ⟨.LL_FF, 0, d⟩ =
        if d = c then LL_FF_VALID.set (fits.getD d 0) 1 else s.getR ⟨.LL_FF, 0, d⟩ := by
      by_cases h : d = c
      · rw [h, if_pos rfl, getR_setF, if_pos (show LL_FF_VALID.key 0 c = ⟨.LL_FF, 0, c⟩ from rfl), getR_putR, if_pos rfl]
      · have hne : (⟨.LL_FF, 0, c⟩ : RegKey) ≠ ⟨.LL_FF, 0, d⟩ := fun he => h (congrArg RegKey.idx he).symm
        rw [if_neg h, getR_setF, if_neg (show LL_FF_VALID.key 0 c ≠ ⟨.LL_FF, 0, d⟩ from hne), getR_putR, if_neg hne]
    rw [loadFits, List.foldl_cons, ← loadFits, ih, hc]
    by_cases hl : d ∈ l
    · rw [if_pos hl, if_pos (List.mem_cons_of_mem _ hl)]
    · rw [if_neg hl]
      by_cases h : d = c
      · rw [if_pos h, if_pos (by simp [h])]
      · rw [if_neg h, if_neg (by simp [h, hl])]

theorem fits_loadFits (s : State) (fits : List (BitVec 64)) (d : Nat) (hd : d < 4) :
    (s.loadFits fits (List.range 4)).flag LL_FF_VALID 0 d = true ∧
    (s.loadFits fits (List.range 4)).getF LL_FF_TAU_US 0 d = LL_FF_TAU_US.get (fits.getD d 0) := by
  have hreg := (getR_loadFits fits d (List.range 4) s).trans (if_pos (List.mem_range.2 hd))
  refine ⟨?_, ?_⟩
  · rw [flag, getF, show LL_FF_VALID.key 0 d = ⟨.LL_FF, 0, d⟩ from rfl, hreg, Field.get_set _ _ _ (by decide)]
    decide
  · rw [getF, show LL_FF_TAU_US.key 0 d = ⟨.LL_FF, 0, d⟩ from rfl, hreg, Field.get_set_of_disjoint _ _ _ _ (by decide)]

/-! ### CNT_CLR (R259) -/

theorem onlyRegs_llCntClr (s : State) :
    OnlyRegs (fun k => k.name = .LL_RING ∧ k.inst = 0 ∧ k.idx < 294) s s.llCntClr :=
  onlyRegs_foldl_mem _ _ (fun _ n hn h => h.setF _ _ _ _ ⟨rfl, rfl, List.mem_range.1 hn⟩ (by decide)) (.refl _ s)

theorem llCntClr_reads (s : State) (k : Nat) (hk : k < 294) : s.llCntClr.getF LL_RING_RELOCKS 0 k = 0 ∧
    s.llCntClr.getF LL_RING_STATE 0 k = s.getF LL_RING_STATE 0 k := by
  refine ⟨(getF_foldl_clear LL_RING_RELOCKS (by decide) 0 k (List.range 294) s).trans (if_pos (List.mem_range.2 hk)), ?_⟩
  exact Stable.foldl (P := fun t => t.getF LL_RING_STATE 0 k = s.getF LL_RING_STATE 0 k) rfl fun _ _ hu =>
    (getF_setF_apart _ _ _ _ _ _ _ _ (by decide)).trans hu

end Sys2Proof.Machine.State

namespace Sys2Proof.Machine

/-- The end of a phase of the start-up, in each phase. -/
theorem startPhase_ends (s : State) (fits : List (BitVec 64)) (lanes : List LanePass)
    (h1 : 1 ≤ s.getF LL_STATUS_START_PHASE 0 0) (h5 : s.getF LL_STATUS_START_PHASE 0 0 ≤ 5)
    (hstop : s.flag LL_STATUS_STOPPED 0 0 = false) :
    (s.llStartPhaseEnd true fits lanes).getF LL_STATUS_START_PHASE 0 0 = s.getF LL_STATUS_START_PHASE 0 0 + 1 ∧
    (s.getF LL_STATUS_START_PHASE 0 0 = 1 → ∀ k < 294, (s.llStartPhaseEnd true fits lanes).getF LL_RING_STATE 0 k = 1) ∧
    (s.getF LL_STATUS_START_PHASE 0 0 = 3 → (s.llStartPhaseEnd true fits lanes).getF LL_STATUS_DR_ACTIVE 0 0 = 0xFF ∧
      ∀ k < 294, (s.llStartPhaseEnd true fits lanes).getF LL_RING_STATE 0 k = 2) ∧
    (s.getF LL_STATUS_START_PHASE 0 0 = 4 → (s.llStartPhaseEnd true fits lanes).flag LL_STATUS_FF_VALID 0 0 = true ∧
      ∀ d < 4, (s.llStartPhaseEnd true fits lanes).flag LL_FF_VALID 0 d = true ∧
        (s.llStartPhaseEnd true fits lanes).getF LL_FF_TAU_US 0 d = LL_FF_TAU_US.get (fits.getD d 0)) ∧
    (s.getF LL_STATUS_START_PHASE 0 0 = 5 → (s.llStartPhaseEnd true fits lanes).flag LL_STATUS_READY 0 0 = true) := by
  have hup := s.phase_phaseUp h5
  refine ⟨?_, fun h => ?_, fun h => ?_, fun h => ?_, fun h => ?_⟩
  · obtain h | h | h | h | h : s.getF LL_STATUS_START_PHASE 0 0 = 1 ∨ s.getF LL_STATUS_START_PHASE 0 0 = 2 ∨
        s.getF LL_STATUS_START_PHASE 0 0 = 3 ∨ s.getF LL_STATUS_START_PHASE 0 0 = 4 ∨
        s.getF LL_STATUS_START_PHASE 0 0 = 5 := by omega
    · rw [s.llStartPhaseEnd_one fits lanes hstop h, State.phase_setRings, State.phase_placeCarts, hup]
    · rw [s.llStartPhaseEnd_two fits lanes hstop h, hup]
    · rw [s.llStartPhaseEnd_three fits lanes hstop h, State.getF_setF_apart _ _ _ _ _ _ _ _ (by decide),
        State.phase_setRings, hup]
    · rw [s.llStartPhaseEnd_four fits lanes hstop h, State.getF_setF_apart _ _ _ _ _ _ _ _ (by decide),
        State.phase_loadFits, hup]
    · rw [s.llStartPhaseEnd_five fits lanes hstop h, State.getF_setF_apart _ _ _ _ _ _ _ _ (by decide),
        State.phase_bringLanes, hup]
  · rw [s.llStartPhaseEnd_one fits lanes hstop h]
    exact fun k hk => State.ring_setRings _ 1 k (by decide) hk
  · rw [s.llStartPhaseEnd_three fits lanes hstop h]
    refine ⟨State.getF_setF_self _ _ _ _ _ (by decide), fun k hk => ?_⟩
    rw [State.getF_setF_apart _ _ _ _ _ _ _ _ (by decide), State.ring_setRings _ 2 k (by decide) hk]
  · rw [s.llStartPhaseEnd_four fits lanes hstop h]
    refine ⟨State.flag_setF_one _ _ _ _ (by decide), fun d hd => ?_⟩
    rw [State.flag_setF_apart _ _ _ _ _ _ _ _ (by decide), State.getF_setF_apart _ _ _ _ _ _ _ _ (by decide)]
    exact s.phaseUp.fits_loadFits fits d hd
  · rw [s.llStartPhaseEnd_five fits lanes hstop h]
    exact State.flag_setF_one _ _ _ _ (by decide)

end Sys2Proof.Machine
end

section
/-! The readings of a port, and the losses found in them (R239, R250 to R252, R267). -/

namespace Sys2Proof.Machine.State

theorem exec_lossOfSignal (p : Fin 6) (s : State) :
    exec (.lossOfSignal p) s = .next (s.latchEdges (s.lossOfSignal p)) := rfl

theorem exec_farReadings (p : Fin 6) (r : List (BitVec 16)) (s : State) :
    exec (.farReadings p r) s = .next (s.latchEdges (s.farReadings p r)) := rfl

theorem exec_lossLocation (x : LossReadings) (s : State) :
    exec (.lossLocation x) s = .next (s.latchEdges (s.lossLocation x)) := rfl

theorem lossOfSignal_of_down (s : State) (p : Nat) (h : s.linkState p < 2) :
    s.lossOfSignal p = s.setF PORT_STATUS_LOS p 0 1 := by
  have hstate : (s.setF PORT_STATUS_LOS p 0 1).linkState p = s.linkState p := getF_setF_apart _ _ _ _ _ _ _ _ (by decide)
  rw [lossOfSignal, linkLost, hstate, if_neg (by simp; omega)]

theorem light_setLight (s : State) (l : LightSt) : (s.setLight l).light = l := rfl

/-! ### The far readings (R250, R251) -/

/-- The far readings of a port shown. -/
def farShown (s : State) (p : Nat) (r : List (BitVec 16)) : State :=
  (List.range 17).foldl (fun s l => s.setF PORT_MON_R_FAR_DBM p l (r.getD l 0).toNat) s

/-- The baselines with the readings of a port, where they are the first with its neighbour. -/
def farLight (s : State) (p : Nat) (r : List (BitVec 16)) : LightSt :=
  let id := s.getF PORT_IL_NEIGH_ID p 0
  let far := s.getF PORT_IL_STATUS_NPORT p 0
  if id = 0 ∨ s.light.farBase.any (fun b => decide (b.1 = p ∧ b.2.1 = id ∧ b.2.2.1 = far)) then s.light
  else { s.light with farBase := s.light.farBase ++ [(p, id, far, r)] }

theorem onlyRegs_farShown (s : State) (p : Nat) (r : List (BitVec 16)) :
    OnlyRegs (fun k => k.name = .PORT_MON ∧ k.inst = p ∧ k.idx < 17) s (s.farShown p r) :=
  onlyRegs_foldl_mem _ _ (fun _ l hl h => h.setF _ _ _ _ ⟨rfl, rfl, List.mem_range.1 hl⟩ (by decide)) (.refl _ s)

theorem getF_farShown_apart (s : State) (p : Nat) (r : List (BitVec 16)) (f : Field) (i j : Nat)
    (h : PORT_MON_R_FAR_DBM.reg ≠ f.reg ∨ f.hi < PORT_MON_R_FAR_DBM.lo ∨ PORT_MON_R_FAR_DBM.hi < f.lo) :
    (s.farShown p r).getF f i j = s.getF f i j :=
  Stable.foldl (P := fun t => t.getF f i j = s.getF f i j) rfl fun _ _ hu => (getF_setF_apart _ _ _ _ _ _ _ _ h).trans hu

theorem getF_farShown (s : State) (p l : Nat) (r : List (BitVec 16)) (hl : l < 17) :
    (s.farShown p r).getF PORT_MON_R_FAR_DBM p l = (r.getD l 0).toNat := by
  rw [farShown, getF_foldl_setF PORT_MON_R_FAR_DBM (by decide) p l (fun l => (r.getD l 0).toNat), if_pos (List.mem_range.2 hl)]
  exact Nat.mod_eq_of_lt (r.getD l 0).isLt

/-- The baselines noted once the readings are shown. -/
def noteFar (s : State) (p : Nat) (r : List (BitVec 16)) : State :=
  let id := s.getF PORT_IL_NEIGH_ID p 0
  let far := s.getF PORT_IL_STATUS_NPORT p 0
  if id = 0 ∨ s.light.farBase.any (fun b => decide (b.1 = p ∧ b.2.1 = id ∧ b.2.2.1 = far)) then s
  else s.setLight { s.light with farBase := s.light.farBase ++ [(p, id, far, r)] }

theorem noteFar_eq (s : State) (p : Nat) (r : List (BitVec 16)) : s.noteFar p r = s.setLight (s.farLight p r) := by
  unfold noteFar farLight
  dsimp only
  split
  · rfl
  · rfl

theorem farLight_farShown (s : State) (p : Nat) (r : List (BitVec 16)) :
    (s.farShown p r).farLight p r = s.farLight p r := by
  have hlight : (s.farShown p r).light = s.light := by rw [(s.onlyRegs_farShown p r).1]
  have hid := s.getF_farShown_apart p r PORT_IL_NEIGH_ID p 0 (by decide)
  have hfar := s.getF_farShown_apart p r PORT_IL_STATUS_NPORT p 0 (by decide)
  rw [farLight, hlight, hid, hfar, farLight]

theorem farReadings_eq (s : State) (p : Nat) (r : List (BitVec 16)) :
    s.farReadings p r = (s.farShown p r).setLight (s.farLight p r) := by
  show (s.farShown p r).noteFar p r = _
  rw [noteFar_eq, farLight_farShown]

theorem farLight_of_first (s : State) (p : Nat) (r : List (BitVec 16)) (hid : s.getF PORT_IL_NEIGH_ID p 0 ≠ 0)
    (hnew : ∀ b ∈ s.light.farBase, ¬(b.1 = p ∧ b.2.1 = s.getF PORT_IL_NEIGH_ID p 0 ∧
      b.2.2.1 = s.getF PORT_IL_STATUS_NPORT p 0)) : (s.farLight p r).farBase = s.light.farBase ++
        [(p, s.getF PORT_IL_NEIGH_ID p 0, s.getF PORT_IL_STATUS_NPORT p 0, r)] := by
  unfold farLight
  dsimp only
  rw [if_neg]
  rintro (h | h)
  · exact hid h
  · obtain ⟨b, hb, hsame⟩ := List.any_eq_true.1 h
    exact hnew b hb (of_decide_eq_true hsame)

theorem farLight_of_none (s : State) (p : Nat) (r : List (BitVec 16)) (hid : s.getF PORT_IL_NEIGH_ID p 0 = 0) :
    s.farLight p r = s.light := if_pos (.inl hid)

/-! ### The stage readings (R250) -/

/-- The readings of one line of a port shown. -/
def showLine (x : LossReadings) (p : Nat) (s : State) (l : Nat) : State :=
  ((s.setF PORT_MON_S_DBM p l ((x.s.getD p []).getD l 0).toNat).setF PORT_MON_M_DBM p l
    ((x.m.getD p []).getD l 0).toNat).setF PORT_MON_R_DBM p l ((x.r.getD p []).getD l 0).toNat

/-- The readings of one port shown. -/
def showPort (x : LossReadings) (s : State) (p : Nat) : State :=
  (List.range 17).foldl (showLine x p) (s.setF PORT_MON_F_F_DBM p 0 (x.f.getD p 0).toNat)

theorem showReadings_eq (s : State) (x : LossReadings) : s.showReadings x = (List.range 6).foldl (showPort x) s := rfl

/-- A reading as it is shown, by its field. -/
def lineReading (x : LossReadings) (f : Field) (p l : Nat) : Nat :=
  if f = PORT_MON_S_DBM then ((x.s.getD p []).getD l 0).toNat
  else if f = PORT_MON_M_DBM then ((x.m.getD p []).getD l 0).toNat
  else ((x.r.getD p []).getD l 0).toNat

theorem getF_showLine (x : LossReadings) (p k : Nat) (s : State) (l : Nat) (f : Field)
    (hf : f ∈ [PORT_MON_S_DBM, PORT_MON_M_DBM, PORT_MON_R_DBM]) :
    (showLine x p s l).getF f p k = if l = k then lineReading x f p k else s.getF f p k := by
  have hword : ∀ (w : BitVec 16) (b : Nat), w.toNat % 2 ^ 16 = w.toNat := fun w _ => Nat.mod_eq_of_lt w.isLt
  have hline : ∀ v : Nat → BitVec 16, (if l = k then (v l).toNat % 2 ^ 16 else s.getF f p k) =
      if l = k then (v k).toNat else s.getF f p k := fun v => by
    split
    · next h => rw [h]; exact Nat.mod_eq_of_lt (v k).isLt
    · rfl
  simp only [List.mem_cons, List.not_mem_nil, or_false] at hf
  unfold showLine
  obtain rfl | rfl | rfl := hf
  · rw [getF_setF_apart _ _ _ _ _ _ _ _ (by decide), getF_setF_apart _ _ _ _ _ _ _ _ (by decide), getF_setF_idx _ _ (by decide)]
    exact hline fun l => (x.s.getD p []).getD l 0
  · rw [getF_setF_apart _ _ _ _ _ _ _ _ (by decide), getF_setF_idx _ _ (by decide),
      getF_setF_apart _ _ _ _ _ _ _ _ (by decide)]
    exact hline fun l => (x.m.getD p []).getD l 0
  · rw [getF_setF_idx _ _ (by decide), getF_setF_apart _ _ _ _ _ _ _ _ (by decide), getF_setF_apart _ _ _ _ _ _ _ _ (by decide)]
    exact hline fun l => (x.r.getD p []).getD l 0

theorem getF_showPort_other (x : LossReadings) (s : State) (p q : Nat) (hp : p ≠ q) (f : Field) (j : Nat) :
    (showPort x s p).getF f q j = s.getF f q j := by
  have hset : ∀ (u : State) (g : Field) i v, (u.setF g p i v).getF f q j = u.getF f q j := fun u g i v =>
    getF_setF_of_key _ _ _ _ _ _ _ _ fun he => hp (congrArg RegKey.inst he)
  exact Stable.foldl (P := fun t => t.getF f q j = s.getF f q j) (hset _ _ _ _) fun u l hu => by
    rw [showLine, hset, hset, hset, hu]

theorem getF_showReadings_line (s : State) (x : LossReadings) (f : Field) (q l : Nat) (hq : q < 6) (hl : l < 17)
    (hf : f ∈ [PORT_MON_S_DBM, PORT_MON_M_DBM, PORT_MON_R_DBM]) : (s.showReadings x).getF f q l = lineReading x f q l := by
  rw [showReadings_eq, getF_foldl_of_step (k := q) (w := lineReading x f q l) (fun u p => ?_), if_pos (List.mem_range.2 hq)]
  by_cases hp : p = q
  · rw [if_pos hp, hp, showPort, getF_foldl_of_step (k := l) (w := lineReading x f q l) (fun u c => getF_showLine x q l u c f hf),
      if_pos (List.mem_range.2 hl)]
  · rw [if_neg hp, getF_showPort_other x u p q hp]

theorem getF_showReadings_fibre (s : State) (x : LossReadings) (q : Nat) (hq : q < 6) :
    (s.showReadings x).getF PORT_MON_F_F_DBM q 0 = (x.f.getD q 0).toNat := by
  rw [showReadings_eq, getF_foldl_of_step (k := q) (w := (x.f.getD q 0).toNat) (fun u p => ?_), if_pos (List.mem_range.2 hq)]
  by_cases hp : p = q
  · have hset : (u.setF PORT_MON_F_F_DBM q 0 (x.f.getD q 0).toNat).getF PORT_MON_F_F_DBM q 0 = (x.f.getD q 0).toNat :=
      (getF_setF_self _ _ _ _ _ (by decide)).trans (Nat.mod_eq_of_lt (x.f.getD q 0).isLt)
    rw [if_pos hp, hp]
    exact Stable.foldl (P := fun t => t.getF PORT_MON_F_F_DBM q 0 = (x.f.getD q 0).toNat) hset fun v l hv => by
      rw [showLine, getF_setF_apart _ _ _ _ _ _ _ _ (by decide), getF_setF_apart _ _ _ _ _ _ _ _ (by decide),
        getF_setF_apart _ _ _ _ _ _ _ _ (by decide), hv]
  · rw [if_neg hp, getF_showPort_other x u p q hp]

theorem onlyRegs_showReadings (s : State) (x : LossReadings) :
    OnlyRegs (fun k => k.name ∈ [.PORT_MON, .PORT_MON_F]) s (s.showReadings x) :=
  have hset : ∀ (u : State) (f : Field) i j v, f.reg ∈ [RegName.PORT_MON, .PORT_MON_F] →
      OnlyRegs (fun k => k.name ∈ [.PORT_MON, .PORT_MON_F]) s u →
      OnlyRegs (fun k => k.name ∈ [.PORT_MON, .PORT_MON_F]) s (u.setF f i j v) := fun u f i j v hf h =>
    h.setF _ _ _ _ hf (fun he => absurd (he ▸ hf) (by decide))
  OnlyRegs.foldl _ _ (fun u p hu => OnlyRegs.foldl (f := showLine x p) _ (fun v l hv =>
    hset _ _ _ _ _ (by decide) (hset _ _ _ _ _ (by decide) (hset _ _ _ _ _ (by decide) hv)))
    (hset _ _ _ _ _ (by decide) hu)) (.refl _ s)

/-- Samples offered to the monitors change those alone. -/
theorem offerMargins_eq (s : State) : ∃ m, s.offerMargins = { s with mons := m } :=
  Stable.foldl (P := fun t => ∃ m, t = { s with mons := m }) ⟨s.mons, rfl⟩ fun u i hu => by
    obtain ⟨m, rfl⟩ := hu
    exact ⟨_, rfl⟩

theorem getF_offerMargins (s : State) (f : Field) (i j : Nat) : s.offerMargins.getF f i j = s.getF f i j := by
  obtain ⟨m, hm⟩ := s.offerMargins_eq
  rw [hm]
  rfl

/-- The second's readings shown and offered. -/
def readingsTaken (s : State) (x : LossReadings) : State := (s.showReadings x).offerMargins

theorem getF_readingsTaken (s : State) (x : LossReadings) (f : Field) (i j : Nat)
    (hf : f.reg ∉ [.PORT_MON, .PORT_MON_F, .HIC_PEND]) : (s.readingsTaken x).getF f i j = s.getF f i j := by
  simp only [List.mem_cons, List.not_mem_nil, or_false, not_or] at hf
  rw [readingsTaken, getF_offerMargins, getF, (s.onlyRegs_showReadings x).2.1 _ (by simp [Field.key, hf]) hf.2.2, ← getF]

theorem readingsTaken_rest (s : State) (x : LossReadings) :
    (s.readingsTaken x).light = s.light ∧ (s.readingsTaken x).elog = s.elog := by
  obtain ⟨m, hm⟩ := (s.showReadings x).offerMargins_eq
  rw [readingsTaken, hm, (s.onlyRegs_showReadings x).1]
  exact ⟨rfl, rfl⟩

/-! ### Losses (R252) -/

theorem lossLocation_off (s : State) (x : LossReadings) (h : s.flag LL_CTRL_LOC_EN 0 0 = false) :
    s.lossLocation x = s.readingsTaken x := by
  have hoff : (s.readingsTaken x).flag LL_CTRL_LOC_EN 0 0 = false := by
    rw [flag, getF_readingsTaken _ _ _ _ _ (by decide)]
    exact h
  unfold lossLocation
  exact if_pos (by rw [show (s.showReadings x).offerMargins = s.readingsTaken x from rfl, hoff]; rfl)

/-- What has been reported, after one loss. -/
def reportedOne (u : State) (e : Nat × Nat × Nat × Nat × Int) : State :=
  u.setLight { u.light with reported := Tab.putN 0 [] e.1 e.2.2.2.2.toNat }

theorem reported_reportedOne (u : State) (e : Nat × Nat × Nat × Nat × Int) :
    Tab.getN 0 (u.reportedOne e).light.reported e.1 = e.2.2.2.2.toNat := (Tab.getN_putN ..).trans (if_pos rfl)

theorem elog_reportedOne (u : State) (e : Nat × Nat × Nat × Nat × Int) : (u.reportedOne e).elog = u.elog := rfl

theorem flag_reportedOne (u : State) (e : Nat × Nat × Nat × Nat × Int) (f : Field) (i j : Nat) :
    (u.reportedOne e).flag f i j = u.flag f i j := rfl

theorem lossLocation_one (s : State) (x : LossReadings) (e : Nat × Nat × Nat × Nat × Int)
    (hon : s.flag LL_CTRL_LOC_EN 0 0 = true) (hl : (s.readingsTaken x).findLosses x = [e])
    (hnew : Tab.getN 0 s.light.reported e.1 = 0) :
    s.lossLocation x = ((s.readingsTaken x).reportedOne e).reportLoss e := by
  have hon' : (s.readingsTaken x).flag LL_CTRL_LOC_EN 0 0 = true := by
    rw [flag, getF_readingsTaken _ _ _ _ _ (by decide)]
    exact hon
  have hnew' : Tab.getN 0 (s.readingsTaken x).light.reported e.1 = 0 := by rw [(s.readingsTaken_rest x).1, hnew]
  unfold lossLocation
  extract_lets u step was due l now v
  have hu : u = s.readingsTaken x := rfl
  have hdue : due e = true := by
    show decide _ = true
    exact decide_eq_true (.inl hnew')
  have hle : l = [e] := hl
  rw [if_neg (by rw [hu, hon']; decide), hle, List.filter_cons_of_pos hdue]
  have hnow : now = Tab.putN 0 [] e.1 e.2.2.2.2.toNat := by
    show l.foldl _ _ = _
    rw [hle]
    exact congrArg (Tab.putN 0 [] e.1) (if_pos hdue)
  show reportLoss (u.setLight { u.light with reported := now }) e = _
  rw [hnow]
  rfl

theorem reportLoss_reads (u : State) (e : Nat × Nat × Nat × Nat × Int) : (u.reportLoss e).light = u.light ∧
    (u.reportLoss e).elog.seq = (u.elog.seq + 1) % 2 ^ 32 ∧ (u.reportLoss e).flag LL_LOSS_VALID 0 0 = true ∧
    (u.flag LL_LOSS_VALID 0 0 = false → (u.reportLoss e).getF LL_LOSS_STAGE 0 0 = e.2.1 % 8 ∧
      (u.reportLoss e).getF LL_LOSS_PORT 0 0 = e.2.2.1 % 8 ∧ (u.reportLoss e).getF LL_LOSS_LINE 0 0 = e.2.2.2.1 % 32 ∧
      (u.reportLoss e).getF LL_LOSS_EXCESS 0 0 = min e.2.2.2.2.toNat 65535) := by
  unfold reportLoss
  extract_lets y v
  have hvalid : v.flag LL_LOSS_VALID 0 0 = u.flag LL_LOSS_VALID 0 0 := flag_record_apart _ _ _ _ _ (by decide)
  have hlight : v.light = u.light := record_light _ _
  have hseq : v.elog.seq = (u.elog.seq + 1) % 2 ^ 32 := seq_record _ _
  clear_value v
  rw [hvalid]
  cases hold : u.flag LL_LOSS_VALID 0 0 with
  | true => exact ⟨hlight, hseq, hvalid.trans hold, fun h => absurd h (by decide)⟩
  | false =>
    rw [if_neg (by decide)]
    refine ⟨hlight, hseq, ?_, fun _ => ⟨?_, ?_, ?_, ?_⟩⟩
    · simp (disch := decide) only [flag_setF_apart, flag_setF_one]
    · simp (disch := decide) only [getF_setF_apart, getF_setF_self]
      rfl
    · simp (disch := decide) only [getF_setF_apart, getF_setF_self]
      rfl
    · simp (disch := decide) only [getF_setF_apart, getF_setF_self]
      rfl
    · rw [getF_setF_self _ _ _ _ _ (by decide)]
      exact Nat.mod_eq_of_lt (Nat.lt_of_le_of_lt (Nat.min_le_right _ _) (by decide))

end Sys2Proof.Machine.State
end

section
/-! The light layer's start and its losses, settled (O54). -/

namespace Sys2Proof.Machine

/-- An inserted cartridge warms up. -/
theorem insert_warms (s : State) (i : Fin 3) (serial : BitVec 32) : ∃ t, exec (.cartridgeInsert i serial) s = .next t ∧
    t.flag LC_STATUS_PRESENT 0 i = true ∧ t.flag LC_STATUS_LATCH 0 i = true ∧ t.getF LC_STATUS_SERIAL 0 i = serial.toNat ∧
    t.getF LC_STATUS_STATE 0 i = 1 ∧ (s.getF LC_STATUS_SERIAL 0 i = serial.toNat → (t.cart i).base = (s.cart i).base) ∧
    (s.getF LC_STATUS_SERIAL 0 i ≠ serial.toNat → (t.cart i).base = none) ∧ (t.cart i).locked = false := by
  obtain ⟨hpresent, hlatch, hserial, hstate⟩ := s.cartridgeInsert_shows i serial
  have hcart : ∀ j, (s.latchEdges (s.cartridgeInsert i serial)).cart j = (s.cartridgeInsert i serial).cart j :=
    State.cart_of_light (State.latchEdges_light s _)
  refine ⟨_, State.exec_cartridgeInsert i serial s, ?_, ?_, ?_, ?_, fun h => ?_, fun h => ?_, ?_⟩
  · rw [State.flag_latch _ _ _ _ _ (by decide), hpresent]
  · rw [State.flag_latch _ _ _ _ _ (by decide), hlatch]
  · rw [State.getF_latch _ _ _ _ _ (by decide), hserial]
  · rw [State.getF_latch _ _ _ _ _ (by decide), hstate]
  · rw [hcart, s.cart_cartridgeInsert i serial]
    exact if_pos h
  · rw [hcart, s.cart_cartridgeInsert i serial]
    exact if_neg h
  · rw [hcart, s.cart_cartridgeInsert i serial]

theorem rest_latch_light {s u : State} (l : LightSt) (h : u = { s with regs := u.regs }) :
    s.latchEdges (u.setLight l) = { s with
      regs := (s.latchEdges (u.setLight l)).regs, light := (s.latchEdges (u.setLight l)).light } := by
  rw [State.latchEdges_eq, h]
  rfl

theorem kept_latch_light {s u : State} {W : RegKey → Prop} (l : LightSt) (h : Kept W s u) :
    Kept W s (s.latchEdges (u.setLight l)) :=
  have hset : Kept W s (u.setLight l) := h
  hset.latch s

theorem getF_latch_light (s u : State) (l : LightSt) (f : Field) (i j : Nat) (hf : f.reg ≠ .HIC_PEND) :
    (s.latchEdges (u.setLight l)).getF f i j = u.getF f i j := State.getF_latch _ _ _ _ _ hf

theorem exec_farReadings_eq (s : State) (p : Fin 6) (r : List (BitVec 16)) : exec (.farReadings p r) s =
    .next (s.latchEdges ((s.farShown p r).setLight (s.farLight p r))) := by
  rw [State.exec_farReadings, State.farReadings_eq]

/-- A loss found and not yet reported. -/
theorem loss_reported (s : State) (x : LossReadings) (e : Nat × Nat × Nat × Nat × Int)
    (hon : s.flag LL_CTRL_LOC_EN 0 0 = true) (hl : (s.readingsTaken x).findLosses x = [e])
    (hnew : Tab.getN 0 s.light.reported e.1 = 0) :
    ∃ t, exec (.lossLocation x) s = .next t ∧ Tab.getN 0 t.light.reported e.1 = e.2.2.2.2.toNat ∧
      t.elog.seq = (s.elog.seq + 1) % 2 ^ 32 ∧ t.flag LL_LOSS_VALID 0 0 = true ∧
      (s.flag LL_LOSS_VALID 0 0 = false → t.getF LL_LOSS_STAGE 0 0 = e.2.1 % 8 ∧ t.getF LL_LOSS_PORT 0 0 = e.2.2.1 % 8 ∧
        t.getF LL_LOSS_LINE 0 0 = e.2.2.2.1 % 32 ∧ t.getF LL_LOSS_EXCESS 0 0 = min e.2.2.2.2.toNat 65535) := by
  obtain ⟨-, helog⟩ := s.readingsTaken_rest x
  have hvalid : ((s.readingsTaken x).reportedOne e).flag LL_LOSS_VALID 0 0 = s.flag LL_LOSS_VALID 0 0 := by
    rw [State.flag_reportedOne, State.flag, State.getF_readingsTaken _ _ _ _ _ (by decide), State.flag]
  obtain ⟨hlight, hseq, hset, hfields⟩ := ((s.readingsTaken x).reportedOne e).reportLoss_reads e
  refine ⟨_, (State.exec_lossLocation x s).trans (by rw [s.lossLocation_one x e hon hl hnew]), ?_, ?_, ?_, fun h => ?_⟩
  · rw [State.latchEdges_light, hlight, State.reported_reportedOne]
  · rw [State.latchEdges_elog, hseq, State.elog_reportedOne, helog]
  · rw [State.flag_latch _ _ _ _ _ (by decide), hset]
  · rw [State.getF_latch _ _ _ _ _ (by decide), State.getF_latch _ _ _ _ _ (by decide),
      State.getF_latch _ _ _ _ _ (by decide), State.getF_latch _ _ _ _ _ (by decide)]
    exact hfields (hvalid.trans h)

/-- Settles O54: cartridges and the start-up, the counters, and the readings with their losses. -/
theorem lightStartsAndLossIsLocated : Obligations.LightStartsAndLossIsLocated := by
  refine ⟨fun s placed rejected hplaced hrejected => ⟨?_, ?_, ?_⟩, fun s p => ⟨?_, fun h => ?_, ?_, ?_⟩⟩
  · have hP : ∀ (i : Fin 3) t, IsPlaced s i t → placed i t := fun i t h => (hplaced i t).2 h
    have hR : ∀ (i : Fin 3) t, IsRejected s i t → rejected i t := fun i t h => (hrejected i t).2 h
    rintro i c rfl
    refine ⟨insert_warms s i, fun l o => ⟨fun h1 hl => ?_, fun h => ⟨?_, ?_⟩, fun hl hc hr => ?_, fun h => ?_⟩⟩
    · obtain ⟨hnone, hwithin, houtside⟩ := gridLock_commissions s i l h1 hl
      refine ⟨hnone, fun b hb hw => ?_, fun b hb hw => ?_, _, State.exec_gridLockTimeout i s, hR i _ ?_⟩
      · obtain ⟨t, ht, hplace, hbase⟩ := hwithin b hb hw
        exact ⟨t, ht, hP i t hplace, hbase⟩
      · obtain ⟨t, ht, hreject⟩ := houtside b hb hw
        exact ⟨t, ht, hR i t hreject⟩
      · rw [s.gridLockTimeout_of_warm i h1 hl]
        exact rejected_of_elog s s i rfl
    · rw [State.exec_gridLock, s.gridLock_other i l h, latchEdges_self]
    · rw [State.exec_gridLockTimeout, s.gridLockTimeout_other i h, latchEdges_self]
    · obtain ⟨hwithin, houtside⟩ := commissioning_ends s i l o hl hc hr
      refine ⟨fun hw => ?_, fun hw => ?_⟩
      · obtain ⟨t, ht, hplace, hreadings⟩ := hwithin hw
        exact ⟨t, ht, hP i t hplace, hreadings⟩
      · obtain ⟨t, ht, hreject⟩ := houtside hw
        exact ⟨t, ht, hR i t hreject⟩
    · rw [State.exec_cartridgeCommissioning, s.commissioning_other i l o h, latchEdges_self]
  · rintro n fits lanes rfl
    refine ⟨fun h ok => ?_, fun h1 h5 hstop => ⟨?_, _, State.exec_llStartPhaseEnd true fits lanes s, ?_⟩⟩
    · rw [State.exec_llStartPhaseEnd, s.llStartPhaseEnd_idle ok fits lanes h, latchEdges_self]
    · rw [State.exec_llStartPhaseEnd, s.llStartPhaseEnd_fails fits lanes (by rw [hstop]; simp; omega)]
    · simp (disch := decide) only [State.getF_latch, State.flag_latch]
      exact startPhase_ends s fits lanes h1 h5 hstop
  · intro r h5
    refine ⟨_, State.exec_llCntClr r s, ?_⟩
    rw [lightReg, State.atReg_dieReg _ _ _ _ _ (by decide), h5, if_neg (by simp)]
    refine ⟨s.onlyRegs_llCntClr.latch s, fun k hk => ?_⟩
    rw [State.getF_latch _ _ _ _ _ (by decide), State.getF_latch _ _ _ _ _ (by decide)]
    exact s.llCntClr_reads k hk
  · exact State.exec_lossOfSignal p s
  · rw [State.exec_lossOfSignal, s.lossOfSignal_of_down p h]
  · rintro r id far rfl rfl
    obtain ⟨hrest, hkept⟩ := s.onlyRegs_farShown p r
    refine ⟨_, exec_farReadings_eq s p r, rest_latch_light _ hrest, kept_latch_light _ hkept, fun l hl => ⟨?_, ?_⟩,
      fun hid hnew => ?_, fun hid => ?_⟩
    · rw [getF_latch_light _ _ _ _ _ _ (by decide), s.getF_farShown p l r hl]
    · rw [getF_latch_light _ _ _ _ _ _ (by decide), s.getF_farShown_apart p r _ _ _ (by decide)]
    · rw [State.latchEdges_light, State.light_setLight, s.farLight_of_first p r hid hnew]
    · rw [State.latchEdges_light, State.light_setLight, s.farLight_of_none p r hid]
  · rintro x u rfl
    have hget : ∀ (f : Field) q l, ((s.showReadings x).offerMargins).getF f q l = (s.showReadings x).getF f q l :=
      fun f q l => State.getF_offerMargins _ f q l
    refine ⟨fun q hq => ⟨?_, fun l hl => ⟨?_, ?_, ?_⟩⟩, fun hoff => ?_, fun e hon hl hnew => loss_reported s x e hon hl hnew⟩
    · rw [hget, s.getF_showReadings_fibre x q hq]
    · rw [hget, s.getF_showReadings_line x PORT_MON_S_DBM q l hq hl (by simp)]
      rfl
    · rw [hget, s.getF_showReadings_line x PORT_MON_M_DBM q l hq hl (by simp)]
      rfl
    · rw [hget, s.getF_showReadings_line x PORT_MON_R_DBM q l hq hl (by simp)]
      rfl
    · rw [State.exec_lossLocation, s.lossLocation_off x hoff]
      rfl

end Sys2Proof.Machine
end
